-- ==== Sys2Proof/Word.lean ====
section
/-! DEFINITION. The machine's words and their plainest arithmetic. -/

namespace Sys2Proof

/-- A byte of memory (00_scope.md R6). -/
abbrev Byte := BitVec 8

/-- A 64-bit register value: a steering register, a convoy scalar or a CSR. -/
abbrev Word := BitVec 64

/-- One 32-bit cell of the storage plane (03_plane.md R64). -/
abbrev Cell32 := BitVec 32

/-- An instruction word (02_encoding.md R26). -/
abbrev IWord := BitVec 32

end Sys2Proof
end

