-- ==== Sys2Proof/Config.lean ====
section
/-! DEFINITION. What an implementation fixes, and the free values: constants with no body, so that no proof can see
what they are. A free value is applied to the state's counter of free values, or to the operands it depends on. -/

namespace Sys2Proof.Config

/-- A value the spec leaves unspecified (00_scope.md R4), fresh for each value of the counter. -/
opaque freeWord : Nat → Word

/-- An unspecified value of any width, fresh for each value of the counter. -/
opaque freeNat : Nat → Nat

/-- Which of the values that a byte has held a command of an engine reads, by the counter and the byte's place
(16_die.md R349). DESIGN CHOICE: log entry 41. -/
opaque whichByte : Nat → Nat → Nat

/-- A choice the spec leaves open, fresh for each value of the counter. -/
opaque freeBool : Nat → Bool

/-- The bits of a 32-bit cell that the spec leaves unspecified (14_cluster.md R328; 11_core_ladder.md R268, R285), by the
counter and the cell. -/
opaque freeCell : Nat → Nat → BitVec 32

/-- An X that overflows E4M3 because SC is held at 254 saturates (04_numbers.md R98). DESIGN CHOICE: log entry 75. -/
opaque blockSat : Bool

/-- The ticks of the package timebase between a read of it and the read before (08_core_steering.md R179; 18_package.md
R389): timing is outside the model. DESIGN CHOICE: log entry 5. -/
opaque ticks : Nat → Nat

/-- The S-cycles since task issue at a read of SCYC (08_core_steering.md R179). DESIGN CHOICE: log entry 5. -/
opaque scyc : Nat → Word

/-- The S-cycles that have passed in a wait when it ends (06_issue.md R159). -/
opaque elapsed : Nat → Word

/-- The last element of a vector operation that an unordered store may leave in memory (09_core_memory.md R223).
DESIGN CHOICE: log entry 22. -/
opaque laterWins : Nat → Bool

/-- What the firmware gives a control core when it loads the dispatcher (14_cluster.md R292, 18_package.md R374): by
cluster, the GLOB base of its text (0), the length (1), PC (2), TVEC (3) and PTROOT (4). DESIGN CHOICE: log entry 9. -/
opaque firmware : Nat → Nat → Word

/-- The dispatch and identity fields of the capability list that the spec does not state, by number (R381).
DESIGN CHOICE: log entry 56. -/
opaque identity : Nat → Word

/-- A byte of HBM after a package reset, by the counter and its address (R386). DESIGN CHOICE: log entry 51. -/
opaque resetByte : Nat → Nat → Byte

/-- The signature of the device attestation key, which never leaves the service core, over a message: 4,627 bytes (R387).
DESIGN CHOICE: log entry 9. -/
opaque sign : List Byte → BitVec 37016

/-- The attestation certificate chain (R382), the digest fused for the root of trust (R384), and the ROM (R387). -/
opaque certificates : List Byte
opaque fusedDigest : BitVec 512
opaque rom : List Byte

/-- The junction temperature of a die has fallen below 100 degrees, at a value of the counter (R380).
DESIGN CHOICE: log entry 59. -/
opaque cooled : Nat → Bool

/-- The watts that a consumer demands besides its clusters' estimates: engines of dies 0 to 5, and HBM, 6 (R377).
DESIGN CHOICE: log entry 59. -/
opaque engineWatts : Nat → Nat → Nat

/-- A die sends no demand in a cycle, by the counter and the die (R379). DESIGN CHOICE: log entry 59. -/
opaque silent : Nat → Nat → Bool

/-- A video frame as a decoder yields it (16_die.md R363, R364): size, bit depth, and the samples of its luma plane and
of its two chroma planes of half size, row by row. -/
structure Frame where
  w : Nat
  h : Nat
  depth : Nat
  /-- Twice the horizontal and twice the vertical offset of the first chroma sample, in luma samples. -/
  siteX : Nat
  siteY : Nat
  luma : List Nat
  cb : List Nat
  cr : List Nat
  deriving DecidableEq, Repr, Inhabited

/-- What decoding a bitstream comes to: the frames in output order, whether the bitstream breaks its standard or leaves
the profiles and levels of R363 after them, the bytes consumed, and the decoder state it leaves. -/
structure Decoded where
  frames : List Frame
  broken : Bool
  beyond : Bool
  used : Nat
  state : Nat
  deriving DecidableEq, Repr, Inhabited

/-- A bitstream of a codec begins at a sequence header and key frame (AV1), or at an IRAP picture with its parameter sets
(HEVC) (R363). DESIGN CHOICE: log entry 45. -/
opaque startsStream : Nat → List Byte → Bool

/-- The codecs AV1 (1) and HEVC (2), whose standards the spec cites: from the decoder state, the codec, the frames
wanted and the bitstream (R363). DESIGN CHOICE: log entry 45. -/
opaque decodeVideo : Nat → Nat → Nat → List Byte → Decoded

/-- An element that another member of a collective brings: by the counter, the rank and the element (19_fabric.md
R405). The memory of the members' address spaces is outside this package. DESIGN CHOICE: log entry 46. -/
opaque memberElement : Nat → Nat → Nat → Word

end Sys2Proof.Config
end

