-- ==== Sys2Proof/Machine/Sparse.lean ====
section
/-! DEFINITION. Sparse maps: finite tables from a number to a value, in one canonical form. Memory, register files,
the storage plane, the masks and the slabs are held this way. A map lists only the entries that differ from the
default, in rising order of key, so equal maps are equal lists. -/

namespace Sys2Proof.Machine

/-- A sparse map: entries in strictly rising order of key, none equal to the default. -/
abbrev Sp (α : Type) := List (Nat × α)

/-- The value at a key; the default where the map lists nothing. -/
def spGet {α : Type} (dflt : α) : Sp α → Nat → α
  | [], _ => dflt
  | (j, v) :: m, i => if i = j then v else spGet dflt m i

/-- The map without the entry at a key. -/
def spErase {α : Type} : Sp α → Nat → Sp α
  | [], _ => []
  | (j, v) :: m, i => if i = j then spErase m i else (j, v) :: spErase m i

/-- The map with an entry put before the first larger key. -/
def spInsert {α : Type} : Sp α → Nat → α → Sp α
  | [], i, v => [(i, v)]
  | (j, w) :: m, i, v => if i < j then (i, v) :: (j, w) :: m else (j, w) :: spInsert m i v

/-- The map with the value at a key replaced; a default value is not listed. -/
def spPut {α : Type} [DecidableEq α] (dflt : α) (m : Sp α) (i : Nat) (v : α) : Sp α :=
  if v = dflt then spErase m i else spInsert (spErase m i) i v

/-- The entries stand in strictly rising order of key, above `lo`. -/
def spSorted {α : Type} : Option Nat → Sp α → Bool
  | _, [] => true
  | none, (j, _) :: m => spSorted (some j) m
  | some l, (j, _) :: m => decide (l < j) && spSorted (some j) m

/-- The canonical form of a sparse map. -/
def spWf {α : Type} [DecidableEq α] (dflt : α) (m : Sp α) : Bool :=
  spSorted none m && m.all (fun p => decide (p.2 ≠ dflt))

end Sys2Proof.Machine
end

