-- ==== Sys2Proof/Syntax.lean ====
section
/-! DEFINITION. The operations of the part: one constructor for each row of spec/opcode_table.json. The 263
instruction words carry the word's variable fields, lowest bits first, under the field names of the table: the
vector words come first and the steering words last. The 77 events, steps of the machine's other agents, stand
between them: they have no bits, and their arguments say which of several like things the event concerns. -/

namespace Sys2Proof

/-- An operation of the part: an instruction word or an event. -/
inductive Instr where
  /-- VFADD, R122. Adds shapes element-wise in floating point. -/
  | vfadd (d : BitVec 6) (a : BitVec 6) (b : BitVec 6) (m : BitVec 3) (c : BitVec 1)
  /-- VFSUB, R122. Subtracts shapes element-wise in floating point. -/
  | vfsub (d : BitVec 6) (a : BitVec 6) (b : BitVec 6) (m : BitVec 3) (c : BitVec 1)
  /-- VFMUL, R122. Multiplies shapes element-wise in floating point. -/
  | vfmul (d : BitVec 6) (a : BitVec 6) (b : BitVec 6) (m : BitVec 3) (c : BitVec 1)
  /-- VFMIN, R122. Takes the floating-point minimum element-wise. -/
  | vfmin (d : BitVec 6) (a : BitVec 6) (b : BitVec 6) (m : BitVec 3) (c : BitVec 1)
  /-- VFMAX, R122. Takes the floating-point maximum element-wise. -/
  | vfmax (d : BitVec 6) (a : BitVec 6) (b : BitVec 6) (m : BitVec 3) (c : BitVec 1)
  /-- VFDIV, R122. Divides shapes element-wise in floating point on the SFU. -/
  | vfdiv (d : BitVec 6) (a : BitVec 6) (b : BitVec 6) (m : BitVec 3) (c : BitVec 1)
  /-- VFADD_K, R122. Adds a convoy scalar to a shape element-wise. -/
  | vfaddK (d : BitVec 6) (a : BitVec 6) (x : BitVec 1) (k : BitVec 3) (m : BitVec 3) (c : BitVec 1)
  /-- VFSUB_K, R122. Subtracts with a convoy scalar operand, in either order. -/
  | vfsubK (d : BitVec 6) (a : BitVec 6) (x : BitVec 1) (k : BitVec 3) (m : BitVec 3) (c : BitVec 1)
  /-- VFMUL_K, R122. Multiplies a shape by a convoy scalar. -/
  | vfmulK (d : BitVec 6) (a : BitVec 6) (x : BitVec 1) (k : BitVec 3) (m : BitVec 3) (c : BitVec 1)
  /-- VFMIN_K, R122. Takes the minimum with a convoy scalar. -/
  | vfminK (d : BitVec 6) (a : BitVec 6) (x : BitVec 1) (k : BitVec 3) (m : BitVec 3) (c : BitVec 1)
  /-- VFMAX_K, R122. Takes the maximum with a convoy scalar. -/
  | vfmaxK (d : BitVec 6) (a : BitVec 6) (x : BitVec 1) (k : BitVec 3) (m : BitVec 3) (c : BitVec 1)
  /-- VFDIV_K, R122. Divides with a convoy scalar operand. -/
  | vfdivK (d : BitVec 6) (a : BitVec 6) (x : BitVec 1) (k : BitVec 3) (m : BitVec 3) (c : BitVec 1)
  /-- VFNEG, R122. Inverts the sign bit of each element. -/
  | vfneg (d : BitVec 6) (a : BitVec 6) (m : BitVec 3) (c : BitVec 1)
  /-- VFABS, R122. Clears the sign bit of each element. -/
  | vfabs (d : BitVec 6) (a : BitVec 6) (m : BitVec 3) (c : BitVec 1)
  /-- VFCPYS, R122. Copies the sign bit of y onto x. -/
  | vfcpys (d : BitVec 6) (a : BitVec 6) (b : BitVec 6) (m : BitVec 3) (c : BitVec 1)
  /-- VFCPYSN, R122. Copies the inverted sign bit of y onto x. -/
  | vfcpysn (d : BitVec 6) (a : BitVec 6) (b : BitVec 6) (m : BitVec 3) (c : BitVec 1)
  /-- VFKIND, R122. Classifies each element as zero, subnormal, normal, infinity or NaN, with its sign. -/
  | vfkind (d : BitVec 6) (a : BitVec 6) (m : BitVec 3) (c : BitVec 1)
  /-- VFMA, R122. Computes the fused x*y + z element-wise. -/
  | vfma (d : BitVec 6) (a : BitVec 6) (b : BitVec 6) (m : BitVec 3) (c : BitVec 1)
  /-- VFNMA, R122. Computes the fused -(x*y) + z element-wise. -/
  | vfnma (d : BitVec 6) (a : BitVec 6) (b : BitVec 6) (m : BitVec 3) (c : BitVec 1)
  /-- VFMS, R122. Computes the fused x*y - z element-wise. -/
  | vfms (d : BitVec 6) (a : BitVec 6) (b : BitVec 6) (m : BitVec 3) (c : BitVec 1)
  /-- VFNMS, R122. Computes the fused -(x*y) - z element-wise. -/
  | vfnms (d : BitVec 6) (a : BitVec 6) (b : BitVec 6) (m : BitVec 3) (c : BitVec 1)
  /-- VFMA_K, R122. Computes the fused multiply-add with a convoy scalar. -/
  | vfmaK (d : BitVec 6) (a : BitVec 6) (k : BitVec 3) (m : BitVec 3) (c : BitVec 1)
  /-- VFNMA_K, R122. Computes the fused negated multiply-add with a convoy scalar. -/
  | vfnmaK (d : BitVec 6) (a : BitVec 6) (k : BitVec 3) (m : BitVec 3) (c : BitVec 1)
  /-- VFMS_K, R122. Computes the fused multiply-subtract with a convoy scalar. -/
  | vfmsK (d : BitVec 6) (a : BitVec 6) (k : BitVec 3) (m : BitVec 3) (c : BitVec 1)
  /-- VFNMS_K, R122. Computes the fused negated multiply-subtract with a convoy scalar. -/
  | vfnmsK (d : BitVec 6) (a : BitVec 6) (k : BitVec 3) (m : BitVec 3) (c : BitVec 1)
  /-- VFSQRT, R123. Computes the square root of each element. -/
  | vfsqrt (d : BitVec 6) (a : BitVec 6) (m : BitVec 3) (c : BitVec 1)
  /-- VFRSQRT, R123. Computes the reciprocal square root of each element. -/
  | vfrsqrt (d : BitVec 6) (a : BitVec 6) (m : BitVec 3) (c : BitVec 1)
  /-- VFRCP, R123. Computes the reciprocal of each element. -/
  | vfrcp (d : BitVec 6) (a : BitVec 6) (m : BitVec 3) (c : BitVec 1)
  /-- VFEXP2, R123. Computes 2^x for each element. -/
  | vfexp2 (d : BitVec 6) (a : BitVec 6) (m : BitVec 3) (c : BitVec 1)
  /-- VFLOG2, R123. Computes log2 x for each element. -/
  | vflog2 (d : BitVec 6) (a : BitVec 6) (m : BitVec 3) (c : BitVec 1)
  /-- VFSINPI, R123. Computes sin(pi x) for each element. -/
  | vfsinpi (d : BitVec 6) (a : BitVec 6) (m : BitVec 3) (c : BitVec 1)
  /-- VFTANH, R123. Computes tanh x for each element. -/
  | vftanh (d : BitVec 6) (a : BitVec 6) (m : BitVec 3) (c : BitVec 1)
  /-- VFSIGM, R123. Computes the logistic sigmoid of each element. -/
  | vfsigm (d : BitVec 6) (a : BitVec 6) (m : BitVec 3) (c : BitVec 1)
  /-- VADD, R124. Adds integer shapes element-wise, wrapping. -/
  | vadd (d : BitVec 6) (a : BitVec 6) (b : BitVec 6) (m : BitVec 3) (c : BitVec 1)
  /-- VSUB, R124. Subtracts integer shapes element-wise, wrapping. -/
  | vsub (d : BitVec 6) (a : BitVec 6) (b : BitVec 6) (m : BitVec 3) (c : BitVec 1)
  /-- VMUL, R124. Multiplies integer shapes element-wise, keeping the low bits. -/
  | vmul (d : BitVec 6) (a : BitVec 6) (b : BitVec 6) (m : BitVec 3) (c : BitVec 1)
  /-- VMIN, R124. Takes the integer minimum element-wise. -/
  | vmin (d : BitVec 6) (a : BitVec 6) (b : BitVec 6) (m : BitVec 3) (c : BitVec 1)
  /-- VMAX, R124. Takes the integer maximum element-wise. -/
  | vmax (d : BitVec 6) (a : BitVec 6) (b : BitVec 6) (m : BitVec 3) (c : BitVec 1)
  /-- VDIV, R124. Divides integer shapes element-wise on the SFU. -/
  | vdiv (d : BitVec 6) (a : BitVec 6) (b : BitVec 6) (m : BitVec 3) (c : BitVec 1)
  /-- VREM, R124. Computes integer remainders element-wise on the SFU. -/
  | vrem (d : BitVec 6) (a : BitVec 6) (b : BitVec 6) (m : BitVec 3) (c : BitVec 1)
  /-- VADD_K, R124. Adds a convoy scalar to an integer shape. -/
  | vaddK (d : BitVec 6) (a : BitVec 6) (x : BitVec 1) (k : BitVec 3) (m : BitVec 3) (c : BitVec 1)
  /-- VSUB_K, R124. Subtracts with a convoy scalar operand, in either order. -/
  | vsubK (d : BitVec 6) (a : BitVec 6) (x : BitVec 1) (k : BitVec 3) (m : BitVec 3) (c : BitVec 1)
  /-- VMUL_K, R124. Multiplies an integer shape by a convoy scalar. -/
  | vmulK (d : BitVec 6) (a : BitVec 6) (x : BitVec 1) (k : BitVec 3) (m : BitVec 3) (c : BitVec 1)
  /-- VMIN_K, R124. Takes the integer minimum with a convoy scalar. -/
  | vminK (d : BitVec 6) (a : BitVec 6) (x : BitVec 1) (k : BitVec 3) (m : BitVec 3) (c : BitVec 1)
  /-- VMAX_K, R124. Takes the integer maximum with a convoy scalar. -/
  | vmaxK (d : BitVec 6) (a : BitVec 6) (x : BitVec 1) (k : BitVec 3) (m : BitVec 3) (c : BitVec 1)
  /-- VDIV_K, R124. Divides with a convoy scalar operand. -/
  | vdivK (d : BitVec 6) (a : BitVec 6) (x : BitVec 1) (k : BitVec 3) (m : BitVec 3) (c : BitVec 1)
  /-- VREM_K, R124. Takes remainders with a convoy scalar operand. -/
  | vremK (d : BitVec 6) (a : BitVec 6) (x : BitVec 1) (k : BitVec 3) (m : BitVec 3) (c : BitVec 1)
  /-- VADDI, R124. Adds an immediate to each element of vd. -/
  | vaddi (d : BitVec 6) (i : BitVec 12) (m : BitVec 3) (c : BitVec 1)
  /-- VRSUBI, R124. Subtracts each element of vd from an immediate. -/
  | vrsubi (d : BitVec 6) (i : BitVec 12) (m : BitVec 3) (c : BitVec 1)
  /-- VMULI, R124. Multiplies each element of vd by an immediate. -/
  | vmuli (d : BitVec 6) (i : BitVec 12) (m : BitVec 3) (c : BitVec 1)
  /-- VMINI, R124. Takes the minimum of each element of vd and an immediate. -/
  | vmini (d : BitVec 6) (i : BitVec 12) (m : BitVec 3) (c : BitVec 1)
  /-- VMAXI, R124. Takes the maximum of each element of vd and an immediate. -/
  | vmaxi (d : BitVec 6) (i : BitVec 12) (m : BitVec 3) (c : BitVec 1)
  /-- VAND, R125. ANDs shapes bitwise. -/
  | vand (d : BitVec 6) (a : BitVec 6) (b : BitVec 6) (m : BitVec 3) (c : BitVec 1)
  /-- VOR, R125. ORs shapes bitwise. -/
  | vor (d : BitVec 6) (a : BitVec 6) (b : BitVec 6) (m : BitVec 3) (c : BitVec 1)
  /-- VXOR, R125. XORs shapes bitwise. -/
  | vxor (d : BitVec 6) (a : BitVec 6) (b : BitVec 6) (m : BitVec 3) (c : BitVec 1)
  /-- VANDN, R125. Computes x & ~y bitwise. -/
  | vandn (d : BitVec 6) (a : BitVec 6) (b : BitVec 6) (m : BitVec 3) (c : BitVec 1)
  /-- VSLL, R125. Shifts elements left with zero fill. -/
  | vsll (d : BitVec 6) (a : BitVec 6) (b : BitVec 6) (m : BitVec 3) (c : BitVec 1)
  /-- VSRL, R125. Shifts elements right with zero fill. -/
  | vsrl (d : BitVec 6) (a : BitVec 6) (b : BitVec 6) (m : BitVec 3) (c : BitVec 1)
  /-- VSRA, R125. Shifts elements right with sign fill. -/
  | vsra (d : BitVec 6) (a : BitVec 6) (b : BitVec 6) (m : BitVec 3) (c : BitVec 1)
  /-- VMOV, R125. Copies the elements of va into vd. -/
  | vmov (d : BitVec 6) (a : BitVec 6) (m : BitVec 3) (c : BitVec 1)
  /-- VANDI, R125. ANDs each element of vd with an immediate. -/
  | vandi (d : BitVec 6) (i : BitVec 12) (m : BitVec 3) (c : BitVec 1)
  /-- VORI, R125. ORs each element of vd with an immediate. -/
  | vori (d : BitVec 6) (i : BitVec 12) (m : BitVec 3) (c : BitVec 1)
  /-- VXORI, R125. XORs each element of vd with an immediate. -/
  | vxori (d : BitVec 6) (i : BitVec 12) (m : BitVec 3) (c : BitVec 1)
  /-- VLI, R125. Loads an immediate into each element of vd. -/
  | vli (d : BitVec 6) (i : BitVec 12) (m : BitVec 3) (c : BitVec 1)
  /-- VSLLI, R125. Shifts each element of vd left by an immediate. -/
  | vslli (d : BitVec 6) (i : BitVec 6) (m : BitVec 3) (c : BitVec 1)
  /-- VSRLI, R125. Shifts each element of vd right by an immediate with zero fill. -/
  | vsrli (d : BitVec 6) (i : BitVec 6) (m : BitVec 3) (c : BitVec 1)
  /-- VSRAI, R125. Shifts each element of vd right by an immediate with sign fill. -/
  | vsrai (d : BitVec 6) (i : BitVec 6) (m : BitVec 3) (c : BitVec 1)
  /-- VSADD, R124. Adds with saturation to the type's range. -/
  | vsadd (d : BitVec 6) (a : BitVec 6) (b : BitVec 6) (m : BitVec 3) (c : BitVec 1)
  /-- VSSUB, R124. Subtracts with saturation to the type's range. -/
  | vssub (d : BitVec 6) (a : BitVec 6) (b : BitVec 6) (m : BitVec 3) (c : BitVec 1)
  /-- VMULH, R124. Writes the high EW bits of each product. -/
  | vmulh (d : BitVec 6) (a : BitVec 6) (b : BitVec 6) (m : BitVec 3) (c : BitVec 1)
  /-- VAVG, R124. Computes the rounded-up average of each pair of elements. -/
  | vavg (d : BitVec 6) (a : BitVec 6) (b : BitVec 6) (m : BitVec 3) (c : BitVec 1)
  /-- VCEQ, R126. Compares elements for equality into a mask. -/
  | vceq (d : BitVec 3) (a : BitVec 6) (b : BitVec 6) (m : BitVec 3) (c : BitVec 1)
  /-- VCNE, R126. Compares elements for inequality into a mask. -/
  | vcne (d : BitVec 3) (a : BitVec 6) (b : BitVec 6) (m : BitVec 3) (c : BitVec 1)
  /-- VCLT, R126. Compares elements for less-than into a mask. -/
  | vclt (d : BitVec 3) (a : BitVec 6) (b : BitVec 6) (m : BitVec 3) (c : BitVec 1)
  /-- VCLE, R126. Compares elements for less-or-equal into a mask. -/
  | vcle (d : BitVec 3) (a : BitVec 6) (b : BitVec 6) (m : BitVec 3) (c : BitVec 1)
  /-- VCGT, R126. Compares elements for greater-than into a mask. -/
  | vcgt (d : BitVec 3) (a : BitVec 6) (b : BitVec 6) (m : BitVec 3) (c : BitVec 1)
  /-- VCGE, R126. Compares elements for greater-or-equal into a mask. -/
  | vcge (d : BitVec 3) (a : BitVec 6) (b : BitVec 6) (m : BitVec 3) (c : BitVec 1)
  /-- VCUN, R126. Sets a mask bit where either operand is NaN. -/
  | vcun (d : BitVec 3) (a : BitVec 6) (b : BitVec 6) (m : BitVec 3) (c : BitVec 1)
  /-- VCEQ_K, R126. Compares elements with a convoy scalar for equality. -/
  | vceqK (d : BitVec 3) (a : BitVec 6) (k : BitVec 3) (m : BitVec 3) (c : BitVec 1)
  /-- VCNE_K, R126. Compares elements with a convoy scalar for inequality. -/
  | vcneK (d : BitVec 3) (a : BitVec 6) (k : BitVec 3) (m : BitVec 3) (c : BitVec 1)
  /-- VCLT_K, R126. Compares elements with a convoy scalar for less-than. -/
  | vcltK (d : BitVec 3) (a : BitVec 6) (k : BitVec 3) (m : BitVec 3) (c : BitVec 1)
  /-- VCLE_K, R126. Compares elements with a convoy scalar for less-or-equal. -/
  | vcleK (d : BitVec 3) (a : BitVec 6) (k : BitVec 3) (m : BitVec 3) (c : BitVec 1)
  /-- VCGT_K, R126. Compares elements with a convoy scalar for greater-than. -/
  | vcgtK (d : BitVec 3) (a : BitVec 6) (k : BitVec 3) (m : BitVec 3) (c : BitVec 1)
  /-- VCGE_K, R126. Compares elements with a convoy scalar for greater-or-equal. -/
  | vcgeK (d : BitVec 3) (a : BitVec 6) (k : BitVec 3) (m : BitVec 3) (c : BitVec 1)
  /-- VCUN_K, R126. Tests elements and a convoy scalar for NaN. -/
  | vcunK (d : BitVec 3) (a : BitVec 6) (k : BitVec 3) (m : BitVec 3) (c : BitVec 1)
  /-- VMAND, R127. ANDs two masks. -/
  | vmand (d : BitVec 3) (a : BitVec 3) (b : BitVec 3) (m : BitVec 3) (c : BitVec 1)
  /-- VMOR, R127. ORs two masks. -/
  | vmor (d : BitVec 3) (a : BitVec 3) (b : BitVec 3) (m : BitVec 3) (c : BitVec 1)
  /-- VMXOR, R127. XORs two masks. -/
  | vmxor (d : BitVec 3) (a : BitVec 3) (b : BitVec 3) (m : BitVec 3) (c : BitVec 1)
  /-- VMANDN, R127. Computes a & ~b over masks. -/
  | vmandn (d : BitVec 3) (a : BitVec 3) (b : BitVec 3) (m : BitVec 3) (c : BitVec 1)
  /-- VMNOT, R127. Inverts a mask. -/
  | vmnot (d : BitVec 3) (a : BitVec 3) (m : BitVec 3) (c : BitVec 1)
  /-- VMSET, R127. Sets mask bits to 1. -/
  | vmset (d : BitVec 3) (m : BitVec 3) (c : BitVec 1)
  /-- VMCLR, R127. Clears mask bits to 0. -/
  | vmclr (d : BitVec 3) (m : BitVec 3) (c : BitVec 1)
  /-- VSEL, R128. Writes va where the mask is active and vb elsewhere. -/
  | vsel (d : BitVec 6) (a : BitVec 6) (b : BitVec 6) (m : BitVec 3) (c : BitVec 1)
  /-- VSELZ, R128. Writes va where the mask is active and zero elsewhere. -/
  | vselz (d : BitVec 6) (a : BitVec 6) (m : BitVec 3) (c : BitVec 1)
  /-- VCVT, R129. Converts elements from a source type to VTYPE. -/
  | vcvt (d : BitVec 6) (a : BitVec 6) (t : BitVec 4) (m : BitVec 3) (c : BitVec 1)
  /-- VQNT, R130. Quantizes blocks of 32 elements with per-block metadata written through v63. -/
  | vqnt (d : BitVec 6) (a : BitVec 6) (t : BitVec 4) (m : BitVec 3) (c : BitVec 1)
  /-- VDQNT, R130. Dequantizes block-scaled elements into a floating-point type. -/
  | vdqnt (d : BitVec 6) (a : BitVec 6) (t : BitVec 4) (m : BitVec 3) (c : BitVec 1)
  /-- VGATH, R131. Gathers elements of va by the indices in vb. -/
  | vgath (d : BitVec 6) (a : BitVec 6) (b : BitVec 6) (m : BitVec 3) (c : BitVec 1)
  /-- VHEAD, R131. Places element 0 of vb at the head and moves va up by one. -/
  | vhead (d : BitVec 6) (a : BitVec 6) (b : BitVec 6) (m : BitVec 3) (c : BitVec 1)
  /-- VTAIL, R131. Moves va down by one and places element 0 of vb at the tail. -/
  | vtail (d : BitVec 6) (a : BitVec 6) (b : BitVec 6) (m : BitVec 3) (c : BitVec 1)
  /-- VBCAST, R131. Broadcasts element 0 of va. -/
  | vbcast (d : BitVec 6) (a : BitVec 6) (m : BitVec 3) (c : BitVec 1)
  /-- VFREDSUM, R132. Sums the active elements in VTYPE's format. -/
  | vfredsum (d : BitVec 6) (a : BitVec 6) (m : BitVec 3) (c : BitVec 1)
  /-- VFREDSUMW, R132. Sums the active elements, accumulating in FP32. -/
  | vfredsumw (d : BitVec 6) (a : BitVec 6) (m : BitVec 3) (c : BitVec 1)
  /-- VFREDMAX, R132. Reduces the active elements to their floating-point maximum. -/
  | vfredmax (d : BitVec 6) (a : BitVec 6) (m : BitVec 3) (c : BitVec 1)
  /-- VFREDMIN, R132. Reduces the active elements to their floating-point minimum. -/
  | vfredmin (d : BitVec 6) (a : BitVec 6) (m : BitVec 3) (c : BitVec 1)
  /-- VREDSUM, R132. Sums integer elements, wrapping. -/
  | vredsum (d : BitVec 6) (a : BitVec 6) (m : BitVec 3) (c : BitVec 1)
  /-- VREDMAX, R132. Reduces integer elements to their maximum. -/
  | vredmax (d : BitVec 6) (a : BitVec 6) (m : BitVec 3) (c : BitVec 1)
  /-- VREDMIN, R132. Reduces integer elements to their minimum. -/
  | vredmin (d : BitVec 6) (a : BitVec 6) (m : BitVec 3) (c : BitVec 1)
  /-- VRAISE, R131. Moves a sequence up by a convoy-scalar count. -/
  | vraise (d : BitVec 6) (a : BitVec 6) (k : BitVec 3) (m : BitVec 3) (c : BitVec 1)
  /-- VLOWER, R131. Moves a sequence down by a convoy-scalar count. -/
  | vlower (d : BitVec 6) (a : BitVec 6) (k : BitVec 3) (m : BitVec 3) (c : BitVec 1)
  /-- VBCASTK, R131. Broadcasts a convoy scalar into vd. -/
  | vbcastk (d : BitVec 6) (k : BitVec 3) (m : BitVec 3) (c : BitVec 1)
  /-- VLD, R221. Loads contiguous elements from the space VMT names. -/
  | vld (d : BitVec 6) (i : BitVec 9) (k : BitVec 3) (m : BitVec 3) (r : BitVec 1) (c : BitVec 1)
  /-- VST, R221. Stores contiguous elements to the space VMT names. -/
  | vst (d : BitVec 6) (i : BitVec 9) (k : BitVec 3) (m : BitVec 3) (r : BitVec 1) (c : BitVec 1)
  /-- VLD2, R221. Loads elements along a two-level strided walk. -/
  | vld2 (d : BitVec 6) (i : BitVec 9) (k : BitVec 3) (m : BitVec 3) (r : BitVec 1) (c : BitVec 1)
  /-- VST2, R221. Stores elements along a two-level strided walk. -/
  | vst2 (d : BitVec 6) (i : BitVec 9) (k : BitVec 3) (m : BitVec 3) (r : BitVec 1) (c : BitVec 1)
  /-- VLDX, R221. Loads elements at indexed addresses. -/
  | vldx (d : BitVec 6) (a : BitVec 6) (x : BitVec 3) (k : BitVec 3) (m : BitVec 3) (r : BitVec 1) (c : BitVec 1)
  /-- VSTX, R221. Stores elements at indexed addresses. -/
  | vstx (d : BitVec 6) (a : BitVec 6) (x : BitVec 3) (k : BitVec 3) (m : BitVec 3) (r : BitVec 1) (c : BitVec 1)
  /-- VLDSLAB, R357. Gathers tokens through a key-value slab entry and marks tier misses in mT. -/
  | vldslab (d : BitVec 6) (a : BitVec 6) (t : BitVec 3) (k : BitVec 3) (m : BitVec 3) (c : BitVec 1)
  /-- VDEF, R77. Writes one register-table entry from a convoy scalar. -/
  | vdef (d : BitVec 6) (k : BitVec 3)
  /-- VTLD, R78. Loads the whole register table from TCM. -/
  | vtld (k : BitVec 3)
  /-- VTST, R79. Stores the whole register table to TCM. -/
  | vtst (k : BitVec 3)
  /-- VSETT, R69. Sets VTYPE's type, rounding mode, SAT and LA. -/
  | vsett (i : BitVec 8)
  /-- VLEN, R70. Grants VL from the length asked for in a convoy scalar and hands the grant back. -/
  | vlen (k : BitVec 3)
  /-- VLEN_SHAPE, R70. Grants VL from the capacity of a shape and hands the grant back. -/
  | vlenShape (a : BitVec 6) (k : BitVec 3)
  /-- VSETMT, R71. Sets VMT from a convoy scalar. -/
  | vsetmt (k : BitVec 3)
  /-- VSETMT_IMM, R71. Sets VMT from an immediate space name. -/
  | vsetmtImm (s : BitVec 2)
  /-- MMA, R256. Adds the product of two plane views into a slab. -/
  | mma (n : BitVec 2) (a : BitVec 6) (b : BitVec 6) (c : BitVec 1)
  /-- MMAS, R257. Adds a block-scaled product into a slab. -/
  | mmas (n : BitVec 2) (a : BitVec 6) (b : BitVec 6) (c : BitVec 1)
  /-- MEN, R250. Enables the matrix unit with its slabs reading +0. -/
  | men (c : BitVec 1)
  /-- MDIS, R251. Disables the matrix unit and discards its slabs. -/
  | mdis (c : BitVec 1)
  /-- MZERO, R252. Writes +0 to every element of a slab. -/
  | mzero (n : BitVec 2) (c : BitVec 1)
  /-- MSHAPE, R253. Grants the matrix sizes M, N and K and sets the edge predicates. -/
  | mshape (k : BitVec 3) (c : BitVec 1)
  /-- MSCL, R255. Sets the write-back scale and bound in MXSCL. -/
  | mscl (k : BitVec 3) (c : BitVec 1)
  /-- MEXT_ROW, R260. Writes a slab row into a plane shape through write-back. -/
  | mextRow (d : BitVec 6) (n : BitVec 2) (s : BitVec 6) (m : BitVec 3) (c : BitVec 1)
  /-- MEXT_COL, R260. Writes a slab column into a plane shape through write-back. -/
  | mextCol (d : BitVec 6) (n : BitVec 2) (s : BitVec 6) (m : BitVec 3) (c : BitVec 1)
  /-- MEXT_RECT, R260. Writes the granted M x N rectangle of a slab into a plane shape. -/
  | mextRect (d : BitVec 6) (n : BitVec 2) (m : BitVec 3) (c : BitVec 1)
  /-- MINS_ROW, R260. Writes a plane shape into a slab row. -/
  | minsRow (d : BitVec 6) (n : BitVec 2) (s : BitVec 6) (m : BitVec 3) (c : BitVec 1)
  /-- MINS_COL, R260. Writes a plane shape into a slab column. -/
  | minsCol (d : BitVec 6) (n : BitVec 2) (s : BitVec 6) (m : BitVec 3) (c : BitVec 1)
  /-- MINS_RECT, R260. Writes a plane shape into the granted rectangle of a slab. -/
  | minsRect (d : BitVec 6) (n : BitVec 2) (m : BitVec 3) (c : BitVec 1)
  /-- LSTEP, R270. Reads a step tile from a slab into the ladder, starting its carry chain. -/
  | lstep (n : BitVec 2) (c : BitVec 1)
  /-- LBLEND, R280. Writes the weighted sum of the full rungs into vd. -/
  | lblend (d : BitVec 6) (c : BitVec 1)
  /-- LRUNG_LD, R281. Copies an immediate-numbered rung into vd. -/
  | lrungLd (d : BitVec 6) (l : BitVec 6) (c : BitVec 1)
  /-- LRUNG_ST, R281. Copies vs into an immediate-numbered rung. -/
  | lrungSt (d : BitVec 6) (l : BitVec 6) (c : BitVec 1)
  /-- LRUNG_LD_K, R281. Copies the rung named by a convoy scalar into vd. -/
  | lrungLdK (d : BitVec 6) (k : BitVec 3) (c : BitVec 1)
  /-- LRUNG_ST_K, R281. Copies vs into the rung named by a convoy scalar. -/
  | lrungStK (d : BitVec 6) (k : BitVec 3) (c : BitVec 1)
  /-- LCFG, R277. Configures the ladder from a convoy scalar and empties every rung. -/
  | lcfg (k : BitVec 3) (c : BitVec 1)
  /-- LSTAT_CNT, R279. Copies LCNT into a convoy scalar. -/
  | lstatCnt (k : BitVec 3) (c : BitVec 1)
  /-- LSTAT_CARRY, R279. Copies LCARRY into a convoy scalar. -/
  | lstatCarry (k : BitVec 3) (c : BitVec 1)
  /-- LRESET, R278. Clears LCNT and LCARRY and abandons a stopped chain. -/
  | lreset (c : BitVec 1)
  /-- VISSUE, R148. Issues each distinct legal lane word once under the mask of the elements holding it. -/
  | vissue (d : BitVec 3) (a : BitVec 6) (m : BitVec 3)
  /-- VCAPP, R155. Appends the elements of a shape to a feed queue. -/
  | vcapp (q : BitVec 4) (a : BitVec 6) (m : BitVec 3) (c : BitVec 1)
  /-- VCAPP_K, R155. Appends k + i for each active element to a feed queue. -/
  | vcappK (q : BitVec 4) (k : BitVec 3) (m : BitVec 3) (c : BitVec 1)
  /-- VWAIT, R159. Sleeps until buoys meet their conditions or the limit passes, leaving the unmet elements in the mask. -/
  | vwait (d : BitVec 6) (a : BitVec 6) (e : BitVec 2) (k : BitVec 3) (m : BitVec 3)
  /-- GMMA, R325. Issues a product whose B view is multicast to armed gang partners. -/
  | gmma (n : BitVec 2) (a : BitVec 6) (b : BitVec 6) (c : BitVec 1)
  /-- VBEND, R135. Ends a trip of a block, repeating it or going IDLE. -/
  | vbend
  /-- VKADD, R133. Adds a 9-bit immediate to a convoy scalar. -/
  | vkadd (d : BitVec 3) (i : BitVec 9) (k : BitVec 3) (c : BitVec 1)
  /-- VKADD_K, R133. Adds two convoy scalars. -/
  | vkaddK (d : BitVec 3) (t : BitVec 3) (k : BitVec 3) (c : BitVec 1)
  /-- VKPOP, R133. Pops a dq entry into a convoy scalar. -/
  | vkpop (d : BitVec 3) (c : BitVec 1)
  /-- VKGET, R133. Reads element 0 of a shape into a convoy scalar. -/
  | vkget (d : BitVec 3) (a : BitVec 6) (c : BitVec 1)
  /-- VKPUSH, R134. Pushes a convoy scalar to rq when the convoy retires. -/
  | vkpush (k : BitVec 3) (c : BitVec 1)
  /-- VMPUSH_COUNT, R134. Pushes the count of set mask bits below VL to rq. -/
  | vmpushCount (a : BitVec 3) (c : BitVec 1)
  /-- VMPUSH_FIRST, R134. Pushes the index of the lowest set mask bit below VL to rq. -/
  | vmpushFirst (a : BitVec 3) (c : BitVec 1)
  /-- BLOCK_POP, R135. The IDLE convoy stream pops the bq head and enters RUN, or discards an entry with T = 0. -/
  | blockPop
  /-- CONVOY_ISSUE, R117. A convoy that has passed its checks and interlocks issues and latches its state. -/
  | convoyIssue
  /-- CONVOY_RETIRE, R111. A convoy retires and its convoy-scalar writes and queue pushes land. -/
  | convoyRetire
  /-- TRAP_ENTRY, R196. At a steering boundary, the core halts the convoy stream and enters the handler. -/
  | trapEntry
  /-- QUEUE_DEADLOCK, R188. Both streams wait on each other for 256 quiet S-cycles, and the core traps. -/
  | queueDeadlock
  /-- DEBUG_STOP, R193. A debug stop halts the core at a boundary without entering the handler. -/
  | debugStop
  /-- PREEMPTION_REQUEST, R204. A pre-emption request halts the streams at their boundaries and lets resumable members stop. -/
  | preemptionRequest
  /-- CONTEXT_SAVE, R208. Once the core is halted, it saves the context into its save slot and reports. -/
  | contextSave
  /-- CONTEXT_RESTORE, R208. The core restores a saved context and resumes it or takes a recorded trap. -/
  | contextRestore
  /-- COMPLETION_WORD_UPDATE, R191. After END's drain, the completion word is updated atomically and the task ends. -/
  | completionWordUpdate
  /-- END_REPORT, R305. The home stream controller counts an END report and marks the entry DONE at the task total. -/
  | endReport
  /-- TASK_ABANDON, R306. After a double trap, the stream controller frees the core and counts the task as abandoned. -/
  | taskAbandon
  /-- LOAD_DATA_ARRIVAL, R216. The value of an outstanding scalar load or atomic arrives in sd. -/
  | loadDataArrival (n : Nat)
  /-- STORE_ACKNOWLEDGED, R219. A store or atomic is acknowledged at a scope, freeing the fences and releases waiting on it. -/
  | storeAcknowledged (n : Nat)
  /-- VECTOR_ELEMENT_ARRIVAL, R225. A vector load element arrives in the plane, or a store element is handed to memory. -/
  | vectorElementArrival
  /-- TABLE_WALK, R230. A table walk completes with a translation or a MEM-XLATE fault. -/
  | tableWalk (va : BitVec 57) (vec : Bool)
  /-- MONITORED_LINE_WRITE, R159. A write to a monitored line wakes waiters to re-test their buoys. -/
  | monitoredLineWrite (line : Nat)
  /-- WAIT_LIMIT_EXPIRY, R159. The limit of a VWAIT, WAITW, TLWAIT or BARW expires. -/
  | waitLimitExpiry
  /-- TIMELINE_ADVANCE, R236. A command completes and its context's COUNT advances across a run of successes. -/
  | timelineAdvance (h : Nat)
  /-- COMMAND_FAILED, R351. An engine command fails and latches FAILED and ERR in its context. -/
  | commandFailed (h : Nat) (err : BitVec 8)
  /-- CARRY_CHAIN, R270. After LSTEP retires, the ladder merges full rungs and places the sum. -/
  | carryChain
  /-- ENTRY_READY, R304. A waiting kernel entry becomes READY when its streams and dependence are met, or fails. -/
  | entryReady (e : Nat)
  /-- FANTAIL_RUN, R309. Fantail places fitting groups in candidate order until none fits. -/
  | fantailRun
  /-- OVERDUE, R310. An entry that has placed nothing for 200 µs becomes overdue. -/
  | overdue (e : Nat)
  /-- PRIORITY_PREEMPTION, R311. After 20 µs without cores, lower-class groups are pre-empted for a PREEMPT entry. -/
  | priorityPreemption (e : Nat)
  /-- STREAM_PUMP_TRANSFER, R297. The stream pump completes or fails a stream-in copy. -/
  | streamPumpTransfer (e : Nat)
  /-- STREAM_OUT_COPY, R298. Once its kernels are DONE, a stream-out entry copies out and frees both entries. -/
  | streamOutCopy (e : Nat)
  /-- TCM_CLEAR, R80. The core finishes clearing its TCM and counts as free. -/
  | tcmClear
  /-- FEED_CROSSING, R156. A multiple of VLFEED is crossed once every position below it has been written. -/
  | feedCrossing (q : BitVec 4)
  /-- GMMA_MULTICAST, R326. A participant receives the multicast B view, checks its A view and adds into its slab. -/
  | gmmaMulticast
  /-- GMMA_SHARE_COMPLETION, R327. A participant's share ends and it arrives on its barrier. -/
  | gmmaShareCompletion
  /-- PLANEPWR_WRITE, R90. A write of PLANEPWR changes band power states, discarding contents of bands turned OFF. -/
  | planepwrWrite (v : BitVec 64)
  /-- LCNT_WRITE, R268. A write of LCNT sets which rungs are full without touching rung contents. -/
  | lcntWrite (v : BitVec 64)
  /-- LCARRY_WRITE, R275. A supervisor write of LCARRY, such as clearing ERR, lets a stopped chain reload and rerun. -/
  | lcarryWrite (v : BitVec 64)
  /-- GSEL_WRITE, R331. A write of GSEL sets the GMMA window, masking slots out of range and the own slot. -/
  | gselWrite (v : BitVec 64)
  /-- TLBINV, R234. A write of TLBINV removes matching translations across the package. -/
  | tlbinv (v : BitVec 64)
  /-- FQADV, R317. A task core's write of FQADV advances a feed queue's HEAD. -/
  | fqadv (v : BitVec 64)
  /-- CLRESET, R303. A write of CLRESET resets the launch contexts that hold no live entry. -/
  | clreset (v : BitVec 64)
  /-- CSR_WRITE, R178. A write to a register that has no row of its own stores the value under the fields' access codes. -/
  | csrWrite (c : BitVec 12) (v : BitVec 64)
  /-- CLUSTER_RESET, R374. A write of CLRST resets a cluster, abandoning its tasks and restarting the dispatcher. -/
  | clusterReset (v : BitVec 64)
  /-- HOST_PREEMPTION_REQUEST, R388. A write of PREQ with GO pre-empts the matching cores and their gangs. -/
  | hostPreemptionRequest (v : BitVec 64)
  /-- PREQ_COMPLETE, R388. Every named task is saved, ended or abandoned, so DONE is set and MSI-X vector 2 signals. -/
  | preqComplete
  /-- CLHOLD_WRITE, R388. A write of CLHOLD stops or resumes placement in clusters. -/
  | clholdWrite (v : BitVec 64)
  /-- PLIMIT_WRITE, R371. A write of PLIMIT stores the package power limit clamped to 1,900–4,400 W. -/
  | plimitWrite (v : BitVec 64)
  /-- FREEZE, R390. A write of FRZ with GO stops all clocks of the named scope. -/
  | freeze (v : BitVec 64)
  /-- THAW, R390. A write of FRZ with THAW restarts a frozen cluster or die. -/
  | thaw (v : BitVec 64)
  /-- FREEZE_SIGNAL, R390. The FREEZE signal of an enabled debug port freezes a scope. -/
  | freezeSignal (v : BitVec 64)
  /-- DEBUG_PORT_ACCESS, R391. The debug port reads or writes state in a frozen scope. -/
  | debugPortAccess (write : Bool) (addr : Nat) (v : BitVec 64)
  /-- ATTEST, R387. The mailbox command returns a signed attestation report over a nonce. -/
  | attest
  /-- RECOVER, R385. The mailbox command verifies the recovery-window image and writes it to flash. -/
  | recover (v : BitVec 64)
  /-- COMMIT_SVN, R382. The mailbox command advances the fused SVN to the running image's SVN. -/
  | commitSvn
  /-- CERT, R382. The mailbox command returns the attestation certificate chain. -/
  | cert
  /-- CLLOG, R382. The mailbox command returns a cluster's logged abandonment and restore-error messages. -/
  | cllog (v : BitVec 64)
  /-- DBGEN, R382. The mailbox command enables or disables the debug port. -/
  | dbgen (v : BitVec 64)
  /-- PACKAGE_RESET, R386. Power-on, PERST# or a hot reset resets every die and runs the ROM boot. -/
  | packageReset
  /-- GRANT_CYCLE, R377. Every 50 µs Sluice collects demands and computes power grants. -/
  | grantCycle
  /-- GRANT_DELIVERY, R378. A die controller receives its grant and splits it among its clusters. -/
  | grantDelivery (d : Nat)
  /-- MISSED_GRANTS, R379. After two missed grants, a die controller falls to its floor. -/
  | missedGrants (d : Nat)
  /-- THERMAL_THROTTLE, R380. At 105 °C a die's grant is capped at 90 % each cycle until it cools. -/
  | thermalThrottle (d : Nat)
  /-- THERMAL_CUTOFF, R380. At 125 °C the package removes power from the compute dies. -/
  | thermalCutoff
  /-- DIE_STORE_SCRUB, R340. The die scrubs die-store words, writing back corrected data. -/
  | dieStoreScrub (d : Nat)
  /-- HBM_SCRUB, R376. HBM locations are scrubbed and failing rows are spared. -/
  | hbmScrub
  /-- FLIT_RECEIVE, R396. A received flit is checked and acknowledged, or a NAK is sent. -/
  | flitReceive (port : Nat) (seq : BitVec 16) (crcOk : Bool)
  /-- NAK_REPLAY, R396. On a NAK, the sender replays from the named flit. -/
  | nakReplay (port : Nat) (seq : BitVec 16)
  /-- PORT_RETRAIN, R396. After 16 replays of one flit, the port retrains, possibly at reduced width. -/
  | portRetrain (port : Nat)
  /-- PORT_DOWN, R396. A port goes down and its traffic moves to another path. -/
  | portDown (port : Nat)
  /-- OFFLOAD_PROMOTION, R398. An offload flit reaching its deadline is promoted to the collective class. -/
  | offloadPromotion
  /-- REMOTE_ACCESS, R399. A remote request is performed at its home package and answered. -/
  | remoteAccess (n : Nat)
  /-- REMOTE_ACCESS_TIMEOUT, R401. A remote access unanswered within ZCFG.TMO fails its load, store or command. -/
  | remoteAccessTimeout (n : Nat)
  /-- COLLECTIVE_MATCH, R405. Every member has issued the tag, so the engines compare parameters and run the collective. -/
  | collectiveMatch (h : Nat)
  /-- COLLECTIVE_TIMEOUT, R405. A collective not matched within ZCFG.CTMO fails with ERR 0x09. -/
  | collectiveTimeout (h : Nat)
  /-- MEMBER_UNREACHABLE, R406. A member lost during a matched collective fails every reachable member with ERR 0x08. -/
  | memberUnreachable (h : Nat)
  /-- TIME_MESSAGE, R408. A periodic time message adjusts the package's tick rate toward the master. -/
  | timeMessage (v : BitVec 64)
  /-- POWER_LOSS, R385. Power is lost to the package, possibly while flash is being written, leaving an image that fails verification at the next reset. -/
  | powerLoss
  /-- UNKNOWN_COMMAND, R382. A GO written to MBCMD with a command code not in the table completes with MBSTAT.CODE 1, sets DONE and signals MSI-X vector 1. -/
  | unknownCommand (c : BitVec 8)
  /-- CXL_MEM_ACCESS, R369. A host request over CXL.mem to the spread view of HBM is served by the device as an access of a system-scope agent. -/
  | cxlMemAccess (write : Bool) (addr : Nat) (v : BitVec 64)
  /-- SPURIOUS_WAKE, R197. A NAP ends, or a VWAIT or WAITW re-tests its buoys, at any time of the device's own choosing, with no effect beyond the re-test. -/
  | spuriousWake
  /-- CRGET, R178. Copies a CSR into sd. -/
  | crget (d : BitVec 5) (c : BitVec 12)
  /-- CRPUT, R178. Replaces a CSR with sa under each field's access code. -/
  | crput (a : BitVec 5) (c : BitVec 12)
  /-- CRSET, R178. Sets, or for RW1C fields clears, the CSR bits that sa marks. -/
  | crset (a : BitVec 5) (c : BitVec 12)
  /-- CRCLR, R178. Clears the RW CSR bits that sa marks. -/
  | crclr (a : BitVec 5) (c : BitVec 12)
  /-- ADD, R170. Writes sa + sb, modulo 2^64, to sd. -/
  | add (d : BitVec 5) (a : BitVec 5) (b : BitVec 5)
  /-- SUB, R170. Writes sa - sb, modulo 2^64, to sd. -/
  | sub (d : BitVec 5) (a : BitVec 5) (b : BitVec 5)
  /-- AND, R170. Writes the bitwise AND of sa and sb to sd. -/
  | and (d : BitVec 5) (a : BitVec 5) (b : BitVec 5)
  /-- OR, R170. Writes the bitwise OR of sa and sb to sd. -/
  | or (d : BitVec 5) (a : BitVec 5) (b : BitVec 5)
  /-- XOR, R170. Writes the bitwise XOR of sa and sb to sd. -/
  | xor (d : BitVec 5) (a : BitVec 5) (b : BitVec 5)
  /-- SLL, R170. Shifts sa left by sb[5:0] with zero fill. -/
  | sll (d : BitVec 5) (a : BitVec 5) (b : BitVec 5)
  /-- SRL, R170. Shifts sa right by sb[5:0] with zero fill. -/
  | srl (d : BitVec 5) (a : BitVec 5) (b : BitVec 5)
  /-- SRA, R170. Shifts sa right by sb[5:0] with sign fill. -/
  | sra (d : BitVec 5) (a : BitVec 5) (b : BitVec 5)
  /-- SLT, R170. Writes 1 to sd when sa < sb as signed values, and 0 otherwise. -/
  | slt (d : BitVec 5) (a : BitVec 5) (b : BitVec 5)
  /-- SLTN, R170. Writes 1 to sd when sa < sb as unsigned values, and 0 otherwise. -/
  | sltn (d : BitVec 5) (a : BitVec 5) (b : BitVec 5)
  /-- MUL, R170. Writes the low 64 bits of sa x sb to sd. -/
  | mul (d : BitVec 5) (a : BitVec 5) (b : BitVec 5)
  /-- MULHS, R170. Writes the high 64 bits of the signed 128-bit product to sd. -/
  | mulhs (d : BitVec 5) (a : BitVec 5) (b : BitVec 5)
  /-- MULHN, R170. Writes the high 64 bits of the unsigned 128-bit product to sd. -/
  | mulhn (d : BitVec 5) (a : BitVec 5) (b : BitVec 5)
  /-- DIV, R170. Writes the signed quotient, truncated toward zero, to sd; a division by zero saturates. -/
  | div (d : BitVec 5) (a : BitVec 5) (b : BitVec 5)
  /-- DIVN, R170. Writes the unsigned quotient to sd; a division by zero gives 2^64 - 1. -/
  | divn (d : BitVec 5) (a : BitVec 5) (b : BitVec 5)
  /-- REM, R170. Writes the signed remainder, with the sign of sa, to sd. -/
  | rem (d : BitVec 5) (a : BitVec 5) (b : BitVec 5)
  /-- REMN, R170. Writes the unsigned remainder to sd. -/
  | remn (d : BitVec 5) (a : BitVec 5) (b : BitVec 5)
  /-- ADDI, R171. Adds the sign-extended imm15 to sa and writes the sum to sd. -/
  | addi (d : BitVec 5) (a : BitVec 5) (i : BitVec 15)
  /-- ANDI, R171. ANDs sa with the zero-extended imm15. -/
  | andi (d : BitVec 5) (a : BitVec 5) (i : BitVec 15)
  /-- ORI, R171. ORs sa with the zero-extended imm15. -/
  | ori (d : BitVec 5) (a : BitVec 5) (i : BitVec 15)
  /-- XORI, R171. XORs sa with the zero-extended imm15. -/
  | xori (d : BitVec 5) (a : BitVec 5) (i : BitVec 15)
  /-- SLLI, R172. Shifts sa left by an immediate amount with zero fill. -/
  | slli (d : BitVec 5) (a : BitVec 5) (n : BitVec 6)
  /-- SRLI, R172. Shifts sa right by an immediate amount with zero fill. -/
  | srli (d : BitVec 5) (a : BitVec 5) (n : BitVec 6)
  /-- SRAI, R172. Shifts sa right by an immediate amount with sign fill. -/
  | srai (d : BitVec 5) (a : BitVec 5) (n : BitVec 6)
  /-- SLTI, R171. Compares sa with the sign-extended immediate as signed values. -/
  | slti (d : BitVec 5) (a : BitVec 5) (i : BitVec 15)
  /-- SLTIN, R171. Compares sa with the sign-extended immediate as unsigned values. -/
  | sltin (d : BitVec 5) (a : BitVec 5) (i : BitVec 15)
  /-- LUI, R173. Writes imm20 << 12, zero-extended, to sd. -/
  | lui (d : BitVec 5) (i : BitVec 20)
  /-- SEXT, R174. Sign-extends the low w bits of sa into sd. -/
  | sext (d : BitVec 5) (a : BitVec 5) (w : BitVec 6)
  /-- ZEXT, R174. Zero-extends the low w bits of sa into sd. -/
  | zext (d : BitVec 5) (a : BitVec 5) (w : BitVec 6)
  /-- EXTR, R174. Extracts the w bits of sa that start at bit sb[5:0]. -/
  | extr (d : BitVec 5) (a : BitVec 5) (b : BitVec 5) (w : BitVec 6)
  /-- INS, R174. Inserts the low bits of sa into sd at bit sb[5:0]. -/
  | ins (d : BitVec 5) (a : BitVec 5) (b : BitVec 5) (w : BitVec 6)
  /-- CLZ, R174. Counts the leading zeros of sa. -/
  | clz (d : BitVec 5) (a : BitVec 5)
  /-- CTZ, R174. Counts the trailing zeros of sa. -/
  | ctz (d : BitVec 5) (a : BitVec 5)
  /-- POPC, R174. Counts the 1 bits of sa. -/
  | popc (d : BitVec 5) (a : BitVec 5)
  /-- LDB, R215. Loads a zero-extended byte from the named space. -/
  | ldb (d : BitVec 5) (a : BitVec 5) (s : BitVec 2) (i : BitVec 13)
  /-- LDW, R215. Loads a zero-extended 32-bit word from the named space. -/
  | ldw (d : BitVec 5) (a : BitVec 5) (s : BitVec 2) (i : BitVec 13)
  /-- LDD, R215. Loads a 64-bit word from the named space. -/
  | ldd (d : BitVec 5) (a : BitVec 5) (s : BitVec 2) (i : BitVec 13)
  /-- STB, R215. Stores the low byte of sd. -/
  | stb (d : BitVec 5) (a : BitVec 5) (s : BitVec 2) (i : BitVec 13)
  /-- STW, R215. Stores the low 32 bits of sd. -/
  | stw (d : BitVec 5) (a : BitVec 5) (s : BitVec 2) (i : BitVec 13)
  /-- STD, R215. Stores all 64 bits of sd. -/
  | std (d : BitVec 5) (a : BitVec 5) (s : BitVec 2) (i : BitVec 13)
  /-- AMOSWAP, R217. Atomically swaps sb into memory and returns the old value. -/
  | amoswap (d : BitVec 5) (a : BitVec 5) (b : BitVec 5) (e : BitVec 3) (o : BitVec 2) (s : BitVec 2)
  /-- AMOADD, R217. Atomically adds sb to memory and returns the old value. -/
  | amoadd (d : BitVec 5) (a : BitVec 5) (b : BitVec 5) (e : BitVec 3) (o : BitVec 2) (s : BitVec 2)
  /-- AMOAND, R217. Atomically ANDs sb into memory and returns the old value. -/
  | amoand (d : BitVec 5) (a : BitVec 5) (b : BitVec 5) (e : BitVec 3) (o : BitVec 2) (s : BitVec 2)
  /-- AMOOR, R217. Atomically ORs sb into memory and returns the old value. -/
  | amoor (d : BitVec 5) (a : BitVec 5) (b : BitVec 5) (e : BitVec 3) (o : BitVec 2) (s : BitVec 2)
  /-- AMOXOR, R217. Atomically XORs sb into memory and returns the old value. -/
  | amoxor (d : BitVec 5) (a : BitVec 5) (b : BitVec 5) (e : BitVec 3) (o : BitVec 2) (s : BitVec 2)
  /-- AMOMAX, R217. Atomically stores the signed maximum and returns the old value. -/
  | amomax (d : BitVec 5) (a : BitVec 5) (b : BitVec 5) (e : BitVec 3) (o : BitVec 2) (s : BitVec 2)
  /-- AMOMIN, R217. Atomically stores the signed minimum and returns the old value. -/
  | amomin (d : BitVec 5) (a : BitVec 5) (b : BitVec 5) (e : BitVec 3) (o : BitVec 2) (s : BitVec 2)
  /-- AMOMAXU, R217. Atomically stores the unsigned maximum and returns the old value. -/
  | amomaxu (d : BitVec 5) (a : BitVec 5) (b : BitVec 5) (e : BitVec 3) (o : BitVec 2) (s : BitVec 2)
  /-- CAS, R218. Compares memory with sd and, when equal, stores sb; returns the old value. -/
  | cas (d : BitVec 5) (a : BitVec 5) (b : BitVec 5) (e : BitVec 3) (o : BitVec 2) (s : BitVec 2)
  /-- FENCE, R219. Orders accesses of kind BEF before accesses of kind AFT at a scope. -/
  | fence (e : BitVec 3) (q : BitVec 2) (p : BitVec 2)
  /-- CJ_EQ, R175. Jumps when sa == sb. -/
  | cjEq (b : BitVec 5) (a : BitVec 5) (i : BitVec 15)
  /-- CJ_NE, R175. Jumps when sa != sb. -/
  | cjNe (b : BitVec 5) (a : BitVec 5) (i : BitVec 15)
  /-- CJ_LT, R175. Jumps when sa < sb, signed. -/
  | cjLt (b : BitVec 5) (a : BitVec 5) (i : BitVec 15)
  /-- CJ_GE, R175. Jumps when sa >= sb, signed. -/
  | cjGe (b : BitVec 5) (a : BitVec 5) (i : BitVec 15)
  /-- CJ_LTN, R175. Jumps when sa < sb, unsigned. -/
  | cjLtn (b : BitVec 5) (a : BitVec 5) (i : BitVec 15)
  /-- CJ_GEN, R175. Jumps when sa >= sb, unsigned. -/
  | cjGen (b : BitVec 5) (a : BitVec 5) (i : BitVec 15)
  /-- JAL, R176. Writes PC + 4 to sd and jumps to the PC-relative target. -/
  | jal (d : BitVec 5) (i : BitVec 20)
  /-- JR, R177. Writes PC + 4 to sd and jumps to sa[31:0] with bits 1:0 cleared. -/
  | jr (d : BitVec 5) (a : BitVec 5)
  /-- BPUSH, R183. Pushes a block address and a trip count to bq. -/
  | bpush (a : BitVec 5) (b : BitVec 5)
  /-- DPUSH, R184. Pushes sa to dq, releasing earlier steering accesses. -/
  | dpush (a : BitVec 5)
  /-- RPOP, R184. Pops the head of rq into sd. -/
  | rpop (d : BitVec 5)
  /-- EPOP, R185. Pops the head of eq into sd, waiting while eq is empty. -/
  | epop (d : BitVec 5)
  /-- EPOP_TRY, R185. Pops the head of eq into sd, or writes 0 when eq is empty. -/
  | epopTry (d : BitVec 5)
  /-- EPOP_MSG, R294. On a control core, pops a cq word into sd, waiting while cq is empty. -/
  | epopMsg (d : BitVec 5)
  /-- EPOP_MSG_TRY, R294. On a control core, pops a cq word into sd, or writes 0 when cq is empty. -/
  | epopMsgTry (d : BitVec 5)
  /-- WAITW, R161. Sleeps on a 64-bit buoy until its condition holds or the limit passes. -/
  | waitw (d : BitVec 5) (a : BitVec 5) (b : BitVec 5) (s : BitVec 2) (m : BitVec 2) (t : BitVec 6)
  /-- END, R191. Ends the task after draining; in supervisor mode, ends it as an abort (R192). -/
  | endTask
  /-- DCOLL, R164. Grants the next contiguous run of a TCM walk descriptor and advances it. -/
  | dcoll (d : BitVec 5) (a : BitVec 5) (b : BitVec 5)
  /-- COPY, R347. Issues a byte copy command to a copy-engine context. -/
  | copy (d : BitVec 5) (a : BitVec 5) (b : BitVec 5)
  /-- COPY_RST, R353. Resets a copy-engine context once its commands have finished. -/
  | copyRst (d : BitVec 5) (a : BitVec 5)
  /-- COPY2, R347. Issues a two-dimensional copy with optional transposition, padding and swizzle. -/
  | copy2 (d : BitVec 5) (a : BitVec 5) (b : BitVec 5)
  /-- FILL, R347. Issues a command that fills a two-dimensional region with PADV. -/
  | fill (d : BitVec 5) (a : BitVec 5) (b : BitVec 5)
  /-- SLABMOV, R359. Issues a command that doubles a key-value slab chunk by chunk into a new base. -/
  | slabmov (d : BitVec 5) (a : BitVec 5) (b : BitVec 5)
  /-- MDEC, R363. Issues a video decode command to a media context. -/
  | mdec (d : BitVec 5) (a : BitVec 5) (b : BitVec 5)
  /-- MRSZ, R364. Issues a resize command for a planar 4:2:0 frame. -/
  | mrsz (d : BitVec 5) (a : BitVec 5) (b : BitVec 5)
  /-- MDEC_RST, R353. Resets a media context and clears its decoder state. -/
  | mdecRst (d : BitVec 5) (a : BitVec 5)
  /-- CRED, R405. Issues a collective reduction command to a collective-engine context. -/
  | cred (d : BitVec 5) (a : BitVec 5) (b : BitVec 5)
  /-- CBCAST, R405. Issues a collective broadcast command. -/
  | cbcast (d : BitVec 5) (a : BitVec 5) (b : BitVec 5)
  /-- CRED_RST, R403. Resets a collective context and forgets its unfinished tags. -/
  | credRst (d : BitVec 5) (a : BitVec 5)
  /-- TLWAIT, R237. Waits until a timeline's COUNT reaches sb, the context fails, or the limit passes. -/
  | tlwait (d : BitVec 5) (a : BitVec 5) (b : BitVec 5) (t : BitVec 6)
  /-- TLREAD_COUNT, R237. Reads a timeline's COUNT and acquires as TLWAIT does. -/
  | tlreadCount (d : BitVec 5) (a : BitVec 5)
  /-- TLREAD_STATUS, R237. Reads a timeline's status word. -/
  | tlreadStatus (d : BitVec 5) (a : BitVec 5)
  /-- STRIN, R297. Creates a stream-in scoreboard entry that copies an image into place. -/
  | strin (d : BitVec 5) (a : BitVec 5) (b : BitVec 5) (x : BitVec 4) (c : BitVec 5)
  /-- STROUT, R298. Creates a stream-out entry that releases a stream once its kernels are DONE. -/
  | strout (d : BitVec 5) (a : BitVec 5) (b : BitVec 5) (x : BitVec 4) (c : BitVec 5)
  /-- LAUNCH, R299. On a control core, reads a launch block and creates a kernel scoreboard entry. -/
  | launch (d : BitVec 5) (a : BitVec 5) (b : BitVec 5) (x : BitVec 4)
  /-- LAUNCH_REQUEST, R300. On a task core, LAUNCH posts a KIND 0x10 message to the cluster's cq. -/
  | launchRequest (d : BitVec 5) (a : BitVec 5) (b : BitVec 5) (x : BitVec 5) (c : BitVec 5)
  /-- BARV, R320. Adds sb to a barrier counter as a release and returns the old value. -/
  | barv (d : BitVec 5) (a : BitVec 5) (b : BitVec 5)
  /-- BARW, R321. Waits until a barrier counter reaches sb or the limit passes. -/
  | barw (d : BitVec 5) (a : BitVec 5) (b : BitVec 5) (t : BitVec 6)
  /-- GARM, R324. Arms this core for one GMMA issued by the task at slot sa. -/
  | garm (a : BitVec 5) (b : BitVec 5)
  /-- GARM_OFF, R324. Withdraws a pending arm and reports whether one was withdrawn. -/
  | garmOff (d : BitVec 5)
  /-- FQSET, R316. Configures a feed queue and resets its positions. -/
  | fqset (a : BitVec 5) (b : BitVec 5) (q : BitVec 4)
  /-- FQSET_RD, R316. Reads a feed queue's HEAD and TAIL. -/
  | fqsetRd (d : BitVec 5) (q : BitVec 4)
  /-- FQSET_ADV, R317. Advances a feed queue's HEAD by up to n entries. -/
  | fqsetAdv (a : BitVec 5) (q : BitVec 4)
  /-- HCALL, R197. Raises the HCALL trap. -/
  | hcall
  /-- HRET, R197. Returns from a handler and resumes the convoy stream when it is halted. -/
  | hret
  /-- NAP, R197. Waits until eq or cq is not empty, a pre-emption request arrives, or a debug stop arrives. -/
  | nap
  /-- BRK, R198. Raises BRK with a code, or stops for the debug port when SDBG.BRKH = 1. -/
  | brk (i : BitVec 15)
  deriving DecidableEq, Repr, Inhabited

end Sys2Proof
end

