-- ==== Sys2Proof/Machine/State.lean ====
section
/-! DEFINITION. The state of the machine, as plain data, and its value at reset. -/

namespace Sys2Proof.Machine

/-! ## What can move -/

/-- What takes turns: the two streams of the focused core, the control core, and the hardware around them. -/
inductive Agent where
  | steer
  | convoy
  | control
  /-- The hardware around them: the events of the cluster and its cores that can come about. -/
  | hardware
  deriving DecidableEq, Repr, Inhabited

/-- A move an agenda asks for: on which core, and either an agent's next instruction or an event. The core's
cluster and die are the ones the event concerns. -/
structure Job where
  /-- The core, numbered through the package: 384 × die + 96 × cluster + core. -/
  unit : Nat
  /-- The agent that moves, when no event is named. -/
  agent : Agent
  /-- The event that comes about. -/
  event : Option Instr
  deriving DecidableEq, Repr, Inhabited

/-! ## Memory -/

/-- The byte memory of the whole machine: address and byte, in rising order of address, none listing the byte that
an unlisted address reads as (0). The keys of Machine/Ops.lean place every space in it. -/
abbrev Memory := List Host.Cell

/-- What an address that memory does not list reads as. DESIGN CHOICE: log entry 2. -/
def unlistedByte : Byte := 0

/-- The canonical form of memory. -/
def Memory.wf (m : Memory) : Bool := spWf unlistedByte m

/-! ## Steering state (08_core_steering.md R167, R194, R195, R199; 09_core_memory.md R216, R234) -/

/-- The kinds of scalar access. -/
inductive AccKind where
  | load
  | store
  /-- An atomic with the operation code of R217. -/
  | amo (op : BitVec 3)
  | cas
  deriving DecidableEq, Repr, Inhabited

/-- A translation a TLB holds (09_core_memory.md R232). -/
structure TlbEntry where
  asid : BitVec 16
  /-- The first virtual address of the page. -/
  base : Nat
  /-- The page size, as a power of two. -/
  bits : Nat
  /-- The leaf entry. -/
  entry : Word
  deriving DecidableEq, Repr, Inhabited

/-- A scalar access that has issued and is not complete (R216): one whose home is another package. -/
structure OutAcc where
  kind : AccKind
  /-- The register that receives the value. -/
  rd : BitVec 5
  /-- Where the bytes are. -/
  key : Nat
  /-- The size in bytes. -/
  size : Nat
  /-- The value a store or an atomic brings. -/
  data : Word
  /-- The value a CAS expects. -/
  expect : Word
  /-- The virtual address, for a fault. -/
  va : Word
  /-- The steering PC of the instruction, for a fault. -/
  pc : BitVec 32
  /-- Its page has ATTR = 3: accesses of such pages keep their order (09_core_memory.md R231). -/
  device : Bool
  /-- The translation that gave its place (09_core_memory.md R234). -/
  via : TlbEntry
  /-- The access has been performed at its home. -/
  performed : Bool
  /-- The value read. -/
  value : Word
  deriving DecidableEq, Repr, Inhabited

/-- What a double trap leaves for the stream controller (R202). -/
structure DoubleTrap where
  cause : Word
  tval : Word
  epc : BitVec 32
  deriving DecidableEq, Repr, Inhabited

/-- The state of a steering processor: of a task core's steering stream, and of a control core. -/
structure Steer where
  pc : BitVec 32
  /-- s1 to s31; s0 is never listed. -/
  regs : Sp Word
  /-- STATUS.MODE: supervisor. -/
  mode : Bool
  pmode : Bool
  chalt : Bool
  tpend : Bool
  cbksup : Bool
  bksup : Bool
  /-- CAUSE.CSTRM. -/
  causeStrm : Bool
  /-- CAUSE.CODE. -/
  causeCode : BitVec 8
  tval : Word
  epc : BitVec 32
  tvec : BitVec 32
  sscr : Word
  htbase : BitVec 57
  htlen : BitVec 32
  ptroot : Word
  mfinfo : BitVec 8
  /-- SBKPT0 to SBKPT3. -/
  sbkpt : Sp (BitVec 32)
  sdbg : BitVec 2
  /-- Loads, stores and atomics outstanding, oldest first. -/
  outs : List OutAcc
  /-- The address of the lowest-numbered store that was discarded (19_fabric.md R401). -/
  failedStore : Option Word
  /-- The limit of the wait at PC has passed. -/
  expired : Bool
  /-- An instruction has retired under SDBG.SSTEP, and its trap is still to be taken (08_core_steering.md R199). -/
  stepped : Bool
  /-- Halted by a double trap. -/
  dead : Option DoubleTrap
  /-- Stopped by a debug stop. -/
  stopped : Bool
  /-- A debugger is attached: each trap stops the core at its handler's entry (07_prog_alias.md R166). -/
  attached : Bool
  deriving DecidableEq, Repr, Inhabited

/-- A steering processor as reset and task issue leave it (R167, R194, R195, R234). DESIGN CHOICE: log entry 3. -/
def Steer.reset : Steer :=
  { pc := 0, regs := [], mode := false, pmode := false, chalt := false, tpend := false, cbksup := false,
    bksup := false, causeStrm := false, causeCode := 0, tval := 0, epc := 0, tvec := 0, sscr := 0, htbase := 0,
    htlen := 0, ptroot := 0, mfinfo := 0xE0, sbkpt := [], sdbg := 0, outs := [], failedStore := none,
    expired := false, stepped := false, dead := none, stopped := false, attached := false }

/-! ## The task core -/

/-- The identity of a task and what the stream controller loads with it (01_levels.md R23, 14_cluster.md R313). -/
structure Task where
  /-- MODEL: the number of the task in order of placement, by which agents of the cluster and engines name it; 0 when
  no task was placed. -/
  serial : Nat
  wid : Word
  widmax : Word
  widlayout : Word
  dbase : Word
  cbase : Word
  stbase : Word
  stlen : BitVec 32
  clen : BitVec 32
  cwaddr : Word
  gslot : Word
  barwin : Word
  lhandle : Word
  deriving DecidableEq, Repr, Inhabited

/-- No task: every field 0. DESIGN CHOICE: log entry 3. -/
def Task.reset : Task :=
  { serial := 0, wid := 0, widmax := 0, widlayout := 0, dbase := 0, cbase := 0, stbase := 0, stlen := 0, clen := 0, cwaddr := 0,
    gslot := 0, barwin := 0, lhandle := 0 }

/-- A block entry of bq (08_core_steering.md R181). -/
structure BqEntry where
  addr : BitVec 32
  trips : BitVec 32
  deriving DecidableEq, Repr, Inhabited

/-- The four queues of a core (R181), and the events that wait for room in eq (R182). -/
structure Queues where
  bq : List BqEntry
  dq : List Word
  rq : List Word
  eq : List Word
  posts : List Word
  deriving DecidableEq, Repr, Inhabited

/-- Empty queues. -/
def Queues.reset : Queues := { bq := [], dq := [], rq := [], eq := [], posts := [] }

/-- The states of the convoy stream (05_convoy.md R135). -/
inductive ConvState where
  | idle
  | run
  | halted
  deriving DecidableEq, Repr, Inhabited

/-- A convoy that has issued and has not retired (R111). -/
structure Flight where
  /-- The words of its members. -/
  words : List Instr
  /-- The next element of its E and P members. -/
  next : Nat
  /-- The next element of its VCAPP. -/
  capp : Nat
  /-- The next element of its LBLEND, LRUNG.LD or LRUNG.ST. -/
  lk : Nat
  /-- A lane word of its VISSUE stands unfinished, on the pipe of this code. -/
  mid : Option Nat
  /-- The members that have completed. -/
  done : BitVec 4
  /-- Convoy-scalar writes that land when it retires. -/
  kout : List (Nat × Word)
  /-- rq entries pushed when it retires. -/
  rqout : List Word
  /-- The active elements that its VISSUE has latched, at 0, and those that a VISSUE word of it has, at the word
  (06_issue.md R148). -/
  latched : List (Nat × List Nat) := []
  /-- Writes of the debug port that reach what it has latched when it is no longer in flight (03_plane.md R76): k0 to k7 at
  0 to 7, VTYPE, VL, VMT and VCTL at 8 to 11, MSIZE, MROWP, MCOLP and MXSCL at 12 to 15, and v0 to v63 at 64 to 127. -/
  late : List (Nat × Word) := []
  deriving DecidableEq, Repr, Inhabited

/-- What a block becomes: its metadata word, and the bits and flags of each participating element (04_numbers.md R98,
05_convoy.md R130). -/
structure Block where
  word : Nat
  codes : List (Nat × Nat × BitVec 8)
  deriving DecidableEq, Repr, Inhabited

/-- A convoy whose VLDSLAB has performed every element and waits to retire, for room in eq (16_die.md R358): the event,
and what lands when it retires. -/
structure Parked where
  event : Word
  kout : List (Nat × Word)
  rqout : List Word
  deriving DecidableEq, Repr, Inhabited

/-- The causes of 08_core_steering.md R200, with those of the chapters it names. -/
inductive Cause where
  | fetch | illegalWord | illegalStream | privilege | convoyForm | convoyStructure | convoyAlias
  | shapeOff | shapeType | shapeLength | planeGated | shapeDef
  | arithNV | arithDZ | arithOF | arithUF | arithSAT | arithIDX | arithNX
  | issueLane | feedOff | dcollDesc
  | memAlign | memRange | memProt | memXlate | memData | memAttr | memSpace | tlCtx
  | matOff | matView
  | ladCfg | ladOff | ladRange | ladMem
  | queueDeadlock | queueArg | hcall | brk | sbreak | sstep | cbreak | cstep
  | barRange | gangArm | fqArg
  deriving DecidableEq, Repr, Inhabited

/-- A trap of the convoy stream that has reached its trap point and is still to be taken, after the SSTEP that goes before
it (08_core_steering.md R201), or at the next boundary. -/
structure Due where
  cause : Cause
  tval : Word
  mf : Option (BitVec 8)
  deriving DecidableEq, Repr, Inhabited

/-- The convoy stream of a core. -/
structure Conv where
  /-- VTYPE: LA, SAT, RM, TYPE (03_plane.md R66). -/
  vtype : BitVec 8
  vl : BitVec 14
  vmt : BitVec 2
  vctl : BitVec 8
  vflags : BitVec 8
  /-- VSTART.K. -/
  startK : BitVec 14
  /-- VSTART.DONE. -/
  startDone : BitVec 4
  /-- VSTART.LK. -/
  startLk : BitVec 13
  vispos : Word
  vskew : BitVec 4
  cpc : BitVec 32
  cblk : BitVec 32
  lc : BitVec 32
  cmem : BitVec 2
  st : ConvState
  /-- k0 to k7. -/
  k : Sp Word
  /-- m1 to m7: bit i of mask m at key 8192 m + i. -/
  masks : Sp Bool
  /-- v0 to v63. -/
  table : Sp Word
  /-- Cell (r, c) at key 64 r + c. -/
  plane : Sp Cell32
  planepwr : BitVec 16
  /-- CBKPT0 to CBKPT3. -/
  cbkpt : Sp (BitVec 32)
  cdbg : Bool
  /-- The members read so far of the convoy at CPC. -/
  forming : List Instr
  flight : Option Flight
  /-- Convoys that wait to retire while later ones issue, oldest first. -/
  parked : List Parked
  /-- The trap that stands at the boundary of the stream, still to be taken (08_core_steering.md R201). -/
  trapDue : Option Due
  /-- The address of the lowest-numbered store of the stream that was discarded (19_fabric.md R401). -/
  failedStore : Option Word
  /-- The keys that the unordered store of the convoy has written so far. -/
  stored : List Nat
  /-- The pages that the VLDSLAB of the convoy has missed, and its entry's address (16_die.md R358). -/
  missed : List Nat
  missEntry : Word
  /-- The limit of the VWAIT in flight has passed. -/
  expired : Bool
  /-- The block that the convoy is converting, as it converts at the element in hand. -/
  block : Option Block
  /-- MODEL: while arms and shares stand, the cells that convoys have written since the first GARM, latest first
  (14_cluster.md R328). -/
  wrote : Option (List Nat)
  deriving DecidableEq, Repr, Inhabited

/-- The convoy stream as task issue leaves it; VSKEW as core reset does. -/
def Conv.reset : Conv :=
  { vtype := 0, vl := 0, vmt := 3, vctl := 0, vflags := 0, startK := 0, startDone := 0, startLk := 0, vispos := 0,
    vskew := 0, cpc := 0, cblk := 0, lc := 0, cmem := 0, st := .idle, k := [], masks := [], table := [],
    plane := [], planepwr := 0, cbkpt := [], cdbg := false, forming := [], flight := none,
    parked := [], trapDue := none, failedStore := none, stored := [], missed := [], missEntry := 0, expired := false, block := none, wrote := none }

/-- The trace registers and the open frame of a core (05_convoy.md R143, R145). -/
structure Trace where
  ltrc : BitVec 10
  ltrbase : BitVec 32
  /-- LTRSIZE.N. -/
  n : BitVec 32
  /-- LTRSIZE.PTR. -/
  ptr : BitVec 32
  /-- The bytes of the open frame's records. -/
  frame : List Byte
  /-- TS of the open frame, and the time of its last record. -/
  ts : Word
  last : Word
  seq : BitVec 16
  /-- Records dropped since the previous frame, and LOST of the open frame. -/
  lost : BitVec 32
  frameLost : BitVec 32
  /-- The records of the open frame, and the place of the last one among records of one time (R144). -/
  count : Nat
  lastKey : Nat
  deriving DecidableEq, Repr, Inhabited

/-- No tracing. -/
def Trace.reset : Trace :=
  { ltrc := 0, ltrbase := 0, n := 0, ptr := 0, frame := [], ts := 0, last := 0, seq := 0, lost := 0, frameLost := 0,
    count := 0, lastKey := 0 }

/-- The matrix unit (10_core_matrix.md R248, R254). -/
structure Matrix where
  /-- MSTAT.EN. -/
  en : Bool
  msize : BitVec 26
  mrowp : Word
  mcolp : Word
  mxscl : Word
  /-- Element (i, j) of slab n at key 4096 n + 64 i + j. -/
  acc : Sp (BitVec 32)
  deriving DecidableEq, Repr, Inhabited

/-- The matrix unit at task issue. -/
def Matrix.reset : Matrix :=
  { en := false, msize := 0, mrowp := 0, mcolp := 0, mxscl := 0x7FC00000_0000007F, acc := [] }

/-- The ladder of a core (11_core_ladder.md R265, R268, R270, R275). -/
structure Ladder where
  lcfgr : Word
  lcnt : Word
  /-- LCARRY.ERR. -/
  err : Bool
  /-- LCARRY.ACT. -/
  act : Bool
  /-- LCARRY.LVL. -/
  lvl : BitVec 5
  /-- The chain's tile T while the unit holds it; absent when it must be reloaded from the carry slot. -/
  tile : Option (Sp (BitVec 32))
  /-- The SPAD offset of the granule that stopped the chain. -/
  fault : BitVec 25
  /-- MODEL: a write of LCNT or LCARRY since LCFG has not described the area (R268). -/
  wild : Bool
  deriving DecidableEq, Repr, Inhabited

/-- The ladder at task issue: not configured. -/
def Ladder.reset : Ladder :=
  { lcfgr := 0, lcnt := 0, err := false, act := false, lvl := 0, tile := none, fault := 0, wild := false }

/-- A share of a GMMA at a participant, its issuer included, that has not completed (14_cluster.md R325 to R327): what
the multicast brings, and the arm it consumed. -/
structure Share where
  /-- The issuer's core, numbered through the package. -/
  issuer : Nat
  /-- The issuer's task, by its serial. -/
  issuerTask : Nat
  issuerSlot : BitVec 7
  /-- The position of the participant in the issuer's window; 8 for the issuer itself. -/
  pos : Nat
  /-- The index of the A shape in the participant's table. -/
  a : BitVec 6
  slab : BitVec 2
  /-- The relative barrier that receives the arrival, if one does. -/
  bar : Option (BitVec 5)
  vtype : BitVec 8
  msize : BitVec 26
  mrowp : Word
  mcolp : Word
  /-- The issuer's B view as latched: the bits of element (k, j) at key 64 k + j. -/
  b : Sp Nat
  /-- The convoy-text offset of the GMMA's convoy head. -/
  head : BitVec 32
  /-- MODEL: how many writes under arms had been noted at its GARM (14_cluster.md R328). -/
  mark : Nat
  /-- The share has ended; its arrival is still to come. -/
  ended : Bool
  /-- The events that are in eq before the arrival comes (15_prog_trio.md R336). -/
  events : List Word
  deriving DecidableEq, Repr, Inhabited

/-- The gang state of a core (14_cluster.md R324, R331). -/
structure Gang where
  gsel : BitVec 24
  /-- GARMST.CAUSE. -/
  armCause : BitVec 8
  /-- GARMST.ISLOT. -/
  armIslot : BitVec 7
  /-- GARMST.BAR. -/
  armBar : BitVec 5
  /-- GARMST.SLAB. -/
  armSlab : BitVec 2
  /-- GARMST.FAULT. -/
  armFault : Bool
  /-- GARMST.ARMED. -/
  armed : Bool
  gstat : BitVec 9
  /-- MODEL: how many writes under arms had been noted at the GARM of the arm (R328). -/
  armMark : Nat
  /-- Shares received and not complete, oldest first. -/
  shares : List Share
  deriving DecidableEq, Repr, Inhabited

/-- No arm. -/
def Gang.reset : Gang :=
  { gsel := 0, armCause := 0, armIslot := 0, armBar := 0, armSlab := 0, armFault := false, armed := false,
    gstat := 0, armMark := 0, shares := [] }

/-- What a core is doing, as the stream controller sees it (14_cluster.md R308, 03_plane.md R80, 08 R204). -/
inductive CoreRun where
  /-- No task, and TCM clear. -/
  | free
  /-- A task runs. -/
  | running
  /-- The task has ended and TCM is being cleared. -/
  | clearing
  /-- Halted for pre-emption; the context is not yet saved. -/
  | halted
  /-- The task is saved in the core's slot. -/
  | saved
  /-- A saved task is to be restored from the slot. -/
  | restoring
  deriving DecidableEq, Repr, Inhabited

/-- A task core. -/
structure Core where
  run : CoreRun
  /-- The lanes run at 1.05 GHz (01_levels.md R15). -/
  half : Bool
  /-- The rate ordered, taken at the next convoy boundary. -/
  halfNext : Bool
  /-- A pre-emption request stands (R204). -/
  preq : Bool
  /-- MODEL: how many elements at least a turn of the convoy stream runs of a convoy, or of a lane word of VISSUE, that a
  pre-emption request may stop inside; a VISSUE then runs one lane word to a turn (08_core_steering.md R205). With none a
  turn runs every convoy whole. -/
  pace : Option Nat
  steer : Steer
  task : Task
  q : Queues
  conv : Conv
  trace : Trace
  mat : Matrix
  lad : Ladder
  gang : Gang
  tlbS : List TlbEntry
  tlbV : List TlbEntry
  deriving DecidableEq, Repr, Inhabited

/-- A core after reset: no task. -/
def Core.reset : Core :=
  { run := .free, half := false, halfNext := false, preq := false, pace := none, steer := .reset, task := .reset, q := .reset, conv := .reset, trace := .reset,
    mat := .reset, lad := .reset, gang := .reset, tlbS := [], tlbV := [] }

/-! ## The cluster -/

/-- A launch block (14_cluster.md R295). -/
structure LaunchBlock where
  stbase : Word
  cbase : Word
  dbase : Word
  cwaddr : Word
  widlayout : Word
  widmax : Word
  deph : Word
  depv : Word
  ptroot : Word
  entry : BitVec 32
  stlen : BitVec 32
  clen : BitVec 32
  power : BitVec 16
  frame : BitVec 16
  prio : BitVec 8
  nbar : BitVec 8
  flags : BitVec 8
  fq : BitVec 8
  cmask : BitVec 8
  deriving DecidableEq, Repr, Inhabited

/-- A launch block of zeros, for the entries that have none. -/
def LaunchBlock.zero : LaunchBlock :=
  { stbase := 0, cbase := 0, dbase := 0, cwaddr := 0, widlayout := 0, widmax := 0, deph := 0, depv := 0, ptroot := 0,
    entry := 0, stlen := 0, clen := 0, power := 0, frame := 0, prio := 0, nbar := 0, flags := 0, fq := 0,
    cmask := 0 }

/-- The kinds of scoreboard entry (R302). -/
inductive EntryKind where
  | kernel
  | streamIn
  | streamOut
  | proxy
  deriving DecidableEq, Repr, Inhabited

/-- The states of a scoreboard entry (R304). -/
inductive EntryState where
  | waiting
  | ready
  | issuing
  | running
  | done
  deriving DecidableEq, Repr, Inhabited

/-- A scoreboard entry (R302 to R304). -/
structure Entry where
  kind : EntryKind
  st : EntryState
  /-- The launch context and the number on it; a proxy has none. -/
  ctx : Nat
  num : Nat
  /-- The order of creation, for age; a proxy's is its home entry's. -/
  age : Nat
  block : LaunchBlock
  /-- The stream entries a kernel names. -/
  streams : List Nat
  /-- The control core's PTROOT when a stream entry was created (R297). -/
  ptroot : Word
  /-- The control core's mode then. -/
  super : Bool
  /-- It ran under the firmware's tables, which map each physical address at the same GLOB address (18_package.md R372). -/
  direct : Bool
  src : Word
  dst : Word
  len : Nat
  /-- The timebase from which the flits of a stream copy compete as collectives, and that they do (19_fabric.md R398). -/
  deadline : Word
  promoted : Bool
  /-- The stream-in entry that a stream-out entry releases. -/
  target : Nat
  /-- A release of this stream-in entry is pending. -/
  releasing : Bool
  /-- The error code of a failed entry, 0 when it has not failed (R303). -/
  err : BitVec 8
  /-- Tasks ended, by the reports received (R305). -/
  ended : Nat
  /-- Tasks abandoned (R306). -/
  abandoned : Nat
  /-- A report came from an END in supervisor mode. -/
  aborted : Bool
  /-- The lowest unplaced group. -/
  next : Nat
  /-- The end of the groups this entry places: of the launch, or of the current share. -/
  upTo : Nat
  /-- The groups handed out as shares (R314). -/
  handed : Nat
  /-- The home cluster and entry of a proxy. -/
  home : Nat × Nat
  /-- Batches triggered (R318). -/
  triggered : Nat
  /-- The tasks of a feed launch that have ended, above those all of whose predecessors have. -/
  fedEnded : List Nat
  /-- Overdue (R310). -/
  overdue : Bool
  deriving DecidableEq, Repr, Inhabited

/-- Where a placed task stands. -/
inductive TaskPlace where
  | running
  /-- Saved in the core's context save slot. -/
  | saved
  /-- Copied to a parking slot (R312). -/
  | parked (slot : Nat)
  | ended
  /-- Abandoned after a double trap, with its cause (R306, R330). -/
  | abandoned (code : BitVec 8)
  deriving DecidableEq, Repr, Inhabited

/-- A task of a placed group. -/
structure GangTask where
  /-- The core, numbered through the package: its slot's entry of the map of R322. -/
  core : Nat
  wid : Word
  serial : Nat
  place : TaskPlace
  /-- MODEL: the failed stores that the two streams of a saved task have still to report (19_fabric.md R401). -/
  failedStore : Option Word
  convStore : Option Word := none
  /-- MODEL: what is kept of a saved task beside its image: the granule that stopped its chain, whether its LCNT and
  LCARRY have described its rungs, the cells written under its arm, and the trap of its convoy stream still to be taken. -/
  trapDue : Option Due := none
  fault : BitVec 25 := 0
  wild : Bool := false
  wrote : Option (List Nat) := none
  deriving DecidableEq, Repr, Inhabited

/-- A gang-level group that has been placed and has tasks left. -/
structure PlacedGroup where
  entry : Nat
  /-- Its number in enumeration order. -/
  index : Nat
  /-- The order of placement. -/
  order : Nat
  /-- The first barrier of each barrier group, absent once freed (R315, R319). -/
  bars : List (Option Nat)
  nbar : Nat
  /-- Tasks to a barrier group. -/
  perBar : Nat
  /-- mW to a task. -/
  power : Nat
  /-- Placed as overdue: at half rate until its tasks end. -/
  overdue : Bool
  /-- In slot order. -/
  tasks : List GangTask
  deriving DecidableEq, Repr, Inhabited

/-- The arrival of a share that has ended, whose task has left its core before the events of R336 were in eq
(14_cluster.md R327). -/
structure Arrival where
  /-- The participant's task, whose barrier it is, and the issuer's, by their serials. -/
  task : Nat
  issuer : Nat
  bar : BitVec 5
  events : List Word
  deriving DecidableEq, Repr, Inhabited

/-- A report that the stream controller of an entry's home has yet to count (R305, R306). -/
structure Report where
  /-- The home entry. -/
  entry : Nat
  /-- The task's number in enumeration order. -/
  task : Nat
  /-- The END was executed in supervisor mode. -/
  aborted : Bool
  deriving DecidableEq, Repr, Inhabited

/-- A feed queue (06_issue.md R154, R156; 14_cluster.md R316, R318). -/
structure FeedQueue where
  base : BitVec 25
  cap : BitVec 16
  vlfeed : BitVec 16
  even : Bool
  head : BitVec 32
  tail : BitVec 32
  /-- Crossings since the configuration. -/
  crossings : Nat
  /-- Entries written since the configuration, whose crossings are still to come: for each multiple of VLFEED that they
  reach, the task that wrote the entry below it, by its serial. -/
  written : List Nat
  /-- Entries written above the last such multiple. -/
  partialCount : Nat
  /-- The feed launch attached. -/
  attached : Option Nat
  deriving DecidableEq, Repr, Inhabited

/-- A feed queue after cluster reset: off. -/
def FeedQueue.reset : FeedQueue :=
  { base := 0, cap := 0, vlfeed := 0, even := false, head := 0, tail := 0, crossings := 0, written := [],
    partialCount := 0, attached := none }

/-- Where the shipped dispatcher stands in the handling of a record (18_package.md R374). -/
structure Dispatch where
  /-- DRBASE as it was last read. -/
  ring : Word
  /-- What is to be done for the record in hand: 0 to wait for one, 1 + t with t streams made, 6 the releases and STATUS,
  7 CONS. -/
  stage : Nat
  /-- The stream-in entries made, first first; from stage 6 on, those still to be released. -/
  made : List Nat
  /-- CODE and the kernel's number. -/
  code : BitVec 8
  number : Nat
  deriving DecidableEq, Repr, Inhabited

/-- A dispatcher that has read no ring. -/
def Dispatch.reset : Dispatch := { ring := 0, stage := 0, made := [], code := 0, number := 0 }

/-- A cluster. -/
structure Cluster where
  /-- The control core. -/
  ctl : Steer
  /-- MODEL: the GLOB base and the length of the control core's one text (14_cluster.md R292, 08 R203). -/
  ctlBase : Word
  ctlLen : BitVec 32
  /-- The cluster TLB (09 R232). -/
  tlb : List TlbEntry
  /-- The words of cq. -/
  cq : List Word
  /-- Messages that wait for room in cq (R293). -/
  cqPosts : List (List Word)
  entries : List (Nat × Entry)
  /-- The model's stamp of placements. -/
  stamp : Nat
  groups : List PlacedGroup
  /-- The barrier counters (R319). -/
  barriers : Sp Word
  feeds : List (Nat × FeedQueue)
  reports : List Report
  /-- Abandoned tasks of shares in other clusters that it has still to count, having stood still: the entry, and how many
  (18_package.md R390). -/
  lost : List (Nat × Nat)
  /-- Events for saved tasks whose saved eq is full (08 R209), by serial. -/
  eqPosts : List (Nat × Word)
  /-- Arrivals of tasks that have left their cores (R327). -/
  arrivals : List Arrival
  /-- Cores reserved for an entry, with the entry (R311). -/
  reserved : List (Nat × Nat)
  chtbase : BitVec 57
  chtlen : BitVec 32
  chentry : BitVec 32
  cparkBase : BitVec 57
  cparkN : BitVec 7
  /-- CGRANT.GRANT. -/
  grant : BitVec 32
  /-- The lanes of its cores are ordered to 1.05 GHz (18_package.md R378). -/
  half : Bool
  /-- A double trap of the control core: no new entries (R307). -/
  error : Bool
  /-- Messages of KIND 0x11 and 0x12 that the dispatcher has popped since the last CLLOG (18_package.md R374, R382). -/
  log : List (List Word)
  frozen : Bool
  /-- The control core runs the shipped dispatcher, whose text the spec does not give: what R374 says that it does, it does
  action by action. -/
  dispatch : Option Dispatch
  deriving DecidableEq, Repr, Inhabited

/-- A cluster after reset. -/
def Cluster.reset : Cluster :=
  { ctl := .reset, ctlBase := 0, ctlLen := 0, tlb := [], cq := [], cqPosts := [], entries := [], stamp := 0,
    groups := [], barriers := [], feeds := [], reports := [], lost := [], eqPosts := [], arrivals := [], reserved := [], chtbase := 0,
    chtlen := 0, chentry := 0, cparkBase := 0, cparkN := 0, grant := 0, half := false, error := false, log := [], frozen := false,
    dispatch := none }

/-! ## Engine contexts (09_core_memory.md R236; 16_die.md R341; 19_fabric.md R402) -/

/-- The commands of the engines. -/
inductive CmdOp where
  | copy
  | copy2
  | fill
  | slabmov
  | mdec
  | mrsz
  | cred
  | cbcast
  deriving DecidableEq, Repr, Inhabited

/-- What is watched for writes: a slab move that has begun and is not complete (16_die.md R359, R360), the rung area of a
ladder (11_core_ladder.md R285), or the scratchpads. -/
structure Watch where
  /-- The place of the slab entry; of the scratchpads and of a ladder, a number above every place. -/
  entry : Nat
  /-- The places that are watched, from the first, and how many; every place with none. -/
  within : Option (Nat × Nat)
  /-- The places that have been written since it began, but for its own writes. -/
  wrote : List Nat
  /-- The granule that stopped a ladder's chain, whose repair is no write of another (11_core_ladder.md R275). -/
  spare : Option Nat
  /-- Another has written the rung area: the ladder's values are unspecified (11_core_ladder.md R285). -/
  broken : Bool
  deriving DecidableEq, Repr, Inhabited

/-- The number of the watch over the scratchpads. -/
def spadWatch : Nat := 2 ^ 80 - 1

/-- The watch over the scratchpads: every byte that has been written since cluster reset, but for those whose rung or carry
slot a chain has used up (11_core_ladder.md R268, R273; 14_cluster.md R291). -/
def Watch.spads : Watch := ⟨spadWatch, some (2 ^ 62, 24 * 2 ^ 25), [], none, false⟩

/-- An unfinished command. -/
structure Cmd where
  op : CmdOp
  num : Nat
  /-- The 64 bytes of its descriptor, the first lowest. -/
  desc : Nat
  /-- The issuer's PTROOT and mode (R344). -/
  ptroot : Word
  super : Bool
  /-- The serial of the task that issued it; none for a control core. -/
  task : Option Nat
  /-- The timebase from which its flits compete as collectives, and that they do (19_fabric.md R398). -/
  deadline : Word
  promoted : Bool
  /-- The lowest command of the context that was unfinished when this one issued (16_die.md R349). -/
  since : Nat
  /-- A collective: another unfinished command of the package had its tag when it issued (19_fabric.md R407). -/
  clash : Bool
  /-- A SLABMOV that has begun (16_die.md R359): the 32 bytes of the entry as it found them, the next chunk, and whether
  that chunk is locked. -/
  move : Option (Nat × Nat × Bool)
  deriving DecidableEq, Repr, Inhabited

/-- An asynchronous context: of a copy engine, a media pipe, a collective engine or a stream controller. -/
structure Context where
  count : Word
  failed : Bool
  err : BitVec 8
  /-- The number the next command takes. -/
  next : Nat
  /-- Unfinished commands, in number order. -/
  cmds : List Cmd
  /-- Finished commands above COUNT, with their error codes, 0 for success. -/
  finished : List (Nat × BitVec 8)
  /-- Bytes as they were before a finished command wrote them, with its number and the place, while a command is
  unfinished that issued before that one finished: it may read them (16_die.md R349). -/
  undo : List (Nat × Nat × Byte)
  /-- The running CRC of a copy context. -/
  crcr : BitVec 32
  /-- The decoder state of a media context, 0 when it holds no stream. -/
  decoder : Nat
  /-- The TLB of the context, newest first (16_die.md R344). -/
  tlb : List TlbEntry
  deriving DecidableEq, Repr, Inhabited

/-- A context after reset. -/
def Context.reset : Context :=
  { count := 0, failed := false, err := 0, next := 1, cmds := [], finished := [], undo := [], crcr := 0xFFFFFFFF, decoder := 0,
    tlb := [] }

/-! ## The die, the package and the fabric -/

/-- A compute die (16_die.md; 18_package.md R378 to R380, R390). -/
structure Die where
  frozen : Bool
  /-- The grant in force, W. -/
  grant : BitVec 16
  /-- A grant computed and not yet delivered. -/
  pending : Option (BitVec 16)
  /-- Consecutive cycles without a grant. -/
  missed : Nat
  /-- The junction temperature has reached 105 degrees and not fallen below 100. -/
  hot : Bool
  /-- Die-store words with a corrected error that is not yet written back (R340). -/
  corrected : List Nat
  deriving DecidableEq, Repr, Inhabited

/-- A die after reset. DESIGN CHOICE: log entry 69. -/
def Die.reset : Die :=
  { frozen := false, grant := 0, pending := none, missed := 0, hot := false, corrected := [] }

/-- The package's registers and service core (18_package.md R371, R372, R382 to R391). -/
structure Pkg where
  bootFail : BitVec 4
  bootState : BitVec 4
  clerr : BitVec 24
  preqDie : BitVec 8
  preqClus : BitVec 8
  preqCore : BitVec 8
  preqBusy : Bool
  preqDone : Bool
  /-- The serials of the tasks that the request in progress names. -/
  preqTasks : List Nat
  clhold : BitVec 24
  plimit : BitVec 16
  frzScope : BitVec 2
  frzDie : BitVec 3
  frzClus : BitVec 2
  mbArg : BitVec 32
  mbCmd : BitVec 8
  mbLen : BitVec 32
  mbBusy : Bool
  mbDone : Bool
  mbCode : BitVec 8
  drbase : Sp Word
  pgrant : Sp Word
  /-- MSI-X vectors signalled. -/
  msix : BitVec 4
  debugEn : Bool
  /-- Power is removed from the compute dies (R380). -/
  cutOff : Bool
  /-- The package has lost its power, which a reset brings back. -/
  unpowered : Bool
  /-- MODEL: the code with which an image that a power loss left half written fails verification, 0 with none (R385). -/
  flashFail : BitVec 4
  /-- The package is frozen (R390). -/
  frozen : Bool
  /-- The fused security version, and the running image's SVN and VERSION (R384). -/
  fusedSvn : BitVec 32
  svn : BitVec 32
  version : BitVec 32
  /-- The words of the capability list, from block offset 0x100 (R381). -/
  caps : List Word
  /-- HBM locations with a corrected error that is not yet written back (R376). -/
  corrected : List Nat
  /-- The two HDM decoders: the base and the size in host memory of decoder d at keys 2 d and 2 d + 1 (R369). -/
  hdm : Sp Word
  /-- The contexts of the package, by the upper half of their handles. -/
  contexts : List (Nat × Context)
  /-- MODEL: the last number given to a task at its placement or to a scoreboard entry at its creation. -/
  serials : Nat
  deriving DecidableEq, Repr, Inhabited

/-- The package after reset. DESIGN CHOICE: log entry 65. -/
def Pkg.reset : Pkg :=
  { bootFail := 0, bootState := 0, clerr := 0, preqDie := 0, preqClus := 0, preqCore := 0, preqBusy := false,
    preqDone := false, preqTasks := [], clhold := 0, plimit := 4400, frzScope := 0, frzDie := 0, frzClus := 0,
    mbArg := 0, mbCmd := 0, mbLen := 0, mbBusy := false, mbDone := false, mbCode := 0, drbase := [], pgrant := [],
    msix := 0, debugEn := false, cutOff := false, unpowered := false, flashFail := 0, frozen := false, fusedSvn := 0, svn := 0, version := 0, caps := [],
    corrected := [], hdm := [], contexts := [], serials := 0 }

/-- A flit (19_fabric.md R395). -/
structure Flit where
  seq : BitVec 12
  ack : BitVec 12
  nak : Bool
  tc : BitVec 3
  /-- HDR[63:28]: routing and framing. -/
  route : BitVec 36
  /-- The 240 bytes of the payload, the first lowest. -/
  payload : BitVec 1920
  deriving DecidableEq, Repr, Inhabited

/-- A fabric port (19_fabric.md R394 to R396). -/
structure Port where
  state : BitVec 2
  width : BitVec 4
  peer : BitVec 12
  replay : BitVec 32
  /-- The number of the next flit to receive. -/
  expected : BitVec 12
  /-- A NAK stands: flits are dropped until the one expected arrives. -/
  dropping : Bool
  /-- The flit last replayed, and its consecutive replays. -/
  replayed : BitVec 12
  replays : Nat
  /-- The number of the next flit to send, and the flits kept for replay, at most 512, oldest first. -/
  next : BitVec 12
  held : List Flit
  /-- How many of them, from the oldest, the other end has acknowledged. -/
  acked : Nat
  /-- The flit to refuse in the next flit sent. -/
  refused : Option (BitVec 12)
  deriving DecidableEq, Repr, Inhabited

/-- A port after reset: down. -/
def Port.reset : Port :=
  { state := 0, width := 0, peer := 0xFFF, replay := 0, expected := 0, dropping := false, replayed := 0,
    replays := 0, next := 0, held := [], acked := 0, refused := none }

/-- The package's fabric registers and ports (19_fabric.md R394). -/
structure Fab where
  dmax : BitVec 12
  pkg : BitVec 12
  offh : BitVec 16
  ctmo : BitVec 16
  tmo : BitVec 16
  master : Bool
  ofs : BitVec 32
  /-- The correction of the tick rate, in ppm (R408). -/
  rate : Int
  ports : List (Nat × Port)
  deriving DecidableEq, Repr, Inhabited

/-- The fabric registers after reset. -/
def Fab.reset : Fab :=
  { dmax := 0, pkg := 0xFFF, offh := 500, ctmo := 100, tmo := 2000, master := false, ofs := 0, rate := 0,
    ports := [] }

/-! ## The machine -/

/-- The state of the machine. One core, with its cluster and its die, is in focus: the agent that moves belongs to
it. The other cores, clusters and dies stand in lists; one that a list does not hold is as reset left it. -/
structure State where
  /-- The model's counter of free values. -/
  tick : Nat
  /-- The package timebase at its last read (18_package.md R389). -/
  time : Nat
  /-- The moves to come; with none, the agents of the focused core take turns. -/
  agenda : List Job
  agent : Agent
  /-- The instruction that moved last did not retire: it waits. -/
  stalled : Bool
  coreId : Nat
  core : Core
  cores : List (Nat × Core)
  cluster : Cluster
  clusters : List (Nat × Cluster)
  die : Die
  dies : List (Nat × Die)
  pkg : Pkg
  fab : Fab
  mem : Memory
  /-- The 8-byte granules that hold an uncorrectable error, by the key of their first byte (R229). -/
  poison : List Nat
  /-- MODEL: what is watched for writes (11_core_ladder.md R268, R285; 16_die.md R360). -/
  watches : List Watch
  deriving DecidableEq, Repr, Inhabited

/-- The machine right after reset. -/
def State.reset : State :=
  { tick := 0, time := 0, agenda := [], agent := .control, stalled := false, coreId := 0, core := .reset, cores := [],
    cluster := .reset, clusters := [], die := .reset, dies := [], pkg := .reset, fab := .reset, mem := [],
    poison := [], watches := [Watch.spads] }

/-- Why the machine stops with a fault. -/
inductive Fault where
  /-- Raised by no instruction of the present model: every fault the spec describes is a trap and a next state.
  Safe: it could only stop the machine where the hardware goes on. -/
  | none
  deriving DecidableEq, Repr, Inhabited

/-- Why an instruction has no next state. -/
inductive Refusal where
  /-- Raised by the dispatcher for an instruction that has no meaning yet. Safe: the machine stops. -/
  | notModelled (mnemonic : String)
  deriving DecidableEq, Repr, Inhabited

end Sys2Proof.Machine
end

