-- ==== Sys2Proof/Machine/Flags.lean ====
section
/-! DEFINITION. The sticky flags, their enables and the trap each one raises (04_numbers.md R101, R104), and the
causes of traps (08_core_steering.md R200). -/

namespace Sys2Proof.Machine

/-! ## The flags of VFLAGS -/

/-- A set of flags, one bit each, in the order of R101. -/
abbrev FlagSet := BitVec 8

/-- Invalid operation. -/
def flagNV : FlagSet := 0x01
/-- Division by zero, or a pole. -/
def flagDZ : FlagSet := 0x02
/-- Overflow. -/
def flagOF : FlagSet := 0x04
/-- Underflow. -/
def flagUF : FlagSet := 0x08
/-- Inexact. -/
def flagNX : FlagSet := 0x10
/-- Clamped. -/
def flagSAT : FlagSet := 0x20
/-- Index out of range. -/
def flagIDX : FlagSet := 0x40
/-- Illegal lane word. -/
def flagISS : FlagSet := 0x80

/-- A flag when a condition holds, and none otherwise. -/
def flagIf (c : Bool) (f : FlagSet) : FlagSet := if c then f else 0

/-! ## The causes of traps -/

/-- The cause codes (R200; R226, R262, R282, R283, R333). -/
def Cause.code : Cause → BitVec 8
  | .fetch => 0x01
  | .illegalWord => 0x02
  | .illegalStream => 0x03
  | .privilege => 0x04
  | .convoyForm => 0x05
  | .convoyStructure => 0x06
  | .convoyAlias => 0x07
  | .shapeOff => 0x08
  | .shapeType => 0x09
  | .shapeLength => 0x0A
  | .planeGated => 0x0B
  | .shapeDef => 0x0C
  | .arithNV => 0x10
  | .arithDZ => 0x11
  | .arithOF => 0x12
  | .arithUF => 0x13
  | .arithSAT => 0x14
  | .arithIDX => 0x15
  | .arithNX => 0x16
  | .issueLane => 0x18
  | .feedOff => 0x19
  | .dcollDesc => 0x1A
  | .memAlign => 0x20
  | .memRange => 0x21
  | .memProt => 0x22
  | .memXlate => 0x23
  | .memData => 0x24
  | .memAttr => 0x25
  | .memSpace => 0x26
  | .tlCtx => 0x27
  | .matOff => 0x28
  | .matView => 0x29
  | .ladCfg => 0x2C
  | .ladOff => 0x2D
  | .ladRange => 0x2E
  | .ladMem => 0x2F
  | .queueDeadlock => 0x30
  | .queueArg => 0x31
  | .hcall => 0x32
  | .brk => 0x33
  | .sbreak => 0x34
  | .sstep => 0x35
  | .cbreak => 0x36
  | .cstep => 0x37
  | .barRange => 0x38
  | .gangArm => 0x39
  | .fqArg => 0x3A

/-- The cause of an arithmetic trap: the first enabled flag raised, in the order NV, DZ, OF, UF, SAT, IDX, NX (R104);
none when no flag of the set is enabled. -/
def arithCause (raised enables : FlagSet) : Option Cause :=
  let f := raised &&& enables
  if f &&& flagNV ≠ 0 then some .arithNV
  else if f &&& flagDZ ≠ 0 then some .arithDZ
  else if f &&& flagOF ≠ 0 then some .arithOF
  else if f &&& flagUF ≠ 0 then some .arithUF
  else if f &&& flagSAT ≠ 0 then some .arithSAT
  else if f &&& flagIDX ≠ 0 then some .arithIDX
  else if f &&& flagNX ≠ 0 then some .arithNX
  else none

end Sys2Proof.Machine
end

