-- ==== Sys2Proof/Machine/Float.lean ====
section
/-! DEFINITION. Floating-point values and formats: decoding, exact arithmetic, and the one rounding into a format
(04_numbers.md R93 to R100, R110; 05_convoy.md R122, R123). A value is exact until a rounding turns it into bits. -/

namespace Sys2Proof.Machine

/-! ## Formats (R93) -/

/-- A floating-point format: the widths of its exponent and fraction, and whether its all-ones exponent holds only
NaN, as in E4M3. -/
structure Fmt where
  ebits : Nat
  fbits : Nat
  /-- All codes of the top exponent but the last are normal numbers, and there is no infinity (E4M3). -/
  narrow : Bool
  deriving DecidableEq, Repr, Inhabited

def fp32 : Fmt := ⟨8, 23, false⟩
def fp16 : Fmt := ⟨5, 10, false⟩
def bf16 : Fmt := ⟨8, 7, false⟩
def e4m3 : Fmt := ⟨4, 3, true⟩
def e5m2 : Fmt := ⟨5, 2, false⟩

/-- The width of a format in bits. -/
def Fmt.width (f : Fmt) : Nat := 1 + f.ebits + f.fbits

/-- The exponent bias. -/
def Fmt.bias (f : Fmt) : Int := 2 ^ (f.ebits - 1) - 1

/-- The least exponent of a normal number. -/
def Fmt.emin (f : Fmt) : Int := 1 - f.bias

/-- The exponent of the last place of a subnormal number. -/
def Fmt.qmin (f : Fmt) : Int := f.emin - f.fbits

/-- The bits of the largest finite magnitude. -/
def Fmt.maxRaw (f : Fmt) : Nat :=
  if f.narrow then 2 ^ (f.ebits + f.fbits) - 2 else (2 ^ f.ebits - 1) * 2 ^ f.fbits - 1

/-- The bits of the default NaN (R95). -/
def Fmt.nanRaw (f : Fmt) : Nat :=
  if f.narrow then 2 ^ (f.ebits + f.fbits) - 1 else (2 ^ f.ebits - 1) * 2 ^ f.fbits + 2 ^ (f.fbits - 1)

/-- The bits of an infinity; the default NaN where the format has none (R99). -/
def Fmt.infRaw (f : Fmt) (neg : Bool) : Nat :=
  if f.narrow then f.nanRaw
  else (if neg then 2 ^ (f.ebits + f.fbits) else 0) + (2 ^ f.ebits - 1) * 2 ^ f.fbits

/-- The bits of a magnitude with a sign. -/
def Fmt.signed (f : Fmt) (neg : Bool) (mag : Nat) : Nat := (if neg then 2 ^ (f.ebits + f.fbits) else 0) + mag

/-! ## Values -/

/-- A floating-point value: NaN (signaling or quiet), an infinity, or the exact number (-1)^neg × mant × 2^exp. -/
inductive FVal where
  | nan (signaling : Bool)
  | inf (neg : Bool)
  | fin (neg : Bool) (mant : Nat) (exp : Int)
  deriving DecidableEq, Repr, Inhabited

/-- The value of the bits of a format (R93, R95). -/
def Fmt.decode (f : Fmt) (raw : Nat) : FVal :=
  let neg := raw / 2 ^ (f.ebits + f.fbits) % 2 == 1
  let e := raw / 2 ^ f.fbits % 2 ^ f.ebits
  let m := raw % 2 ^ f.fbits
  if e = 2 ^ f.ebits - 1 ∧ f.narrow = false then
    if m = 0 then .inf neg else .nan (decide (m < 2 ^ (f.fbits - 1)))
  else if e = 2 ^ f.ebits - 1 ∧ m = 2 ^ f.fbits - 1 then .nan false
  else if e = 0 then .fin neg m f.qmin
  else .fin neg (2 ^ f.fbits + m) (f.qmin + e - 1)

/-- The exact value of an integer. -/
def FVal.ofInt (n : Int) : FVal := .fin (decide (n < 0)) n.natAbs 0

/-- Signaling NaN. -/
def FVal.isSnan : FVal → Bool
  | .nan sg => sg
  | _ => false

def FVal.isNan : FVal → Bool
  | .nan _ => true
  | _ => false

/-- A zero. -/
def FVal.isZero : FVal → Bool
  | .fin _ 0 _ => true
  | _ => false

def FVal.isInf : FVal → Bool
  | .inf _ => true
  | _ => false

def FVal.isNeg : FVal → Bool
  | .nan _ => false
  | .inf n => n
  | .fin n _ _ => n

/-- The value with its sign inverted. -/
def FVal.neg : FVal → FVal
  | .nan s => .nan s
  | .inf n => .inf (!n)
  | .fin n m e => .fin (!n) m e

/-! ## Rounding (R94, R99) -/

/-- The rounding modes of VTYPE.RM. -/
def rmNearest : Nat := 0

/-- Whether a magnitude `n` and a remainder round up: `cmp` compares the remainder with half a unit
(0 below, 1 equal, 2 above), `exact` says that there is none. -/
def roundsUp (rm : Nat) (neg : Bool) (n cmp : Nat) (exact : Bool) : Bool :=
  if exact then false
  else match rm with
    | 0 => cmp == 2 || (cmp == 1 && n % 2 == 1)
    | 1 => false
    | 2 => !neg
    | _ => neg

/-- The integer part of m × 2^(-shift), how the remainder compares with a half, and whether it is zero. `sticky` says
that the true magnitude lies strictly between m and m + 1. -/
def splitAt (m shift : Nat) (sticky : Bool) : Nat × Nat × Bool :=
  let n := m / 2 ^ shift
  let r := m % 2 ^ shift
  if shift = 0 then (n, 0, !sticky)
  else
    let h := 2 ^ (shift - 1)
    (n, if r < h then 0 else if r = h ∧ sticky = false then 1 else 2, r == 0 && !sticky)

/-- A magnitude m × 2^e rounded at the last place 2^q: the count of last places, and whether it was exact. -/
def roundPlace (rm : Nat) (neg : Bool) (m : Nat) (e q : Int) (sticky : Bool) : Nat × Bool :=
  if q ≤ e then
    let n := m * 2 ^ (e - q).toNat
    let up := roundsUp rm neg n 0 (!sticky)
    (if up then n + 1 else n, !sticky)
  else
    let (n, cmp, exact) := splitAt m (q - e).toNat sticky
    (if roundsUp rm neg n cmp exact then n + 1 else n, exact)

/-- An overflowed magnitude of a sign (R99). -/
def overflowRaw (f : Fmt) (rm : Nat) (sat neg : Bool) : Nat × FlagSet :=
  if sat && decide (f.width = 8) then (f.signed neg f.maxRaw, flagSAT ||| flagNX)
  else
    let toMax := match rm with
      | 0 => false
      | 1 => true
      | 2 => neg
      | _ => !neg
    (if toMax then f.signed neg f.maxRaw else f.infRaw neg, flagOF ||| flagNX)

/-- The non-zero magnitude m × 2^e (just above it, when `sticky`) rounded once into a format: the bits and the flags.
Tininess is detected after rounding. -/
def roundMag (f : Fmt) (rm : Nat) (sat neg : Bool) (m : Nat) (e : Int) (sticky : Bool) : Nat × FlagSet :=
  let top : Int := e + (Nat.log2 m : Int)
  let q : Int := max (top - f.fbits) f.qmin
  let (n, exact) := roundPlace rm neg m e q sticky
  let mag : Nat := (q - f.qmin).toNat * 2 ^ f.fbits + n
  if f.maxRaw < mag then overflowRaw f rm sat neg
  else
    let wide := (roundPlace rm neg m e (top - f.fbits) sticky).1
    let tiny := decide (top < f.emin) && !(decide (top = f.emin - 1) && wide == 2 ^ (f.fbits + 1))
    (f.signed neg mag, flagIf (!exact) flagNX ||| flagIf (!exact && tiny) flagUF)

/-- round(x, F) of R8: an exact value rounded once into a format, with its flags. A NaN gives the default NaN; an
infinity keeps its sign, and into an FP8 format follows R99. -/
def roundTo (f : Fmt) (rm : Nat) (sat : Bool) (x : FVal) : Nat × FlagSet :=
  match x with
  | .nan _ => (f.nanRaw, 0)
  | .inf neg =>
    if sat && decide (f.width = 8) then (f.signed neg f.maxRaw, flagSAT)
    else if f.narrow then (f.nanRaw, flagNV)
    else (f.infRaw neg, 0)
  | .fin neg m e => if m = 0 then (f.signed neg 0, 0) else roundMag f rm sat neg m e false

/-- round(x, F) of an exact value that is one ulp of m × 2^e or less above it. -/
def roundSticky (f : Fmt) (rm : Nat) (sat neg : Bool) (m : Nat) (e : Int) (sticky : Bool) : Nat × FlagSet :=
  if m = 0 then
    if sticky then roundMag f rm sat neg 1 (e - 1) true else (f.signed neg 0, 0)
  else roundMag f rm sat neg m e sticky

/-- A signaling NaN among the operands sets NV (R95). -/
def snanFlags (l : List FVal) : FlagSet := flagIf (l.any FVal.isSnan) flagNV

/-! ## Exact sums and products -/

/-- The exact number of a sign, a magnitude and an exponent, as a signed integer at a common exponent. -/
def alignTo (neg : Bool) (m : Nat) (e q : Int) : Int :=
  let v : Int := m * 2 ^ (e - q).toNat
  if neg then -v else v

/-- The exact sum of two finite numbers. The sign of an exact zero follows the rounding mode: minus only when both are
minus zero, or toward minus infinity when the signs differ. -/
def addFin (rm : Nat) (n1 : Bool) (m1 : Nat) (e1 : Int) (n2 : Bool) (m2 : Nat) (e2 : Int) : FVal :=
  let q := min e1 e2
  let v := alignTo n1 m1 e1 q + alignTo n2 m2 e2 q
  if v = 0 then .fin (if n1 = n2 then n1 else rm == 3) 0 0
  else .fin (decide (v < 0)) v.natAbs q

/-- The exact sum of two values, with the flags of an invalid sum. -/
def addVal (rm : Nat) (x y : FVal) : FVal × FlagSet :=
  match x, y with
  | .nan _, _ => (.nan false, snanFlags [x, y])
  | _, .nan _ => (.nan false, snanFlags [x, y])
  | .inf a, .inf b => if a = b then (.inf a, 0) else (.nan false, flagNV)
  | .inf a, _ => (.inf a, 0)
  | _, .inf b => (.inf b, 0)
  | .fin n1 m1 e1, .fin n2 m2 e2 => (addFin rm n1 m1 e1 n2 m2 e2, 0)

/-- The exact product of two values, with the flags of an invalid product. -/
def mulVal (x y : FVal) : FVal × FlagSet :=
  match x, y with
  | .nan _, _ => (.nan false, snanFlags [x, y])
  | _, .nan _ => (.nan false, snanFlags [x, y])
  | .inf a, .inf b => (.inf (a != b), 0)
  | .inf a, .fin b m _ => if m = 0 then (.nan false, flagNV) else (.inf (a != b), 0)
  | .fin a m _, .inf b => if m = 0 then (.nan false, flagNV) else (.inf (a != b), 0)
  | .fin n1 m1 e1, .fin n2 m2 e2 => (.fin (n1 != n2) (m1 * m2) (e1 + e2), 0)

/-- The value times a power of two, exactly. -/
def scaleVal (x : FVal) (k : Int) : FVal :=
  match x with
  | .fin n m e => .fin n m (e + k)
  | v => v

/-- The order of two values that are not NaN, with -0 equal to +0: 0 less, 1 equal, 2 greater. -/
def cmpVal (x y : FVal) : Nat :=
  match x, y with
  | .inf a, .inf b => if a = b then 1 else if a then 0 else 2
  | .inf a, _ => if a then 0 else 2
  | _, .inf b => if b then 2 else 0
  | .fin n1 m1 e1, .fin n2 m2 e2 =>
    let q := min e1 e2
    let v := alignTo n1 m1 e1 q - alignTo n2 m2 e2 q
    if v < 0 then 0 else if v = 0 then 1 else 2
  | _, _ => 1

/-! ## The operations of R122 -/

/-- How an operation rounds: the format, the mode and saturation of VTYPE. -/
structure Rnd where
  fmt : Fmt
  rm : Nat
  sat : Bool
  deriving DecidableEq, Repr, Inhabited

/-- A value with flags rounded once. -/
def Rnd.finish (r : Rnd) (v : FVal × FlagSet) : Nat × FlagSet :=
  let (raw, fl) := roundTo r.fmt r.rm r.sat v.1
  (raw, v.2 ||| fl)

/-- x + y. -/
def fAdd (r : Rnd) (x y : FVal) : Nat × FlagSet := r.finish (addVal r.rm x y)
/-- x - y. -/
def fSub (r : Rnd) (x y : FVal) : Nat × FlagSet := r.finish (addVal r.rm x y.neg)
/-- x × y. -/
def fMul (r : Rnd) (x y : FVal) : Nat × FlagSet := r.finish (mulVal x y)

/-- x × y + z with one rounding; a 0 × ∞ product sets NV even when z is a quiet NaN. -/
def fFma (r : Rnd) (x y z : FVal) : Nat × FlagSet :=
  let (p, f1) := mulVal x y
  let (v, f2) := addVal r.rm p z
  r.finish (v, f1 ||| f2)

/-- The lesser or the greater of two values given with their bits, -0 < +0; a NaN gives the default NaN. -/
def fMinMax (f : Fmt) (greater : Bool) (x y : FVal) (xr yr : Nat) : Nat × FlagSet :=
  if x.isNan || y.isNan then (f.nanRaw, snanFlags [x, y])
  else
    let c := cmpVal x y
    let xLess := c == 0 || (c == 1 && x.isNeg && !y.isNeg)
    (if greater then (if xLess then yr else xr) else (if xLess then xr else yr), 0)

/-- The quotient of two non-zero finite magnitudes, with enough places for one rounding into the format. -/
def divMag (f : Fmt) (m1 m2 : Nat) : Nat × Nat × Bool :=
  let k := f.fbits + 4 + Nat.log2 m2
  let n := m1 * 2 ^ k
  (n / m2, k, n % m2 != 0)

/-- x / y. -/
def fDiv (r : Rnd) (x y : FVal) : Nat × FlagSet :=
  match x, y with
  | .nan _, _ => (r.fmt.nanRaw, snanFlags [x, y])
  | _, .nan _ => (r.fmt.nanRaw, snanFlags [x, y])
  | .inf _, .inf _ => (r.fmt.nanRaw, flagNV)
  | .inf a, .fin b _ _ => (r.fmt.infRaw (a != b), 0)
  | .fin a _ _, .inf b => (r.fmt.signed (a != b) 0, 0)
  | .fin a m1 e1, .fin b m2 e2 =>
    if m2 = 0 then
      if m1 = 0 then (r.fmt.nanRaw, flagNV) else (r.fmt.infRaw (a != b), flagDZ)
    else if m1 = 0 then (r.fmt.signed (a != b) 0, 0)
    else
      let (q, k, sticky) := divMag r.fmt m1 m2
      roundSticky r.fmt r.rm r.sat (a != b) q (e1 - e2 - k) sticky

/-- The kind of a value (VFKIND): 0 zero, 1 subnormal, 2 normal, 3 infinity, 4 quiet NaN, 5 signaling NaN. -/
def kindOf (f : Fmt) (raw : Nat) : Nat :=
  match f.decode raw with
  | .nan sg => if sg then 5 else 4
  | .inf _ => 3
  | .fin _ m _ => if m = 0 then 0 else if raw / 2 ^ f.fbits % 2 ^ f.ebits = 0 then 1 else 2

/-! ## Square roots -/

/-- The integer square root, bit by bit from bit `i - 1` down. -/
def isqrtBits (n : Nat) : Nat → Nat → Nat
  | 0, r => r
  | i + 1, r => if (r + 2 ^ i) * (r + 2 ^ i) ≤ n then isqrtBits n i (r + 2 ^ i) else isqrtBits n i r

/-- The integer square root. -/
def isqrt (n : Nat) : Nat := isqrtBits n (Nat.log2 n / 2 + 1) 0

/-- √x. -/
def fSqrt (r : Rnd) (x : FVal) : Nat × FlagSet :=
  match x with
  | .nan sg => (r.fmt.nanRaw, flagIf sg flagNV)
  | .inf neg => if neg then (r.fmt.nanRaw, flagNV) else (r.fmt.infRaw false, 0)
  | .fin neg m e =>
    if m = 0 then (r.fmt.signed neg 0, 0)
    else if neg then (r.fmt.nanRaw, flagNV)
    else
      let k := 2 * (r.fmt.fbits + 4) + (if e % 2 = 0 then 0 else 1)
      let n := m * 2 ^ k
      let q := isqrt n
      roundSticky r.fmt r.rm r.sat false q ((e - k) / 2) (q * q != n)

/-- 1/√x. -/
def fRsqrt (r : Rnd) (x : FVal) : Nat × FlagSet :=
  match x with
  | .nan sg => (r.fmt.nanRaw, flagIf sg flagNV)
  | .inf neg => if neg then (r.fmt.nanRaw, flagNV) else (r.fmt.signed false 0, 0)
  | .fin neg m e =>
    if m = 0 then (r.fmt.infRaw neg, flagDZ)
    else if neg then (r.fmt.nanRaw, flagNV)
    else
      -- 2^(2t) / (m 2^e') with e' even, then its root
      let m' := if e % 2 = 0 then m else 2 * m
      let e' := if e % 2 = 0 then e else e - 1
      let t := r.fmt.fbits + 6 + Nat.log2 m'
      let n := 2 ^ (2 * t) / m'
      let q := isqrt n
      roundSticky r.fmt r.rm r.sat false q (-(t : Int) - e' / 2) (q * q * m' != 2 ^ (2 * t))

/-! ## The functions of R123 that are irrational almost everywhere

Each is computed in fixed point with `fxP` fraction bits, far more than any format needs: the result is within 2^fxErr
units of the last place of the true value, and both ends of that interval round alike. -/

/-- Fraction bits of the fixed-point evaluation. -/
def fxP : Nat := 640

/-- The error bound of the evaluation, as a power of two of its last place. -/
def fxErr : Nat := 40

/-- One. -/
def fxOne : Nat := 2 ^ fxP

/-- Σ over k of 1/(k 2^k), the natural logarithm of 2. -/
def fxLn2Sum : Nat → Nat
  | 0 => 0
  | k + 1 => fxOne / ((k + 1) * 2 ^ (k + 1)) + fxLn2Sum k

/-- ln 2. -/
def fxLn2 : Nat := fxLn2Sum 660

/-- Σ y^k/k! from term k on, given term k. -/
def fxExpSum (y : Nat) : Nat → Nat → Nat → Nat
  | 0, _, _ => 0
  | n + 1, k, term => term + fxExpSum y n (k + 1) (term * y / fxOne / (k + 1))

/-- e^y for 0 ≤ y < 1. -/
def fxExp (y : Nat) : Nat := fxExpSum y 170 0 fxOne

/-- Σ (-1)^k z^(2k+1)/(2k+1) with the sign of each term given by `alt`: arctangent, or its hyperbolic kin. -/
def fxOddSum (alt : Bool) (z2 : Nat) : Nat → Nat → Nat → Int
  | 0, _, _ => 0
  | n + 1, k, p =>
    let t : Int := p / (2 * k + 1)
    (if alt && k % 2 == 1 then -t else t) + fxOddSum alt z2 n (k + 1) (p * z2 / fxOne)

/-- ln m for 1 ≤ m < 2, by 2 artanh((m-1)/(m+1)). -/
def fxLn (m : Nat) : Nat :=
  let z := (m - fxOne) * fxOne / (m + fxOne)
  (2 * fxOddSum false (z * z / fxOne) 210 0 z).toNat

/-- arctan(1/d). -/
def fxAtanInv (d : Nat) : Int := fxOddSum true (fxOne / (d * d)) 300 0 (fxOne / d)

/-- π, by Machin's formula. -/
def fxPi : Nat := (16 * fxAtanInv 5 - 4 * fxAtanInv 239).toNat

/-- Σ (-1)^k y^(2k+1)/(2k+1)! from term k on, given its magnitude. -/
def fxSinSum (y2 : Nat) : Nat → Nat → Nat → Int
  | 0, _, _ => 0
  | n + 1, k, p =>
    (if k % 2 = 1 then -(p : Int) else p) + fxSinSum y2 n (k + 1) (p * y2 / fxOne / ((2 * k + 2) * (2 * k + 3)))

/-- sin y for 0 ≤ y ≤ 2. -/
def fxSin (y : Nat) : Nat := (fxSinSum (y * y / fxOne) 110 0 y).toNat

/-- A magnitude m × 2^e in fixed point, rounded down. -/
def fxOf (m : Nat) (e : Int) : Nat :=
  let k : Int := e + fxP
  if 0 ≤ k then m * 2 ^ k.toNat else m / 2 ^ (-k).toNat

/-- A fixed-point approximation times 2^e rounded once: the lower end of its error interval, taken as inexact. -/
def fxRound (r : Rnd) (neg : Bool) (v : Nat) (e : Int) : Nat × FlagSet :=
  roundSticky r.fmt r.rm r.sat neg (v - 2 ^ fxErr) (e - fxP) true

/-- e^(-y) for y ≥ 0 in fixed point. -/
def fxExpNeg (y : Nat) : Nat :=
  let n := y / fxLn2
  let f := y - n * fxLn2
  fxOne * fxOne / fxExp f / 2 ^ n

/-- The floor of m × 2^e with a sign, and the fraction above it in fixed point. -/
def fxSplit (neg : Bool) (m : Nat) (e : Int) : Int × Nat :=
  let v : Int := if neg then -(fxOf m e : Int) else fxOf m e
  (v / fxOne, (v % fxOne).toNat)

/-- The magnitude m × 2^e is an integer. -/
def isWhole (m : Nat) (e : Int) : Bool := decide (0 ≤ e) || m % 2 ^ (-e).toNat == 0

/-- 2^x. UNVERIFIED: log entry 21. -/
def fExp2 (r : Rnd) (x : FVal) : Nat × FlagSet :=
  match x with
  | .nan sg => (r.fmt.nanRaw, flagIf sg flagNV)
  | .inf neg => if neg then (r.fmt.signed false 0, 0) else (r.fmt.infRaw false, 0)
  | .fin neg m e =>
    if m = 0 then roundTo r.fmt r.rm r.sat (.fin false 1 0)
    else if 12 ≤ e + (Nat.log2 m : Int) then
      -- |x| ≥ 4,096: beyond every format
      roundSticky r.fmt r.rm r.sat false 1 (if neg then -4096 else 4096) (!isWhole m e)
    else
      let (n, f) := fxSplit neg m e
      if isWhole m e then roundTo r.fmt r.rm r.sat (.fin false 1 n)
      else fxRound r false (fxExp (f * fxLn2 / fxOne)) n

/-- log₂ x. UNVERIFIED: log entry 21. -/
def fLog2 (r : Rnd) (x : FVal) : Nat × FlagSet :=
  match x with
  | .nan sg => (r.fmt.nanRaw, flagIf sg flagNV)
  | .inf neg => if neg then (r.fmt.nanRaw, flagNV) else (r.fmt.infRaw false, 0)
  | .fin neg m e =>
    if m = 0 then (r.fmt.infRaw true, flagDZ)
    else if neg then (r.fmt.nanRaw, flagNV)
    else
      let k := Nat.log2 m
      let n : Int := e + k
      if m = 2 ^ k then roundTo r.fmt r.rm r.sat (if n = 0 then .fin false 0 0 else .ofInt n)
      else
        let l : Int := fxLn (m * 2 ^ (fxP - k)) * fxOne / fxLn2
        let v : Int := n * fxOne + l
        fxRound r (decide (v < 0)) v.natAbs 0

/-- sin(π x). -/
def fSinPi (r : Rnd) (x : FVal) : Nat × FlagSet :=
  match x with
  | .nan sg => (r.fmt.nanRaw, flagIf sg flagNV)
  | .inf _ => (r.fmt.nanRaw, flagNV)
  | .fin neg m e =>
    if m = 0 ∨ isWhole m e then (r.fmt.signed neg 0, 0)
    else
      -- the magnitude modulo 2, in fixed point; it is not whole, so e < 0 and it is below 2^24
      let a := fxOf m e % (2 * fxOne)
      let flip := decide (fxOne ≤ a)
      let b := if flip then a - fxOne else a
      let c := if fxOne < 2 * b then fxOne - b else b
      if 2 * c = fxOne then roundTo r.fmt r.rm r.sat (.fin (neg != flip) 1 0)
      else fxRound r (neg != flip) (fxSin (c * fxPi / fxOne)) 0

/-- tanh x. -/
def fTanh (r : Rnd) (x : FVal) : Nat × FlagSet :=
  match x with
  | .nan sg => (r.fmt.nanRaw, flagIf sg flagNV)
  | .inf neg => roundTo r.fmt r.rm r.sat (.fin neg 1 0)
  | .fin neg m e =>
    if m = 0 then (r.fmt.signed neg 0, 0)
    else if 7 ≤ e + (Nat.log2 m : Int) then
      roundSticky r.fmt r.rm r.sat neg (2 ^ 64 - 1) (-64) true
    else
      let t := fxExpNeg (2 * fxOf m e)
      fxRound r neg ((fxOne - t) * fxOne / (fxOne + t)) 0

/-- 1/(1 + e^(-x)). -/
def fSigm (r : Rnd) (x : FVal) : Nat × FlagSet :=
  match x with
  | .nan sg => (r.fmt.nanRaw, flagIf sg flagNV)
  | .inf neg => if neg then (r.fmt.signed false 0, 0) else roundTo r.fmt r.rm r.sat (.fin false 1 0)
  | .fin neg m e =>
    if m = 0 then roundTo r.fmt r.rm r.sat (.fin false 1 (-1))
    else if 8 ≤ e + (Nat.log2 m : Int) then
      if neg then roundSticky r.fmt r.rm r.sat false 1 (-369) true
      else roundSticky r.fmt r.rm r.sat false (2 ^ 64 - 1) (-64) true
    else
      let t := fxExpNeg (fxOf m e)
      fxRound r false ((if neg then t else fxOne) * fxOne / (fxOne + t)) 0

/-- 1/x: ±0 gives ±∞ and DZ; ±∞ gives ±0. -/
def fRcp (r : Rnd) (x : FVal) : Nat × FlagSet := fDiv r (.fin false 1 0) x

/-! ## Conversion to integers (R100) -/

/-- An integer type: its width and whether it is signed. -/
structure IntTy where
  width : Nat
  signed : Bool
  deriving DecidableEq, Repr, Inhabited

/-- The least value. -/
def IntTy.lo (t : IntTy) : Int := if t.signed then -(2 ^ (t.width - 1)) else 0
/-- The greatest value. -/
def IntTy.hi (t : IntTy) : Int := if t.signed then 2 ^ (t.width - 1) - 1 else 2 ^ t.width - 1
/-- The value of the bits. -/
def IntTy.value (t : IntTy) (raw : Nat) : Int :=
  if t.signed ∧ 2 ^ (t.width - 1) ≤ raw then (raw : Int) - 2 ^ t.width else raw
/-- The bits of a value, modulo 2^width. -/
def IntTy.bits (t : IntTy) (v : Int) : Nat := (v % 2 ^ t.width).toNat
/-- The nearest value of the type, and whether it was clamped. -/
def IntTy.clamp (t : IntTy) (v : Int) : Nat × Bool :=
  if v < t.lo then (t.bits t.lo, true) else if t.hi < v then (t.bits t.hi, true) else (t.bits v, false)

/-- A floating-point value converted to an integer type under a rounding mode. -/
def floatToInt (t : IntTy) (rm : Nat) (x : FVal) : Nat × FlagSet :=
  match x with
  | .nan _ => (0, flagNV)
  | .inf neg => (t.bits (if neg then t.lo else t.hi), flagNV)
  | .fin neg m e =>
    -- far above every type: clamp without forming the number
    if m ≠ 0 ∧ 70 ≤ e + (Nat.log2 m : Int) then (t.bits (if neg then t.lo else t.hi), flagNV)
    else
      let (n, exact) := roundPlace rm neg m e 0 false
      let v : Int := if neg then -(n : Int) else n
      let (raw, clamped) := t.clamp v
      if clamped then (raw, flagNV) else (raw, flagIf (!exact) flagNX)

end Sys2Proof.Machine
end

