-- ==== Sys2Proof/WellFormed.lean ====
section
/-! DEFINITION. What makes an instruction well formed: the conditions that a word's own description puts on its
operands beyond the fields of its encoding row, each of which raises ILLEGAL-WORD (02_encoding.md R36). -/

namespace Sys2Proof

/-- The CSR numbers that only a task core has; on a control core they raise ILLEGAL-STREAM (R180, R331). -/
def csrTaskOnly (n : Nat) : Bool :=
  decide (n ≤ 0x007) || n == 0x00A || n == 0x00B || (decide (0x010 ≤ n) && decide (n ≤ 0x023))
    || n == 0x02D || n == 0x02E || (decide (0x038 ≤ n) && decide (n ≤ 0x042))
    || (decide (0x050 ≤ n) && decide (n ≤ 0x06F)) || (decide (0x070 ≤ n) && decide (n ≤ 0x076))

/-- The CSR numbers that only a control core has; on a task core they raise ILLEGAL-STREAM (R332). -/
def csrControlOnly (n : Nat) : Bool := decide (0x078 ≤ n) && decide (n ≤ 0x07E)

/-- The assigned CSR numbers (R179, R234, R254, R268, R331, R332). -/
def csrAssigned (n : Nat) : Bool :=
  decide (n ≤ 0x00B) || (decide (0x010 ≤ n) && decide (n ≤ 0x018)) || (decide (0x020 ≤ n) && decide (n ≤ 0x023))
    || (decide (0x028 ≤ n) && decide (n ≤ 0x034)) || (decide (0x038 ≤ n) && decide (n ≤ 0x03C))
    || (decide (0x040 ≤ n) && decide (n ≤ 0x042)) || (decide (0x048 ≤ n) && decide (n ≤ 0x04A))
    || (decide (0x050 ≤ n) && decide (n ≤ 0x054)) || (decide (0x060 ≤ n) && decide (n ≤ 0x062))
    || (decide (0x070 ≤ n) && decide (n ≤ 0x076)) || csrControlOnly n

/-- A scope code of R217: 6 and 7 are not assigned. -/
def scopeOk (e : BitVec 3) : Bool := decide (e.toNat ≤ 5)

/-- A type code of R50 that names a type. -/
def typeOk (t : Nat) : Bool := decide (t < 14)

/-- The conditions on the operands of an instruction. -/
def Instr.wf (i : Instr) : Bool :=
  match i with
  | .vfadd _ _ _ _ _ => true
  | .vfsub _ _ _ _ _ => true
  | .vfmul _ _ _ _ _ => true
  | .vfmin _ _ _ _ _ => true
  | .vfmax _ _ _ _ _ => true
  | .vfdiv _ _ _ _ _ => true
  | .vfaddK _ _ _ _ _ _ => true
  | .vfsubK _ _ _ _ _ _ => true
  | .vfmulK _ _ _ _ _ _ => true
  | .vfminK _ _ _ _ _ _ => true
  | .vfmaxK _ _ _ _ _ _ => true
  | .vfdivK _ _ _ _ _ _ => true
  | .vfneg _ _ _ _ => true
  | .vfabs _ _ _ _ => true
  | .vfcpys _ _ _ _ _ => true
  | .vfcpysn _ _ _ _ _ => true
  | .vfkind _ _ _ _ => true
  | .vfma _ _ _ _ _ => true
  | .vfnma _ _ _ _ _ => true
  | .vfms _ _ _ _ _ => true
  | .vfnms _ _ _ _ _ => true
  | .vfmaK _ _ _ _ _ => true
  | .vfnmaK _ _ _ _ _ => true
  | .vfmsK _ _ _ _ _ => true
  | .vfnmsK _ _ _ _ _ => true
  | .vfsqrt _ _ _ _ => true
  | .vfrsqrt _ _ _ _ => true
  | .vfrcp _ _ _ _ => true
  | .vfexp2 _ _ _ _ => true
  | .vflog2 _ _ _ _ => true
  | .vfsinpi _ _ _ _ => true
  | .vftanh _ _ _ _ => true
  | .vfsigm _ _ _ _ => true
  | .vadd _ _ _ _ _ => true
  | .vsub _ _ _ _ _ => true
  | .vmul _ _ _ _ _ => true
  | .vmin _ _ _ _ _ => true
  | .vmax _ _ _ _ _ => true
  | .vdiv _ _ _ _ _ => true
  | .vrem _ _ _ _ _ => true
  | .vaddK _ _ _ _ _ _ => true
  | .vsubK _ _ _ _ _ _ => true
  | .vmulK _ _ _ _ _ _ => true
  | .vminK _ _ _ _ _ _ => true
  | .vmaxK _ _ _ _ _ _ => true
  | .vdivK _ _ _ _ _ _ => true
  | .vremK _ _ _ _ _ _ => true
  | .vaddi _ _ _ _ => true
  | .vrsubi _ _ _ _ => true
  | .vmuli _ _ _ _ => true
  | .vmini _ _ _ _ => true
  | .vmaxi _ _ _ _ => true
  | .vand _ _ _ _ _ => true
  | .vor _ _ _ _ _ => true
  | .vxor _ _ _ _ _ => true
  | .vandn _ _ _ _ _ => true
  | .vsll _ _ _ _ _ => true
  | .vsrl _ _ _ _ _ => true
  | .vsra _ _ _ _ _ => true
  | .vmov _ _ _ _ => true
  | .vandi _ _ _ _ => true
  | .vori _ _ _ _ => true
  | .vxori _ _ _ _ => true
  | .vli _ _ _ _ => true
  | .vslli _ _ _ _ => true
  | .vsrli _ _ _ _ => true
  | .vsrai _ _ _ _ => true
  | .vsadd _ _ _ _ _ => true
  | .vssub _ _ _ _ _ => true
  | .vmulh _ _ _ _ _ => true
  | .vavg _ _ _ _ _ => true
  | .vceq d _ _ _ _ => decide (d ≠ 0)  -- R126
  | .vcne d _ _ _ _ => decide (d ≠ 0)  -- R126
  | .vclt d _ _ _ _ => decide (d ≠ 0)  -- R126
  | .vcle d _ _ _ _ => decide (d ≠ 0)  -- R126
  | .vcgt d _ _ _ _ => decide (d ≠ 0)  -- R126
  | .vcge d _ _ _ _ => decide (d ≠ 0)  -- R126
  | .vcun d _ _ _ _ => decide (d ≠ 0)  -- R126
  | .vceqK d _ _ _ _ => decide (d ≠ 0)  -- R126
  | .vcneK d _ _ _ _ => decide (d ≠ 0)  -- R126
  | .vcltK d _ _ _ _ => decide (d ≠ 0)  -- R126
  | .vcleK d _ _ _ _ => decide (d ≠ 0)  -- R126
  | .vcgtK d _ _ _ _ => decide (d ≠ 0)  -- R126
  | .vcgeK d _ _ _ _ => decide (d ≠ 0)  -- R126
  | .vcunK d _ _ _ _ => decide (d ≠ 0)  -- R126
  | .vmand d _ _ _ _ => decide (d ≠ 0)  -- R127
  | .vmor d _ _ _ _ => decide (d ≠ 0)  -- R127
  | .vmxor d _ _ _ _ => decide (d ≠ 0)  -- R127
  | .vmandn d _ _ _ _ => decide (d ≠ 0)  -- R127
  | .vmnot d _ _ _ => decide (d ≠ 0)  -- R127
  | .vmset d _ _ => decide (d ≠ 0)  -- R127
  | .vmclr d _ _ => decide (d ≠ 0)  -- R127
  | .vsel _ _ _ _ _ => true
  | .vselz _ _ _ _ => true
  | .vcvt _ _ t _ _ => typeOk t.toNat  -- R129, R130
  | .vqnt _ _ t _ _ => typeOk t.toNat  -- R129, R130
  | .vdqnt _ _ t _ _ => typeOk t.toNat  -- R129, R130
  | .vgath _ _ _ _ _ => true
  | .vhead _ _ _ _ _ => true
  | .vtail _ _ _ _ _ => true
  | .vbcast _ _ _ _ => true
  | .vfredsum _ _ _ _ => true
  | .vfredsumw _ _ _ _ => true
  | .vfredmax _ _ _ _ => true
  | .vfredmin _ _ _ _ => true
  | .vredsum _ _ _ _ => true
  | .vredmax _ _ _ _ => true
  | .vredmin _ _ _ _ => true
  | .vraise _ _ _ _ _ => true
  | .vlower _ _ _ _ _ => true
  | .vbcastk _ _ _ _ => true
  | .vld _ _ _ _ _ _ => true
  | .vst _ _ _ _ _ _ => true
  | .vld2 _ _ k _ _ _ => decide (k ≠ 7)  -- R220
  | .vst2 _ _ k _ _ _ => decide (k ≠ 7)  -- R220
  | .vldx _ _ _ _ _ _ _ => true
  | .vstx _ _ _ _ _ _ _ => true
  | .vldslab _ _ t _ m _ => decide (t ≠ 0) && decide (t ≠ m)  -- R357
  | .vdef _ _ => true
  | .vtld _ => true
  | .vtst _ => true
  | .vsett i => typeOk (i.toNat % 16)  -- R69
  | .vlen _ => true
  | .vlenShape _ _ => true
  | .vsetmt _ => true
  | .vsetmtImm _ => true
  | .mma _ _ _ _ => true
  | .mmas _ _ _ _ => true
  | .men _ => true
  | .mdis _ => true
  | .mzero _ _ => true
  | .mshape _ _ => true
  | .mscl _ _ => true
  | .mextRow _ _ _ _ _ => true
  | .mextCol _ _ _ _ _ => true
  | .mextRect _ _ _ _ => true
  | .minsRow _ _ _ _ _ => true
  | .minsCol _ _ _ _ _ => true
  | .minsRect _ _ _ _ => true
  | .lstep _ _ => true
  | .lblend _ _ => true
  | .lrungLd _ _ _ => true
  | .lrungSt _ _ _ => true
  | .lrungLdK _ _ _ => true
  | .lrungStK _ _ _ => true
  | .lcfg _ _ => true
  | .lstatCnt _ _ => true
  | .lstatCarry _ _ => true
  | .lreset _ => true
  | .vissue d _ _ => decide (d ≠ 0)  -- R146
  | .vcapp _ _ _ _ => true
  | .vcappK _ _ _ _ => true
  | .vwait _ _ e _ m => decide (m ≠ 0) && decide (e ≠ 3)  -- R158
  | .gmma _ _ _ _ => true
  | .vbend => true
  | .vkadd _ _ _ _ => true
  | .vkaddK _ _ _ _ => true
  | .vkpop _ _ => true
  | .vkget _ _ _ => true
  | .vkpush _ _ => true
  | .vmpushCount _ _ => true
  | .vmpushFirst _ _ => true
  | .blockPop => true
  | .convoyIssue => true
  | .convoyRetire => true
  | .trapEntry => true
  | .queueDeadlock => true
  | .debugStop => true
  | .preemptionRequest => true
  | .contextSave => true
  | .contextRestore => true
  | .completionWordUpdate => true
  | .endReport => true
  | .taskAbandon => true
  | .loadDataArrival _ => true
  | .storeAcknowledged _ => true
  | .vectorElementArrival => true
  | .tableWalk _ _ => true
  | .monitoredLineWrite _ => true
  | .waitLimitExpiry => true
  | .timelineAdvance _ => true
  | .commandFailed _ _ => true
  | .carryChain => true
  | .entryReady _ => true
  | .fantailRun => true
  | .overdue _ => true
  | .priorityPreemption _ => true
  | .streamPumpTransfer _ => true
  | .streamOutCopy _ => true
  | .tcmClear => true
  | .feedCrossing _ => true
  | .gmmaMulticast => true
  | .gmmaShareCompletion => true
  | .planepwrWrite _ => true
  | .lcntWrite _ => true
  | .lcarryWrite _ => true
  | .gselWrite _ => true
  | .tlbinv _ => true
  | .fqadv _ => true
  | .clreset _ => true
  | .csrWrite _ _ => true
  | .clusterReset _ => true
  | .hostPreemptionRequest _ => true
  | .preqComplete => true
  | .clholdWrite _ => true
  | .plimitWrite _ => true
  | .freeze _ => true
  | .thaw _ => true
  | .freezeSignal _ => true
  | .debugPortAccess _ _ _ => true
  | .attest => true
  | .recover _ => true
  | .commitSvn => true
  | .cert => true
  | .cllog _ => true
  | .dbgen _ => true
  | .packageReset => true
  | .grantCycle => true
  | .grantDelivery _ => true
  | .missedGrants _ => true
  | .thermalThrottle _ => true
  | .thermalCutoff => true
  | .dieStoreScrub _ => true
  | .hbmScrub => true
  | .flitReceive _ _ _ => true
  | .nakReplay _ _ => true
  | .portRetrain _ => true
  | .portDown _ => true
  | .offloadPromotion => true
  | .remoteAccess _ => true
  | .remoteAccessTimeout _ => true
  | .collectiveMatch _ => true
  | .collectiveTimeout _ => true
  | .memberUnreachable _ => true
  | .timeMessage _ => true
  | .powerLoss => true
  | .unknownCommand _ => true
  | .cxlMemAccess _ _ _ => true
  | .spuriousWake => true
  | .crget _ c => csrAssigned c.toNat  -- R179
  | .crput _ c => csrAssigned c.toNat  -- R179
  | .crset _ c => csrAssigned c.toNat  -- R179
  | .crclr _ c => csrAssigned c.toNat  -- R179
  | .add _ _ _ => true
  | .sub _ _ _ => true
  | .and _ _ _ => true
  | .or _ _ _ => true
  | .xor _ _ _ => true
  | .sll _ _ _ => true
  | .srl _ _ _ => true
  | .sra _ _ _ => true
  | .slt _ _ _ => true
  | .sltn _ _ _ => true
  | .mul _ _ _ => true
  | .mulhs _ _ _ => true
  | .mulhn _ _ _ => true
  | .div _ _ _ => true
  | .divn _ _ _ => true
  | .rem _ _ _ => true
  | .remn _ _ _ => true
  | .addi _ _ _ => true
  | .andi _ _ _ => true
  | .ori _ _ _ => true
  | .xori _ _ _ => true
  | .slli _ _ _ => true
  | .srli _ _ _ => true
  | .srai _ _ _ => true
  | .slti _ _ _ => true
  | .sltin _ _ _ => true
  | .lui _ _ => true
  | .sext _ _ _ => true
  | .zext _ _ _ => true
  | .extr _ _ _ _ => true
  | .ins _ _ _ _ => true
  | .clz _ _ => true
  | .ctz _ _ => true
  | .popc _ _ => true
  | .ldb _ _ _ _ => true
  | .ldw _ _ _ _ => true
  | .ldd _ _ _ _ => true
  | .stb _ _ _ _ => true
  | .stw _ _ _ _ => true
  | .std _ _ _ _ => true
  | .amoswap _ _ _ e _ _ => scopeOk e  -- R217, R218
  | .amoadd _ _ _ e _ _ => scopeOk e  -- R217, R218
  | .amoand _ _ _ e _ _ => scopeOk e  -- R217, R218
  | .amoor _ _ _ e _ _ => scopeOk e  -- R217, R218
  | .amoxor _ _ _ e _ _ => scopeOk e  -- R217, R218
  | .amomax _ _ _ e _ _ => scopeOk e  -- R217, R218
  | .amomin _ _ _ e _ _ => scopeOk e  -- R217, R218
  | .amomaxu _ _ _ e _ _ => scopeOk e  -- R217, R218
  | .cas _ _ _ e _ _ => scopeOk e  -- R217, R218
  | .fence e q p => scopeOk e && decide (q ≠ 0) && decide (p ≠ 0)  -- R219
  | .cjEq _ _ _ => true
  | .cjNe _ _ _ => true
  | .cjLt _ _ _ => true
  | .cjGe _ _ _ => true
  | .cjLtn _ _ _ => true
  | .cjGen _ _ _ => true
  | .jal _ _ => true
  | .jr _ _ => true
  | .bpush _ _ => true
  | .dpush _ => true
  | .rpop _ => true
  | .epop _ => true
  | .epopTry _ => true
  | .epopMsg _ => true
  | .epopMsgTry _ => true
  | .waitw _ _ _ _ m _ => decide (m ≠ 3)  -- R161
  | .endTask => true
  | .dcoll _ _ _ => true
  | .copy _ _ _ => true
  | .copyRst _ _ => true
  | .copy2 _ _ _ => true
  | .fill _ _ _ => true
  | .slabmov _ _ _ => true
  | .mdec _ _ _ => true
  | .mrsz _ _ _ => true
  | .mdecRst _ _ => true
  | .cred _ _ _ => true
  | .cbcast _ _ _ => true
  | .credRst _ _ => true
  | .tlwait _ _ _ _ => true
  | .tlreadCount _ _ => true
  | .tlreadStatus _ _ => true
  | .strin _ _ _ _ _ => true
  | .strout _ _ _ _ _ => true
  | .launch _ _ _ _ => true
  | .launchRequest _ _ _ _ _ => true
  | .barv _ _ _ => true
  | .barw _ _ _ _ => true
  | .garm _ _ => true
  | .garmOff _ => true
  | .fqset _ _ _ => true
  | .fqsetRd _ _ => true
  | .fqsetAdv _ _ => true
  | .hcall => true
  | .hret => true
  | .nap => true
  | .brk _ => true

/-- The instruction is a word of the encoding tables and not an event. -/
def Instr.isWord (i : Instr) : Bool :=
  match i with
  | .vfadd _ _ _ _ _ => true
  | .vfsub _ _ _ _ _ => true
  | .vfmul _ _ _ _ _ => true
  | .vfmin _ _ _ _ _ => true
  | .vfmax _ _ _ _ _ => true
  | .vfdiv _ _ _ _ _ => true
  | .vfaddK _ _ _ _ _ _ => true
  | .vfsubK _ _ _ _ _ _ => true
  | .vfmulK _ _ _ _ _ _ => true
  | .vfminK _ _ _ _ _ _ => true
  | .vfmaxK _ _ _ _ _ _ => true
  | .vfdivK _ _ _ _ _ _ => true
  | .vfneg _ _ _ _ => true
  | .vfabs _ _ _ _ => true
  | .vfcpys _ _ _ _ _ => true
  | .vfcpysn _ _ _ _ _ => true
  | .vfkind _ _ _ _ => true
  | .vfma _ _ _ _ _ => true
  | .vfnma _ _ _ _ _ => true
  | .vfms _ _ _ _ _ => true
  | .vfnms _ _ _ _ _ => true
  | .vfmaK _ _ _ _ _ => true
  | .vfnmaK _ _ _ _ _ => true
  | .vfmsK _ _ _ _ _ => true
  | .vfnmsK _ _ _ _ _ => true
  | .vfsqrt _ _ _ _ => true
  | .vfrsqrt _ _ _ _ => true
  | .vfrcp _ _ _ _ => true
  | .vfexp2 _ _ _ _ => true
  | .vflog2 _ _ _ _ => true
  | .vfsinpi _ _ _ _ => true
  | .vftanh _ _ _ _ => true
  | .vfsigm _ _ _ _ => true
  | .vadd _ _ _ _ _ => true
  | .vsub _ _ _ _ _ => true
  | .vmul _ _ _ _ _ => true
  | .vmin _ _ _ _ _ => true
  | .vmax _ _ _ _ _ => true
  | .vdiv _ _ _ _ _ => true
  | .vrem _ _ _ _ _ => true
  | .vaddK _ _ _ _ _ _ => true
  | .vsubK _ _ _ _ _ _ => true
  | .vmulK _ _ _ _ _ _ => true
  | .vminK _ _ _ _ _ _ => true
  | .vmaxK _ _ _ _ _ _ => true
  | .vdivK _ _ _ _ _ _ => true
  | .vremK _ _ _ _ _ _ => true
  | .vaddi _ _ _ _ => true
  | .vrsubi _ _ _ _ => true
  | .vmuli _ _ _ _ => true
  | .vmini _ _ _ _ => true
  | .vmaxi _ _ _ _ => true
  | .vand _ _ _ _ _ => true
  | .vor _ _ _ _ _ => true
  | .vxor _ _ _ _ _ => true
  | .vandn _ _ _ _ _ => true
  | .vsll _ _ _ _ _ => true
  | .vsrl _ _ _ _ _ => true
  | .vsra _ _ _ _ _ => true
  | .vmov _ _ _ _ => true
  | .vandi _ _ _ _ => true
  | .vori _ _ _ _ => true
  | .vxori _ _ _ _ => true
  | .vli _ _ _ _ => true
  | .vslli _ _ _ _ => true
  | .vsrli _ _ _ _ => true
  | .vsrai _ _ _ _ => true
  | .vsadd _ _ _ _ _ => true
  | .vssub _ _ _ _ _ => true
  | .vmulh _ _ _ _ _ => true
  | .vavg _ _ _ _ _ => true
  | .vceq _ _ _ _ _ => true
  | .vcne _ _ _ _ _ => true
  | .vclt _ _ _ _ _ => true
  | .vcle _ _ _ _ _ => true
  | .vcgt _ _ _ _ _ => true
  | .vcge _ _ _ _ _ => true
  | .vcun _ _ _ _ _ => true
  | .vceqK _ _ _ _ _ => true
  | .vcneK _ _ _ _ _ => true
  | .vcltK _ _ _ _ _ => true
  | .vcleK _ _ _ _ _ => true
  | .vcgtK _ _ _ _ _ => true
  | .vcgeK _ _ _ _ _ => true
  | .vcunK _ _ _ _ _ => true
  | .vmand _ _ _ _ _ => true
  | .vmor _ _ _ _ _ => true
  | .vmxor _ _ _ _ _ => true
  | .vmandn _ _ _ _ _ => true
  | .vmnot _ _ _ _ => true
  | .vmset _ _ _ => true
  | .vmclr _ _ _ => true
  | .vsel _ _ _ _ _ => true
  | .vselz _ _ _ _ => true
  | .vcvt _ _ _ _ _ => true
  | .vqnt _ _ _ _ _ => true
  | .vdqnt _ _ _ _ _ => true
  | .vgath _ _ _ _ _ => true
  | .vhead _ _ _ _ _ => true
  | .vtail _ _ _ _ _ => true
  | .vbcast _ _ _ _ => true
  | .vfredsum _ _ _ _ => true
  | .vfredsumw _ _ _ _ => true
  | .vfredmax _ _ _ _ => true
  | .vfredmin _ _ _ _ => true
  | .vredsum _ _ _ _ => true
  | .vredmax _ _ _ _ => true
  | .vredmin _ _ _ _ => true
  | .vraise _ _ _ _ _ => true
  | .vlower _ _ _ _ _ => true
  | .vbcastk _ _ _ _ => true
  | .vld _ _ _ _ _ _ => true
  | .vst _ _ _ _ _ _ => true
  | .vld2 _ _ _ _ _ _ => true
  | .vst2 _ _ _ _ _ _ => true
  | .vldx _ _ _ _ _ _ _ => true
  | .vstx _ _ _ _ _ _ _ => true
  | .vldslab _ _ _ _ _ _ => true
  | .vdef _ _ => true
  | .vtld _ => true
  | .vtst _ => true
  | .vsett _ => true
  | .vlen _ => true
  | .vlenShape _ _ => true
  | .vsetmt _ => true
  | .vsetmtImm _ => true
  | .mma _ _ _ _ => true
  | .mmas _ _ _ _ => true
  | .men _ => true
  | .mdis _ => true
  | .mzero _ _ => true
  | .mshape _ _ => true
  | .mscl _ _ => true
  | .mextRow _ _ _ _ _ => true
  | .mextCol _ _ _ _ _ => true
  | .mextRect _ _ _ _ => true
  | .minsRow _ _ _ _ _ => true
  | .minsCol _ _ _ _ _ => true
  | .minsRect _ _ _ _ => true
  | .lstep _ _ => true
  | .lblend _ _ => true
  | .lrungLd _ _ _ => true
  | .lrungSt _ _ _ => true
  | .lrungLdK _ _ _ => true
  | .lrungStK _ _ _ => true
  | .lcfg _ _ => true
  | .lstatCnt _ _ => true
  | .lstatCarry _ _ => true
  | .lreset _ => true
  | .vissue _ _ _ => true
  | .vcapp _ _ _ _ => true
  | .vcappK _ _ _ _ => true
  | .vwait _ _ _ _ _ => true
  | .gmma _ _ _ _ => true
  | .vbend => true
  | .vkadd _ _ _ _ => true
  | .vkaddK _ _ _ _ => true
  | .vkpop _ _ => true
  | .vkget _ _ _ => true
  | .vkpush _ _ => true
  | .vmpushCount _ _ => true
  | .vmpushFirst _ _ => true
  | .blockPop => false
  | .convoyIssue => false
  | .convoyRetire => false
  | .trapEntry => false
  | .queueDeadlock => false
  | .debugStop => false
  | .preemptionRequest => false
  | .contextSave => false
  | .contextRestore => false
  | .completionWordUpdate => false
  | .endReport => false
  | .taskAbandon => false
  | .loadDataArrival _ => false
  | .storeAcknowledged _ => false
  | .vectorElementArrival => false
  | .tableWalk _ _ => false
  | .monitoredLineWrite _ => false
  | .waitLimitExpiry => false
  | .timelineAdvance _ => false
  | .commandFailed _ _ => false
  | .carryChain => false
  | .entryReady _ => false
  | .fantailRun => false
  | .overdue _ => false
  | .priorityPreemption _ => false
  | .streamPumpTransfer _ => false
  | .streamOutCopy _ => false
  | .tcmClear => false
  | .feedCrossing _ => false
  | .gmmaMulticast => false
  | .gmmaShareCompletion => false
  | .planepwrWrite _ => false
  | .lcntWrite _ => false
  | .lcarryWrite _ => false
  | .gselWrite _ => false
  | .tlbinv _ => false
  | .fqadv _ => false
  | .clreset _ => false
  | .csrWrite _ _ => false
  | .clusterReset _ => false
  | .hostPreemptionRequest _ => false
  | .preqComplete => false
  | .clholdWrite _ => false
  | .plimitWrite _ => false
  | .freeze _ => false
  | .thaw _ => false
  | .freezeSignal _ => false
  | .debugPortAccess _ _ _ => false
  | .attest => false
  | .recover _ => false
  | .commitSvn => false
  | .cert => false
  | .cllog _ => false
  | .dbgen _ => false
  | .packageReset => false
  | .grantCycle => false
  | .grantDelivery _ => false
  | .missedGrants _ => false
  | .thermalThrottle _ => false
  | .thermalCutoff => false
  | .dieStoreScrub _ => false
  | .hbmScrub => false
  | .flitReceive _ _ _ => false
  | .nakReplay _ _ => false
  | .portRetrain _ => false
  | .portDown _ => false
  | .offloadPromotion => false
  | .remoteAccess _ => false
  | .remoteAccessTimeout _ => false
  | .collectiveMatch _ => false
  | .collectiveTimeout _ => false
  | .memberUnreachable _ => false
  | .timeMessage _ => false
  | .powerLoss => false
  | .unknownCommand _ => false
  | .cxlMemAccess _ _ _ => false
  | .spuriousWake => false
  | .crget _ _ => true
  | .crput _ _ => true
  | .crset _ _ => true
  | .crclr _ _ => true
  | .add _ _ _ => true
  | .sub _ _ _ => true
  | .and _ _ _ => true
  | .or _ _ _ => true
  | .xor _ _ _ => true
  | .sll _ _ _ => true
  | .srl _ _ _ => true
  | .sra _ _ _ => true
  | .slt _ _ _ => true
  | .sltn _ _ _ => true
  | .mul _ _ _ => true
  | .mulhs _ _ _ => true
  | .mulhn _ _ _ => true
  | .div _ _ _ => true
  | .divn _ _ _ => true
  | .rem _ _ _ => true
  | .remn _ _ _ => true
  | .addi _ _ _ => true
  | .andi _ _ _ => true
  | .ori _ _ _ => true
  | .xori _ _ _ => true
  | .slli _ _ _ => true
  | .srli _ _ _ => true
  | .srai _ _ _ => true
  | .slti _ _ _ => true
  | .sltin _ _ _ => true
  | .lui _ _ => true
  | .sext _ _ _ => true
  | .zext _ _ _ => true
  | .extr _ _ _ _ => true
  | .ins _ _ _ _ => true
  | .clz _ _ => true
  | .ctz _ _ => true
  | .popc _ _ => true
  | .ldb _ _ _ _ => true
  | .ldw _ _ _ _ => true
  | .ldd _ _ _ _ => true
  | .stb _ _ _ _ => true
  | .stw _ _ _ _ => true
  | .std _ _ _ _ => true
  | .amoswap _ _ _ _ _ _ => true
  | .amoadd _ _ _ _ _ _ => true
  | .amoand _ _ _ _ _ _ => true
  | .amoor _ _ _ _ _ _ => true
  | .amoxor _ _ _ _ _ _ => true
  | .amomax _ _ _ _ _ _ => true
  | .amomin _ _ _ _ _ _ => true
  | .amomaxu _ _ _ _ _ _ => true
  | .cas _ _ _ _ _ _ => true
  | .fence _ _ _ => true
  | .cjEq _ _ _ => true
  | .cjNe _ _ _ => true
  | .cjLt _ _ _ => true
  | .cjGe _ _ _ => true
  | .cjLtn _ _ _ => true
  | .cjGen _ _ _ => true
  | .jal _ _ => true
  | .jr _ _ => true
  | .bpush _ _ => true
  | .dpush _ => true
  | .rpop _ => true
  | .epop _ => true
  | .epopTry _ => true
  | .epopMsg _ => true
  | .epopMsgTry _ => true
  | .waitw _ _ _ _ _ _ => true
  | .endTask => true
  | .dcoll _ _ _ => true
  | .copy _ _ _ => true
  | .copyRst _ _ => true
  | .copy2 _ _ _ => true
  | .fill _ _ _ => true
  | .slabmov _ _ _ => true
  | .mdec _ _ _ => true
  | .mrsz _ _ _ => true
  | .mdecRst _ _ => true
  | .cred _ _ _ => true
  | .cbcast _ _ _ => true
  | .credRst _ _ => true
  | .tlwait _ _ _ _ => true
  | .tlreadCount _ _ => true
  | .tlreadStatus _ _ => true
  | .strin _ _ _ _ _ => true
  | .strout _ _ _ _ _ => true
  | .launch _ _ _ _ => true
  | .launchRequest _ _ _ _ _ => true
  | .barv _ _ _ => true
  | .barw _ _ _ _ => true
  | .garm _ _ => true
  | .garmOff _ => true
  | .fqset _ _ _ => true
  | .fqsetRd _ _ => true
  | .fqsetAdv _ _ => true
  | .hcall => true
  | .hret => true
  | .nap => true
  | .brk _ => true

end Sys2Proof
end

