-- ==== Sys2Proof/Decode.lean ====
section
/-! DEFINITION. The decoder and the encoder. A row is one word of the spec's encoding tables, written as the list of
its bit fields from bit 0 upward, each either fixed or carrying an operand. Decoding finds the row whose fixed
fields a word bears, checks what the word's own description adds, and answers the instruction or the reason why
there is none. The compiler cannot build a value of a constructor past the 244th, so the definitions that do are
marked noncomputable; Lean's kernel evaluates them as any other. Encoding lays the operands of an instruction into its row. -/

namespace Sys2Proof

/-- One field of a word: fixed bits, or an operand of some width. -/
inductive Seg where
  /-- `width` bits that must hold `value`. -/
  | fixed (width value : Nat)
  /-- `width` bits that carry an operand. -/
  | operand (width : Nat)
  deriving DecidableEq, Repr

/-- The operands of a number laid out as the fields say; none where a fixed field differs or bits are left over. -/
def segsMatch : List Seg → Nat → Option (List Nat)
  | [], n => if n = 0 then some [] else none
  | .fixed w v :: t, n => if n % 2 ^ w = v then segsMatch t (n / 2 ^ w) else none
  | .operand w :: t, n => (segsMatch t (n / 2 ^ w)).map (fun xs => n % 2 ^ w :: xs)

/-- The number whose fields hold the operands. -/
def segsPack : List Seg → List Nat → Nat
  | [], _ => 0
  | .fixed w v :: t, xs => v + 2 ^ w * segsPack t xs
  | .operand w :: t, [] => 2 ^ w * segsPack t []
  | .operand w :: t, x :: xs => x + 2 ^ w * segsPack t xs

/-- One word of the encoding tables: its fields and the instruction its operands make. -/
structure Row where
  /-- The fields, from bit 0 upward. -/
  segs : List Seg
  /-- The instruction, from the operands in the same order. -/
  build : List Nat → Option Instr

/-- The instruction a number decodes to under one row. -/
def Row.read (r : Row) (n : Nat) : Option Instr := (segsMatch r.segs n).bind r.build

/-- The fields of VFADD (R122). -/
def segsVfadd : List Seg := [.fixed 7 0x40, .operand 6, .operand 6, .operand 6, .operand 3, .fixed 3 0x0, .operand 1]
/-- VFADD (R122). -/
def rowVfadd : Row :=
  .mk segsVfadd (fun xs => match xs with | [d, a, b, m, c] => some (.vfadd (.ofNat 6 d) (.ofNat 6 a) (.ofNat 6 b) (.ofNat 3 m) (.ofNat 1 c)) | _ => none)

/-- The fields of VFSUB (R122). -/
def segsVfsub : List Seg := [.fixed 7 0x40, .operand 6, .operand 6, .operand 6, .operand 3, .fixed 3 0x1, .operand 1]
/-- VFSUB (R122). -/
def rowVfsub : Row :=
  .mk segsVfsub (fun xs => match xs with | [d, a, b, m, c] => some (.vfsub (.ofNat 6 d) (.ofNat 6 a) (.ofNat 6 b) (.ofNat 3 m) (.ofNat 1 c)) | _ => none)

/-- The fields of VFMUL (R122). -/
def segsVfmul : List Seg := [.fixed 7 0x40, .operand 6, .operand 6, .operand 6, .operand 3, .fixed 3 0x2, .operand 1]
/-- VFMUL (R122). -/
def rowVfmul : Row :=
  .mk segsVfmul (fun xs => match xs with | [d, a, b, m, c] => some (.vfmul (.ofNat 6 d) (.ofNat 6 a) (.ofNat 6 b) (.ofNat 3 m) (.ofNat 1 c)) | _ => none)

/-- The fields of VFMIN (R122). -/
def segsVfmin : List Seg := [.fixed 7 0x40, .operand 6, .operand 6, .operand 6, .operand 3, .fixed 3 0x3, .operand 1]
/-- VFMIN (R122). -/
def rowVfmin : Row :=
  .mk segsVfmin (fun xs => match xs with | [d, a, b, m, c] => some (.vfmin (.ofNat 6 d) (.ofNat 6 a) (.ofNat 6 b) (.ofNat 3 m) (.ofNat 1 c)) | _ => none)

/-- The fields of VFMAX (R122). -/
def segsVfmax : List Seg := [.fixed 7 0x40, .operand 6, .operand 6, .operand 6, .operand 3, .fixed 3 0x4, .operand 1]
/-- VFMAX (R122). -/
def rowVfmax : Row :=
  .mk segsVfmax (fun xs => match xs with | [d, a, b, m, c] => some (.vfmax (.ofNat 6 d) (.ofNat 6 a) (.ofNat 6 b) (.ofNat 3 m) (.ofNat 1 c)) | _ => none)

/-- The fields of VFDIV (R122). -/
def segsVfdiv : List Seg := [.fixed 7 0x40, .operand 6, .operand 6, .operand 6, .operand 3, .fixed 3 0x5, .operand 1]
/-- VFDIV (R122). -/
def rowVfdiv : Row :=
  .mk segsVfdiv (fun xs => match xs with | [d, a, b, m, c] => some (.vfdiv (.ofNat 6 d) (.ofNat 6 a) (.ofNat 6 b) (.ofNat 3 m) (.ofNat 1 c)) | _ => none)

/-- The fields of VFADD_K (R122). -/
def segsVfaddK : List Seg := [.fixed 7 0x43, .operand 6, .operand 6, .operand 1, .fixed 2 0x0, .operand 3, .operand 3, .fixed 3 0x0, .operand 1]
/-- VFADD_K (R122). -/
def rowVfaddK : Row :=
  .mk segsVfaddK (fun xs => match xs with | [d, a, x, k, m, c] => some (.vfaddK (.ofNat 6 d) (.ofNat 6 a) (.ofNat 1 x) (.ofNat 3 k) (.ofNat 3 m) (.ofNat 1 c)) | _ => none)

/-- The fields of VFSUB_K (R122). -/
def segsVfsubK : List Seg := [.fixed 7 0x43, .operand 6, .operand 6, .operand 1, .fixed 2 0x0, .operand 3, .operand 3, .fixed 3 0x1, .operand 1]
/-- VFSUB_K (R122). -/
def rowVfsubK : Row :=
  .mk segsVfsubK (fun xs => match xs with | [d, a, x, k, m, c] => some (.vfsubK (.ofNat 6 d) (.ofNat 6 a) (.ofNat 1 x) (.ofNat 3 k) (.ofNat 3 m) (.ofNat 1 c)) | _ => none)

/-- The fields of VFMUL_K (R122). -/
def segsVfmulK : List Seg := [.fixed 7 0x43, .operand 6, .operand 6, .operand 1, .fixed 2 0x0, .operand 3, .operand 3, .fixed 3 0x2, .operand 1]
/-- VFMUL_K (R122). -/
def rowVfmulK : Row :=
  .mk segsVfmulK (fun xs => match xs with | [d, a, x, k, m, c] => some (.vfmulK (.ofNat 6 d) (.ofNat 6 a) (.ofNat 1 x) (.ofNat 3 k) (.ofNat 3 m) (.ofNat 1 c)) | _ => none)

/-- The fields of VFMIN_K (R122). -/
def segsVfminK : List Seg := [.fixed 7 0x43, .operand 6, .operand 6, .operand 1, .fixed 2 0x0, .operand 3, .operand 3, .fixed 3 0x3, .operand 1]
/-- VFMIN_K (R122). -/
def rowVfminK : Row :=
  .mk segsVfminK (fun xs => match xs with | [d, a, x, k, m, c] => some (.vfminK (.ofNat 6 d) (.ofNat 6 a) (.ofNat 1 x) (.ofNat 3 k) (.ofNat 3 m) (.ofNat 1 c)) | _ => none)

/-- The fields of VFMAX_K (R122). -/
def segsVfmaxK : List Seg := [.fixed 7 0x43, .operand 6, .operand 6, .operand 1, .fixed 2 0x0, .operand 3, .operand 3, .fixed 3 0x4, .operand 1]
/-- VFMAX_K (R122). -/
def rowVfmaxK : Row :=
  .mk segsVfmaxK (fun xs => match xs with | [d, a, x, k, m, c] => some (.vfmaxK (.ofNat 6 d) (.ofNat 6 a) (.ofNat 1 x) (.ofNat 3 k) (.ofNat 3 m) (.ofNat 1 c)) | _ => none)

/-- The fields of VFDIV_K (R122). -/
def segsVfdivK : List Seg := [.fixed 7 0x43, .operand 6, .operand 6, .operand 1, .fixed 2 0x0, .operand 3, .operand 3, .fixed 3 0x5, .operand 1]
/-- VFDIV_K (R122). -/
def rowVfdivK : Row :=
  .mk segsVfdivK (fun xs => match xs with | [d, a, x, k, m, c] => some (.vfdivK (.ofNat 6 d) (.ofNat 6 a) (.ofNat 1 x) (.ofNat 3 k) (.ofNat 3 m) (.ofNat 1 c)) | _ => none)

/-- The fields of VFNEG (R122). -/
def segsVfneg : List Seg := [.fixed 7 0x41, .operand 6, .operand 6, .fixed 6 0x0, .operand 3, .fixed 3 0x0, .operand 1]
/-- VFNEG (R122). -/
def rowVfneg : Row :=
  .mk segsVfneg (fun xs => match xs with | [d, a, m, c] => some (.vfneg (.ofNat 6 d) (.ofNat 6 a) (.ofNat 3 m) (.ofNat 1 c)) | _ => none)

/-- The fields of VFABS (R122). -/
def segsVfabs : List Seg := [.fixed 7 0x41, .operand 6, .operand 6, .fixed 6 0x0, .operand 3, .fixed 3 0x1, .operand 1]
/-- VFABS (R122). -/
def rowVfabs : Row :=
  .mk segsVfabs (fun xs => match xs with | [d, a, m, c] => some (.vfabs (.ofNat 6 d) (.ofNat 6 a) (.ofNat 3 m) (.ofNat 1 c)) | _ => none)

/-- The fields of VFCPYS (R122). -/
def segsVfcpys : List Seg := [.fixed 7 0x41, .operand 6, .operand 6, .operand 6, .operand 3, .fixed 3 0x2, .operand 1]
/-- VFCPYS (R122). -/
def rowVfcpys : Row :=
  .mk segsVfcpys (fun xs => match xs with | [d, a, b, m, c] => some (.vfcpys (.ofNat 6 d) (.ofNat 6 a) (.ofNat 6 b) (.ofNat 3 m) (.ofNat 1 c)) | _ => none)

/-- The fields of VFCPYSN (R122). -/
def segsVfcpysn : List Seg := [.fixed 7 0x41, .operand 6, .operand 6, .operand 6, .operand 3, .fixed 3 0x3, .operand 1]
/-- VFCPYSN (R122). -/
def rowVfcpysn : Row :=
  .mk segsVfcpysn (fun xs => match xs with | [d, a, b, m, c] => some (.vfcpysn (.ofNat 6 d) (.ofNat 6 a) (.ofNat 6 b) (.ofNat 3 m) (.ofNat 1 c)) | _ => none)

/-- The fields of VFKIND (R122). -/
def segsVfkind : List Seg := [.fixed 7 0x41, .operand 6, .operand 6, .fixed 6 0x0, .operand 3, .fixed 3 0x4, .operand 1]
/-- VFKIND (R122). -/
def rowVfkind : Row :=
  .mk segsVfkind (fun xs => match xs with | [d, a, m, c] => some (.vfkind (.ofNat 6 d) (.ofNat 6 a) (.ofNat 3 m) (.ofNat 1 c)) | _ => none)

/-- The fields of VFMA (R122). -/
def segsVfma : List Seg := [.fixed 7 0x42, .operand 6, .operand 6, .operand 6, .operand 3, .fixed 3 0x0, .operand 1]
/-- VFMA (R122). -/
def rowVfma : Row :=
  .mk segsVfma (fun xs => match xs with | [d, a, b, m, c] => some (.vfma (.ofNat 6 d) (.ofNat 6 a) (.ofNat 6 b) (.ofNat 3 m) (.ofNat 1 c)) | _ => none)

/-- The fields of VFNMA (R122). -/
def segsVfnma : List Seg := [.fixed 7 0x42, .operand 6, .operand 6, .operand 6, .operand 3, .fixed 3 0x1, .operand 1]
/-- VFNMA (R122). -/
def rowVfnma : Row :=
  .mk segsVfnma (fun xs => match xs with | [d, a, b, m, c] => some (.vfnma (.ofNat 6 d) (.ofNat 6 a) (.ofNat 6 b) (.ofNat 3 m) (.ofNat 1 c)) | _ => none)

/-- The fields of VFMS (R122). -/
def segsVfms : List Seg := [.fixed 7 0x42, .operand 6, .operand 6, .operand 6, .operand 3, .fixed 3 0x2, .operand 1]
/-- VFMS (R122). -/
def rowVfms : Row :=
  .mk segsVfms (fun xs => match xs with | [d, a, b, m, c] => some (.vfms (.ofNat 6 d) (.ofNat 6 a) (.ofNat 6 b) (.ofNat 3 m) (.ofNat 1 c)) | _ => none)

/-- The fields of VFNMS (R122). -/
def segsVfnms : List Seg := [.fixed 7 0x42, .operand 6, .operand 6, .operand 6, .operand 3, .fixed 3 0x3, .operand 1]
/-- VFNMS (R122). -/
def rowVfnms : Row :=
  .mk segsVfnms (fun xs => match xs with | [d, a, b, m, c] => some (.vfnms (.ofNat 6 d) (.ofNat 6 a) (.ofNat 6 b) (.ofNat 3 m) (.ofNat 1 c)) | _ => none)

/-- The fields of VFMA_K (R122). -/
def segsVfmaK : List Seg := [.fixed 7 0x44, .operand 6, .operand 6, .fixed 3 0x0, .operand 3, .operand 3, .fixed 3 0x0, .operand 1]
/-- VFMA_K (R122). -/
def rowVfmaK : Row :=
  .mk segsVfmaK (fun xs => match xs with | [d, a, k, m, c] => some (.vfmaK (.ofNat 6 d) (.ofNat 6 a) (.ofNat 3 k) (.ofNat 3 m) (.ofNat 1 c)) | _ => none)

/-- The fields of VFNMA_K (R122). -/
def segsVfnmaK : List Seg := [.fixed 7 0x44, .operand 6, .operand 6, .fixed 3 0x0, .operand 3, .operand 3, .fixed 3 0x1, .operand 1]
/-- VFNMA_K (R122). -/
def rowVfnmaK : Row :=
  .mk segsVfnmaK (fun xs => match xs with | [d, a, k, m, c] => some (.vfnmaK (.ofNat 6 d) (.ofNat 6 a) (.ofNat 3 k) (.ofNat 3 m) (.ofNat 1 c)) | _ => none)

/-- The fields of VFMS_K (R122). -/
def segsVfmsK : List Seg := [.fixed 7 0x44, .operand 6, .operand 6, .fixed 3 0x0, .operand 3, .operand 3, .fixed 3 0x2, .operand 1]
/-- VFMS_K (R122). -/
def rowVfmsK : Row :=
  .mk segsVfmsK (fun xs => match xs with | [d, a, k, m, c] => some (.vfmsK (.ofNat 6 d) (.ofNat 6 a) (.ofNat 3 k) (.ofNat 3 m) (.ofNat 1 c)) | _ => none)

/-- The fields of VFNMS_K (R122). -/
def segsVfnmsK : List Seg := [.fixed 7 0x44, .operand 6, .operand 6, .fixed 3 0x0, .operand 3, .operand 3, .fixed 3 0x3, .operand 1]
/-- VFNMS_K (R122). -/
def rowVfnmsK : Row :=
  .mk segsVfnmsK (fun xs => match xs with | [d, a, k, m, c] => some (.vfnmsK (.ofNat 6 d) (.ofNat 6 a) (.ofNat 3 k) (.ofNat 3 m) (.ofNat 1 c)) | _ => none)

/-- The fields of VFSQRT (R123). -/
def segsVfsqrt : List Seg := [.fixed 7 0x45, .operand 6, .operand 6, .fixed 6 0x0, .operand 3, .fixed 3 0x0, .operand 1]
/-- VFSQRT (R123). -/
def rowVfsqrt : Row :=
  .mk segsVfsqrt (fun xs => match xs with | [d, a, m, c] => some (.vfsqrt (.ofNat 6 d) (.ofNat 6 a) (.ofNat 3 m) (.ofNat 1 c)) | _ => none)

/-- The fields of VFRSQRT (R123). -/
def segsVfrsqrt : List Seg := [.fixed 7 0x45, .operand 6, .operand 6, .fixed 6 0x0, .operand 3, .fixed 3 0x1, .operand 1]
/-- VFRSQRT (R123). -/
def rowVfrsqrt : Row :=
  .mk segsVfrsqrt (fun xs => match xs with | [d, a, m, c] => some (.vfrsqrt (.ofNat 6 d) (.ofNat 6 a) (.ofNat 3 m) (.ofNat 1 c)) | _ => none)

/-- The fields of VFRCP (R123). -/
def segsVfrcp : List Seg := [.fixed 7 0x45, .operand 6, .operand 6, .fixed 6 0x0, .operand 3, .fixed 3 0x2, .operand 1]
/-- VFRCP (R123). -/
def rowVfrcp : Row :=
  .mk segsVfrcp (fun xs => match xs with | [d, a, m, c] => some (.vfrcp (.ofNat 6 d) (.ofNat 6 a) (.ofNat 3 m) (.ofNat 1 c)) | _ => none)

/-- The fields of VFEXP2 (R123). -/
def segsVfexp2 : List Seg := [.fixed 7 0x45, .operand 6, .operand 6, .fixed 6 0x0, .operand 3, .fixed 3 0x3, .operand 1]
/-- VFEXP2 (R123). -/
def rowVfexp2 : Row :=
  .mk segsVfexp2 (fun xs => match xs with | [d, a, m, c] => some (.vfexp2 (.ofNat 6 d) (.ofNat 6 a) (.ofNat 3 m) (.ofNat 1 c)) | _ => none)

/-- The fields of VFLOG2 (R123). -/
def segsVflog2 : List Seg := [.fixed 7 0x45, .operand 6, .operand 6, .fixed 6 0x0, .operand 3, .fixed 3 0x4, .operand 1]
/-- VFLOG2 (R123). -/
def rowVflog2 : Row :=
  .mk segsVflog2 (fun xs => match xs with | [d, a, m, c] => some (.vflog2 (.ofNat 6 d) (.ofNat 6 a) (.ofNat 3 m) (.ofNat 1 c)) | _ => none)

/-- The fields of VFSINPI (R123). -/
def segsVfsinpi : List Seg := [.fixed 7 0x45, .operand 6, .operand 6, .fixed 6 0x0, .operand 3, .fixed 3 0x5, .operand 1]
/-- VFSINPI (R123). -/
def rowVfsinpi : Row :=
  .mk segsVfsinpi (fun xs => match xs with | [d, a, m, c] => some (.vfsinpi (.ofNat 6 d) (.ofNat 6 a) (.ofNat 3 m) (.ofNat 1 c)) | _ => none)

/-- The fields of VFTANH (R123). -/
def segsVftanh : List Seg := [.fixed 7 0x45, .operand 6, .operand 6, .fixed 6 0x0, .operand 3, .fixed 3 0x6, .operand 1]
/-- VFTANH (R123). -/
def rowVftanh : Row :=
  .mk segsVftanh (fun xs => match xs with | [d, a, m, c] => some (.vftanh (.ofNat 6 d) (.ofNat 6 a) (.ofNat 3 m) (.ofNat 1 c)) | _ => none)

/-- The fields of VFSIGM (R123). -/
def segsVfsigm : List Seg := [.fixed 7 0x45, .operand 6, .operand 6, .fixed 6 0x0, .operand 3, .fixed 3 0x7, .operand 1]
/-- VFSIGM (R123). -/
def rowVfsigm : Row :=
  .mk segsVfsigm (fun xs => match xs with | [d, a, m, c] => some (.vfsigm (.ofNat 6 d) (.ofNat 6 a) (.ofNat 3 m) (.ofNat 1 c)) | _ => none)

/-- The fields of VADD (R124). -/
def segsVadd : List Seg := [.fixed 7 0x50, .operand 6, .operand 6, .operand 6, .operand 3, .fixed 3 0x0, .operand 1]
/-- VADD (R124). -/
def rowVadd : Row :=
  .mk segsVadd (fun xs => match xs with | [d, a, b, m, c] => some (.vadd (.ofNat 6 d) (.ofNat 6 a) (.ofNat 6 b) (.ofNat 3 m) (.ofNat 1 c)) | _ => none)

/-- The fields of VSUB (R124). -/
def segsVsub : List Seg := [.fixed 7 0x50, .operand 6, .operand 6, .operand 6, .operand 3, .fixed 3 0x1, .operand 1]
/-- VSUB (R124). -/
def rowVsub : Row :=
  .mk segsVsub (fun xs => match xs with | [d, a, b, m, c] => some (.vsub (.ofNat 6 d) (.ofNat 6 a) (.ofNat 6 b) (.ofNat 3 m) (.ofNat 1 c)) | _ => none)

/-- The fields of VMUL (R124). -/
def segsVmul : List Seg := [.fixed 7 0x50, .operand 6, .operand 6, .operand 6, .operand 3, .fixed 3 0x2, .operand 1]
/-- VMUL (R124). -/
def rowVmul : Row :=
  .mk segsVmul (fun xs => match xs with | [d, a, b, m, c] => some (.vmul (.ofNat 6 d) (.ofNat 6 a) (.ofNat 6 b) (.ofNat 3 m) (.ofNat 1 c)) | _ => none)

/-- The fields of VMIN (R124). -/
def segsVmin : List Seg := [.fixed 7 0x50, .operand 6, .operand 6, .operand 6, .operand 3, .fixed 3 0x3, .operand 1]
/-- VMIN (R124). -/
def rowVmin : Row :=
  .mk segsVmin (fun xs => match xs with | [d, a, b, m, c] => some (.vmin (.ofNat 6 d) (.ofNat 6 a) (.ofNat 6 b) (.ofNat 3 m) (.ofNat 1 c)) | _ => none)

/-- The fields of VMAX (R124). -/
def segsVmax : List Seg := [.fixed 7 0x50, .operand 6, .operand 6, .operand 6, .operand 3, .fixed 3 0x4, .operand 1]
/-- VMAX (R124). -/
def rowVmax : Row :=
  .mk segsVmax (fun xs => match xs with | [d, a, b, m, c] => some (.vmax (.ofNat 6 d) (.ofNat 6 a) (.ofNat 6 b) (.ofNat 3 m) (.ofNat 1 c)) | _ => none)

/-- The fields of VDIV (R124). -/
def segsVdiv : List Seg := [.fixed 7 0x50, .operand 6, .operand 6, .operand 6, .operand 3, .fixed 3 0x5, .operand 1]
/-- VDIV (R124). -/
def rowVdiv : Row :=
  .mk segsVdiv (fun xs => match xs with | [d, a, b, m, c] => some (.vdiv (.ofNat 6 d) (.ofNat 6 a) (.ofNat 6 b) (.ofNat 3 m) (.ofNat 1 c)) | _ => none)

/-- The fields of VREM (R124). -/
def segsVrem : List Seg := [.fixed 7 0x50, .operand 6, .operand 6, .operand 6, .operand 3, .fixed 3 0x6, .operand 1]
/-- VREM (R124). -/
def rowVrem : Row :=
  .mk segsVrem (fun xs => match xs with | [d, a, b, m, c] => some (.vrem (.ofNat 6 d) (.ofNat 6 a) (.ofNat 6 b) (.ofNat 3 m) (.ofNat 1 c)) | _ => none)

/-- The fields of VADD_K (R124). -/
def segsVaddK : List Seg := [.fixed 7 0x51, .operand 6, .operand 6, .operand 1, .fixed 2 0x0, .operand 3, .operand 3, .fixed 3 0x0, .operand 1]
/-- VADD_K (R124). -/
def rowVaddK : Row :=
  .mk segsVaddK (fun xs => match xs with | [d, a, x, k, m, c] => some (.vaddK (.ofNat 6 d) (.ofNat 6 a) (.ofNat 1 x) (.ofNat 3 k) (.ofNat 3 m) (.ofNat 1 c)) | _ => none)

/-- The fields of VSUB_K (R124). -/
def segsVsubK : List Seg := [.fixed 7 0x51, .operand 6, .operand 6, .operand 1, .fixed 2 0x0, .operand 3, .operand 3, .fixed 3 0x1, .operand 1]
/-- VSUB_K (R124). -/
def rowVsubK : Row :=
  .mk segsVsubK (fun xs => match xs with | [d, a, x, k, m, c] => some (.vsubK (.ofNat 6 d) (.ofNat 6 a) (.ofNat 1 x) (.ofNat 3 k) (.ofNat 3 m) (.ofNat 1 c)) | _ => none)

/-- The fields of VMUL_K (R124). -/
def segsVmulK : List Seg := [.fixed 7 0x51, .operand 6, .operand 6, .operand 1, .fixed 2 0x0, .operand 3, .operand 3, .fixed 3 0x2, .operand 1]
/-- VMUL_K (R124). -/
def rowVmulK : Row :=
  .mk segsVmulK (fun xs => match xs with | [d, a, x, k, m, c] => some (.vmulK (.ofNat 6 d) (.ofNat 6 a) (.ofNat 1 x) (.ofNat 3 k) (.ofNat 3 m) (.ofNat 1 c)) | _ => none)

/-- The fields of VMIN_K (R124). -/
def segsVminK : List Seg := [.fixed 7 0x51, .operand 6, .operand 6, .operand 1, .fixed 2 0x0, .operand 3, .operand 3, .fixed 3 0x3, .operand 1]
/-- VMIN_K (R124). -/
def rowVminK : Row :=
  .mk segsVminK (fun xs => match xs with | [d, a, x, k, m, c] => some (.vminK (.ofNat 6 d) (.ofNat 6 a) (.ofNat 1 x) (.ofNat 3 k) (.ofNat 3 m) (.ofNat 1 c)) | _ => none)

/-- The fields of VMAX_K (R124). -/
def segsVmaxK : List Seg := [.fixed 7 0x51, .operand 6, .operand 6, .operand 1, .fixed 2 0x0, .operand 3, .operand 3, .fixed 3 0x4, .operand 1]
/-- VMAX_K (R124). -/
def rowVmaxK : Row :=
  .mk segsVmaxK (fun xs => match xs with | [d, a, x, k, m, c] => some (.vmaxK (.ofNat 6 d) (.ofNat 6 a) (.ofNat 1 x) (.ofNat 3 k) (.ofNat 3 m) (.ofNat 1 c)) | _ => none)

/-- The fields of VDIV_K (R124). -/
def segsVdivK : List Seg := [.fixed 7 0x51, .operand 6, .operand 6, .operand 1, .fixed 2 0x0, .operand 3, .operand 3, .fixed 3 0x5, .operand 1]
/-- VDIV_K (R124). -/
def rowVdivK : Row :=
  .mk segsVdivK (fun xs => match xs with | [d, a, x, k, m, c] => some (.vdivK (.ofNat 6 d) (.ofNat 6 a) (.ofNat 1 x) (.ofNat 3 k) (.ofNat 3 m) (.ofNat 1 c)) | _ => none)

/-- The fields of VREM_K (R124). -/
def segsVremK : List Seg := [.fixed 7 0x51, .operand 6, .operand 6, .operand 1, .fixed 2 0x0, .operand 3, .operand 3, .fixed 3 0x6, .operand 1]
/-- VREM_K (R124). -/
def rowVremK : Row :=
  .mk segsVremK (fun xs => match xs with | [d, a, x, k, m, c] => some (.vremK (.ofNat 6 d) (.ofNat 6 a) (.ofNat 1 x) (.ofNat 3 k) (.ofNat 3 m) (.ofNat 1 c)) | _ => none)

/-- The fields of VADDI (R124). -/
def segsVaddi : List Seg := [.fixed 7 0x52, .operand 6, .operand 12, .operand 3, .fixed 3 0x0, .operand 1]
/-- VADDI (R124). -/
def rowVaddi : Row :=
  .mk segsVaddi (fun xs => match xs with | [d, i, m, c] => some (.vaddi (.ofNat 6 d) (.ofNat 12 i) (.ofNat 3 m) (.ofNat 1 c)) | _ => none)

/-- The fields of VRSUBI (R124). -/
def segsVrsubi : List Seg := [.fixed 7 0x52, .operand 6, .operand 12, .operand 3, .fixed 3 0x1, .operand 1]
/-- VRSUBI (R124). -/
def rowVrsubi : Row :=
  .mk segsVrsubi (fun xs => match xs with | [d, i, m, c] => some (.vrsubi (.ofNat 6 d) (.ofNat 12 i) (.ofNat 3 m) (.ofNat 1 c)) | _ => none)

/-- The fields of VMULI (R124). -/
def segsVmuli : List Seg := [.fixed 7 0x52, .operand 6, .operand 12, .operand 3, .fixed 3 0x2, .operand 1]
/-- VMULI (R124). -/
def rowVmuli : Row :=
  .mk segsVmuli (fun xs => match xs with | [d, i, m, c] => some (.vmuli (.ofNat 6 d) (.ofNat 12 i) (.ofNat 3 m) (.ofNat 1 c)) | _ => none)

/-- The fields of VMINI (R124). -/
def segsVmini : List Seg := [.fixed 7 0x52, .operand 6, .operand 12, .operand 3, .fixed 3 0x3, .operand 1]
/-- VMINI (R124). -/
def rowVmini : Row :=
  .mk segsVmini (fun xs => match xs with | [d, i, m, c] => some (.vmini (.ofNat 6 d) (.ofNat 12 i) (.ofNat 3 m) (.ofNat 1 c)) | _ => none)

/-- The fields of VMAXI (R124). -/
def segsVmaxi : List Seg := [.fixed 7 0x52, .operand 6, .operand 12, .operand 3, .fixed 3 0x4, .operand 1]
/-- VMAXI (R124). -/
def rowVmaxi : Row :=
  .mk segsVmaxi (fun xs => match xs with | [d, i, m, c] => some (.vmaxi (.ofNat 6 d) (.ofNat 12 i) (.ofNat 3 m) (.ofNat 1 c)) | _ => none)

/-- The fields of VAND (R125). -/
def segsVand : List Seg := [.fixed 7 0x53, .operand 6, .operand 6, .operand 6, .operand 3, .fixed 3 0x0, .operand 1]
/-- VAND (R125). -/
def rowVand : Row :=
  .mk segsVand (fun xs => match xs with | [d, a, b, m, c] => some (.vand (.ofNat 6 d) (.ofNat 6 a) (.ofNat 6 b) (.ofNat 3 m) (.ofNat 1 c)) | _ => none)

/-- The fields of VOR (R125). -/
def segsVor : List Seg := [.fixed 7 0x53, .operand 6, .operand 6, .operand 6, .operand 3, .fixed 3 0x1, .operand 1]
/-- VOR (R125). -/
def rowVor : Row :=
  .mk segsVor (fun xs => match xs with | [d, a, b, m, c] => some (.vor (.ofNat 6 d) (.ofNat 6 a) (.ofNat 6 b) (.ofNat 3 m) (.ofNat 1 c)) | _ => none)

/-- The fields of VXOR (R125). -/
def segsVxor : List Seg := [.fixed 7 0x53, .operand 6, .operand 6, .operand 6, .operand 3, .fixed 3 0x2, .operand 1]
/-- VXOR (R125). -/
def rowVxor : Row :=
  .mk segsVxor (fun xs => match xs with | [d, a, b, m, c] => some (.vxor (.ofNat 6 d) (.ofNat 6 a) (.ofNat 6 b) (.ofNat 3 m) (.ofNat 1 c)) | _ => none)

/-- The fields of VANDN (R125). -/
def segsVandn : List Seg := [.fixed 7 0x53, .operand 6, .operand 6, .operand 6, .operand 3, .fixed 3 0x3, .operand 1]
/-- VANDN (R125). -/
def rowVandn : Row :=
  .mk segsVandn (fun xs => match xs with | [d, a, b, m, c] => some (.vandn (.ofNat 6 d) (.ofNat 6 a) (.ofNat 6 b) (.ofNat 3 m) (.ofNat 1 c)) | _ => none)

/-- The fields of VSLL (R125). -/
def segsVsll : List Seg := [.fixed 7 0x53, .operand 6, .operand 6, .operand 6, .operand 3, .fixed 3 0x4, .operand 1]
/-- VSLL (R125). -/
def rowVsll : Row :=
  .mk segsVsll (fun xs => match xs with | [d, a, b, m, c] => some (.vsll (.ofNat 6 d) (.ofNat 6 a) (.ofNat 6 b) (.ofNat 3 m) (.ofNat 1 c)) | _ => none)

/-- The fields of VSRL (R125). -/
def segsVsrl : List Seg := [.fixed 7 0x53, .operand 6, .operand 6, .operand 6, .operand 3, .fixed 3 0x5, .operand 1]
/-- VSRL (R125). -/
def rowVsrl : Row :=
  .mk segsVsrl (fun xs => match xs with | [d, a, b, m, c] => some (.vsrl (.ofNat 6 d) (.ofNat 6 a) (.ofNat 6 b) (.ofNat 3 m) (.ofNat 1 c)) | _ => none)

/-- The fields of VSRA (R125). -/
def segsVsra : List Seg := [.fixed 7 0x53, .operand 6, .operand 6, .operand 6, .operand 3, .fixed 3 0x6, .operand 1]
/-- VSRA (R125). -/
def rowVsra : Row :=
  .mk segsVsra (fun xs => match xs with | [d, a, b, m, c] => some (.vsra (.ofNat 6 d) (.ofNat 6 a) (.ofNat 6 b) (.ofNat 3 m) (.ofNat 1 c)) | _ => none)

/-- The fields of VMOV (R125). -/
def segsVmov : List Seg := [.fixed 7 0x53, .operand 6, .operand 6, .fixed 6 0x0, .operand 3, .fixed 3 0x7, .operand 1]
/-- VMOV (R125). -/
def rowVmov : Row :=
  .mk segsVmov (fun xs => match xs with | [d, a, m, c] => some (.vmov (.ofNat 6 d) (.ofNat 6 a) (.ofNat 3 m) (.ofNat 1 c)) | _ => none)

/-- The fields of VANDI (R125). -/
def segsVandi : List Seg := [.fixed 7 0x54, .operand 6, .operand 12, .operand 3, .fixed 3 0x0, .operand 1]
/-- VANDI (R125). -/
def rowVandi : Row :=
  .mk segsVandi (fun xs => match xs with | [d, i, m, c] => some (.vandi (.ofNat 6 d) (.ofNat 12 i) (.ofNat 3 m) (.ofNat 1 c)) | _ => none)

/-- The fields of VORI (R125). -/
def segsVori : List Seg := [.fixed 7 0x54, .operand 6, .operand 12, .operand 3, .fixed 3 0x1, .operand 1]
/-- VORI (R125). -/
def rowVori : Row :=
  .mk segsVori (fun xs => match xs with | [d, i, m, c] => some (.vori (.ofNat 6 d) (.ofNat 12 i) (.ofNat 3 m) (.ofNat 1 c)) | _ => none)

/-- The fields of VXORI (R125). -/
def segsVxori : List Seg := [.fixed 7 0x54, .operand 6, .operand 12, .operand 3, .fixed 3 0x2, .operand 1]
/-- VXORI (R125). -/
def rowVxori : Row :=
  .mk segsVxori (fun xs => match xs with | [d, i, m, c] => some (.vxori (.ofNat 6 d) (.ofNat 12 i) (.ofNat 3 m) (.ofNat 1 c)) | _ => none)

/-- The fields of VLI (R125). -/
def segsVli : List Seg := [.fixed 7 0x54, .operand 6, .operand 12, .operand 3, .fixed 3 0x3, .operand 1]
/-- VLI (R125). -/
def rowVli : Row :=
  .mk segsVli (fun xs => match xs with | [d, i, m, c] => some (.vli (.ofNat 6 d) (.ofNat 12 i) (.ofNat 3 m) (.ofNat 1 c)) | _ => none)

/-- The fields of VSLLI (R125). -/
def segsVslli : List Seg := [.fixed 7 0x54, .operand 6, .operand 6, .fixed 6 0x0, .operand 3, .fixed 3 0x4, .operand 1]
/-- VSLLI (R125). -/
def rowVslli : Row :=
  .mk segsVslli (fun xs => match xs with | [d, i, m, c] => some (.vslli (.ofNat 6 d) (.ofNat 6 i) (.ofNat 3 m) (.ofNat 1 c)) | _ => none)

/-- The fields of VSRLI (R125). -/
def segsVsrli : List Seg := [.fixed 7 0x54, .operand 6, .operand 6, .fixed 6 0x0, .operand 3, .fixed 3 0x5, .operand 1]
/-- VSRLI (R125). -/
def rowVsrli : Row :=
  .mk segsVsrli (fun xs => match xs with | [d, i, m, c] => some (.vsrli (.ofNat 6 d) (.ofNat 6 i) (.ofNat 3 m) (.ofNat 1 c)) | _ => none)

/-- The fields of VSRAI (R125). -/
def segsVsrai : List Seg := [.fixed 7 0x54, .operand 6, .operand 6, .fixed 6 0x0, .operand 3, .fixed 3 0x6, .operand 1]
/-- VSRAI (R125). -/
def rowVsrai : Row :=
  .mk segsVsrai (fun xs => match xs with | [d, i, m, c] => some (.vsrai (.ofNat 6 d) (.ofNat 6 i) (.ofNat 3 m) (.ofNat 1 c)) | _ => none)

/-- The fields of VSADD (R124). -/
def segsVsadd : List Seg := [.fixed 7 0x55, .operand 6, .operand 6, .operand 6, .operand 3, .fixed 3 0x0, .operand 1]
/-- VSADD (R124). -/
def rowVsadd : Row :=
  .mk segsVsadd (fun xs => match xs with | [d, a, b, m, c] => some (.vsadd (.ofNat 6 d) (.ofNat 6 a) (.ofNat 6 b) (.ofNat 3 m) (.ofNat 1 c)) | _ => none)

/-- The fields of VSSUB (R124). -/
def segsVssub : List Seg := [.fixed 7 0x55, .operand 6, .operand 6, .operand 6, .operand 3, .fixed 3 0x1, .operand 1]
/-- VSSUB (R124). -/
def rowVssub : Row :=
  .mk segsVssub (fun xs => match xs with | [d, a, b, m, c] => some (.vssub (.ofNat 6 d) (.ofNat 6 a) (.ofNat 6 b) (.ofNat 3 m) (.ofNat 1 c)) | _ => none)

/-- The fields of VMULH (R124). -/
def segsVmulh : List Seg := [.fixed 7 0x55, .operand 6, .operand 6, .operand 6, .operand 3, .fixed 3 0x2, .operand 1]
/-- VMULH (R124). -/
def rowVmulh : Row :=
  .mk segsVmulh (fun xs => match xs with | [d, a, b, m, c] => some (.vmulh (.ofNat 6 d) (.ofNat 6 a) (.ofNat 6 b) (.ofNat 3 m) (.ofNat 1 c)) | _ => none)

/-- The fields of VAVG (R124). -/
def segsVavg : List Seg := [.fixed 7 0x55, .operand 6, .operand 6, .operand 6, .operand 3, .fixed 3 0x3, .operand 1]
/-- VAVG (R124). -/
def rowVavg : Row :=
  .mk segsVavg (fun xs => match xs with | [d, a, b, m, c] => some (.vavg (.ofNat 6 d) (.ofNat 6 a) (.ofNat 6 b) (.ofNat 3 m) (.ofNat 1 c)) | _ => none)

/-- The fields of VCEQ (R126). -/
def segsVceq : List Seg := [.fixed 7 0x58, .operand 3, .fixed 3 0x0, .operand 6, .operand 6, .operand 3, .fixed 3 0x0, .operand 1]
/-- VCEQ (R126). -/
def rowVceq : Row :=
  .mk segsVceq (fun xs => match xs with | [d, a, b, m, c] => some (.vceq (.ofNat 3 d) (.ofNat 6 a) (.ofNat 6 b) (.ofNat 3 m) (.ofNat 1 c)) | _ => none)

/-- The fields of VCNE (R126). -/
def segsVcne : List Seg := [.fixed 7 0x58, .operand 3, .fixed 3 0x0, .operand 6, .operand 6, .operand 3, .fixed 3 0x1, .operand 1]
/-- VCNE (R126). -/
def rowVcne : Row :=
  .mk segsVcne (fun xs => match xs with | [d, a, b, m, c] => some (.vcne (.ofNat 3 d) (.ofNat 6 a) (.ofNat 6 b) (.ofNat 3 m) (.ofNat 1 c)) | _ => none)

/-- The fields of VCLT (R126). -/
def segsVclt : List Seg := [.fixed 7 0x58, .operand 3, .fixed 3 0x0, .operand 6, .operand 6, .operand 3, .fixed 3 0x2, .operand 1]
/-- VCLT (R126). -/
def rowVclt : Row :=
  .mk segsVclt (fun xs => match xs with | [d, a, b, m, c] => some (.vclt (.ofNat 3 d) (.ofNat 6 a) (.ofNat 6 b) (.ofNat 3 m) (.ofNat 1 c)) | _ => none)

/-- The fields of VCLE (R126). -/
def segsVcle : List Seg := [.fixed 7 0x58, .operand 3, .fixed 3 0x0, .operand 6, .operand 6, .operand 3, .fixed 3 0x3, .operand 1]
/-- VCLE (R126). -/
def rowVcle : Row :=
  .mk segsVcle (fun xs => match xs with | [d, a, b, m, c] => some (.vcle (.ofNat 3 d) (.ofNat 6 a) (.ofNat 6 b) (.ofNat 3 m) (.ofNat 1 c)) | _ => none)

/-- The fields of VCGT (R126). -/
def segsVcgt : List Seg := [.fixed 7 0x58, .operand 3, .fixed 3 0x0, .operand 6, .operand 6, .operand 3, .fixed 3 0x4, .operand 1]
/-- VCGT (R126). -/
def rowVcgt : Row :=
  .mk segsVcgt (fun xs => match xs with | [d, a, b, m, c] => some (.vcgt (.ofNat 3 d) (.ofNat 6 a) (.ofNat 6 b) (.ofNat 3 m) (.ofNat 1 c)) | _ => none)

/-- The fields of VCGE (R126). -/
def segsVcge : List Seg := [.fixed 7 0x58, .operand 3, .fixed 3 0x0, .operand 6, .operand 6, .operand 3, .fixed 3 0x5, .operand 1]
/-- VCGE (R126). -/
def rowVcge : Row :=
  .mk segsVcge (fun xs => match xs with | [d, a, b, m, c] => some (.vcge (.ofNat 3 d) (.ofNat 6 a) (.ofNat 6 b) (.ofNat 3 m) (.ofNat 1 c)) | _ => none)

/-- The fields of VCUN (R126). -/
def segsVcun : List Seg := [.fixed 7 0x58, .operand 3, .fixed 3 0x0, .operand 6, .operand 6, .operand 3, .fixed 3 0x6, .operand 1]
/-- VCUN (R126). -/
def rowVcun : Row :=
  .mk segsVcun (fun xs => match xs with | [d, a, b, m, c] => some (.vcun (.ofNat 3 d) (.ofNat 6 a) (.ofNat 6 b) (.ofNat 3 m) (.ofNat 1 c)) | _ => none)

/-- The fields of VCEQ_K (R126). -/
def segsVceqK : List Seg := [.fixed 7 0x59, .operand 3, .fixed 3 0x0, .operand 6, .fixed 3 0x0, .operand 3, .operand 3, .fixed 3 0x0, .operand 1]
/-- VCEQ_K (R126). -/
def rowVceqK : Row :=
  .mk segsVceqK (fun xs => match xs with | [d, a, k, m, c] => some (.vceqK (.ofNat 3 d) (.ofNat 6 a) (.ofNat 3 k) (.ofNat 3 m) (.ofNat 1 c)) | _ => none)

/-- The fields of VCNE_K (R126). -/
def segsVcneK : List Seg := [.fixed 7 0x59, .operand 3, .fixed 3 0x0, .operand 6, .fixed 3 0x0, .operand 3, .operand 3, .fixed 3 0x1, .operand 1]
/-- VCNE_K (R126). -/
def rowVcneK : Row :=
  .mk segsVcneK (fun xs => match xs with | [d, a, k, m, c] => some (.vcneK (.ofNat 3 d) (.ofNat 6 a) (.ofNat 3 k) (.ofNat 3 m) (.ofNat 1 c)) | _ => none)

/-- The fields of VCLT_K (R126). -/
def segsVcltK : List Seg := [.fixed 7 0x59, .operand 3, .fixed 3 0x0, .operand 6, .fixed 3 0x0, .operand 3, .operand 3, .fixed 3 0x2, .operand 1]
/-- VCLT_K (R126). -/
def rowVcltK : Row :=
  .mk segsVcltK (fun xs => match xs with | [d, a, k, m, c] => some (.vcltK (.ofNat 3 d) (.ofNat 6 a) (.ofNat 3 k) (.ofNat 3 m) (.ofNat 1 c)) | _ => none)

/-- The fields of VCLE_K (R126). -/
def segsVcleK : List Seg := [.fixed 7 0x59, .operand 3, .fixed 3 0x0, .operand 6, .fixed 3 0x0, .operand 3, .operand 3, .fixed 3 0x3, .operand 1]
/-- VCLE_K (R126). -/
def rowVcleK : Row :=
  .mk segsVcleK (fun xs => match xs with | [d, a, k, m, c] => some (.vcleK (.ofNat 3 d) (.ofNat 6 a) (.ofNat 3 k) (.ofNat 3 m) (.ofNat 1 c)) | _ => none)

/-- The fields of VCGT_K (R126). -/
def segsVcgtK : List Seg := [.fixed 7 0x59, .operand 3, .fixed 3 0x0, .operand 6, .fixed 3 0x0, .operand 3, .operand 3, .fixed 3 0x4, .operand 1]
/-- VCGT_K (R126). -/
def rowVcgtK : Row :=
  .mk segsVcgtK (fun xs => match xs with | [d, a, k, m, c] => some (.vcgtK (.ofNat 3 d) (.ofNat 6 a) (.ofNat 3 k) (.ofNat 3 m) (.ofNat 1 c)) | _ => none)

/-- The fields of VCGE_K (R126). -/
def segsVcgeK : List Seg := [.fixed 7 0x59, .operand 3, .fixed 3 0x0, .operand 6, .fixed 3 0x0, .operand 3, .operand 3, .fixed 3 0x5, .operand 1]
/-- VCGE_K (R126). -/
def rowVcgeK : Row :=
  .mk segsVcgeK (fun xs => match xs with | [d, a, k, m, c] => some (.vcgeK (.ofNat 3 d) (.ofNat 6 a) (.ofNat 3 k) (.ofNat 3 m) (.ofNat 1 c)) | _ => none)

/-- The fields of VCUN_K (R126). -/
def segsVcunK : List Seg := [.fixed 7 0x59, .operand 3, .fixed 3 0x0, .operand 6, .fixed 3 0x0, .operand 3, .operand 3, .fixed 3 0x6, .operand 1]
/-- VCUN_K (R126). -/
def rowVcunK : Row :=
  .mk segsVcunK (fun xs => match xs with | [d, a, k, m, c] => some (.vcunK (.ofNat 3 d) (.ofNat 6 a) (.ofNat 3 k) (.ofNat 3 m) (.ofNat 1 c)) | _ => none)

/-- The fields of VMAND (R127). -/
def segsVmand : List Seg := [.fixed 7 0x5A, .operand 3, .fixed 3 0x0, .operand 3, .fixed 3 0x0, .operand 3, .fixed 3 0x0, .operand 3, .fixed 3 0x0, .operand 1]
/-- VMAND (R127). -/
def rowVmand : Row :=
  .mk segsVmand (fun xs => match xs with | [d, a, b, m, c] => some (.vmand (.ofNat 3 d) (.ofNat 3 a) (.ofNat 3 b) (.ofNat 3 m) (.ofNat 1 c)) | _ => none)

/-- The fields of VMOR (R127). -/
def segsVmor : List Seg := [.fixed 7 0x5A, .operand 3, .fixed 3 0x0, .operand 3, .fixed 3 0x0, .operand 3, .fixed 3 0x0, .operand 3, .fixed 3 0x1, .operand 1]
/-- VMOR (R127). -/
def rowVmor : Row :=
  .mk segsVmor (fun xs => match xs with | [d, a, b, m, c] => some (.vmor (.ofNat 3 d) (.ofNat 3 a) (.ofNat 3 b) (.ofNat 3 m) (.ofNat 1 c)) | _ => none)

/-- The fields of VMXOR (R127). -/
def segsVmxor : List Seg := [.fixed 7 0x5A, .operand 3, .fixed 3 0x0, .operand 3, .fixed 3 0x0, .operand 3, .fixed 3 0x0, .operand 3, .fixed 3 0x2, .operand 1]
/-- VMXOR (R127). -/
def rowVmxor : Row :=
  .mk segsVmxor (fun xs => match xs with | [d, a, b, m, c] => some (.vmxor (.ofNat 3 d) (.ofNat 3 a) (.ofNat 3 b) (.ofNat 3 m) (.ofNat 1 c)) | _ => none)

/-- The fields of VMANDN (R127). -/
def segsVmandn : List Seg := [.fixed 7 0x5A, .operand 3, .fixed 3 0x0, .operand 3, .fixed 3 0x0, .operand 3, .fixed 3 0x0, .operand 3, .fixed 3 0x3, .operand 1]
/-- VMANDN (R127). -/
def rowVmandn : Row :=
  .mk segsVmandn (fun xs => match xs with | [d, a, b, m, c] => some (.vmandn (.ofNat 3 d) (.ofNat 3 a) (.ofNat 3 b) (.ofNat 3 m) (.ofNat 1 c)) | _ => none)

/-- The fields of VMNOT (R127). -/
def segsVmnot : List Seg := [.fixed 7 0x5A, .operand 3, .fixed 3 0x0, .operand 3, .fixed 9 0x0, .operand 3, .fixed 3 0x4, .operand 1]
/-- VMNOT (R127). -/
def rowVmnot : Row :=
  .mk segsVmnot (fun xs => match xs with | [d, a, m, c] => some (.vmnot (.ofNat 3 d) (.ofNat 3 a) (.ofNat 3 m) (.ofNat 1 c)) | _ => none)

/-- The fields of VMSET (R127). -/
def segsVmset : List Seg := [.fixed 7 0x5A, .operand 3, .fixed 15 0x0, .operand 3, .fixed 3 0x5, .operand 1]
/-- VMSET (R127). -/
def rowVmset : Row :=
  .mk segsVmset (fun xs => match xs with | [d, m, c] => some (.vmset (.ofNat 3 d) (.ofNat 3 m) (.ofNat 1 c)) | _ => none)

/-- The fields of VMCLR (R127). -/
def segsVmclr : List Seg := [.fixed 7 0x5A, .operand 3, .fixed 15 0x0, .operand 3, .fixed 3 0x6, .operand 1]
/-- VMCLR (R127). -/
def rowVmclr : Row :=
  .mk segsVmclr (fun xs => match xs with | [d, m, c] => some (.vmclr (.ofNat 3 d) (.ofNat 3 m) (.ofNat 1 c)) | _ => none)

/-- The fields of VSEL (R128). -/
def segsVsel : List Seg := [.fixed 7 0x5B, .operand 6, .operand 6, .operand 6, .operand 3, .fixed 3 0x0, .operand 1]
/-- VSEL (R128). -/
def rowVsel : Row :=
  .mk segsVsel (fun xs => match xs with | [d, a, b, m, c] => some (.vsel (.ofNat 6 d) (.ofNat 6 a) (.ofNat 6 b) (.ofNat 3 m) (.ofNat 1 c)) | _ => none)

/-- The fields of VSELZ (R128). -/
def segsVselz : List Seg := [.fixed 7 0x5B, .operand 6, .operand 6, .fixed 6 0x0, .operand 3, .fixed 3 0x1, .operand 1]
/-- VSELZ (R128). -/
def rowVselz : Row :=
  .mk segsVselz (fun xs => match xs with | [d, a, m, c] => some (.vselz (.ofNat 6 d) (.ofNat 6 a) (.ofNat 3 m) (.ofNat 1 c)) | _ => none)

/-- The fields of VCVT (R129). -/
def segsVcvt : List Seg := [.fixed 7 0x5C, .operand 6, .operand 6, .operand 4, .fixed 2 0x0, .operand 3, .fixed 3 0x0, .operand 1]
/-- VCVT (R129). -/
def rowVcvt : Row :=
  .mk segsVcvt (fun xs => match xs with | [d, a, t, m, c] => some (.vcvt (.ofNat 6 d) (.ofNat 6 a) (.ofNat 4 t) (.ofNat 3 m) (.ofNat 1 c)) | _ => none)

/-- The fields of VQNT (R130). -/
def segsVqnt : List Seg := [.fixed 7 0x5D, .operand 6, .operand 6, .operand 4, .fixed 2 0x0, .operand 3, .fixed 3 0x0, .operand 1]
/-- VQNT (R130). -/
def rowVqnt : Row :=
  .mk segsVqnt (fun xs => match xs with | [d, a, t, m, c] => some (.vqnt (.ofNat 6 d) (.ofNat 6 a) (.ofNat 4 t) (.ofNat 3 m) (.ofNat 1 c)) | _ => none)

/-- The fields of VDQNT (R130). -/
def segsVdqnt : List Seg := [.fixed 7 0x5D, .operand 6, .operand 6, .operand 4, .fixed 2 0x0, .operand 3, .fixed 3 0x1, .operand 1]
/-- VDQNT (R130). -/
def rowVdqnt : Row :=
  .mk segsVdqnt (fun xs => match xs with | [d, a, t, m, c] => some (.vdqnt (.ofNat 6 d) (.ofNat 6 a) (.ofNat 4 t) (.ofNat 3 m) (.ofNat 1 c)) | _ => none)

/-- The fields of VGATH (R131). -/
def segsVgath : List Seg := [.fixed 7 0x60, .operand 6, .operand 6, .operand 6, .operand 3, .fixed 3 0x0, .operand 1]
/-- VGATH (R131). -/
def rowVgath : Row :=
  .mk segsVgath (fun xs => match xs with | [d, a, b, m, c] => some (.vgath (.ofNat 6 d) (.ofNat 6 a) (.ofNat 6 b) (.ofNat 3 m) (.ofNat 1 c)) | _ => none)

/-- The fields of VHEAD (R131). -/
def segsVhead : List Seg := [.fixed 7 0x60, .operand 6, .operand 6, .operand 6, .operand 3, .fixed 3 0x1, .operand 1]
/-- VHEAD (R131). -/
def rowVhead : Row :=
  .mk segsVhead (fun xs => match xs with | [d, a, b, m, c] => some (.vhead (.ofNat 6 d) (.ofNat 6 a) (.ofNat 6 b) (.ofNat 3 m) (.ofNat 1 c)) | _ => none)

/-- The fields of VTAIL (R131). -/
def segsVtail : List Seg := [.fixed 7 0x60, .operand 6, .operand 6, .operand 6, .operand 3, .fixed 3 0x2, .operand 1]
/-- VTAIL (R131). -/
def rowVtail : Row :=
  .mk segsVtail (fun xs => match xs with | [d, a, b, m, c] => some (.vtail (.ofNat 6 d) (.ofNat 6 a) (.ofNat 6 b) (.ofNat 3 m) (.ofNat 1 c)) | _ => none)

/-- The fields of VBCAST (R131). -/
def segsVbcast : List Seg := [.fixed 7 0x60, .operand 6, .operand 6, .fixed 6 0x0, .operand 3, .fixed 3 0x3, .operand 1]
/-- VBCAST (R131). -/
def rowVbcast : Row :=
  .mk segsVbcast (fun xs => match xs with | [d, a, m, c] => some (.vbcast (.ofNat 6 d) (.ofNat 6 a) (.ofNat 3 m) (.ofNat 1 c)) | _ => none)

/-- The fields of VFREDSUM (R132). -/
def segsVfredsum : List Seg := [.fixed 7 0x61, .operand 6, .operand 6, .fixed 6 0x0, .operand 3, .fixed 3 0x0, .operand 1]
/-- VFREDSUM (R132). -/
def rowVfredsum : Row :=
  .mk segsVfredsum (fun xs => match xs with | [d, a, m, c] => some (.vfredsum (.ofNat 6 d) (.ofNat 6 a) (.ofNat 3 m) (.ofNat 1 c)) | _ => none)

/-- The fields of VFREDSUMW (R132). -/
def segsVfredsumw : List Seg := [.fixed 7 0x61, .operand 6, .operand 6, .fixed 6 0x0, .operand 3, .fixed 3 0x1, .operand 1]
/-- VFREDSUMW (R132). -/
def rowVfredsumw : Row :=
  .mk segsVfredsumw (fun xs => match xs with | [d, a, m, c] => some (.vfredsumw (.ofNat 6 d) (.ofNat 6 a) (.ofNat 3 m) (.ofNat 1 c)) | _ => none)

/-- The fields of VFREDMAX (R132). -/
def segsVfredmax : List Seg := [.fixed 7 0x61, .operand 6, .operand 6, .fixed 6 0x0, .operand 3, .fixed 3 0x2, .operand 1]
/-- VFREDMAX (R132). -/
def rowVfredmax : Row :=
  .mk segsVfredmax (fun xs => match xs with | [d, a, m, c] => some (.vfredmax (.ofNat 6 d) (.ofNat 6 a) (.ofNat 3 m) (.ofNat 1 c)) | _ => none)

/-- The fields of VFREDMIN (R132). -/
def segsVfredmin : List Seg := [.fixed 7 0x61, .operand 6, .operand 6, .fixed 6 0x0, .operand 3, .fixed 3 0x3, .operand 1]
/-- VFREDMIN (R132). -/
def rowVfredmin : Row :=
  .mk segsVfredmin (fun xs => match xs with | [d, a, m, c] => some (.vfredmin (.ofNat 6 d) (.ofNat 6 a) (.ofNat 3 m) (.ofNat 1 c)) | _ => none)

/-- The fields of VREDSUM (R132). -/
def segsVredsum : List Seg := [.fixed 7 0x61, .operand 6, .operand 6, .fixed 6 0x0, .operand 3, .fixed 3 0x4, .operand 1]
/-- VREDSUM (R132). -/
def rowVredsum : Row :=
  .mk segsVredsum (fun xs => match xs with | [d, a, m, c] => some (.vredsum (.ofNat 6 d) (.ofNat 6 a) (.ofNat 3 m) (.ofNat 1 c)) | _ => none)

/-- The fields of VREDMAX (R132). -/
def segsVredmax : List Seg := [.fixed 7 0x61, .operand 6, .operand 6, .fixed 6 0x0, .operand 3, .fixed 3 0x5, .operand 1]
/-- VREDMAX (R132). -/
def rowVredmax : Row :=
  .mk segsVredmax (fun xs => match xs with | [d, a, m, c] => some (.vredmax (.ofNat 6 d) (.ofNat 6 a) (.ofNat 3 m) (.ofNat 1 c)) | _ => none)

/-- The fields of VREDMIN (R132). -/
def segsVredmin : List Seg := [.fixed 7 0x61, .operand 6, .operand 6, .fixed 6 0x0, .operand 3, .fixed 3 0x6, .operand 1]
/-- VREDMIN (R132). -/
def rowVredmin : Row :=
  .mk segsVredmin (fun xs => match xs with | [d, a, m, c] => some (.vredmin (.ofNat 6 d) (.ofNat 6 a) (.ofNat 3 m) (.ofNat 1 c)) | _ => none)

/-- The fields of VRAISE (R131). -/
def segsVraise : List Seg := [.fixed 7 0x62, .operand 6, .operand 6, .fixed 3 0x0, .operand 3, .operand 3, .fixed 3 0x1, .operand 1]
/-- VRAISE (R131). -/
def rowVraise : Row :=
  .mk segsVraise (fun xs => match xs with | [d, a, k, m, c] => some (.vraise (.ofNat 6 d) (.ofNat 6 a) (.ofNat 3 k) (.ofNat 3 m) (.ofNat 1 c)) | _ => none)

/-- The fields of VLOWER (R131). -/
def segsVlower : List Seg := [.fixed 7 0x62, .operand 6, .operand 6, .fixed 3 0x0, .operand 3, .operand 3, .fixed 3 0x2, .operand 1]
/-- VLOWER (R131). -/
def rowVlower : Row :=
  .mk segsVlower (fun xs => match xs with | [d, a, k, m, c] => some (.vlower (.ofNat 6 d) (.ofNat 6 a) (.ofNat 3 k) (.ofNat 3 m) (.ofNat 1 c)) | _ => none)

/-- The fields of VBCASTK (R131). -/
def segsVbcastk : List Seg := [.fixed 7 0x62, .operand 6, .fixed 9 0x0, .operand 3, .operand 3, .fixed 3 0x3, .operand 1]
/-- VBCASTK (R131). -/
def rowVbcastk : Row :=
  .mk segsVbcastk (fun xs => match xs with | [d, k, m, c] => some (.vbcastk (.ofNat 6 d) (.ofNat 3 k) (.ofNat 3 m) (.ofNat 1 c)) | _ => none)

/-- The fields of VLD (R221). -/
def segsVld : List Seg := [.fixed 7 0x64, .operand 6, .operand 9, .operand 3, .operand 3, .operand 1, .fixed 2 0x0, .operand 1]
/-- VLD (R221). -/
def rowVld : Row :=
  .mk segsVld (fun xs => match xs with | [d, i, k, m, r, c] => some (.vld (.ofNat 6 d) (.ofNat 9 i) (.ofNat 3 k) (.ofNat 3 m) (.ofNat 1 r) (.ofNat 1 c)) | _ => none)

/-- The fields of VST (R221). -/
def segsVst : List Seg := [.fixed 7 0x65, .operand 6, .operand 9, .operand 3, .operand 3, .operand 1, .fixed 2 0x0, .operand 1]
/-- VST (R221). -/
def rowVst : Row :=
  .mk segsVst (fun xs => match xs with | [d, i, k, m, r, c] => some (.vst (.ofNat 6 d) (.ofNat 9 i) (.ofNat 3 k) (.ofNat 3 m) (.ofNat 1 r) (.ofNat 1 c)) | _ => none)

/-- The fields of VLD2 (R221). -/
def segsVld2 : List Seg := [.fixed 7 0x66, .operand 6, .operand 9, .operand 3, .operand 3, .operand 1, .fixed 2 0x0, .operand 1]
/-- VLD2 (R221). -/
def rowVld2 : Row :=
  .mk segsVld2 (fun xs => match xs with | [d, i, k, m, r, c] => some (.vld2 (.ofNat 6 d) (.ofNat 9 i) (.ofNat 3 k) (.ofNat 3 m) (.ofNat 1 r) (.ofNat 1 c)) | _ => none)

/-- The fields of VST2 (R221). -/
def segsVst2 : List Seg := [.fixed 7 0x67, .operand 6, .operand 9, .operand 3, .operand 3, .operand 1, .fixed 2 0x0, .operand 1]
/-- VST2 (R221). -/
def rowVst2 : Row :=
  .mk segsVst2 (fun xs => match xs with | [d, i, k, m, r, c] => some (.vst2 (.ofNat 6 d) (.ofNat 9 i) (.ofNat 3 k) (.ofNat 3 m) (.ofNat 1 r) (.ofNat 1 c)) | _ => none)

/-- The fields of VLDX (R221). -/
def segsVldx : List Seg := [.fixed 7 0x68, .operand 6, .operand 6, .operand 3, .operand 3, .operand 3, .operand 1, .fixed 2 0x0, .operand 1]
/-- VLDX (R221). -/
def rowVldx : Row :=
  .mk segsVldx (fun xs => match xs with | [d, a, x, k, m, r, c] => some (.vldx (.ofNat 6 d) (.ofNat 6 a) (.ofNat 3 x) (.ofNat 3 k) (.ofNat 3 m) (.ofNat 1 r) (.ofNat 1 c)) | _ => none)

/-- The fields of VSTX (R221). -/
def segsVstx : List Seg := [.fixed 7 0x69, .operand 6, .operand 6, .operand 3, .operand 3, .operand 3, .operand 1, .fixed 2 0x0, .operand 1]
/-- VSTX (R221). -/
def rowVstx : Row :=
  .mk segsVstx (fun xs => match xs with | [d, a, x, k, m, r, c] => some (.vstx (.ofNat 6 d) (.ofNat 6 a) (.ofNat 3 x) (.ofNat 3 k) (.ofNat 3 m) (.ofNat 1 r) (.ofNat 1 c)) | _ => none)

/-- The fields of VLDSLAB (R357). -/
def segsVldslab : List Seg := [.fixed 7 0x6A, .operand 6, .operand 6, .operand 3, .operand 3, .operand 3, .fixed 3 0x0, .operand 1]
/-- VLDSLAB (R357). -/
def rowVldslab : Row :=
  .mk segsVldslab (fun xs => match xs with | [d, a, t, k, m, c] => some (.vldslab (.ofNat 6 d) (.ofNat 6 a) (.ofNat 3 t) (.ofNat 3 k) (.ofNat 3 m) (.ofNat 1 c)) | _ => none)

/-- The fields of VDEF (R77). -/
def segsVdef : List Seg := [.fixed 7 0x6C, .operand 6, .fixed 9 0x0, .operand 3, .fixed 7 0x0]
/-- VDEF (R77). -/
def rowVdef : Row :=
  .mk segsVdef (fun xs => match xs with | [d, k] => some (.vdef (.ofNat 6 d) (.ofNat 3 k)) | _ => none)

/-- The fields of VTLD (R78). -/
def segsVtld : List Seg := [.fixed 7 0x6D, .fixed 15 0x0, .operand 3, .fixed 7 0x0]
/-- VTLD (R78). -/
def rowVtld : Row :=
  .mk segsVtld (fun xs => match xs with | [k] => some (.vtld (.ofNat 3 k)) | _ => none)

/-- The fields of VTST (R79). -/
def segsVtst : List Seg := [.fixed 7 0x6D, .fixed 15 0x0, .operand 3, .fixed 7 0x8]
/-- VTST (R79). -/
def rowVtst : Row :=
  .mk segsVtst (fun xs => match xs with | [k] => some (.vtst (.ofNat 3 k)) | _ => none)

/-- The fields of VSETT (R69). -/
def segsVsett : List Seg := [.fixed 7 0x6E, .fixed 6 0x0, .operand 8, .fixed 11 0x0]
/-- VSETT (R69). -/
def rowVsett : Row :=
  .mk segsVsett (fun xs => match xs with | [i] => some (.vsett (.ofNat 8 i)) | _ => none)

/-- The fields of VLEN (R70). -/
def segsVlen : List Seg := [.fixed 7 0x6E, .fixed 15 0x0, .operand 3, .fixed 7 0x8]
/-- VLEN (R70). -/
def rowVlen : Row :=
  .mk segsVlen (fun xs => match xs with | [k] => some (.vlen (.ofNat 3 k)) | _ => none)

/-- The fields of VLEN_SHAPE (R70). -/
def segsVlenShape : List Seg := [.fixed 7 0x6E, .fixed 6 0x0, .operand 6, .fixed 3 0x1, .operand 3, .fixed 7 0x8]
/-- VLEN_SHAPE (R70). -/
def rowVlenShape : Row :=
  .mk segsVlenShape (fun xs => match xs with | [a, k] => some (.vlenShape (.ofNat 6 a) (.ofNat 3 k)) | _ => none)

/-- The fields of VSETMT (R71). -/
def segsVsetmt : List Seg := [.fixed 7 0x6E, .fixed 15 0x0, .operand 3, .fixed 7 0x10]
/-- VSETMT (R71). -/
def rowVsetmt : Row :=
  .mk segsVsetmt (fun xs => match xs with | [k] => some (.vsetmt (.ofNat 3 k)) | _ => none)

/-- The fields of VSETMT_IMM (R71). -/
def segsVsetmtImm : List Seg := [.fixed 7 0x6E, .fixed 12 0x0, .operand 2, .fixed 11 0x101]
/-- VSETMT_IMM (R71). -/
def rowVsetmtImm : Row :=
  .mk segsVsetmtImm (fun xs => match xs with | [s] => some (.vsetmtImm (.ofNat 2 s)) | _ => none)

/-- The fields of MMA (R256). -/
def segsMma : List Seg := [.fixed 7 0x70, .operand 2, .fixed 4 0x0, .operand 6, .operand 6, .fixed 6 0x0, .operand 1]
/-- MMA (R256). -/
def rowMma : Row :=
  .mk segsMma (fun xs => match xs with | [n, a, b, c] => some (.mma (.ofNat 2 n) (.ofNat 6 a) (.ofNat 6 b) (.ofNat 1 c)) | _ => none)

/-- The fields of MMAS (R257). -/
def segsMmas : List Seg := [.fixed 7 0x70, .operand 2, .fixed 4 0x0, .operand 6, .operand 6, .fixed 6 0x8, .operand 1]
/-- MMAS (R257). -/
def rowMmas : Row :=
  .mk segsMmas (fun xs => match xs with | [n, a, b, c] => some (.mmas (.ofNat 2 n) (.ofNat 6 a) (.ofNat 6 b) (.ofNat 1 c)) | _ => none)

/-- The fields of MEN (R250). -/
def segsMen : List Seg := [.fixed 7 0x71, .fixed 24 0x0, .operand 1]
/-- MEN (R250). -/
def rowMen : Row :=
  .mk segsMen (fun xs => match xs with | [c] => some (.men (.ofNat 1 c)) | _ => none)

/-- The fields of MDIS (R251). -/
def segsMdis : List Seg := [.fixed 7 0x71, .fixed 24 0x200000, .operand 1]
/-- MDIS (R251). -/
def rowMdis : Row :=
  .mk segsMdis (fun xs => match xs with | [c] => some (.mdis (.ofNat 1 c)) | _ => none)

/-- The fields of MZERO (R252). -/
def segsMzero : List Seg := [.fixed 7 0x71, .operand 2, .fixed 22 0x100000, .operand 1]
/-- MZERO (R252). -/
def rowMzero : Row :=
  .mk segsMzero (fun xs => match xs with | [n, c] => some (.mzero (.ofNat 2 n) (.ofNat 1 c)) | _ => none)

/-- The fields of MSHAPE (R253). -/
def segsMshape : List Seg := [.fixed 7 0x71, .fixed 15 0x0, .operand 3, .fixed 6 0x18, .operand 1]
/-- MSHAPE (R253). -/
def rowMshape : Row :=
  .mk segsMshape (fun xs => match xs with | [k, c] => some (.mshape (.ofNat 3 k) (.ofNat 1 c)) | _ => none)

/-- The fields of MSCL (R255). -/
def segsMscl : List Seg := [.fixed 7 0x71, .fixed 15 0x0, .operand 3, .fixed 6 0x20, .operand 1]
/-- MSCL (R255). -/
def rowMscl : Row :=
  .mk segsMscl (fun xs => match xs with | [k, c] => some (.mscl (.ofNat 3 k) (.ofNat 1 c)) | _ => none)

/-- The fields of MEXT_ROW (R260). -/
def segsMextRow : List Seg := [.fixed 7 0x72, .operand 6, .operand 2, .fixed 4 0x0, .operand 6, .operand 3, .fixed 3 0x0, .operand 1]
/-- MEXT_ROW (R260). -/
def rowMextRow : Row :=
  .mk segsMextRow (fun xs => match xs with | [d, n, s, m, c] => some (.mextRow (.ofNat 6 d) (.ofNat 2 n) (.ofNat 6 s) (.ofNat 3 m) (.ofNat 1 c)) | _ => none)

/-- The fields of MEXT_COL (R260). -/
def segsMextCol : List Seg := [.fixed 7 0x72, .operand 6, .operand 2, .fixed 4 0x0, .operand 6, .operand 3, .fixed 3 0x1, .operand 1]
/-- MEXT_COL (R260). -/
def rowMextCol : Row :=
  .mk segsMextCol (fun xs => match xs with | [d, n, s, m, c] => some (.mextCol (.ofNat 6 d) (.ofNat 2 n) (.ofNat 6 s) (.ofNat 3 m) (.ofNat 1 c)) | _ => none)

/-- The fields of MEXT_RECT (R260). -/
def segsMextRect : List Seg := [.fixed 7 0x72, .operand 6, .operand 2, .fixed 10 0x0, .operand 3, .fixed 3 0x2, .operand 1]
/-- MEXT_RECT (R260). -/
def rowMextRect : Row :=
  .mk segsMextRect (fun xs => match xs with | [d, n, m, c] => some (.mextRect (.ofNat 6 d) (.ofNat 2 n) (.ofNat 3 m) (.ofNat 1 c)) | _ => none)

/-- The fields of MINS_ROW (R260). -/
def segsMinsRow : List Seg := [.fixed 7 0x72, .operand 6, .operand 2, .fixed 4 0x0, .operand 6, .operand 3, .fixed 3 0x4, .operand 1]
/-- MINS_ROW (R260). -/
def rowMinsRow : Row :=
  .mk segsMinsRow (fun xs => match xs with | [d, n, s, m, c] => some (.minsRow (.ofNat 6 d) (.ofNat 2 n) (.ofNat 6 s) (.ofNat 3 m) (.ofNat 1 c)) | _ => none)

/-- The fields of MINS_COL (R260). -/
def segsMinsCol : List Seg := [.fixed 7 0x72, .operand 6, .operand 2, .fixed 4 0x0, .operand 6, .operand 3, .fixed 3 0x5, .operand 1]
/-- MINS_COL (R260). -/
def rowMinsCol : Row :=
  .mk segsMinsCol (fun xs => match xs with | [d, n, s, m, c] => some (.minsCol (.ofNat 6 d) (.ofNat 2 n) (.ofNat 6 s) (.ofNat 3 m) (.ofNat 1 c)) | _ => none)

/-- The fields of MINS_RECT (R260). -/
def segsMinsRect : List Seg := [.fixed 7 0x72, .operand 6, .operand 2, .fixed 10 0x0, .operand 3, .fixed 3 0x6, .operand 1]
/-- MINS_RECT (R260). -/
def rowMinsRect : Row :=
  .mk segsMinsRect (fun xs => match xs with | [d, n, m, c] => some (.minsRect (.ofNat 6 d) (.ofNat 2 n) (.ofNat 3 m) (.ofNat 1 c)) | _ => none)

/-- The fields of LSTEP (R270). -/
def segsLstep : List Seg := [.fixed 7 0x74, .fixed 6 0x0, .operand 2, .fixed 16 0x0, .operand 1]
/-- LSTEP (R270). -/
def rowLstep : Row :=
  .mk segsLstep (fun xs => match xs with | [n, c] => some (.lstep (.ofNat 2 n) (.ofNat 1 c)) | _ => none)

/-- The fields of LBLEND (R280). -/
def segsLblend : List Seg := [.fixed 7 0x74, .operand 6, .fixed 18 0x8000, .operand 1]
/-- LBLEND (R280). -/
def rowLblend : Row :=
  .mk segsLblend (fun xs => match xs with | [d, c] => some (.lblend (.ofNat 6 d) (.ofNat 1 c)) | _ => none)

/-- The fields of LRUNG_LD (R281). -/
def segsLrungLd : List Seg := [.fixed 7 0x75, .operand 6, .operand 6, .fixed 12 0x0, .operand 1]
/-- LRUNG_LD (R281). -/
def rowLrungLd : Row :=
  .mk segsLrungLd (fun xs => match xs with | [d, l, c] => some (.lrungLd (.ofNat 6 d) (.ofNat 6 l) (.ofNat 1 c)) | _ => none)

/-- The fields of LRUNG_ST (R281). -/
def segsLrungSt : List Seg := [.fixed 7 0x75, .operand 6, .operand 6, .fixed 12 0x200, .operand 1]
/-- LRUNG_ST (R281). -/
def rowLrungSt : Row :=
  .mk segsLrungSt (fun xs => match xs with | [d, l, c] => some (.lrungSt (.ofNat 6 d) (.ofNat 6 l) (.ofNat 1 c)) | _ => none)

/-- The fields of LRUNG_LD_K (R281). -/
def segsLrungLdK : List Seg := [.fixed 7 0x75, .operand 6, .fixed 9 0x0, .operand 3, .fixed 6 0x10, .operand 1]
/-- LRUNG_LD_K (R281). -/
def rowLrungLdK : Row :=
  .mk segsLrungLdK (fun xs => match xs with | [d, k, c] => some (.lrungLdK (.ofNat 6 d) (.ofNat 3 k) (.ofNat 1 c)) | _ => none)

/-- The fields of LRUNG_ST_K (R281). -/
def segsLrungStK : List Seg := [.fixed 7 0x75, .operand 6, .fixed 9 0x0, .operand 3, .fixed 6 0x18, .operand 1]
/-- LRUNG_ST_K (R281). -/
def rowLrungStK : Row :=
  .mk segsLrungStK (fun xs => match xs with | [d, k, c] => some (.lrungStK (.ofNat 6 d) (.ofNat 3 k) (.ofNat 1 c)) | _ => none)

/-- The fields of LCFG (R277). -/
def segsLcfg : List Seg := [.fixed 7 0x76, .fixed 15 0x0, .operand 3, .fixed 6 0x0, .operand 1]
/-- LCFG (R277). -/
def rowLcfg : Row :=
  .mk segsLcfg (fun xs => match xs with | [k, c] => some (.lcfg (.ofNat 3 k) (.ofNat 1 c)) | _ => none)

/-- The fields of LSTAT_CNT (R279). -/
def segsLstatCnt : List Seg := [.fixed 7 0x76, .fixed 15 0x0, .operand 3, .fixed 6 0x8, .operand 1]
/-- LSTAT_CNT (R279). -/
def rowLstatCnt : Row :=
  .mk segsLstatCnt (fun xs => match xs with | [k, c] => some (.lstatCnt (.ofNat 3 k) (.ofNat 1 c)) | _ => none)

/-- The fields of LSTAT_CARRY (R279). -/
def segsLstatCarry : List Seg := [.fixed 7 0x76, .fixed 15 0x1000, .operand 3, .fixed 6 0x8, .operand 1]
/-- LSTAT_CARRY (R279). -/
def rowLstatCarry : Row :=
  .mk segsLstatCarry (fun xs => match xs with | [k, c] => some (.lstatCarry (.ofNat 3 k) (.ofNat 1 c)) | _ => none)

/-- The fields of LRESET (R278). -/
def segsLreset : List Seg := [.fixed 7 0x76, .fixed 24 0x400000, .operand 1]
/-- LRESET (R278). -/
def rowLreset : Row :=
  .mk segsLreset (fun xs => match xs with | [c] => some (.lreset (.ofNat 1 c)) | _ => none)

/-- The fields of VISSUE (R148). -/
def segsVissue : List Seg := [.fixed 7 0x78, .operand 3, .fixed 3 0x0, .operand 6, .fixed 6 0x0, .operand 3, .fixed 4 0x0]
/-- VISSUE (R148). -/
def rowVissue : Row :=
  .mk segsVissue (fun xs => match xs with | [d, a, m] => some (.vissue (.ofNat 3 d) (.ofNat 6 a) (.ofNat 3 m)) | _ => none)

/-- The fields of VCAPP (R155). -/
def segsVcapp : List Seg := [.fixed 7 0x79, .operand 4, .fixed 2 0x0, .operand 6, .fixed 6 0x0, .operand 3, .fixed 3 0x0, .operand 1]
/-- VCAPP (R155). -/
def rowVcapp : Row :=
  .mk segsVcapp (fun xs => match xs with | [q, a, m, c] => some (.vcapp (.ofNat 4 q) (.ofNat 6 a) (.ofNat 3 m) (.ofNat 1 c)) | _ => none)

/-- The fields of VCAPP_K (R155). -/
def segsVcappK : List Seg := [.fixed 7 0x79, .operand 4, .fixed 11 0x100, .operand 3, .operand 3, .fixed 3 0x0, .operand 1]
/-- VCAPP_K (R155). -/
def rowVcappK : Row :=
  .mk segsVcappK (fun xs => match xs with | [q, k, m, c] => some (.vcappK (.ofNat 4 q) (.ofNat 3 k) (.ofNat 3 m) (.ofNat 1 c)) | _ => none)

/-- The fields of VWAIT (R159). -/
def segsVwait : List Seg := [.fixed 7 0x7A, .operand 6, .operand 6, .operand 2, .fixed 1 0x0, .operand 3, .operand 3, .fixed 4 0x0]
/-- VWAIT (R159). -/
def rowVwait : Row :=
  .mk segsVwait (fun xs => match xs with | [d, a, e, k, m] => some (.vwait (.ofNat 6 d) (.ofNat 6 a) (.ofNat 2 e) (.ofNat 3 k) (.ofNat 3 m)) | _ => none)

/-- The fields of GMMA (R325). -/
def segsGmma : List Seg := [.fixed 7 0x7B, .operand 2, .fixed 4 0x0, .operand 6, .operand 6, .fixed 6 0x0, .operand 1]
/-- GMMA (R325). -/
def rowGmma : Row :=
  .mk segsGmma (fun xs => match xs with | [n, a, b, c] => some (.gmma (.ofNat 2 n) (.ofNat 6 a) (.ofNat 6 b) (.ofNat 1 c)) | _ => none)

/-- The fields of VBEND (R135). -/
def segsVbend : List Seg := [.fixed 7 0x7C, .fixed 25 0x0]
/-- VBEND (R135). -/
def rowVbend : Row :=
  .mk segsVbend (fun xs => match xs with | [] => some .vbend | _ => none)

/-- The fields of VKADD (R133). -/
def segsVkadd : List Seg := [.fixed 7 0x7D, .operand 3, .fixed 3 0x0, .operand 9, .operand 3, .fixed 6 0x0, .operand 1]
/-- VKADD (R133). -/
def rowVkadd : Row :=
  .mk segsVkadd (fun xs => match xs with | [d, i, k, c] => some (.vkadd (.ofNat 3 d) (.ofNat 9 i) (.ofNat 3 k) (.ofNat 1 c)) | _ => none)

/-- The fields of VKADD_K (R133). -/
def segsVkaddK : List Seg := [.fixed 7 0x7D, .operand 3, .fixed 3 0x0, .operand 3, .fixed 6 0x0, .operand 3, .fixed 6 0x8, .operand 1]
/-- VKADD_K (R133). -/
def rowVkaddK : Row :=
  .mk segsVkaddK (fun xs => match xs with | [d, t, k, c] => some (.vkaddK (.ofNat 3 d) (.ofNat 3 t) (.ofNat 3 k) (.ofNat 1 c)) | _ => none)

/-- The fields of VKPOP (R133). -/
def segsVkpop : List Seg := [.fixed 7 0x7D, .operand 3, .fixed 21 0x80000, .operand 1]
/-- VKPOP (R133). -/
def rowVkpop : Row :=
  .mk segsVkpop (fun xs => match xs with | [d, c] => some (.vkpop (.ofNat 3 d) (.ofNat 1 c)) | _ => none)

/-- The fields of VKGET (R133). -/
def segsVkget : List Seg := [.fixed 7 0x7D, .operand 3, .fixed 3 0x0, .operand 6, .fixed 12 0x600, .operand 1]
/-- VKGET (R133). -/
def rowVkget : Row :=
  .mk segsVkget (fun xs => match xs with | [d, a, c] => some (.vkget (.ofNat 3 d) (.ofNat 6 a) (.ofNat 1 c)) | _ => none)

/-- The fields of VKPUSH (R134). -/
def segsVkpush : List Seg := [.fixed 7 0x7E, .fixed 15 0x0, .operand 3, .fixed 6 0x0, .operand 1]
/-- VKPUSH (R134). -/
def rowVkpush : Row :=
  .mk segsVkpush (fun xs => match xs with | [k, c] => some (.vkpush (.ofNat 3 k) (.ofNat 1 c)) | _ => none)

/-- The fields of VMPUSH_COUNT (R134). -/
def segsVmpushCount : List Seg := [.fixed 7 0x7E, .fixed 6 0x0, .operand 3, .fixed 15 0x1000, .operand 1]
/-- VMPUSH_COUNT (R134). -/
def rowVmpushCount : Row :=
  .mk segsVmpushCount (fun xs => match xs with | [a, c] => some (.vmpushCount (.ofNat 3 a) (.ofNat 1 c)) | _ => none)

/-- The fields of VMPUSH_FIRST (R134). -/
def segsVmpushFirst : List Seg := [.fixed 7 0x7E, .fixed 6 0x0, .operand 3, .fixed 15 0x1008, .operand 1]
/-- VMPUSH_FIRST (R134). -/
def rowVmpushFirst : Row :=
  .mk segsVmpushFirst (fun xs => match xs with | [a, c] => some (.vmpushFirst (.ofNat 3 a) (.ofNat 1 c)) | _ => none)

/-- The fields of CRGET (R178). -/
def segsCrget : List Seg := [.fixed 7 0x38, .operand 5, .fixed 5 0x0, .operand 12, .fixed 3 0x0]
/-- CRGET (R178). -/
def rowCrget : Row :=
  .mk segsCrget (fun xs => match xs with | [d, c] => some (.crget (.ofNat 5 d) (.ofNat 12 c)) | _ => none)

/-- The fields of CRPUT (R178). -/
def segsCrput : List Seg := [.fixed 7 0x38, .fixed 5 0x0, .operand 5, .operand 12, .fixed 3 0x2]
/-- CRPUT (R178). -/
def rowCrput : Row :=
  .mk segsCrput (fun xs => match xs with | [a, c] => some (.crput (.ofNat 5 a) (.ofNat 12 c)) | _ => none)

/-- The fields of CRSET (R178). -/
def segsCrset : List Seg := [.fixed 7 0x38, .fixed 5 0x0, .operand 5, .operand 12, .fixed 3 0x4]
/-- CRSET (R178). -/
def rowCrset : Row :=
  .mk segsCrset (fun xs => match xs with | [a, c] => some (.crset (.ofNat 5 a) (.ofNat 12 c)) | _ => none)

/-- The fields of CRCLR (R178). -/
def segsCrclr : List Seg := [.fixed 7 0x38, .fixed 5 0x0, .operand 5, .operand 12, .fixed 3 0x6]
/-- CRCLR (R178). -/
def rowCrclr : Row :=
  .mk segsCrclr (fun xs => match xs with | [a, c] => some (.crclr (.ofNat 5 a) (.ofNat 12 c)) | _ => none)

/-- The fields of ADD (R170). -/
def segsAdd : List Seg := [.fixed 7 0x1, .operand 5, .operand 5, .operand 5, .fixed 10 0x0]
/-- ADD (R170). -/
def rowAdd : Row :=
  .mk segsAdd (fun xs => match xs with | [d, a, b] => some (.add (.ofNat 5 d) (.ofNat 5 a) (.ofNat 5 b)) | _ => none)

/-- The fields of SUB (R170). -/
def segsSub : List Seg := [.fixed 7 0x1, .operand 5, .operand 5, .operand 5, .fixed 10 0x1]
/-- SUB (R170). -/
noncomputable def rowSub : Row :=
  .mk segsSub (fun xs => match xs with | [d, a, b] => some (.sub (.ofNat 5 d) (.ofNat 5 a) (.ofNat 5 b)) | _ => none)

/-- The fields of AND (R170). -/
def segsAnd : List Seg := [.fixed 7 0x1, .operand 5, .operand 5, .operand 5, .fixed 10 0x2]
/-- AND (R170). -/
noncomputable def rowAnd : Row :=
  .mk segsAnd (fun xs => match xs with | [d, a, b] => some (.and (.ofNat 5 d) (.ofNat 5 a) (.ofNat 5 b)) | _ => none)

/-- The fields of OR (R170). -/
def segsOr : List Seg := [.fixed 7 0x1, .operand 5, .operand 5, .operand 5, .fixed 10 0x3]
/-- OR (R170). -/
noncomputable def rowOr : Row :=
  .mk segsOr (fun xs => match xs with | [d, a, b] => some (.or (.ofNat 5 d) (.ofNat 5 a) (.ofNat 5 b)) | _ => none)

/-- The fields of XOR (R170). -/
def segsXor : List Seg := [.fixed 7 0x1, .operand 5, .operand 5, .operand 5, .fixed 10 0x4]
/-- XOR (R170). -/
noncomputable def rowXor : Row :=
  .mk segsXor (fun xs => match xs with | [d, a, b] => some (.xor (.ofNat 5 d) (.ofNat 5 a) (.ofNat 5 b)) | _ => none)

/-- The fields of SLL (R170). -/
def segsSll : List Seg := [.fixed 7 0x1, .operand 5, .operand 5, .operand 5, .fixed 10 0x5]
/-- SLL (R170). -/
noncomputable def rowSll : Row :=
  .mk segsSll (fun xs => match xs with | [d, a, b] => some (.sll (.ofNat 5 d) (.ofNat 5 a) (.ofNat 5 b)) | _ => none)

/-- The fields of SRL (R170). -/
def segsSrl : List Seg := [.fixed 7 0x1, .operand 5, .operand 5, .operand 5, .fixed 10 0x6]
/-- SRL (R170). -/
noncomputable def rowSrl : Row :=
  .mk segsSrl (fun xs => match xs with | [d, a, b] => some (.srl (.ofNat 5 d) (.ofNat 5 a) (.ofNat 5 b)) | _ => none)

/-- The fields of SRA (R170). -/
def segsSra : List Seg := [.fixed 7 0x1, .operand 5, .operand 5, .operand 5, .fixed 10 0x7]
/-- SRA (R170). -/
noncomputable def rowSra : Row :=
  .mk segsSra (fun xs => match xs with | [d, a, b] => some (.sra (.ofNat 5 d) (.ofNat 5 a) (.ofNat 5 b)) | _ => none)

/-- The fields of SLT (R170). -/
def segsSlt : List Seg := [.fixed 7 0x1, .operand 5, .operand 5, .operand 5, .fixed 10 0x8]
/-- SLT (R170). -/
noncomputable def rowSlt : Row :=
  .mk segsSlt (fun xs => match xs with | [d, a, b] => some (.slt (.ofNat 5 d) (.ofNat 5 a) (.ofNat 5 b)) | _ => none)

/-- The fields of SLTN (R170). -/
def segsSltn : List Seg := [.fixed 7 0x1, .operand 5, .operand 5, .operand 5, .fixed 10 0x9]
/-- SLTN (R170). -/
noncomputable def rowSltn : Row :=
  .mk segsSltn (fun xs => match xs with | [d, a, b] => some (.sltn (.ofNat 5 d) (.ofNat 5 a) (.ofNat 5 b)) | _ => none)

/-- The fields of MUL (R170). -/
def segsMul : List Seg := [.fixed 7 0x1, .operand 5, .operand 5, .operand 5, .fixed 10 0xA]
/-- MUL (R170). -/
noncomputable def rowMul : Row :=
  .mk segsMul (fun xs => match xs with | [d, a, b] => some (.mul (.ofNat 5 d) (.ofNat 5 a) (.ofNat 5 b)) | _ => none)

/-- The fields of MULHS (R170). -/
def segsMulhs : List Seg := [.fixed 7 0x1, .operand 5, .operand 5, .operand 5, .fixed 10 0xB]
/-- MULHS (R170). -/
noncomputable def rowMulhs : Row :=
  .mk segsMulhs (fun xs => match xs with | [d, a, b] => some (.mulhs (.ofNat 5 d) (.ofNat 5 a) (.ofNat 5 b)) | _ => none)

/-- The fields of MULHN (R170). -/
def segsMulhn : List Seg := [.fixed 7 0x1, .operand 5, .operand 5, .operand 5, .fixed 10 0xC]
/-- MULHN (R170). -/
noncomputable def rowMulhn : Row :=
  .mk segsMulhn (fun xs => match xs with | [d, a, b] => some (.mulhn (.ofNat 5 d) (.ofNat 5 a) (.ofNat 5 b)) | _ => none)

/-- The fields of DIV (R170). -/
def segsDiv : List Seg := [.fixed 7 0x1, .operand 5, .operand 5, .operand 5, .fixed 10 0xD]
/-- DIV (R170). -/
noncomputable def rowDiv : Row :=
  .mk segsDiv (fun xs => match xs with | [d, a, b] => some (.div (.ofNat 5 d) (.ofNat 5 a) (.ofNat 5 b)) | _ => none)

/-- The fields of DIVN (R170). -/
def segsDivn : List Seg := [.fixed 7 0x1, .operand 5, .operand 5, .operand 5, .fixed 10 0xE]
/-- DIVN (R170). -/
noncomputable def rowDivn : Row :=
  .mk segsDivn (fun xs => match xs with | [d, a, b] => some (.divn (.ofNat 5 d) (.ofNat 5 a) (.ofNat 5 b)) | _ => none)

/-- The fields of REM (R170). -/
def segsRem : List Seg := [.fixed 7 0x1, .operand 5, .operand 5, .operand 5, .fixed 10 0xF]
/-- REM (R170). -/
noncomputable def rowRem : Row :=
  .mk segsRem (fun xs => match xs with | [d, a, b] => some (.rem (.ofNat 5 d) (.ofNat 5 a) (.ofNat 5 b)) | _ => none)

/-- The fields of REMN (R170). -/
def segsRemn : List Seg := [.fixed 7 0x1, .operand 5, .operand 5, .operand 5, .fixed 10 0x10]
/-- REMN (R170). -/
noncomputable def rowRemn : Row :=
  .mk segsRemn (fun xs => match xs with | [d, a, b] => some (.remn (.ofNat 5 d) (.ofNat 5 a) (.ofNat 5 b)) | _ => none)

/-- The fields of ADDI (R171). -/
def segsAddi : List Seg := [.fixed 7 0x2, .operand 5, .operand 5, .operand 15]
/-- ADDI (R171). -/
noncomputable def rowAddi : Row :=
  .mk segsAddi (fun xs => match xs with | [d, a, i] => some (.addi (.ofNat 5 d) (.ofNat 5 a) (.ofNat 15 i)) | _ => none)

/-- The fields of ANDI (R171). -/
def segsAndi : List Seg := [.fixed 7 0x3, .operand 5, .operand 5, .operand 15]
/-- ANDI (R171). -/
noncomputable def rowAndi : Row :=
  .mk segsAndi (fun xs => match xs with | [d, a, i] => some (.andi (.ofNat 5 d) (.ofNat 5 a) (.ofNat 15 i)) | _ => none)

/-- The fields of ORI (R171). -/
def segsOri : List Seg := [.fixed 7 0x4, .operand 5, .operand 5, .operand 15]
/-- ORI (R171). -/
noncomputable def rowOri : Row :=
  .mk segsOri (fun xs => match xs with | [d, a, i] => some (.ori (.ofNat 5 d) (.ofNat 5 a) (.ofNat 15 i)) | _ => none)

/-- The fields of XORI (R171). -/
def segsXori : List Seg := [.fixed 7 0x5, .operand 5, .operand 5, .operand 15]
/-- XORI (R171). -/
noncomputable def rowXori : Row :=
  .mk segsXori (fun xs => match xs with | [d, a, i] => some (.xori (.ofNat 5 d) (.ofNat 5 a) (.ofNat 15 i)) | _ => none)

/-- The fields of SLLI (R172). -/
def segsSlli : List Seg := [.fixed 7 0x6, .operand 5, .operand 5, .operand 6, .fixed 9 0x0]
/-- SLLI (R172). -/
noncomputable def rowSlli : Row :=
  .mk segsSlli (fun xs => match xs with | [d, a, n] => some (.slli (.ofNat 5 d) (.ofNat 5 a) (.ofNat 6 n)) | _ => none)

/-- The fields of SRLI (R172). -/
def segsSrli : List Seg := [.fixed 7 0x6, .operand 5, .operand 5, .operand 6, .fixed 9 0x1]
/-- SRLI (R172). -/
noncomputable def rowSrli : Row :=
  .mk segsSrli (fun xs => match xs with | [d, a, n] => some (.srli (.ofNat 5 d) (.ofNat 5 a) (.ofNat 6 n)) | _ => none)

/-- The fields of SRAI (R172). -/
def segsSrai : List Seg := [.fixed 7 0x6, .operand 5, .operand 5, .operand 6, .fixed 9 0x2]
/-- SRAI (R172). -/
noncomputable def rowSrai : Row :=
  .mk segsSrai (fun xs => match xs with | [d, a, n] => some (.srai (.ofNat 5 d) (.ofNat 5 a) (.ofNat 6 n)) | _ => none)

/-- The fields of SLTI (R171). -/
def segsSlti : List Seg := [.fixed 7 0x7, .operand 5, .operand 5, .operand 15]
/-- SLTI (R171). -/
noncomputable def rowSlti : Row :=
  .mk segsSlti (fun xs => match xs with | [d, a, i] => some (.slti (.ofNat 5 d) (.ofNat 5 a) (.ofNat 15 i)) | _ => none)

/-- The fields of SLTIN (R171). -/
def segsSltin : List Seg := [.fixed 7 0x8, .operand 5, .operand 5, .operand 15]
/-- SLTIN (R171). -/
noncomputable def rowSltin : Row :=
  .mk segsSltin (fun xs => match xs with | [d, a, i] => some (.sltin (.ofNat 5 d) (.ofNat 5 a) (.ofNat 15 i)) | _ => none)

/-- The fields of LUI (R173). -/
def segsLui : List Seg := [.fixed 7 0x9, .operand 5, .operand 20]
/-- LUI (R173). -/
noncomputable def rowLui : Row :=
  .mk segsLui (fun xs => match xs with | [d, i] => some (.lui (.ofNat 5 d) (.ofNat 20 i)) | _ => none)

/-- The fields of SEXT (R174). -/
def segsSext : List Seg := [.fixed 7 0xA, .operand 5, .operand 5, .fixed 5 0x0, .operand 6, .fixed 4 0x0]
/-- SEXT (R174). -/
noncomputable def rowSext : Row :=
  .mk segsSext (fun xs => match xs with | [d, a, w] => some (.sext (.ofNat 5 d) (.ofNat 5 a) (.ofNat 6 w)) | _ => none)

/-- The fields of ZEXT (R174). -/
def segsZext : List Seg := [.fixed 7 0xA, .operand 5, .operand 5, .fixed 5 0x0, .operand 6, .fixed 4 0x1]
/-- ZEXT (R174). -/
noncomputable def rowZext : Row :=
  .mk segsZext (fun xs => match xs with | [d, a, w] => some (.zext (.ofNat 5 d) (.ofNat 5 a) (.ofNat 6 w)) | _ => none)

/-- The fields of EXTR (R174). -/
def segsExtr : List Seg := [.fixed 7 0xA, .operand 5, .operand 5, .operand 5, .operand 6, .fixed 4 0x2]
/-- EXTR (R174). -/
noncomputable def rowExtr : Row :=
  .mk segsExtr (fun xs => match xs with | [d, a, b, w] => some (.extr (.ofNat 5 d) (.ofNat 5 a) (.ofNat 5 b) (.ofNat 6 w)) | _ => none)

/-- The fields of INS (R174). -/
def segsIns : List Seg := [.fixed 7 0xA, .operand 5, .operand 5, .operand 5, .operand 6, .fixed 4 0x3]
/-- INS (R174). -/
noncomputable def rowIns : Row :=
  .mk segsIns (fun xs => match xs with | [d, a, b, w] => some (.ins (.ofNat 5 d) (.ofNat 5 a) (.ofNat 5 b) (.ofNat 6 w)) | _ => none)

/-- The fields of CLZ (R174). -/
def segsClz : List Seg := [.fixed 7 0xA, .operand 5, .operand 5, .fixed 15 0x2000]
/-- CLZ (R174). -/
noncomputable def rowClz : Row :=
  .mk segsClz (fun xs => match xs with | [d, a] => some (.clz (.ofNat 5 d) (.ofNat 5 a)) | _ => none)

/-- The fields of CTZ (R174). -/
def segsCtz : List Seg := [.fixed 7 0xA, .operand 5, .operand 5, .fixed 15 0x2800]
/-- CTZ (R174). -/
noncomputable def rowCtz : Row :=
  .mk segsCtz (fun xs => match xs with | [d, a] => some (.ctz (.ofNat 5 d) (.ofNat 5 a)) | _ => none)

/-- The fields of POPC (R174). -/
def segsPopc : List Seg := [.fixed 7 0xA, .operand 5, .operand 5, .fixed 15 0x3000]
/-- POPC (R174). -/
noncomputable def rowPopc : Row :=
  .mk segsPopc (fun xs => match xs with | [d, a] => some (.popc (.ofNat 5 d) (.ofNat 5 a)) | _ => none)

/-- The fields of LDB (R215). -/
def segsLdb : List Seg := [.fixed 7 0x10, .operand 5, .operand 5, .operand 2, .operand 13]
/-- LDB (R215). -/
noncomputable def rowLdb : Row :=
  .mk segsLdb (fun xs => match xs with | [d, a, s, i] => some (.ldb (.ofNat 5 d) (.ofNat 5 a) (.ofNat 2 s) (.ofNat 13 i)) | _ => none)

/-- The fields of LDW (R215). -/
def segsLdw : List Seg := [.fixed 7 0x11, .operand 5, .operand 5, .operand 2, .operand 13]
/-- LDW (R215). -/
noncomputable def rowLdw : Row :=
  .mk segsLdw (fun xs => match xs with | [d, a, s, i] => some (.ldw (.ofNat 5 d) (.ofNat 5 a) (.ofNat 2 s) (.ofNat 13 i)) | _ => none)

/-- The fields of LDD (R215). -/
def segsLdd : List Seg := [.fixed 7 0x12, .operand 5, .operand 5, .operand 2, .operand 13]
/-- LDD (R215). -/
noncomputable def rowLdd : Row :=
  .mk segsLdd (fun xs => match xs with | [d, a, s, i] => some (.ldd (.ofNat 5 d) (.ofNat 5 a) (.ofNat 2 s) (.ofNat 13 i)) | _ => none)

/-- The fields of STB (R215). -/
def segsStb : List Seg := [.fixed 7 0x13, .operand 5, .operand 5, .operand 2, .operand 13]
/-- STB (R215). -/
noncomputable def rowStb : Row :=
  .mk segsStb (fun xs => match xs with | [d, a, s, i] => some (.stb (.ofNat 5 d) (.ofNat 5 a) (.ofNat 2 s) (.ofNat 13 i)) | _ => none)

/-- The fields of STW (R215). -/
def segsStw : List Seg := [.fixed 7 0x14, .operand 5, .operand 5, .operand 2, .operand 13]
/-- STW (R215). -/
noncomputable def rowStw : Row :=
  .mk segsStw (fun xs => match xs with | [d, a, s, i] => some (.stw (.ofNat 5 d) (.ofNat 5 a) (.ofNat 2 s) (.ofNat 13 i)) | _ => none)

/-- The fields of STD (R215). -/
def segsStd : List Seg := [.fixed 7 0x15, .operand 5, .operand 5, .operand 2, .operand 13]
/-- STD (R215). -/
noncomputable def rowStd : Row :=
  .mk segsStd (fun xs => match xs with | [d, a, s, i] => some (.std (.ofNat 5 d) (.ofNat 5 a) (.ofNat 2 s) (.ofNat 13 i)) | _ => none)

/-- The fields of AMOSWAP (R217). -/
def segsAmoswap : List Seg := [.fixed 7 0x16, .operand 5, .operand 5, .operand 5, .operand 3, .operand 2, .operand 2, .fixed 3 0x0]
/-- AMOSWAP (R217). -/
noncomputable def rowAmoswap : Row :=
  .mk segsAmoswap (fun xs => match xs with | [d, a, b, e, o, s] => some (.amoswap (.ofNat 5 d) (.ofNat 5 a) (.ofNat 5 b) (.ofNat 3 e) (.ofNat 2 o) (.ofNat 2 s)) | _ => none)

/-- The fields of AMOADD (R217). -/
def segsAmoadd : List Seg := [.fixed 7 0x16, .operand 5, .operand 5, .operand 5, .operand 3, .operand 2, .operand 2, .fixed 3 0x1]
/-- AMOADD (R217). -/
noncomputable def rowAmoadd : Row :=
  .mk segsAmoadd (fun xs => match xs with | [d, a, b, e, o, s] => some (.amoadd (.ofNat 5 d) (.ofNat 5 a) (.ofNat 5 b) (.ofNat 3 e) (.ofNat 2 o) (.ofNat 2 s)) | _ => none)

/-- The fields of AMOAND (R217). -/
def segsAmoand : List Seg := [.fixed 7 0x16, .operand 5, .operand 5, .operand 5, .operand 3, .operand 2, .operand 2, .fixed 3 0x2]
/-- AMOAND (R217). -/
noncomputable def rowAmoand : Row :=
  .mk segsAmoand (fun xs => match xs with | [d, a, b, e, o, s] => some (.amoand (.ofNat 5 d) (.ofNat 5 a) (.ofNat 5 b) (.ofNat 3 e) (.ofNat 2 o) (.ofNat 2 s)) | _ => none)

/-- The fields of AMOOR (R217). -/
def segsAmoor : List Seg := [.fixed 7 0x16, .operand 5, .operand 5, .operand 5, .operand 3, .operand 2, .operand 2, .fixed 3 0x3]
/-- AMOOR (R217). -/
noncomputable def rowAmoor : Row :=
  .mk segsAmoor (fun xs => match xs with | [d, a, b, e, o, s] => some (.amoor (.ofNat 5 d) (.ofNat 5 a) (.ofNat 5 b) (.ofNat 3 e) (.ofNat 2 o) (.ofNat 2 s)) | _ => none)

/-- The fields of AMOXOR (R217). -/
def segsAmoxor : List Seg := [.fixed 7 0x16, .operand 5, .operand 5, .operand 5, .operand 3, .operand 2, .operand 2, .fixed 3 0x4]
/-- AMOXOR (R217). -/
noncomputable def rowAmoxor : Row :=
  .mk segsAmoxor (fun xs => match xs with | [d, a, b, e, o, s] => some (.amoxor (.ofNat 5 d) (.ofNat 5 a) (.ofNat 5 b) (.ofNat 3 e) (.ofNat 2 o) (.ofNat 2 s)) | _ => none)

/-- The fields of AMOMAX (R217). -/
def segsAmomax : List Seg := [.fixed 7 0x16, .operand 5, .operand 5, .operand 5, .operand 3, .operand 2, .operand 2, .fixed 3 0x5]
/-- AMOMAX (R217). -/
noncomputable def rowAmomax : Row :=
  .mk segsAmomax (fun xs => match xs with | [d, a, b, e, o, s] => some (.amomax (.ofNat 5 d) (.ofNat 5 a) (.ofNat 5 b) (.ofNat 3 e) (.ofNat 2 o) (.ofNat 2 s)) | _ => none)

/-- The fields of AMOMIN (R217). -/
def segsAmomin : List Seg := [.fixed 7 0x16, .operand 5, .operand 5, .operand 5, .operand 3, .operand 2, .operand 2, .fixed 3 0x6]
/-- AMOMIN (R217). -/
noncomputable def rowAmomin : Row :=
  .mk segsAmomin (fun xs => match xs with | [d, a, b, e, o, s] => some (.amomin (.ofNat 5 d) (.ofNat 5 a) (.ofNat 5 b) (.ofNat 3 e) (.ofNat 2 o) (.ofNat 2 s)) | _ => none)

/-- The fields of AMOMAXU (R217). -/
def segsAmomaxu : List Seg := [.fixed 7 0x16, .operand 5, .operand 5, .operand 5, .operand 3, .operand 2, .operand 2, .fixed 3 0x7]
/-- AMOMAXU (R217). -/
noncomputable def rowAmomaxu : Row :=
  .mk segsAmomaxu (fun xs => match xs with | [d, a, b, e, o, s] => some (.amomaxu (.ofNat 5 d) (.ofNat 5 a) (.ofNat 5 b) (.ofNat 3 e) (.ofNat 2 o) (.ofNat 2 s)) | _ => none)

/-- The fields of CAS (R218). -/
def segsCas : List Seg := [.fixed 7 0x17, .operand 5, .operand 5, .operand 5, .operand 3, .operand 2, .operand 2, .fixed 3 0x0]
/-- CAS (R218). -/
noncomputable def rowCas : Row :=
  .mk segsCas (fun xs => match xs with | [d, a, b, e, o, s] => some (.cas (.ofNat 5 d) (.ofNat 5 a) (.ofNat 5 b) (.ofNat 3 e) (.ofNat 2 o) (.ofNat 2 s)) | _ => none)

/-- The fields of FENCE (R219). -/
def segsFence : List Seg := [.fixed 7 0x17, .fixed 15 0x0, .operand 3, .operand 2, .operand 2, .fixed 3 0x1]
/-- FENCE (R219). -/
noncomputable def rowFence : Row :=
  .mk segsFence (fun xs => match xs with | [e, q, p] => some (.fence (.ofNat 3 e) (.ofNat 2 q) (.ofNat 2 p)) | _ => none)

/-- The fields of CJ_EQ (R175). -/
def segsCjEq : List Seg := [.fixed 7 0x18, .operand 5, .operand 5, .operand 15]
/-- CJ_EQ (R175). -/
noncomputable def rowCjEq : Row :=
  .mk segsCjEq (fun xs => match xs with | [b, a, i] => some (.cjEq (.ofNat 5 b) (.ofNat 5 a) (.ofNat 15 i)) | _ => none)

/-- The fields of CJ_NE (R175). -/
def segsCjNe : List Seg := [.fixed 7 0x19, .operand 5, .operand 5, .operand 15]
/-- CJ_NE (R175). -/
noncomputable def rowCjNe : Row :=
  .mk segsCjNe (fun xs => match xs with | [b, a, i] => some (.cjNe (.ofNat 5 b) (.ofNat 5 a) (.ofNat 15 i)) | _ => none)

/-- The fields of CJ_LT (R175). -/
def segsCjLt : List Seg := [.fixed 7 0x1A, .operand 5, .operand 5, .operand 15]
/-- CJ_LT (R175). -/
noncomputable def rowCjLt : Row :=
  .mk segsCjLt (fun xs => match xs with | [b, a, i] => some (.cjLt (.ofNat 5 b) (.ofNat 5 a) (.ofNat 15 i)) | _ => none)

/-- The fields of CJ_GE (R175). -/
def segsCjGe : List Seg := [.fixed 7 0x1B, .operand 5, .operand 5, .operand 15]
/-- CJ_GE (R175). -/
noncomputable def rowCjGe : Row :=
  .mk segsCjGe (fun xs => match xs with | [b, a, i] => some (.cjGe (.ofNat 5 b) (.ofNat 5 a) (.ofNat 15 i)) | _ => none)

/-- The fields of CJ_LTN (R175). -/
def segsCjLtn : List Seg := [.fixed 7 0x1C, .operand 5, .operand 5, .operand 15]
/-- CJ_LTN (R175). -/
noncomputable def rowCjLtn : Row :=
  .mk segsCjLtn (fun xs => match xs with | [b, a, i] => some (.cjLtn (.ofNat 5 b) (.ofNat 5 a) (.ofNat 15 i)) | _ => none)

/-- The fields of CJ_GEN (R175). -/
def segsCjGen : List Seg := [.fixed 7 0x1D, .operand 5, .operand 5, .operand 15]
/-- CJ_GEN (R175). -/
noncomputable def rowCjGen : Row :=
  .mk segsCjGen (fun xs => match xs with | [b, a, i] => some (.cjGen (.ofNat 5 b) (.ofNat 5 a) (.ofNat 15 i)) | _ => none)

/-- The fields of JAL (R176). -/
def segsJal : List Seg := [.fixed 7 0x1E, .operand 5, .operand 20]
/-- JAL (R176). -/
noncomputable def rowJal : Row :=
  .mk segsJal (fun xs => match xs with | [d, i] => some (.jal (.ofNat 5 d) (.ofNat 20 i)) | _ => none)

/-- The fields of JR (R177). -/
def segsJr : List Seg := [.fixed 7 0x1F, .operand 5, .operand 5, .fixed 15 0x0]
/-- JR (R177). -/
noncomputable def rowJr : Row :=
  .mk segsJr (fun xs => match xs with | [d, a] => some (.jr (.ofNat 5 d) (.ofNat 5 a)) | _ => none)

/-- The fields of BPUSH (R183). -/
def segsBpush : List Seg := [.fixed 7 0x20, .fixed 5 0x0, .operand 5, .operand 5, .fixed 10 0x0]
/-- BPUSH (R183). -/
noncomputable def rowBpush : Row :=
  .mk segsBpush (fun xs => match xs with | [a, b] => some (.bpush (.ofNat 5 a) (.ofNat 5 b)) | _ => none)

/-- The fields of DPUSH (R184). -/
def segsDpush : List Seg := [.fixed 7 0x21, .fixed 5 0x0, .operand 5, .fixed 15 0x0]
/-- DPUSH (R184). -/
noncomputable def rowDpush : Row :=
  .mk segsDpush (fun xs => match xs with | [a] => some (.dpush (.ofNat 5 a)) | _ => none)

/-- The fields of RPOP (R184). -/
def segsRpop : List Seg := [.fixed 7 0x22, .operand 5, .fixed 20 0x0]
/-- RPOP (R184). -/
noncomputable def rowRpop : Row :=
  .mk segsRpop (fun xs => match xs with | [d] => some (.rpop (.ofNat 5 d)) | _ => none)

/-- The fields of EPOP (R185). -/
def segsEpop : List Seg := [.fixed 7 0x23, .operand 5, .fixed 20 0x0]
/-- EPOP (R185). -/
noncomputable def rowEpop : Row :=
  .mk segsEpop (fun xs => match xs with | [d] => some (.epop (.ofNat 5 d)) | _ => none)

/-- The fields of EPOP_TRY (R185). -/
def segsEpopTry : List Seg := [.fixed 7 0x23, .operand 5, .fixed 20 0x400]
/-- EPOP_TRY (R185). -/
noncomputable def rowEpopTry : Row :=
  .mk segsEpopTry (fun xs => match xs with | [d] => some (.epopTry (.ofNat 5 d)) | _ => none)

/-- The fields of EPOP_MSG (R294). -/
def segsEpopMsg : List Seg := [.fixed 7 0x23, .operand 5, .fixed 20 0x800]
/-- EPOP_MSG (R294). -/
noncomputable def rowEpopMsg : Row :=
  .mk segsEpopMsg (fun xs => match xs with | [d] => some (.epopMsg (.ofNat 5 d)) | _ => none)

/-- The fields of EPOP_MSG_TRY (R294). -/
def segsEpopMsgTry : List Seg := [.fixed 7 0x23, .operand 5, .fixed 20 0xC00]
/-- EPOP_MSG_TRY (R294). -/
noncomputable def rowEpopMsgTry : Row :=
  .mk segsEpopMsgTry (fun xs => match xs with | [d] => some (.epopMsgTry (.ofNat 5 d)) | _ => none)

/-- The fields of WAITW (R161). -/
def segsWaitw : List Seg := [.fixed 7 0x24, .operand 5, .operand 5, .operand 5, .operand 2, .operand 2, .operand 6]
/-- WAITW (R161). -/
noncomputable def rowWaitw : Row :=
  .mk segsWaitw (fun xs => match xs with | [d, a, b, s, m, t] => some (.waitw (.ofNat 5 d) (.ofNat 5 a) (.ofNat 5 b) (.ofNat 2 s) (.ofNat 2 m) (.ofNat 6 t)) | _ => none)

/-- The fields of END (R191). -/
def segsEndTask : List Seg := [.fixed 7 0x25, .fixed 25 0x0]
/-- END (R191). -/
def rowEndTask : Row :=
  .mk segsEndTask (fun xs => match xs with | [] => some .endTask | _ => none)

/-- The fields of DCOLL (R164). -/
def segsDcoll : List Seg := [.fixed 7 0x26, .operand 5, .operand 5, .operand 5, .fixed 10 0x0]
/-- DCOLL (R164). -/
noncomputable def rowDcoll : Row :=
  .mk segsDcoll (fun xs => match xs with | [d, a, b] => some (.dcoll (.ofNat 5 d) (.ofNat 5 a) (.ofNat 5 b)) | _ => none)

/-- The fields of COPY (R347). -/
def segsCopy : List Seg := [.fixed 7 0x28, .operand 5, .operand 5, .operand 5, .fixed 10 0x0]
/-- COPY (R347). -/
noncomputable def rowCopy : Row :=
  .mk segsCopy (fun xs => match xs with | [d, a, b] => some (.copy (.ofNat 5 d) (.ofNat 5 a) (.ofNat 5 b)) | _ => none)

/-- The fields of COPY_RST (R353). -/
def segsCopyRst : List Seg := [.fixed 7 0x28, .operand 5, .operand 5, .fixed 15 0x200]
/-- COPY_RST (R353). -/
noncomputable def rowCopyRst : Row :=
  .mk segsCopyRst (fun xs => match xs with | [d, a] => some (.copyRst (.ofNat 5 d) (.ofNat 5 a)) | _ => none)

/-- The fields of COPY2 (R347). -/
def segsCopy2 : List Seg := [.fixed 7 0x29, .operand 5, .operand 5, .operand 5, .fixed 10 0x0]
/-- COPY2 (R347). -/
noncomputable def rowCopy2 : Row :=
  .mk segsCopy2 (fun xs => match xs with | [d, a, b] => some (.copy2 (.ofNat 5 d) (.ofNat 5 a) (.ofNat 5 b)) | _ => none)

/-- The fields of FILL (R347). -/
def segsFill : List Seg := [.fixed 7 0x2A, .operand 5, .operand 5, .operand 5, .fixed 10 0x0]
/-- FILL (R347). -/
noncomputable def rowFill : Row :=
  .mk segsFill (fun xs => match xs with | [d, a, b] => some (.fill (.ofNat 5 d) (.ofNat 5 a) (.ofNat 5 b)) | _ => none)

/-- The fields of SLABMOV (R359). -/
def segsSlabmov : List Seg := [.fixed 7 0x2B, .operand 5, .operand 5, .operand 5, .fixed 10 0x0]
/-- SLABMOV (R359). -/
noncomputable def rowSlabmov : Row :=
  .mk segsSlabmov (fun xs => match xs with | [d, a, b] => some (.slabmov (.ofNat 5 d) (.ofNat 5 a) (.ofNat 5 b)) | _ => none)

/-- The fields of MDEC (R363). -/
def segsMdec : List Seg := [.fixed 7 0x2C, .operand 5, .operand 5, .operand 5, .fixed 10 0x0]
/-- MDEC (R363). -/
noncomputable def rowMdec : Row :=
  .mk segsMdec (fun xs => match xs with | [d, a, b] => some (.mdec (.ofNat 5 d) (.ofNat 5 a) (.ofNat 5 b)) | _ => none)

/-- The fields of MRSZ (R364). -/
def segsMrsz : List Seg := [.fixed 7 0x2C, .operand 5, .operand 5, .operand 5, .fixed 10 0x1]
/-- MRSZ (R364). -/
noncomputable def rowMrsz : Row :=
  .mk segsMrsz (fun xs => match xs with | [d, a, b] => some (.mrsz (.ofNat 5 d) (.ofNat 5 a) (.ofNat 5 b)) | _ => none)

/-- The fields of MDEC_RST (R353). -/
def segsMdecRst : List Seg := [.fixed 7 0x2C, .operand 5, .operand 5, .fixed 15 0x40]
/-- MDEC_RST (R353). -/
noncomputable def rowMdecRst : Row :=
  .mk segsMdecRst (fun xs => match xs with | [d, a] => some (.mdecRst (.ofNat 5 d) (.ofNat 5 a)) | _ => none)

/-- The fields of CRED (R405). -/
def segsCred : List Seg := [.fixed 7 0x2D, .operand 5, .operand 5, .operand 5, .fixed 10 0x0]
/-- CRED (R405). -/
noncomputable def rowCred : Row :=
  .mk segsCred (fun xs => match xs with | [d, a, b] => some (.cred (.ofNat 5 d) (.ofNat 5 a) (.ofNat 5 b)) | _ => none)

/-- The fields of CBCAST (R405). -/
def segsCbcast : List Seg := [.fixed 7 0x2D, .operand 5, .operand 5, .operand 5, .fixed 10 0x1]
/-- CBCAST (R405). -/
noncomputable def rowCbcast : Row :=
  .mk segsCbcast (fun xs => match xs with | [d, a, b] => some (.cbcast (.ofNat 5 d) (.ofNat 5 a) (.ofNat 5 b)) | _ => none)

/-- The fields of CRED_RST (R403). -/
def segsCredRst : List Seg := [.fixed 7 0x2D, .operand 5, .operand 5, .fixed 15 0x40]
/-- CRED_RST (R403). -/
noncomputable def rowCredRst : Row :=
  .mk segsCredRst (fun xs => match xs with | [d, a] => some (.credRst (.ofNat 5 d) (.ofNat 5 a)) | _ => none)

/-- The fields of TLWAIT (R237). -/
def segsTlwait : List Seg := [.fixed 7 0x2E, .operand 5, .operand 5, .operand 5, .operand 6, .fixed 4 0x0]
/-- TLWAIT (R237). -/
noncomputable def rowTlwait : Row :=
  .mk segsTlwait (fun xs => match xs with | [d, a, b, t] => some (.tlwait (.ofNat 5 d) (.ofNat 5 a) (.ofNat 5 b) (.ofNat 6 t)) | _ => none)

/-- The fields of TLREAD_COUNT (R237). -/
def segsTlreadCount : List Seg := [.fixed 7 0x2E, .operand 5, .operand 5, .fixed 15 0x800]
/-- TLREAD_COUNT (R237). -/
noncomputable def rowTlreadCount : Row :=
  .mk segsTlreadCount (fun xs => match xs with | [d, a] => some (.tlreadCount (.ofNat 5 d) (.ofNat 5 a)) | _ => none)

/-- The fields of TLREAD_STATUS (R237). -/
def segsTlreadStatus : List Seg := [.fixed 7 0x2E, .operand 5, .operand 5, .fixed 15 0x820]
/-- TLREAD_STATUS (R237). -/
noncomputable def rowTlreadStatus : Row :=
  .mk segsTlreadStatus (fun xs => match xs with | [d, a] => some (.tlreadStatus (.ofNat 5 d) (.ofNat 5 a)) | _ => none)

/-- The fields of STRIN (R297). -/
def segsStrin : List Seg := [.fixed 7 0x30, .operand 5, .operand 5, .operand 5, .operand 4, .fixed 1 0x0, .operand 5]
/-- STRIN (R297). -/
noncomputable def rowStrin : Row :=
  .mk segsStrin (fun xs => match xs with | [d, a, b, x, c] => some (.strin (.ofNat 5 d) (.ofNat 5 a) (.ofNat 5 b) (.ofNat 4 x) (.ofNat 5 c)) | _ => none)

/-- The fields of STROUT (R298). -/
def segsStrout : List Seg := [.fixed 7 0x31, .operand 5, .operand 5, .operand 5, .operand 4, .fixed 1 0x0, .operand 5]
/-- STROUT (R298). -/
noncomputable def rowStrout : Row :=
  .mk segsStrout (fun xs => match xs with | [d, a, b, x, c] => some (.strout (.ofNat 5 d) (.ofNat 5 a) (.ofNat 5 b) (.ofNat 4 x) (.ofNat 5 c)) | _ => none)

/-- The fields of LAUNCH_REQUEST, and of LAUNCH, which is the same word (R299, R300). -/
def segsLaunchRequest : List Seg := [.fixed 7 0x32, .operand 5, .operand 5, .operand 5, .operand 5, .operand 5]
/-- LAUNCH_REQUEST; forProc makes it LAUNCH on a control core (R299, R300). -/
noncomputable def rowLaunchRequest : Row :=
  .mk segsLaunchRequest (fun xs => match xs with | [d, a, b, x, c] => some (.launchRequest (.ofNat 5 d) (.ofNat 5 a) (.ofNat 5 b) (.ofNat 5 x) (.ofNat 5 c)) | _ => none)

/-- The fields of BARV (R320). -/
def segsBarv : List Seg := [.fixed 7 0x33, .operand 5, .operand 5, .operand 5, .fixed 10 0x0]
/-- BARV (R320). -/
noncomputable def rowBarv : Row :=
  .mk segsBarv (fun xs => match xs with | [d, a, b] => some (.barv (.ofNat 5 d) (.ofNat 5 a) (.ofNat 5 b)) | _ => none)

/-- The fields of BARW (R321). -/
def segsBarw : List Seg := [.fixed 7 0x33, .operand 5, .operand 5, .operand 5, .operand 6, .fixed 4 0x1]
/-- BARW (R321). -/
noncomputable def rowBarw : Row :=
  .mk segsBarw (fun xs => match xs with | [d, a, b, t] => some (.barw (.ofNat 5 d) (.ofNat 5 a) (.ofNat 5 b) (.ofNat 6 t)) | _ => none)

/-- The fields of GARM (R324). -/
def segsGarm : List Seg := [.fixed 7 0x34, .fixed 5 0x0, .operand 5, .operand 5, .fixed 10 0x0]
/-- GARM (R324). -/
noncomputable def rowGarm : Row :=
  .mk segsGarm (fun xs => match xs with | [a, b] => some (.garm (.ofNat 5 a) (.ofNat 5 b)) | _ => none)

/-- The fields of GARM_OFF (R324). -/
def segsGarmOff : List Seg := [.fixed 7 0x34, .operand 5, .fixed 20 0x10000]
/-- GARM_OFF (R324). -/
noncomputable def rowGarmOff : Row :=
  .mk segsGarmOff (fun xs => match xs with | [d] => some (.garmOff (.ofNat 5 d)) | _ => none)

/-- The fields of FQSET (R316). -/
def segsFqset : List Seg := [.fixed 7 0x35, .fixed 5 0x0, .operand 5, .operand 5, .operand 4, .fixed 6 0x0]
/-- FQSET (R316). -/
noncomputable def rowFqset : Row :=
  .mk segsFqset (fun xs => match xs with | [a, b, q] => some (.fqset (.ofNat 5 a) (.ofNat 5 b) (.ofNat 4 q)) | _ => none)

/-- The fields of FQSET_RD (R316). -/
def segsFqsetRd : List Seg := [.fixed 7 0x35, .operand 5, .fixed 10 0x0, .operand 4, .fixed 6 0x1]
/-- FQSET_RD (R316). -/
noncomputable def rowFqsetRd : Row :=
  .mk segsFqsetRd (fun xs => match xs with | [d, q] => some (.fqsetRd (.ofNat 5 d) (.ofNat 4 q)) | _ => none)

/-- The fields of FQSET_ADV (R317). -/
def segsFqsetAdv : List Seg := [.fixed 7 0x35, .fixed 5 0x0, .operand 5, .fixed 5 0x0, .operand 4, .fixed 6 0x2]
/-- FQSET_ADV (R317). -/
noncomputable def rowFqsetAdv : Row :=
  .mk segsFqsetAdv (fun xs => match xs with | [a, q] => some (.fqsetAdv (.ofNat 5 a) (.ofNat 4 q)) | _ => none)

/-- The fields of HCALL (R197). -/
def segsHcall : List Seg := [.fixed 7 0x39, .fixed 25 0x0]
/-- HCALL (R197). -/
def rowHcall : Row :=
  .mk segsHcall (fun xs => match xs with | [] => some .hcall | _ => none)

/-- The fields of HRET (R197). -/
def segsHret : List Seg := [.fixed 7 0x39, .fixed 25 0x8000]
/-- HRET (R197). -/
def rowHret : Row :=
  .mk segsHret (fun xs => match xs with | [] => some .hret | _ => none)

/-- The fields of NAP (R197). -/
def segsNap : List Seg := [.fixed 7 0x39, .fixed 25 0x10000]
/-- NAP (R197). -/
def rowNap : Row :=
  .mk segsNap (fun xs => match xs with | [] => some .nap | _ => none)

/-- The fields of BRK (R198). -/
def segsBrk : List Seg := [.fixed 7 0x3A, .fixed 10 0x0, .operand 15]
/-- BRK (R198). -/
noncomputable def rowBrk : Row :=
  .mk segsBrk (fun xs => match xs with | [i] => some (.brk (.ofNat 15 i)) | _ => none)

/-- The rows of one major opcode of the convoy stream (02_encoding.md R34). -/
def vectorRows (op : Nat) : List Row :=
  match op with
  | 0x40 => [rowVfadd, rowVfsub, rowVfmul, rowVfmin, rowVfmax, rowVfdiv]
  | 0x41 => [rowVfneg, rowVfabs, rowVfcpys, rowVfcpysn, rowVfkind]
  | 0x42 => [rowVfma, rowVfnma, rowVfms, rowVfnms]
  | 0x43 => [rowVfaddK, rowVfsubK, rowVfmulK, rowVfminK, rowVfmaxK, rowVfdivK]
  | 0x44 => [rowVfmaK, rowVfnmaK, rowVfmsK, rowVfnmsK]
  | 0x45 => [rowVfsqrt, rowVfrsqrt, rowVfrcp, rowVfexp2, rowVflog2, rowVfsinpi, rowVftanh, rowVfsigm]
  | 0x50 => [rowVadd, rowVsub, rowVmul, rowVmin, rowVmax, rowVdiv, rowVrem]
  | 0x51 => [rowVaddK, rowVsubK, rowVmulK, rowVminK, rowVmaxK, rowVdivK, rowVremK]
  | 0x52 => [rowVaddi, rowVrsubi, rowVmuli, rowVmini, rowVmaxi]
  | 0x53 => [rowVand, rowVor, rowVxor, rowVandn, rowVsll, rowVsrl, rowVsra, rowVmov]
  | 0x54 => [rowVandi, rowVori, rowVxori, rowVli, rowVslli, rowVsrli, rowVsrai]
  | 0x55 => [rowVsadd, rowVssub, rowVmulh, rowVavg]
  | 0x58 => [rowVceq, rowVcne, rowVclt, rowVcle, rowVcgt, rowVcge, rowVcun]
  | 0x59 => [rowVceqK, rowVcneK, rowVcltK, rowVcleK, rowVcgtK, rowVcgeK, rowVcunK]
  | 0x5A => [rowVmand, rowVmor, rowVmxor, rowVmandn, rowVmnot, rowVmset, rowVmclr]
  | 0x5B => [rowVsel, rowVselz]
  | 0x5C => [rowVcvt]
  | 0x5D => [rowVqnt, rowVdqnt]
  | 0x60 => [rowVgath, rowVhead, rowVtail, rowVbcast]
  | 0x61 => [rowVfredsum, rowVfredsumw, rowVfredmax, rowVfredmin, rowVredsum, rowVredmax, rowVredmin]
  | 0x62 => [rowVraise, rowVlower, rowVbcastk]
  | 0x64 => [rowVld]
  | 0x65 => [rowVst]
  | 0x66 => [rowVld2]
  | 0x67 => [rowVst2]
  | 0x68 => [rowVldx]
  | 0x69 => [rowVstx]
  | 0x6A => [rowVldslab]
  | 0x6C => [rowVdef]
  | 0x6D => [rowVtld, rowVtst]
  | 0x6E => [rowVsett, rowVlen, rowVlenShape, rowVsetmt, rowVsetmtImm]
  | 0x70 => [rowMma, rowMmas]
  | 0x71 => [rowMen, rowMdis, rowMzero, rowMshape, rowMscl]
  | 0x72 => [rowMextRow, rowMextCol, rowMextRect, rowMinsRow, rowMinsCol, rowMinsRect]
  | 0x74 => [rowLstep, rowLblend]
  | 0x75 => [rowLrungLd, rowLrungSt, rowLrungLdK, rowLrungStK]
  | 0x76 => [rowLcfg, rowLstatCnt, rowLstatCarry, rowLreset]
  | 0x78 => [rowVissue]
  | 0x79 => [rowVcapp, rowVcappK]
  | 0x7A => [rowVwait]
  | 0x7B => [rowGmma]
  | 0x7C => [rowVbend]
  | 0x7D => [rowVkadd, rowVkaddK, rowVkpop, rowVkget]
  | 0x7E => [rowVkpush, rowVmpushCount, rowVmpushFirst]
  | _ => []

/-- The rows of one major opcode (R34). -/
noncomputable def rowsOf (op : Nat) : List Row :=
  match op with
  | 0x01 => [rowAdd, rowSub, rowAnd, rowOr, rowXor, rowSll, rowSrl, rowSra, rowSlt, rowSltn, rowMul, rowMulhs, rowMulhn, rowDiv, rowDivn, rowRem, rowRemn]
  | 0x02 => [rowAddi]
  | 0x03 => [rowAndi]
  | 0x04 => [rowOri]
  | 0x05 => [rowXori]
  | 0x06 => [rowSlli, rowSrli, rowSrai]
  | 0x07 => [rowSlti]
  | 0x08 => [rowSltin]
  | 0x09 => [rowLui]
  | 0x0A => [rowSext, rowZext, rowExtr, rowIns, rowClz, rowCtz, rowPopc]
  | 0x10 => [rowLdb]
  | 0x11 => [rowLdw]
  | 0x12 => [rowLdd]
  | 0x13 => [rowStb]
  | 0x14 => [rowStw]
  | 0x15 => [rowStd]
  | 0x16 => [rowAmoswap, rowAmoadd, rowAmoand, rowAmoor, rowAmoxor, rowAmomax, rowAmomin, rowAmomaxu]
  | 0x17 => [rowCas, rowFence]
  | 0x18 => [rowCjEq]
  | 0x19 => [rowCjNe]
  | 0x1A => [rowCjLt]
  | 0x1B => [rowCjGe]
  | 0x1C => [rowCjLtn]
  | 0x1D => [rowCjGen]
  | 0x1E => [rowJal]
  | 0x1F => [rowJr]
  | 0x20 => [rowBpush]
  | 0x21 => [rowDpush]
  | 0x22 => [rowRpop]
  | 0x23 => [rowEpop, rowEpopTry, rowEpopMsg, rowEpopMsgTry]
  | 0x24 => [rowWaitw]
  | 0x25 => [rowEndTask]
  | 0x26 => [rowDcoll]
  | 0x28 => [rowCopy, rowCopyRst]
  | 0x29 => [rowCopy2]
  | 0x2A => [rowFill]
  | 0x2B => [rowSlabmov]
  | 0x2C => [rowMdec, rowMrsz, rowMdecRst]
  | 0x2D => [rowCred, rowCbcast, rowCredRst]
  | 0x2E => [rowTlwait, rowTlreadCount, rowTlreadStatus]
  | 0x30 => [rowStrin]
  | 0x31 => [rowStrout]
  | 0x32 => [rowLaunchRequest]
  | 0x33 => [rowBarv, rowBarw]
  | 0x34 => [rowGarm, rowGarmOff]
  | 0x35 => [rowFqset, rowFqsetRd, rowFqsetAdv]
  | 0x38 => [rowCrget, rowCrput, rowCrset, rowCrclr]
  | 0x39 => [rowHcall, rowHret, rowNap]
  | 0x3A => [rowBrk]
  | _ => vectorRows op

/-- The first instruction that one of the rows reads. -/
def readRows : List Row → Nat → Option Instr
  | [], _ => none
  | r :: rs, n => match r.read n with
    | some i => some i
    | none => readRows rs n

/-- The instruction whose fields a word bears, whatever processor fetches it. -/
noncomputable def readWord (w : IWord) : Option Instr := readRows (rowsOf (w.toNat % 128)) w.toNat

/-- The same for a vector word. -/
def readVector (w : IWord) : Option Instr := readRows (vectorRows (w.toNat % 128)) w.toNat

/-- The processors that execute words (R35). -/
inductive Proc where
  /-- The steering stream of a task core. -/
  | task
  /-- A control core. -/
  | control
  /-- The convoy stream of a task core. -/
  | convoy
  deriving DecidableEq, Repr, Inhabited

/-- Why a word is no instruction (R39, priorities 2 to 4, and the form of R40 that a single word shows). -/
inductive DecodeError where
  /-- ILLEGAL-WORD. -/
  | illegalWord
  /-- ILLEGAL-STREAM. -/
  | illegalStream
  /-- CONVOY-FORM: a word that occupies a convoy alone has its chain bit set. -/
  | convoyForm
  deriving DecidableEq, Repr

/-- The answer of the decoder. -/
inductive Decoded where
  /-- The word is an instruction. -/
  | instr (i : Instr)
  /-- The word is none, for the reason named. -/
  | bad (e : DecodeError)
  deriving DecidableEq, Repr

/-- The control-register number of a CSR word, bits 28:17 (R178). -/
def csrField (w : IWord) : Nat := w.toNat / 2 ^ 17 % 2 ^ 12

/-- The words outside a processor's set (R35, R180, R185, R331, R332). -/
def outsideSet (p : Proc) (w : IWord) : Bool :=
  let n := w.toNat
  let op := n % 128
  match p with
  | .convoy => decide (op < 0x40)
  | .task =>
    decide (0x40 ≤ op) || op == 0x30 || op == 0x31 || op == 0x35
      || (op == 0x23 && (n / 2 ^ 22 == 2 || n / 2 ^ 22 == 3))
      || (op == 0x38 && csrControlOnly (csrField w))
  | .control =>
    decide (0x40 ≤ op) || op == 0x34 || op == 0x25 || op == 0x20 || op == 0x21 || op == 0x22
      || (op == 0x23 && (n / 2 ^ 22 == 0 || n / 2 ^ 22 == 1))
      || (op == 0x38 && csrTaskOnly (csrField w))

/-- The major opcodes of the words that occupy a convoy alone (R33), less VBEND, whose every field but the opcode
must be zero (R135). -/
def aloneOpcode (op : Nat) : Bool :=
  op == 0x6C || op == 0x6D || op == 0x6E || op == 0x78 || op == 0x7A

/-- LAUNCH is one word with two meanings: on a control core it launches (R299), on a task core it asks the control
core to (R300). -/
noncomputable def forProc (p : Proc) (i : Instr) : Instr :=
  match i with
  | .launchRequest d a b x c => match p with
    | .control => .launch d a b (x.setWidth 4)
    | _ => .launchRequest d a b x c
  | i => i

/-- The word is legal on a processor: well formed, and on a control core LAUNCH has a context of four bits and leaves
its sc field at 0 (R28, R297, R299). A task core's message carries f5 and sc whole (R293). -/
noncomputable def legalOn (p : Proc) (i : Instr) : Bool :=
  match i with
  | .launchRequest _ _ _ x c => p != .control || (!x.getLsbD 4 && c == 0)
  | i => i.wf

/-- On the convoy stream a word is legal when it is well formed. -/
theorem legalOn_convoy (i : Instr) : legalOn .convoy i = i.wf := by
  unfold legalOn
  split <;> rfl

/-- Decoding on a processor, in the order of R39: the words that are never legal, the processor's set, and the
assigned words with what their descriptions add. -/
noncomputable def decode (p : Proc) (w : IWord) : Decoded :=
  let n := w.toNat
  if n = 0 ∨ n = 0xFFFFFFFF ∨ n % 128 = 0x7F then .bad .illegalWord
  else if outsideSet p w then .bad .illegalStream
  else match readWord w with
    | some i => if legalOn p i then .instr (forProc p i) else .bad .illegalWord
    | none =>
      if aloneOpcode (n % 128) && decide (2 ^ 31 ≤ n) then
        match readWord (w - 0x80000000#32) with
        | some i => if i.wf then .bad .convoyForm else .bad .illegalWord
        | none => .bad .illegalWord
      else .bad .illegalWord

/-- The fields and the operands of an instruction word; none for an event. -/
def Instr.fields (i : Instr) : Option (List Seg × List Nat) :=
  match i with
  | .vfadd d a b m c => some (segsVfadd, [d.toNat, a.toNat, b.toNat, m.toNat, c.toNat])
  | .vfsub d a b m c => some (segsVfsub, [d.toNat, a.toNat, b.toNat, m.toNat, c.toNat])
  | .vfmul d a b m c => some (segsVfmul, [d.toNat, a.toNat, b.toNat, m.toNat, c.toNat])
  | .vfmin d a b m c => some (segsVfmin, [d.toNat, a.toNat, b.toNat, m.toNat, c.toNat])
  | .vfmax d a b m c => some (segsVfmax, [d.toNat, a.toNat, b.toNat, m.toNat, c.toNat])
  | .vfdiv d a b m c => some (segsVfdiv, [d.toNat, a.toNat, b.toNat, m.toNat, c.toNat])
  | .vfaddK d a x k m c => some (segsVfaddK, [d.toNat, a.toNat, x.toNat, k.toNat, m.toNat, c.toNat])
  | .vfsubK d a x k m c => some (segsVfsubK, [d.toNat, a.toNat, x.toNat, k.toNat, m.toNat, c.toNat])
  | .vfmulK d a x k m c => some (segsVfmulK, [d.toNat, a.toNat, x.toNat, k.toNat, m.toNat, c.toNat])
  | .vfminK d a x k m c => some (segsVfminK, [d.toNat, a.toNat, x.toNat, k.toNat, m.toNat, c.toNat])
  | .vfmaxK d a x k m c => some (segsVfmaxK, [d.toNat, a.toNat, x.toNat, k.toNat, m.toNat, c.toNat])
  | .vfdivK d a x k m c => some (segsVfdivK, [d.toNat, a.toNat, x.toNat, k.toNat, m.toNat, c.toNat])
  | .vfneg d a m c => some (segsVfneg, [d.toNat, a.toNat, m.toNat, c.toNat])
  | .vfabs d a m c => some (segsVfabs, [d.toNat, a.toNat, m.toNat, c.toNat])
  | .vfcpys d a b m c => some (segsVfcpys, [d.toNat, a.toNat, b.toNat, m.toNat, c.toNat])
  | .vfcpysn d a b m c => some (segsVfcpysn, [d.toNat, a.toNat, b.toNat, m.toNat, c.toNat])
  | .vfkind d a m c => some (segsVfkind, [d.toNat, a.toNat, m.toNat, c.toNat])
  | .vfma d a b m c => some (segsVfma, [d.toNat, a.toNat, b.toNat, m.toNat, c.toNat])
  | .vfnma d a b m c => some (segsVfnma, [d.toNat, a.toNat, b.toNat, m.toNat, c.toNat])
  | .vfms d a b m c => some (segsVfms, [d.toNat, a.toNat, b.toNat, m.toNat, c.toNat])
  | .vfnms d a b m c => some (segsVfnms, [d.toNat, a.toNat, b.toNat, m.toNat, c.toNat])
  | .vfmaK d a k m c => some (segsVfmaK, [d.toNat, a.toNat, k.toNat, m.toNat, c.toNat])
  | .vfnmaK d a k m c => some (segsVfnmaK, [d.toNat, a.toNat, k.toNat, m.toNat, c.toNat])
  | .vfmsK d a k m c => some (segsVfmsK, [d.toNat, a.toNat, k.toNat, m.toNat, c.toNat])
  | .vfnmsK d a k m c => some (segsVfnmsK, [d.toNat, a.toNat, k.toNat, m.toNat, c.toNat])
  | .vfsqrt d a m c => some (segsVfsqrt, [d.toNat, a.toNat, m.toNat, c.toNat])
  | .vfrsqrt d a m c => some (segsVfrsqrt, [d.toNat, a.toNat, m.toNat, c.toNat])
  | .vfrcp d a m c => some (segsVfrcp, [d.toNat, a.toNat, m.toNat, c.toNat])
  | .vfexp2 d a m c => some (segsVfexp2, [d.toNat, a.toNat, m.toNat, c.toNat])
  | .vflog2 d a m c => some (segsVflog2, [d.toNat, a.toNat, m.toNat, c.toNat])
  | .vfsinpi d a m c => some (segsVfsinpi, [d.toNat, a.toNat, m.toNat, c.toNat])
  | .vftanh d a m c => some (segsVftanh, [d.toNat, a.toNat, m.toNat, c.toNat])
  | .vfsigm d a m c => some (segsVfsigm, [d.toNat, a.toNat, m.toNat, c.toNat])
  | .vadd d a b m c => some (segsVadd, [d.toNat, a.toNat, b.toNat, m.toNat, c.toNat])
  | .vsub d a b m c => some (segsVsub, [d.toNat, a.toNat, b.toNat, m.toNat, c.toNat])
  | .vmul d a b m c => some (segsVmul, [d.toNat, a.toNat, b.toNat, m.toNat, c.toNat])
  | .vmin d a b m c => some (segsVmin, [d.toNat, a.toNat, b.toNat, m.toNat, c.toNat])
  | .vmax d a b m c => some (segsVmax, [d.toNat, a.toNat, b.toNat, m.toNat, c.toNat])
  | .vdiv d a b m c => some (segsVdiv, [d.toNat, a.toNat, b.toNat, m.toNat, c.toNat])
  | .vrem d a b m c => some (segsVrem, [d.toNat, a.toNat, b.toNat, m.toNat, c.toNat])
  | .vaddK d a x k m c => some (segsVaddK, [d.toNat, a.toNat, x.toNat, k.toNat, m.toNat, c.toNat])
  | .vsubK d a x k m c => some (segsVsubK, [d.toNat, a.toNat, x.toNat, k.toNat, m.toNat, c.toNat])
  | .vmulK d a x k m c => some (segsVmulK, [d.toNat, a.toNat, x.toNat, k.toNat, m.toNat, c.toNat])
  | .vminK d a x k m c => some (segsVminK, [d.toNat, a.toNat, x.toNat, k.toNat, m.toNat, c.toNat])
  | .vmaxK d a x k m c => some (segsVmaxK, [d.toNat, a.toNat, x.toNat, k.toNat, m.toNat, c.toNat])
  | .vdivK d a x k m c => some (segsVdivK, [d.toNat, a.toNat, x.toNat, k.toNat, m.toNat, c.toNat])
  | .vremK d a x k m c => some (segsVremK, [d.toNat, a.toNat, x.toNat, k.toNat, m.toNat, c.toNat])
  | .vaddi d i m c => some (segsVaddi, [d.toNat, i.toNat, m.toNat, c.toNat])
  | .vrsubi d i m c => some (segsVrsubi, [d.toNat, i.toNat, m.toNat, c.toNat])
  | .vmuli d i m c => some (segsVmuli, [d.toNat, i.toNat, m.toNat, c.toNat])
  | .vmini d i m c => some (segsVmini, [d.toNat, i.toNat, m.toNat, c.toNat])
  | .vmaxi d i m c => some (segsVmaxi, [d.toNat, i.toNat, m.toNat, c.toNat])
  | .vand d a b m c => some (segsVand, [d.toNat, a.toNat, b.toNat, m.toNat, c.toNat])
  | .vor d a b m c => some (segsVor, [d.toNat, a.toNat, b.toNat, m.toNat, c.toNat])
  | .vxor d a b m c => some (segsVxor, [d.toNat, a.toNat, b.toNat, m.toNat, c.toNat])
  | .vandn d a b m c => some (segsVandn, [d.toNat, a.toNat, b.toNat, m.toNat, c.toNat])
  | .vsll d a b m c => some (segsVsll, [d.toNat, a.toNat, b.toNat, m.toNat, c.toNat])
  | .vsrl d a b m c => some (segsVsrl, [d.toNat, a.toNat, b.toNat, m.toNat, c.toNat])
  | .vsra d a b m c => some (segsVsra, [d.toNat, a.toNat, b.toNat, m.toNat, c.toNat])
  | .vmov d a m c => some (segsVmov, [d.toNat, a.toNat, m.toNat, c.toNat])
  | .vandi d i m c => some (segsVandi, [d.toNat, i.toNat, m.toNat, c.toNat])
  | .vori d i m c => some (segsVori, [d.toNat, i.toNat, m.toNat, c.toNat])
  | .vxori d i m c => some (segsVxori, [d.toNat, i.toNat, m.toNat, c.toNat])
  | .vli d i m c => some (segsVli, [d.toNat, i.toNat, m.toNat, c.toNat])
  | .vslli d i m c => some (segsVslli, [d.toNat, i.toNat, m.toNat, c.toNat])
  | .vsrli d i m c => some (segsVsrli, [d.toNat, i.toNat, m.toNat, c.toNat])
  | .vsrai d i m c => some (segsVsrai, [d.toNat, i.toNat, m.toNat, c.toNat])
  | .vsadd d a b m c => some (segsVsadd, [d.toNat, a.toNat, b.toNat, m.toNat, c.toNat])
  | .vssub d a b m c => some (segsVssub, [d.toNat, a.toNat, b.toNat, m.toNat, c.toNat])
  | .vmulh d a b m c => some (segsVmulh, [d.toNat, a.toNat, b.toNat, m.toNat, c.toNat])
  | .vavg d a b m c => some (segsVavg, [d.toNat, a.toNat, b.toNat, m.toNat, c.toNat])
  | .vceq d a b m c => some (segsVceq, [d.toNat, a.toNat, b.toNat, m.toNat, c.toNat])
  | .vcne d a b m c => some (segsVcne, [d.toNat, a.toNat, b.toNat, m.toNat, c.toNat])
  | .vclt d a b m c => some (segsVclt, [d.toNat, a.toNat, b.toNat, m.toNat, c.toNat])
  | .vcle d a b m c => some (segsVcle, [d.toNat, a.toNat, b.toNat, m.toNat, c.toNat])
  | .vcgt d a b m c => some (segsVcgt, [d.toNat, a.toNat, b.toNat, m.toNat, c.toNat])
  | .vcge d a b m c => some (segsVcge, [d.toNat, a.toNat, b.toNat, m.toNat, c.toNat])
  | .vcun d a b m c => some (segsVcun, [d.toNat, a.toNat, b.toNat, m.toNat, c.toNat])
  | .vceqK d a k m c => some (segsVceqK, [d.toNat, a.toNat, k.toNat, m.toNat, c.toNat])
  | .vcneK d a k m c => some (segsVcneK, [d.toNat, a.toNat, k.toNat, m.toNat, c.toNat])
  | .vcltK d a k m c => some (segsVcltK, [d.toNat, a.toNat, k.toNat, m.toNat, c.toNat])
  | .vcleK d a k m c => some (segsVcleK, [d.toNat, a.toNat, k.toNat, m.toNat, c.toNat])
  | .vcgtK d a k m c => some (segsVcgtK, [d.toNat, a.toNat, k.toNat, m.toNat, c.toNat])
  | .vcgeK d a k m c => some (segsVcgeK, [d.toNat, a.toNat, k.toNat, m.toNat, c.toNat])
  | .vcunK d a k m c => some (segsVcunK, [d.toNat, a.toNat, k.toNat, m.toNat, c.toNat])
  | .vmand d a b m c => some (segsVmand, [d.toNat, a.toNat, b.toNat, m.toNat, c.toNat])
  | .vmor d a b m c => some (segsVmor, [d.toNat, a.toNat, b.toNat, m.toNat, c.toNat])
  | .vmxor d a b m c => some (segsVmxor, [d.toNat, a.toNat, b.toNat, m.toNat, c.toNat])
  | .vmandn d a b m c => some (segsVmandn, [d.toNat, a.toNat, b.toNat, m.toNat, c.toNat])
  | .vmnot d a m c => some (segsVmnot, [d.toNat, a.toNat, m.toNat, c.toNat])
  | .vmset d m c => some (segsVmset, [d.toNat, m.toNat, c.toNat])
  | .vmclr d m c => some (segsVmclr, [d.toNat, m.toNat, c.toNat])
  | .vsel d a b m c => some (segsVsel, [d.toNat, a.toNat, b.toNat, m.toNat, c.toNat])
  | .vselz d a m c => some (segsVselz, [d.toNat, a.toNat, m.toNat, c.toNat])
  | .vcvt d a t m c => some (segsVcvt, [d.toNat, a.toNat, t.toNat, m.toNat, c.toNat])
  | .vqnt d a t m c => some (segsVqnt, [d.toNat, a.toNat, t.toNat, m.toNat, c.toNat])
  | .vdqnt d a t m c => some (segsVdqnt, [d.toNat, a.toNat, t.toNat, m.toNat, c.toNat])
  | .vgath d a b m c => some (segsVgath, [d.toNat, a.toNat, b.toNat, m.toNat, c.toNat])
  | .vhead d a b m c => some (segsVhead, [d.toNat, a.toNat, b.toNat, m.toNat, c.toNat])
  | .vtail d a b m c => some (segsVtail, [d.toNat, a.toNat, b.toNat, m.toNat, c.toNat])
  | .vbcast d a m c => some (segsVbcast, [d.toNat, a.toNat, m.toNat, c.toNat])
  | .vfredsum d a m c => some (segsVfredsum, [d.toNat, a.toNat, m.toNat, c.toNat])
  | .vfredsumw d a m c => some (segsVfredsumw, [d.toNat, a.toNat, m.toNat, c.toNat])
  | .vfredmax d a m c => some (segsVfredmax, [d.toNat, a.toNat, m.toNat, c.toNat])
  | .vfredmin d a m c => some (segsVfredmin, [d.toNat, a.toNat, m.toNat, c.toNat])
  | .vredsum d a m c => some (segsVredsum, [d.toNat, a.toNat, m.toNat, c.toNat])
  | .vredmax d a m c => some (segsVredmax, [d.toNat, a.toNat, m.toNat, c.toNat])
  | .vredmin d a m c => some (segsVredmin, [d.toNat, a.toNat, m.toNat, c.toNat])
  | .vraise d a k m c => some (segsVraise, [d.toNat, a.toNat, k.toNat, m.toNat, c.toNat])
  | .vlower d a k m c => some (segsVlower, [d.toNat, a.toNat, k.toNat, m.toNat, c.toNat])
  | .vbcastk d k m c => some (segsVbcastk, [d.toNat, k.toNat, m.toNat, c.toNat])
  | .vld d i k m r c => some (segsVld, [d.toNat, i.toNat, k.toNat, m.toNat, r.toNat, c.toNat])
  | .vst d i k m r c => some (segsVst, [d.toNat, i.toNat, k.toNat, m.toNat, r.toNat, c.toNat])
  | .vld2 d i k m r c => some (segsVld2, [d.toNat, i.toNat, k.toNat, m.toNat, r.toNat, c.toNat])
  | .vst2 d i k m r c => some (segsVst2, [d.toNat, i.toNat, k.toNat, m.toNat, r.toNat, c.toNat])
  | .vldx d a x k m r c => some (segsVldx, [d.toNat, a.toNat, x.toNat, k.toNat, m.toNat, r.toNat, c.toNat])
  | .vstx d a x k m r c => some (segsVstx, [d.toNat, a.toNat, x.toNat, k.toNat, m.toNat, r.toNat, c.toNat])
  | .vldslab d a t k m c => some (segsVldslab, [d.toNat, a.toNat, t.toNat, k.toNat, m.toNat, c.toNat])
  | .vdef d k => some (segsVdef, [d.toNat, k.toNat])
  | .vtld k => some (segsVtld, [k.toNat])
  | .vtst k => some (segsVtst, [k.toNat])
  | .vsett i => some (segsVsett, [i.toNat])
  | .vlen k => some (segsVlen, [k.toNat])
  | .vlenShape a k => some (segsVlenShape, [a.toNat, k.toNat])
  | .vsetmt k => some (segsVsetmt, [k.toNat])
  | .vsetmtImm s => some (segsVsetmtImm, [s.toNat])
  | .mma n a b c => some (segsMma, [n.toNat, a.toNat, b.toNat, c.toNat])
  | .mmas n a b c => some (segsMmas, [n.toNat, a.toNat, b.toNat, c.toNat])
  | .men c => some (segsMen, [c.toNat])
  | .mdis c => some (segsMdis, [c.toNat])
  | .mzero n c => some (segsMzero, [n.toNat, c.toNat])
  | .mshape k c => some (segsMshape, [k.toNat, c.toNat])
  | .mscl k c => some (segsMscl, [k.toNat, c.toNat])
  | .mextRow d n s m c => some (segsMextRow, [d.toNat, n.toNat, s.toNat, m.toNat, c.toNat])
  | .mextCol d n s m c => some (segsMextCol, [d.toNat, n.toNat, s.toNat, m.toNat, c.toNat])
  | .mextRect d n m c => some (segsMextRect, [d.toNat, n.toNat, m.toNat, c.toNat])
  | .minsRow d n s m c => some (segsMinsRow, [d.toNat, n.toNat, s.toNat, m.toNat, c.toNat])
  | .minsCol d n s m c => some (segsMinsCol, [d.toNat, n.toNat, s.toNat, m.toNat, c.toNat])
  | .minsRect d n m c => some (segsMinsRect, [d.toNat, n.toNat, m.toNat, c.toNat])
  | .lstep n c => some (segsLstep, [n.toNat, c.toNat])
  | .lblend d c => some (segsLblend, [d.toNat, c.toNat])
  | .lrungLd d l c => some (segsLrungLd, [d.toNat, l.toNat, c.toNat])
  | .lrungSt d l c => some (segsLrungSt, [d.toNat, l.toNat, c.toNat])
  | .lrungLdK d k c => some (segsLrungLdK, [d.toNat, k.toNat, c.toNat])
  | .lrungStK d k c => some (segsLrungStK, [d.toNat, k.toNat, c.toNat])
  | .lcfg k c => some (segsLcfg, [k.toNat, c.toNat])
  | .lstatCnt k c => some (segsLstatCnt, [k.toNat, c.toNat])
  | .lstatCarry k c => some (segsLstatCarry, [k.toNat, c.toNat])
  | .lreset c => some (segsLreset, [c.toNat])
  | .vissue d a m => some (segsVissue, [d.toNat, a.toNat, m.toNat])
  | .vcapp q a m c => some (segsVcapp, [q.toNat, a.toNat, m.toNat, c.toNat])
  | .vcappK q k m c => some (segsVcappK, [q.toNat, k.toNat, m.toNat, c.toNat])
  | .vwait d a e k m => some (segsVwait, [d.toNat, a.toNat, e.toNat, k.toNat, m.toNat])
  | .gmma n a b c => some (segsGmma, [n.toNat, a.toNat, b.toNat, c.toNat])
  | .vbend => some (segsVbend, [])
  | .vkadd d i k c => some (segsVkadd, [d.toNat, i.toNat, k.toNat, c.toNat])
  | .vkaddK d t k c => some (segsVkaddK, [d.toNat, t.toNat, k.toNat, c.toNat])
  | .vkpop d c => some (segsVkpop, [d.toNat, c.toNat])
  | .vkget d a c => some (segsVkget, [d.toNat, a.toNat, c.toNat])
  | .vkpush k c => some (segsVkpush, [k.toNat, c.toNat])
  | .vmpushCount a c => some (segsVmpushCount, [a.toNat, c.toNat])
  | .vmpushFirst a c => some (segsVmpushFirst, [a.toNat, c.toNat])
  | .blockPop => none
  | .convoyIssue => none
  | .convoyRetire => none
  | .trapEntry => none
  | .queueDeadlock => none
  | .debugStop => none
  | .preemptionRequest => none
  | .contextSave => none
  | .contextRestore => none
  | .completionWordUpdate => none
  | .endReport => none
  | .taskAbandon => none
  | .loadDataArrival _ => none
  | .storeAcknowledged _ => none
  | .vectorElementArrival => none
  | .tableWalk _ _ => none
  | .monitoredLineWrite _ => none
  | .waitLimitExpiry => none
  | .timelineAdvance _ => none
  | .commandFailed _ _ => none
  | .carryChain => none
  | .entryReady _ => none
  | .fantailRun => none
  | .overdue _ => none
  | .priorityPreemption _ => none
  | .streamPumpTransfer _ => none
  | .streamOutCopy _ => none
  | .tcmClear => none
  | .feedCrossing _ => none
  | .gmmaMulticast => none
  | .gmmaShareCompletion => none
  | .planepwrWrite _ => none
  | .lcntWrite _ => none
  | .lcarryWrite _ => none
  | .gselWrite _ => none
  | .tlbinv _ => none
  | .fqadv _ => none
  | .clreset _ => none
  | .csrWrite _ _ => none
  | .clusterReset _ => none
  | .hostPreemptionRequest _ => none
  | .preqComplete => none
  | .clholdWrite _ => none
  | .plimitWrite _ => none
  | .freeze _ => none
  | .thaw _ => none
  | .freezeSignal _ => none
  | .debugPortAccess _ _ _ => none
  | .attest => none
  | .recover _ => none
  | .commitSvn => none
  | .cert => none
  | .cllog _ => none
  | .dbgen _ => none
  | .packageReset => none
  | .grantCycle => none
  | .grantDelivery _ => none
  | .missedGrants _ => none
  | .thermalThrottle _ => none
  | .thermalCutoff => none
  | .dieStoreScrub _ => none
  | .hbmScrub => none
  | .flitReceive _ _ _ => none
  | .nakReplay _ _ => none
  | .portRetrain _ => none
  | .portDown _ => none
  | .offloadPromotion => none
  | .remoteAccess _ => none
  | .remoteAccessTimeout _ => none
  | .collectiveMatch _ => none
  | .collectiveTimeout _ => none
  | .memberUnreachable _ => none
  | .timeMessage _ => none
  | .powerLoss => none
  | .unknownCommand _ => none
  | .cxlMemAccess _ _ _ => none
  | .spuriousWake => none
  | .crget d c => some (segsCrget, [d.toNat, c.toNat])
  | .crput a c => some (segsCrput, [a.toNat, c.toNat])
  | .crset a c => some (segsCrset, [a.toNat, c.toNat])
  | .crclr a c => some (segsCrclr, [a.toNat, c.toNat])
  | .add d a b => some (segsAdd, [d.toNat, a.toNat, b.toNat])
  | .sub d a b => some (segsSub, [d.toNat, a.toNat, b.toNat])
  | .and d a b => some (segsAnd, [d.toNat, a.toNat, b.toNat])
  | .or d a b => some (segsOr, [d.toNat, a.toNat, b.toNat])
  | .xor d a b => some (segsXor, [d.toNat, a.toNat, b.toNat])
  | .sll d a b => some (segsSll, [d.toNat, a.toNat, b.toNat])
  | .srl d a b => some (segsSrl, [d.toNat, a.toNat, b.toNat])
  | .sra d a b => some (segsSra, [d.toNat, a.toNat, b.toNat])
  | .slt d a b => some (segsSlt, [d.toNat, a.toNat, b.toNat])
  | .sltn d a b => some (segsSltn, [d.toNat, a.toNat, b.toNat])
  | .mul d a b => some (segsMul, [d.toNat, a.toNat, b.toNat])
  | .mulhs d a b => some (segsMulhs, [d.toNat, a.toNat, b.toNat])
  | .mulhn d a b => some (segsMulhn, [d.toNat, a.toNat, b.toNat])
  | .div d a b => some (segsDiv, [d.toNat, a.toNat, b.toNat])
  | .divn d a b => some (segsDivn, [d.toNat, a.toNat, b.toNat])
  | .rem d a b => some (segsRem, [d.toNat, a.toNat, b.toNat])
  | .remn d a b => some (segsRemn, [d.toNat, a.toNat, b.toNat])
  | .addi d a i => some (segsAddi, [d.toNat, a.toNat, i.toNat])
  | .andi d a i => some (segsAndi, [d.toNat, a.toNat, i.toNat])
  | .ori d a i => some (segsOri, [d.toNat, a.toNat, i.toNat])
  | .xori d a i => some (segsXori, [d.toNat, a.toNat, i.toNat])
  | .slli d a n => some (segsSlli, [d.toNat, a.toNat, n.toNat])
  | .srli d a n => some (segsSrli, [d.toNat, a.toNat, n.toNat])
  | .srai d a n => some (segsSrai, [d.toNat, a.toNat, n.toNat])
  | .slti d a i => some (segsSlti, [d.toNat, a.toNat, i.toNat])
  | .sltin d a i => some (segsSltin, [d.toNat, a.toNat, i.toNat])
  | .lui d i => some (segsLui, [d.toNat, i.toNat])
  | .sext d a w => some (segsSext, [d.toNat, a.toNat, w.toNat])
  | .zext d a w => some (segsZext, [d.toNat, a.toNat, w.toNat])
  | .extr d a b w => some (segsExtr, [d.toNat, a.toNat, b.toNat, w.toNat])
  | .ins d a b w => some (segsIns, [d.toNat, a.toNat, b.toNat, w.toNat])
  | .clz d a => some (segsClz, [d.toNat, a.toNat])
  | .ctz d a => some (segsCtz, [d.toNat, a.toNat])
  | .popc d a => some (segsPopc, [d.toNat, a.toNat])
  | .ldb d a s i => some (segsLdb, [d.toNat, a.toNat, s.toNat, i.toNat])
  | .ldw d a s i => some (segsLdw, [d.toNat, a.toNat, s.toNat, i.toNat])
  | .ldd d a s i => some (segsLdd, [d.toNat, a.toNat, s.toNat, i.toNat])
  | .stb d a s i => some (segsStb, [d.toNat, a.toNat, s.toNat, i.toNat])
  | .stw d a s i => some (segsStw, [d.toNat, a.toNat, s.toNat, i.toNat])
  | .std d a s i => some (segsStd, [d.toNat, a.toNat, s.toNat, i.toNat])
  | .amoswap d a b e o s => some (segsAmoswap, [d.toNat, a.toNat, b.toNat, e.toNat, o.toNat, s.toNat])
  | .amoadd d a b e o s => some (segsAmoadd, [d.toNat, a.toNat, b.toNat, e.toNat, o.toNat, s.toNat])
  | .amoand d a b e o s => some (segsAmoand, [d.toNat, a.toNat, b.toNat, e.toNat, o.toNat, s.toNat])
  | .amoor d a b e o s => some (segsAmoor, [d.toNat, a.toNat, b.toNat, e.toNat, o.toNat, s.toNat])
  | .amoxor d a b e o s => some (segsAmoxor, [d.toNat, a.toNat, b.toNat, e.toNat, o.toNat, s.toNat])
  | .amomax d a b e o s => some (segsAmomax, [d.toNat, a.toNat, b.toNat, e.toNat, o.toNat, s.toNat])
  | .amomin d a b e o s => some (segsAmomin, [d.toNat, a.toNat, b.toNat, e.toNat, o.toNat, s.toNat])
  | .amomaxu d a b e o s => some (segsAmomaxu, [d.toNat, a.toNat, b.toNat, e.toNat, o.toNat, s.toNat])
  | .cas d a b e o s => some (segsCas, [d.toNat, a.toNat, b.toNat, e.toNat, o.toNat, s.toNat])
  | .fence e q p => some (segsFence, [e.toNat, q.toNat, p.toNat])
  | .cjEq b a i => some (segsCjEq, [b.toNat, a.toNat, i.toNat])
  | .cjNe b a i => some (segsCjNe, [b.toNat, a.toNat, i.toNat])
  | .cjLt b a i => some (segsCjLt, [b.toNat, a.toNat, i.toNat])
  | .cjGe b a i => some (segsCjGe, [b.toNat, a.toNat, i.toNat])
  | .cjLtn b a i => some (segsCjLtn, [b.toNat, a.toNat, i.toNat])
  | .cjGen b a i => some (segsCjGen, [b.toNat, a.toNat, i.toNat])
  | .jal d i => some (segsJal, [d.toNat, i.toNat])
  | .jr d a => some (segsJr, [d.toNat, a.toNat])
  | .bpush a b => some (segsBpush, [a.toNat, b.toNat])
  | .dpush a => some (segsDpush, [a.toNat])
  | .rpop d => some (segsRpop, [d.toNat])
  | .epop d => some (segsEpop, [d.toNat])
  | .epopTry d => some (segsEpopTry, [d.toNat])
  | .epopMsg d => some (segsEpopMsg, [d.toNat])
  | .epopMsgTry d => some (segsEpopMsgTry, [d.toNat])
  | .waitw d a b s m t => some (segsWaitw, [d.toNat, a.toNat, b.toNat, s.toNat, m.toNat, t.toNat])
  | .endTask => some (segsEndTask, [])
  | .dcoll d a b => some (segsDcoll, [d.toNat, a.toNat, b.toNat])
  | .copy d a b => some (segsCopy, [d.toNat, a.toNat, b.toNat])
  | .copyRst d a => some (segsCopyRst, [d.toNat, a.toNat])
  | .copy2 d a b => some (segsCopy2, [d.toNat, a.toNat, b.toNat])
  | .fill d a b => some (segsFill, [d.toNat, a.toNat, b.toNat])
  | .slabmov d a b => some (segsSlabmov, [d.toNat, a.toNat, b.toNat])
  | .mdec d a b => some (segsMdec, [d.toNat, a.toNat, b.toNat])
  | .mrsz d a b => some (segsMrsz, [d.toNat, a.toNat, b.toNat])
  | .mdecRst d a => some (segsMdecRst, [d.toNat, a.toNat])
  | .cred d a b => some (segsCred, [d.toNat, a.toNat, b.toNat])
  | .cbcast d a b => some (segsCbcast, [d.toNat, a.toNat, b.toNat])
  | .credRst d a => some (segsCredRst, [d.toNat, a.toNat])
  | .tlwait d a b t => some (segsTlwait, [d.toNat, a.toNat, b.toNat, t.toNat])
  | .tlreadCount d a => some (segsTlreadCount, [d.toNat, a.toNat])
  | .tlreadStatus d a => some (segsTlreadStatus, [d.toNat, a.toNat])
  | .strin d a b x c => some (segsStrin, [d.toNat, a.toNat, b.toNat, x.toNat, c.toNat])
  | .strout d a b x c => some (segsStrout, [d.toNat, a.toNat, b.toNat, x.toNat, c.toNat])
  | .launch d a b x => some (segsLaunchRequest, [d.toNat, a.toNat, b.toNat, (x.setWidth 5).toNat, (0 : BitVec 5).toNat])
  | .launchRequest d a b x c => some (segsLaunchRequest, [d.toNat, a.toNat, b.toNat, x.toNat, c.toNat])
  | .barv d a b => some (segsBarv, [d.toNat, a.toNat, b.toNat])
  | .barw d a b t => some (segsBarw, [d.toNat, a.toNat, b.toNat, t.toNat])
  | .garm a b => some (segsGarm, [a.toNat, b.toNat])
  | .garmOff d => some (segsGarmOff, [d.toNat])
  | .fqset a b q => some (segsFqset, [a.toNat, b.toNat, q.toNat])
  | .fqsetRd d q => some (segsFqsetRd, [d.toNat, q.toNat])
  | .fqsetAdv a q => some (segsFqsetAdv, [a.toNat, q.toNat])
  | .hcall => some (segsHcall, [])
  | .hret => some (segsHret, [])
  | .nap => some (segsNap, [])
  | .brk i => some (segsBrk, [i.toNat])

/-- The word of an instruction (02_encoding.md R29 to R31); 0 for an event, which has none. -/
def encode (i : Instr) : IWord :=
  match i.fields with
  | some (sg, xs) => .ofNat 32 (segsPack sg xs)
  | none => 0

/-- A processor that executes an instruction word. DESIGN CHOICE: log entry 60. -/
def procOf (i : Instr) : Proc :=
  let op := (encode i).toNat % 128
  if 0x40 ≤ op then .convoy
  else match i with
    | .strin .. | .strout .. | .fqset .. | .fqsetRd .. | .fqsetAdv .. | .epopMsg .. | .epopMsgTry .. | .launch .. =>
      .control
    | .crget _ c | .crput _ c | .crset _ c | .crclr _ c =>
      if csrControlOnly c.toNat then .control else .task
    | _ => .task

/-- The word at the lowest address of a list of bytes (R26), with the bytes that follow it. -/
def firstWord : List Byte → Option (IWord × List Byte)
  | a :: b :: c :: d :: rest =>
    some (.ofNat 32 (a.toNat + 2 ^ 8 * b.toNat + 2 ^ 16 * c.toNat + 2 ^ 24 * d.toNat), rest)
  | _ => none

/-- Decoding bytes: the instruction they begin with, and the bytes that follow it. -/
noncomputable def decodeBytes (p : Proc) (bs : List Byte) : Option (Decoded × List Byte) :=
  (firstWord bs).map (fun (w, rest) => (decode p w, rest))

/-- The four bytes of a word, lowest address first. -/
def wordBytes (w : IWord) : List Byte :=
  [.ofNat 8 w.toNat, .ofNat 8 (w.toNat / 2 ^ 8), .ofNat 8 (w.toNat / 2 ^ 16), .ofNat 8 (w.toNat / 2 ^ 24)]

/-- A processor whose set holds a word: the control core for its own words, the convoy stream for vector words and
a task core's steering stream for the rest. LAUNCH stands in both steering sets and is read as the control core's. -/
def procFor (w : IWord) : Proc :=
  if outsideSet .convoy w = false then .convoy
  else if outsideSet .control w = false ∧ (outsideSet .task w = true ∨ w.toNat % 128 = 0x32) then .control
  else .task

/-- The instruction the decoder reads from a word numbered as the opcode table numbers it; a row of the table is
one 32-bit word, so the low 32 bits are the word. -/
noncomputable def decodeTableWord (_nbits w : Nat) : Option Instr :=
  let x : IWord := .ofNat 32 w
  match decodeBytes (procFor x) (wordBytes x) with
  | some (.instr i, _) => some i
  | _ => none

end Sys2Proof
end

