-- ==== Sys2Proof/Machine/Ops.lean ====
section
/-! DEFINITION. The named operations over the state: focus, registers, memory, translation, waiting, and taking an
exception and returning from one. Every instruction's meaning is built from these. -/

namespace Sys2Proof.Machine

/-- The outcome of a step of this machine. -/
abbrev Result := Host.Outcome State Fault Refusal

/-! ## Focus and the pools of cores, clusters and dies -/

/-- The entry of a pool; a unit it does not hold is as reset left it. -/
def poolGet {α : Type} (dflt : α) : List (Nat × α) → Nat → α
  | [], _ => dflt
  | (j, v) :: m, i => if i = j then v else poolGet dflt m i

/-- The pool with an entry replaced. -/
def poolSet {α : Type} (m : List (Nat × α)) (i : Nat) (v : α) : List (Nat × α) :=
  (i, v) :: m.filter (fun p => decide (p.1 ≠ i))

/-- The cluster of a core, 0 to 23 (01_levels.md R13). -/
def clusterOf (core : Nat) : Nat := core / 96

/-- The die of a core, 0 to 5. -/
def dieOf (core : Nat) : Nat := core / 384

/-- The die of a cluster. -/
def dieOfCluster (cluster : Nat) : Nat := cluster / 4

/-- The cluster in focus. -/
def State.clusterId (s : State) : Nat := clusterOf s.coreId

/-- The die in focus. -/
def State.dieId (s : State) : Nat := dieOf s.coreId

/-- A core, in focus or not. -/
def State.coreAt (s : State) (c : Nat) : Core := if c = s.coreId then s.core else poolGet .reset s.cores c

/-- The state with a core changed. -/
def State.setCoreAt (s : State) (c : Nat) (v : Core) : State :=
  if c = s.coreId then { s with core := v } else { s with cores := poolSet s.cores c v }

/-- A cluster, in focus or not. -/
def State.clusterAt (s : State) (l : Nat) : Cluster :=
  if l = s.clusterId then s.cluster else poolGet .reset s.clusters l

/-- The state with a cluster changed. -/
def State.setClusterAt (s : State) (l : Nat) (v : Cluster) : State :=
  if l = s.clusterId then { s with cluster := v } else { s with clusters := poolSet s.clusters l v }

/-- A die, in focus or not. -/
def State.dieAt (s : State) (d : Nat) : Die := if d = s.dieId then s.die else poolGet .reset s.dies d

/-- The state with a die changed. -/
def State.setDieAt (s : State) (d : Nat) (v : Die) : State :=
  if d = s.dieId then { s with die := v } else { s with dies := poolSet s.dies d v }

/-- Bring a core, its cluster and its die into focus. -/
def State.focus (s : State) (c : Nat) : State :=
  if c = s.coreId then s
  else
    { s with
      coreId := c
      core := s.coreAt c
      cores := poolSet s.cores s.coreId s.core
      cluster := s.clusterAt (clusterOf c)
      clusters := if clusterOf c = s.clusterId then s.clusters else poolSet s.clusters s.clusterId s.cluster
      die := s.dieAt (dieOf c)
      dies := if dieOf c = s.dieId then s.dies else poolSet s.dies s.dieId s.die }

/-! ## Updates of the focused parts -/

def State.modCore (s : State) (f : Core → Core) : State := { s with core := f s.core }
def State.modSteer (s : State) (f : Steer → Steer) : State := s.modCore (fun c => { c with steer := f c.steer })
def State.modConv (s : State) (f : Conv → Conv) : State := s.modCore (fun c => { c with conv := f c.conv })
def State.modQ (s : State) (f : Queues → Queues) : State := s.modCore (fun c => { c with q := f c.q })
def State.modMat (s : State) (f : Matrix → Matrix) : State := s.modCore (fun c => { c with mat := f c.mat })
def State.modLad (s : State) (f : Ladder → Ladder) : State := s.modCore (fun c => { c with lad := f c.lad })
def State.modGang (s : State) (f : Gang → Gang) : State := s.modCore (fun c => { c with gang := f c.gang })
def State.modTrace (s : State) (f : Trace → Trace) : State := s.modCore (fun c => { c with trace := f c.trace })
def State.modCluster (s : State) (f : Cluster → Cluster) : State := { s with cluster := f s.cluster }
def State.modDie (s : State) (f : Die → Die) : State := { s with die := f s.die }
def State.modPkg (s : State) (f : Pkg → Pkg) : State := { s with pkg := f s.pkg }
def State.modFab (s : State) (f : Fab → Fab) : State := { s with fab := f s.fab }

/-- Use up a value of the counter of free values. -/
def State.tickUp (s : State) : State := { s with tick := s.tick + 1 }

/-- The ticks of the package timebase since its last read, at the tick rate that the time messages have set: a frozen
package's stands still (18_package.md R389, R390; 19_fabric.md R408). DESIGN CHOICE: log entry 5. -/
def State.newTicks (s : State) : Nat :=
  if s.pkg.frozen then 0 else ((Config.ticks s.tick : Int) * (1000000 + s.fab.rate) / 1000000).toNat

/-- The package timebase: it never runs backward. -/
def State.now (s : State) : Word := .ofNat 64 (s.time + s.newTicks)

/-- The timebase has been read. -/
def State.clockRead (s : State) : State := { s with time := s.time + s.newTicks, tick := s.tick + 1 }

/-! ## The steering processor that moves -/

/-- The steering processor of the agent that moves: the control core's, or the task core's. -/
def State.cur (s : State) : Steer :=
  match s.agent with
  | .control => s.cluster.ctl
  | _ => s.core.steer

/-- The state with the steering processor of the agent that moves changed. -/
def State.modCur (s : State) (f : Steer → Steer) : State :=
  match s.agent with
  | .control => s.modCluster (fun c => { c with ctl := f c.ctl })
  | _ => s.modSteer f

/-- A steering register; s0 reads zero (R167). -/
def readReg (r : BitVec 5) (s : State) : Word := if r = 0 then 0 else spGet 0 s.cur.regs r.toNat

/-- Write a steering register; a write of s0 is discarded (R167). -/
def writeReg (r : BitVec 5) (v : Word) (s : State) : State :=
  if r = 0 then s else s.modCur (fun c => { c with regs := spPut 0 c.regs r.toNat v })

/-- Set PC. A wait that stood there is over. -/
def setPc (pc : BitVec 32) (s : State) : State := s.modCur (fun c => { c with pc := pc, expired := false })

/-- Advance PC by one word, modulo 2^32 (R168). -/
def advance (s : State) : State := setPc (s.cur.pc + 4) s

/-- Write a result and advance. -/
def retire (r : BitVec 5) (v : Word) (s : State) : Result := .next (advance (writeReg r v s))

/-- The instruction waits: nothing changes but the mark that it did not retire. -/
def stall (s : State) : State := { s with stalled := true }

/-! ## Convoy scalars, masks and the plane's registers -/

/-- A convoy scalar k0 to k7. -/
def readK (n : Nat) (s : State) : Word := spGet 0 s.core.conv.k n

/-- Write a convoy scalar. -/
def writeK (n : Nat) (v : Word) (s : State) : State := s.modConv (fun c => { c with k := spPut 0 c.k n v })

/-- Bit i of mask m; every bit of m0 is 1 (R67, R127). -/
def maskBit (m i : Nat) (s : State) : Bool := m == 0 || spGet false s.core.conv.masks (8192 * m + i)

/-- Write bit i of mask m, 1 to 7. -/
def writeMaskBit (m i : Nat) (v : Bool) (s : State) : State :=
  s.modConv (fun c => { c with masks := spPut false c.masks (8192 * m + i) v })

/-- A cell of the plane (R64). -/
def readCell (r c : Nat) (s : State) : Cell32 := spGet 0 s.core.conv.plane (64 * r + c)

/-- Write a cell of the plane; under an arm or a share the write is noted (14_cluster.md R328). -/
def writeCell (r c : Nat) (v : Cell32) (s : State) : State :=
  s.modConv (fun cv => { cv with
    plane := spPut 0 cv.plane (64 * r + c) v, wrote := cv.wrote.map (fun l => (64 * r + c) :: l) })

/-- An element of a slab (10_core_matrix.md R248). -/
def readAcc (n i j : Nat) (s : State) : BitVec 32 := spGet 0 s.core.mat.acc (4096 * n + 64 * i + j)

/-- Write an element of a slab. -/
def writeAcc (n i j : Nat) (v : BitVec 32) (s : State) : State :=
  s.modMat (fun m => { m with acc := spPut 0 m.acc (4096 * n + 64 * i + j) v })

/-- VL. -/
def State.vl (s : State) : Nat := s.core.conv.vl.toNat

/-- Set sticky flags (R101, R102). -/
def raiseFlags (f : FlagSet) (s : State) : State := s.modConv (fun c => { c with vflags := c.vflags ||| f })

/-! ## The keys of memory

Every space has a range of keys in the one byte memory. Domain memory stands under its own physical address, with the
own package under number 0xFFF and HBM under its spread view; host memory under its physical address. -/

/-- The TCM of a core. -/
def tcmKey (core off : Nat) : Nat := 2 ^ 60 + 2 ^ 18 * core + off
/-- The TCM of a cluster's control core (14_cluster.md R292). -/
def ctlTcmKey (cluster off : Nat) : Nat := 2 ^ 61 + 2 ^ 18 * cluster + off
/-- The scratchpad of a cluster. -/
def spadKey (cluster off : Nat) : Nat := 2 ^ 62 + 2 ^ 25 * cluster + off
/-- The die store of a die. -/
def dieKey (die off : Nat) : Nat := 2 ^ 63 + 2 ^ 28 * die + off
/-- The mailbox's data area (18_package.md R370). -/
def mbdataKey (off : Nat) : Nat := 2 ^ 64 + off
/-- The recovery window (18_package.md R385). -/
def recoveryKey (off : Nat) : Nat := 2 ^ 65 + off

/-! ## Bytes of memory -/

/-- A byte of memory. DESIGN CHOICE: log entry 2. -/
def readByte (s : State) (key : Nat) : Byte := spGet unlistedByte s.mem key

/-- Write a byte of memory. -/
def writeByte (key : Nat) (v : Byte) (s : State) : State := { s with mem := spPut unlistedByte s.mem key v }

/-- `n` bytes from a key upward, little-endian (R6). DESIGN CHOICE: log entry 8. -/
def readMem (s : State) (key : Nat) : Nat → Nat
  | 0 => 0
  | n + 1 => (readByte s key).toNat + 2 ^ 8 * readMem s (key + 1) n

/-- Write `n` bytes from a key upward, little-endian. DESIGN CHOICE: log entry 8. -/
def writeMem (key : Nat) : Nat → Nat → State → State
  | 0, _, s => s
  | n + 1, v, s => writeMem (key + 1) n (v / 2 ^ 8) (writeByte key (.ofNat 8 v) s)

/-- A 64-bit word of memory. -/
def readMem64 (s : State) (key : Nat) : Word := .ofNat 64 (readMem s key 8)

/-- Some granule that the bytes touch holds an uncorrectable error (R229). The granule of every memory is 8 bytes.
DESIGN CHOICE: log entry 62. -/
def poisoned (s : State) (key n : Nat) : Bool :=
  s.poison.any (fun g => decide (g < key + n) && decide (key < g + 8))

/-- Some granule that a store touches without covering it holds an uncorrectable error: the store needs to read it.
DESIGN CHOICE: log entry 62. -/
def storePoisoned (s : State) (key n : Nat) : Bool :=
  s.poison.any (fun g => decide (g < key + n) && decide (key < g + 8) && !(decide (key ≤ g) && decide (g + 8 ≤ key + n)))

/-- A watch notes a write of a place. -/
def Watch.covers (m : Watch) (a : Nat) : Bool :=
  (match m.within with
    | some (lo, k) => decide (lo ≤ a) && decide (a < lo + k)
    | none => true)
  && (match m.spare with
    | some g => !(decide (g ≤ a) && decide (a < g + 8))
    | none => true)

/-- Bytes have been written: those that are watched are noted. -/
def Watch.note (key n : Nat) (m : Watch) : Watch :=
  { m with wrote := ((List.range n).map (key + ·)).filter m.covers ++ m.wrote }

/-- Every watch notes a write. -/
def noteWrite (key n : Nat) (s : State) : State := { s with watches := s.watches.map (Watch.note key n) }

/-- A watch begins: what others write from now on is noted. -/
def beginWatch (entry : Nat) (within : Option (Nat × Nat)) (s : State) : State :=
  { s with watches := ⟨entry, within, [], none, false⟩ :: s.watches.filter (fun m => decide (m.entry ≠ entry)) }

/-- A watch is changed. -/
def modWatch (entry : Nat) (f : Watch → Watch) (s : State) : State :=
  { s with watches := s.watches.map (fun m => if m.entry = entry then f m else m) }

/-- It ends. -/
def endWatch (entry : Nat) (s : State) : State :=
  { s with watches := s.watches.filter (fun m => decide (m.entry ≠ entry)) }

/-- What others have written under a watch. -/
def watched (s : State) (entry : Nat) : List Nat :=
  (s.watches.filter (fun m => decide (m.entry = entry))).flatMap (·.wrote)

/-- The watch over the rung area of a task, by its serial, and such watches. -/
def ladderWatch (serial : Nat) : Nat := 2 ^ 80 + serial
def Watch.guards (m : Watch) : Bool := decide (2 ^ 80 ≤ m.entry)

/-- A watch stands. -/
def watching (s : State) (entry : Nat) : Bool := s.watches.any (fun m => decide (m.entry = entry))

/-- Bytes of a scratchpad have been written, and no chain has used them up. -/
def laid (s : State) (key n : Nat) : Bool := (List.range n).all (fun i => (watched s spadWatch).contains (key + i))

/-- Bytes of a scratchpad are used up, or cleared. -/
def useUp (key n : Nat) (s : State) : State :=
  modWatch spadWatch (fun m => { m with wrote := m.wrote.filter (fun a => !(decide (key ≤ a) && decide (a < key + n))) }) s

/-- A rung area whose words another has written: any value may result in its rungs and its carry slot
(11_core_ladder.md R285; 00_scope.md R4). DESIGN CHOICE: log entry 71. -/
def breakArea (m : Watch) (s : State) : State :=
  match m.within with
  | none => s
  | some (lo, n) =>
    (modWatch m.entry (fun m => { m with wrote := [], broken := true })
      ((List.range (n / 4)).foldl (fun t i => writeMem (lo + 4 * i) 4 (Config.freeCell s.tick i).toNat t) s)).tickUp

/-- Every rung area that another has written since. -/
def breakAreas (s : State) : State :=
  (s.watches.filter (fun m => m.guards && !m.wrote.isEmpty)).foldl (fun t m => breakArea m t) s

/-- Writes, from the state `s` to `t`, that are the own ones of what a watch is for: they are noted for the others only. -/
def ownWrites (entry : Nat) (s : State) (t : State) : State :=
  { t with watches := t.watches.map (fun m =>
      if m.entry = entry then (s.watches.find? (fun n => decide (n.entry = entry))).getD m else m) }

/-- Store `n` bytes; a granule the store covers is no longer marked uncorrectable (R229). -/
def storeMem (key n v : Nat) (s : State) : State :=
  let s := noteWrite key n (writeMem key n v s)
  { s with poison := s.poison.filter (fun g => !(decide (key ≤ g) && decide (g + 8 ≤ key + n))) }

/-! ## Physical addresses (19_fabric.md R392, R393; 18_package.md R375) -/

/-- Where a physical address leads. -/
inductive PaLoc where
  /-- Bytes of memory; `remote` when another package is their home. -/
  | mem (key : Nat) (remote : Bool)
  /-- The package register block. -/
  | pkgReg (off : Nat)
  /-- The fabric register block. -/
  | fabReg (off : Nat)
  /-- No access goes there (R393). -/
  | bad
  deriving DecidableEq, Repr, Inhabited

/-- ZID.PKG: this package's number, 0xFFF when it has joined no domain (R394). -/
def State.pkgNumber (s : State) : Nat := s.fab.pkg.toNat

/-- ZID.DMAX: the highest package number of the domain. -/
def State.dmax (s : State) : Nat := s.fab.dmax.toNat

/-- The spread-view offset of a package-local HBM offset, whichever view names it (R375). -/
def hbmSpread (off : Nat) : Option Nat :=
  if off < 0xC000000000 then some off
  else if 0x10000000000 ≤ off ∧ off < 0x1C000000000 then
    let o := off - 0x10000000000
    let stack := o / 2 ^ 36
    let a := o % 2 ^ 36
    some ((a / 4096 * 12 + stack) * 4096 + a % 4096)
  else none

/-- Where a physical address leads. DESIGN CHOICE: log entry 68. -/
def paLoc (s : State) (pa : Nat) : PaLoc :=
  if pa / 2 ^ 56 % 2 = 1 then
    if pa / 2 ^ 52 % 16 = 0 then .mem (2 ^ 56 + pa % 2 ^ 52) false else .bad
  else if pa / 2 ^ 54 % 4 ≠ 0 then .bad
  else
    let pkg := pa / 2 ^ 42 % 2 ^ 12
    let off := pa % 2 ^ 42
    let own := pkg = 0xFFF ∨ (pkg = s.pkgNumber ∧ pkg ≤ s.dmax)
    if own then
      match hbmSpread off with
      | some a => .mem (0xFFF * 2 ^ 42 + a) false
      | none =>
        if 0x20000000000 ≤ off ∧ off < 0x20000010000 then .pkgReg (off - 0x20000000000)
        else if 0x20100000000 ≤ off ∧ off < 0x20100001000 then .fabReg (off - 0x20100000000)
        else .bad
    else if 2048 ≤ pkg ∨ s.dmax < pkg ∨ s.pkgNumber = 0xFFF then .bad
    else match hbmSpread off with
      | some a => .mem (pkg * 2 ^ 42 + a) true
      | none => .bad

/-! ## Translation (09_core_memory.md R230 to R233) -/

/-- A leaf entry found, with its page size as a power of two; or the level whose entry ends the walk. -/
inductive Walked where
  | leaf (entry : Word) (bits : Nat)
  | fault (level : Nat)
  deriving DecidableEq, Repr, Inhabited

/-- The index of an address in the table of a level. -/
def walkIndex (level va : Nat) : Nat :=
  match level with
  | 0 => va / 2 ^ 39 % 2 ^ 18
  | 1 => va / 2 ^ 30 % 512
  | 2 => va / 2 ^ 21 % 512
  | _ => va / 2 ^ 16 % 32

/-- The size of the page a leaf of a level maps, as a power of two. -/
def pageBits (level : Nat) : Nat :=
  match level with
  | 1 => 30
  | 2 => 21
  | _ => 16

/-- The entry is malformed at its level (R231). -/
def entryMalformed (level : Nat) (e : Nat) : Bool :=
  let leaf := e / 2 % 2 == 1
  e / 2 ^ 57 != 0 || e / 2 ^ 8 % 256 != 0 || e / 8 % 2 != 0
    || (leaf && level == 0) || (!leaf && level == 3)
    || (leaf && e / 2 ^ 16 * 2 ^ 16 % 2 ^ pageBits level != 0)

/-- The walk from a table of a level, for the levels that remain. Whether a home in another package stays silent is left
open (R231). DESIGN CHOICE: log entry 29. -/
def walkFrom (s : State) (va : Nat) : Nat → Nat → Nat → Walked
  | 0, level, _ => .fault level
  | left + 1, level, table =>
    match paLoc s (table + 8 * walkIndex level va) with
    | .mem key remote =>
      if poisoned s key 8 || (remote && Config.freeBool (s.tick + level)) then .fault level
      else
        let e := readMem s key 8
        if e % 2 = 0 ∨ entryMalformed level e then .fault level
        else if e / 2 % 2 = 1 then .leaf (.ofNat 64 e) (pageBits level)
        else walkFrom s va left (level + 1) (e / 2 ^ 16 % 2 ^ 41 * 2 ^ 16)
    | _ => .fault level

/-- The four-level walk from PTROOT.ROOT. -/
def tableWalk (s : State) (ptroot : Word) (va : Nat) : Walked :=
  walkFrom s va 4 0 (ptroot.toNat / 2 ^ 21 % 2 ^ 36 * 2 ^ 21)

/-- The first entry of a TLB that holds an address of an address space. DESIGN CHOICE: log entry 33. -/
def tlbFind (l : List TlbEntry) (asid : BitVec 16) (va : Nat) : Option TlbEntry :=
  l.find? (fun t => decide (t.asid = asid) && decide (va / 2 ^ t.bits * 2 ^ t.bits = t.base))

/-- Translate an address: a translation that a TLB of the agent holds, or a walk (R232, R233).
DESIGN CHOICE: log entry 33. -/
def translate (s : State) (vec : Bool) (va : Nat) : Walked :=
  let asid : BitVec 16 := .ofNat 16 s.cur.ptroot.toNat
  let own := if s.agent = .control then [] else if vec then s.core.tlbV else s.core.tlbS
  match tlbFind (own ++ s.cluster.tlb) asid va with
  | some t => .leaf t.entry t.bits
  | none => tableWalk s s.cur.ptroot va

/-! ## Resolving an address in a space (R212, R226) -/

/-- A fault of an access: its cause, and the table level it names (7 when none). -/
structure MemFault where
  cause : Cause
  level : Nat
  deriving DecidableEq, Repr, Inhabited

/-- What an access wants. -/
structure Want where
  size : Nat
  write : Bool
  atomic : Bool
  /-- A vector access whose elements are unordered. -/
  unordered : Bool
  /-- Of the convoy stream. -/
  vec : Bool
  deriving DecidableEq, Repr, Inhabited

/-- The bytes an offset space has. -/
def spaceSize (space : BitVec 2) : Nat :=
  if space = 0 then 0x40000 else if space = 1 then 25493504 else 0xC000000

/-- The key of an offset in TCM, SPAD or DIE for the agent that moves. -/
def spaceKey (s : State) (space : BitVec 2) (off : Nat) : Nat :=
  if space = 0 then (if s.agent = .control then ctlTcmKey s.clusterId off else tcmKey s.coreId off)
  else if space = 1 then spadKey s.clusterId off
  else dieKey s.dieId off

/-- A register block is reached through pages with SUP = 1 and ATTR = 3 only (18_package.md R370; 19_fabric.md R394): the
cause of an access through another page. DESIGN CHOICE: log entry 72. -/
def registerFault (loc : PaLoc) (entry : Nat) : Option Cause :=
  match loc with
  | .pkgReg _ | .fabReg _ =>
    if entry / 16 % 2 = 0 then some .memProt else if entry / 64 % 4 ≠ 3 then some .memAttr else none
  | _ => none

/-- The conditions of R226 up to MEM-ATTR, in the order listed, and where the access goes. -/
def resolve (s : State) (space : BitVec 2) (addr : Word) (w : Want) : Except MemFault PaLoc :=
  let a := addr.toNat
  if a % w.size ≠ 0 then .error ⟨.memAlign, 7⟩
  else if space = 3 then
    if 2 ^ 57 ≤ a then .error ⟨.memRange, 7⟩
    else match translate s w.vec a with
      | .fault level => .error ⟨.memXlate, level⟩
      | .leaf e bits =>
        let en := e.toNat
        let loc := paLoc s (en / 2 ^ 16 % 2 ^ 41 * 2 ^ 16 / 2 ^ bits * 2 ^ bits + a % 2 ^ bits)
        if loc = .bad then .error ⟨.memRange, 7⟩
        else if (w.write ∨ w.atomic) ∧ en / 4 % 2 = 0 then .error ⟨.memProt, 7⟩
        else if en / 16 % 2 = 1 ∧ s.cur.mode = false then .error ⟨.memProt, 7⟩
        else if w.atomic ∧ en / 32 % 2 = 1 then .error ⟨.memAttr, 7⟩
        else if w.unordered ∧ en / 64 % 4 = 3 then .error ⟨.memAttr, 7⟩
        else match registerFault loc en with
          | some c => .error ⟨c, 7⟩
          | none => .ok loc
  else if spaceSize space < a + w.size then .error ⟨.memRange, 7⟩
  else if space = 2 ∧ 0x6000000 ≤ a ∧ s.cur.mode = false then .error ⟨.memProt, 7⟩
  else .ok (.mem (spaceKey s space a) false)

/-- MFINFO for a fault (R234). -/
def mfinfoOf (level : Nat) (w : Want) (space : BitVec 2) : BitVec 8 :=
  .ofNat 8 (level % 8 * 32 + (if w.vec then 16 else 0) + (if w.atomic then 8 else 0)
    + (if w.write ∨ w.atomic then 4 else 0) + space.toNat)

/-! ## Taking a trap, and returning from one (08_core_steering.md R196, R197, R202, R210) -/

/-- The trap a core is about to take. -/
structure Trap where
  cause : Cause
  /-- It arose on the convoy stream. -/
  strm : Bool
  tval : Word
  epc : BitVec 32
  deriving DecidableEq, Repr, Inhabited

/-- CAUSE, TVAL and EPC of a trap. -/
def recordTrap (t : Trap) (c : Steer) : Steer :=
  { c with causeStrm := t.strm, causeCode := t.cause.code, tval := t.tval, epc := t.epc }

/-- The entry of R196 in the steering processor: the status and the mode change and PC goes to the handler, before whose
first instruction the core stops while a debugger is attached (07_prog_alias.md R166). -/
def enterHandler (c : Steer) : Steer :=
  { c with pmode := c.mode, mode := true, chalt := true, tpend := false, pc := c.tvec, expired := false
           stopped := c.stopped || c.attached }

/-- Halt the convoy stream at its boundary (R139). -/
def haltConvoy (c : Conv) : Conv := { c with st := .halted, forming := [], flight := none }

/-- The CAUSE register (R195). -/
def causeWord (c : Steer) : Word := .ofNat 64 ((if c.causeStrm then 2 ^ 63 else 0) + c.causeCode.toNat)

/-- What a double trap records: it halts both streams and is reported to the stream controller (R202). -/
def doubleTrap (t : Trap) : DoubleTrap :=
  ⟨.ofNat 64 ((if t.strm then 2 ^ 63 else 0) + t.cause.code.toNat), t.tval, t.epc⟩

/-- Taking a trap on the task core in focus: a double trap in supervisor mode (R202); under a pre-emption request the
trap is recorded and the core halts, with CHALT = 1 when the convoy stream trapped (R210); otherwise the convoy stream
halts and the handler is entered (R196). A second trap before the context is saved takes the place of the one recorded.
DESIGN CHOICE: log entry 79. -/
def takeTrapTask (t : Trap) (s : State) : State :=
  if s.core.steer.mode then
    s.modCore (fun c => { c with steer := { c.steer with dead := some (doubleTrap t) }, conv := haltConvoy c.conv })
  else if s.core.preq then
    s.modCore (fun c => { c with
      run := .halted
      steer := { recordTrap t c.steer with tpend := true, expired := false, chalt := c.steer.chalt || t.strm }
      conv := { c.conv with forming := [], flight := none, st := if t.strm then .halted else c.conv.st } })
  else s.modCore (fun c => { c with steer := enterHandler (recordTrap t c.steer), conv := haltConvoy c.conv })

/-- The control core in focus halts after a double trap, and its cluster reports an error to the service core
(R203; 14_cluster.md R307; 18_package.md R374). -/
def haltControl (d : DoubleTrap) (s : State) : State :=
  (s.modCluster (fun c => { c with ctl := { c.ctl with dead := some d }, error := true })).modPkg (fun p => { p with
    clerr := p.clerr ||| .ofNat 24 (2 ^ s.clusterId), msix := p.msix ||| 1 })

/-- Taking a trap on the control core in focus (R203, 14_cluster.md R292). -/
def takeTrapControl (t : Trap) (s : State) : State :=
  if s.cluster.ctl.mode then haltControl (doubleTrap t) s
  else s.modCluster (fun c => { c with ctl := { enterHandler (recordTrap t c.ctl) with chalt := false } })

/-- Taking a trap on the processor of the agent that moves. -/
def takeTrap (t : Trap) (s : State) : State :=
  match s.agent with
  | .control => takeTrapControl t s
  | _ => takeTrapTask t s

/-- A convoy of the core in focus has issued and has not retired. -/
def State.inFlight (s : State) : Bool := s.core.conv.flight.isSome

/-- A fault of the steering instruction at PC: while a convoy is in flight the instruction waits (R201); then the trap
is taken, and BKSUP is cleared (R194). -/
def steerFault (c : Cause) (tval : Word) (s : State) : Result :=
  if s.agent ≠ .control ∧ s.inFlight then .next (stall s)
  else .next (takeTrap ⟨c, false, tval, s.cur.pc⟩ (s.modCur (fun c => { c with bksup := false })))

/-- A trap that an instruction takes as its effect, with EPC at the next instruction (R197, R198). -/
def steerTrapNext (c : Cause) (tval : Word) (s : State) : Result :=
  if s.agent ≠ .control ∧ s.inFlight then .next (stall s)
  else .next (takeTrap ⟨c, false, tval, s.cur.pc + 4⟩ (s.modCur (fun c => { c with bksup := false })))

/-- A memory fault of the steering instruction at PC, with MFINFO. -/
def steerMemFault (f : MemFault) (w : Want) (space : BitVec 2) (tval : Word) (s : State) : Result :=
  if s.agent ≠ .control ∧ s.inFlight then .next (stall s)
  else steerFault f.cause tval (s.modCur (fun c => { c with mfinfo := mfinfoOf f.level w space }))

/-- The state of the convoy stream when it is not halted: RUN while a block has trips left (R135). -/
def convRunState (c : Conv) : ConvState := if c.lc = 0 then .idle else .run

/-- The return of HRET (R197): the mode and PC are restored, and a halted convoy stream resumes. -/
def trapReturn (s : State) : State :=
  match s.agent with
  | .control => s.modCluster (fun c => { c with
      ctl := { c.ctl with mode := c.ctl.pmode, pc := c.ctl.epc, expired := false } })
  | _ => s.modCore (fun c => { c with
      steer := { c.steer with mode := c.steer.pmode, pc := c.steer.epc, chalt := false, expired := false }
      conv := if c.steer.chalt then { c.conv with st := convRunState c.conv } else c.conv })

end Sys2Proof.Machine
end

