-- ==== Sys2Proof/Machine/Operands.lean ====
section
/-! DEFINITION. The operand forms: immediates and steering operands (02_encoding.md R31), element types (R50),
shapes and the elements they name (03_plane.md R64 to R75), E2M1x values and blocks (04_numbers.md R96 to R98),
and conversions between types (R99, R100, R110). -/

namespace Sys2Proof.Machine

/-! ## Immediates -/

/-- A field sign-extended to 64 bits. -/
def sext64 {n : Nat} (x : BitVec n) : Word := x.signExtend 64

/-- A field zero-extended to 64 bits. -/
def zext64 {n : Nat} (x : BitVec n) : Word := x.setWidth 64

/-- The target of a branch or jump: the word's own address plus the offset in words (R31). -/
def branchTarget {n : Nat} (pc : BitVec 32) (off : BitVec n) : BitVec 32 := pc + off.signExtend 32 * 4

/-! ## Element types (R50) -/

/-- The element width of a type code. -/
def ewOf (t : Nat) : Nat :=
  match t with
  | 0 => 32 | 1 => 16 | 2 => 16 | 3 => 8 | 4 => 8 | 5 => 4 | 6 => 8 | 7 => 16 | 8 => 32 | 9 => 64
  | 10 => 8 | 11 => 16 | 12 => 32 | _ => 64

/-- Type class F: f32, f16, bf16. -/
def isF (t : Nat) : Bool := decide (t ≤ 2)

/-- The FP8 types. -/
def isFp8 (t : Nat) : Bool := t == 3 || t == 4

/-- Type class I: the integer types. -/
def isI (t : Nat) : Bool := decide (6 ≤ t)

/-- E2M1x. -/
def isE2 (t : Nat) : Bool := t == 5

/-- The format of a floating-point type code. -/
def fmtOf (t : Nat) : Fmt :=
  match t with
  | 0 => fp32 | 1 => fp16 | 2 => bf16 | 3 => e4m3 | _ => e5m2

/-- The integer type of a type code. -/
def intTyOf (t : Nat) : IntTy := ⟨ewOf t, decide (t ≤ 9)⟩

/-- VTYPE.TYPE. -/
def Conv.type (c : Conv) : Nat := c.vtype.toNat % 16
/-- VTYPE.RM. -/
def Conv.rm (c : Conv) : Nat := c.vtype.toNat / 16 % 4
/-- VTYPE.SAT. -/
def Conv.sat (c : Conv) : Bool := c.vtype.getLsbD 6
/-- VTYPE.LA. -/
def Conv.la (c : Conv) : Bool := c.vtype.getLsbD 7
/-- The current element width. -/
def Conv.ew (c : Conv) : Nat := ewOf c.type

/-- The rounding of VTYPE. -/
def Conv.rnd (c : Conv) : Rnd := ⟨fmtOf c.type, c.rm, c.sat⟩

/-! ## Shapes (R72 to R75) -/

/-- A shape descriptor taken apart. -/
structure Shape where
  /-- 0 OFF, 1 RECT, 2 DIAG. -/
  kind : Nat
  /-- Column-major. -/
  colMajor : Bool
  row0 : Nat
  col0 : Nat
  h : Nat
  w : Nat
  deriving DecidableEq, Repr, Inhabited

/-- The fields of a descriptor (R72). -/
def shapeOf (d : Word) : Shape :=
  let n := d.toNat
  ⟨n % 4, n / 4 % 2 == 1, n / 2 ^ 8 % 2 ^ 9, n / 2 ^ 24 % 2 ^ 6, n / 2 ^ 32 % 2 ^ 10, n / 2 ^ 48 % 2 ^ 7⟩

/-- The reserved fields of a descriptor are zero. -/
def descReservedZero (d : Word) : Bool :=
  let n := d.toNat
  n / 8 % 2 ^ 5 == 0 && n / 2 ^ 17 % 2 ^ 7 == 0 && n / 2 ^ 30 % 4 == 0 && n / 2 ^ 42 % 2 ^ 6 == 0 && n / 2 ^ 55 == 0

/-- A valid descriptor (R73). -/
def descValid (d : Word) : Bool :=
  let v := shapeOf d
  descReservedZero d &&
    match v.kind with
    | 0 => decide (d = 0)
    | 1 => decide (1 ≤ v.h) && decide (1 ≤ v.w) && decide (v.w ≤ 64) && decide (v.row0 + v.h ≤ 512)
        && decide (v.col0 + v.w ≤ 64)
    | 2 => !v.colMajor && decide (1 ≤ v.h) && decide (v.h ≤ 64) && decide (v.row0 + v.h ≤ 512)
        && decide (v.col0 + v.h ≤ 64)
    | _ => false

/-- The shape a name stands for. -/
def shapeAt (n : Nat) (s : State) : Shape := shapeOf (spGet 0 s.core.conv.table n)

/-- The elements along one row of a RECT at a width. -/
def rowElems (v : Shape) (ew : Nat) : Nat := if ew = 64 then v.w / 2 else v.w * (32 / ew)

/-- The capacity of a shape at a width (R75). -/
def Shape.cap (v : Shape) (ew : Nat) : Nat :=
  match v.kind with
  | 1 => v.h * rowElems v ew
  | 2 => v.h * (32 / ew)
  | _ => 0

/-- The row and the element column of element i of a RECT (R74). -/
def rectWalk (v : Shape) (ew i : Nat) : Nat × Nat :=
  if v.colMajor then (i % v.h, i / v.h) else (i / rowElems v ew, i % rowElems v ew)

/-- Where element i lies: row, column and sub-element (R74). -/
def place (v : Shape) (ew i : Nat) : Nat × Nat × Nat :=
  match v.kind with
  | 1 =>
    let (rr, j) := rectWalk v ew i
    if ew = 64 then (v.row0 + rr, v.col0 + 2 * j, 0)
    else (v.row0 + rr, v.col0 + j / (32 / ew), j % (32 / ew))
  | _ => (v.row0 + i / (32 / ew), v.col0 + i / (32 / ew), i % (32 / ew))

/-- The bits of element i of a shape at a width (R64, R65). -/
def elemGet (v : Shape) (ew i : Nat) (s : State) : Nat :=
  let (r, c, sub) := place v ew i
  if ew = 64 then (readCell r c s).toNat + 2 ^ 32 * (readCell r (c + 1) s).toNat
  else (readCell r c s).toNat / 2 ^ (ew * sub) % 2 ^ ew

/-- A cell with the bits of one sub-element replaced. -/
def cellPut (old : Cell32) (ew sub v : Nat) : Cell32 :=
  let n := old.toNat
  let lo := n % 2 ^ (ew * sub)
  let hi := n / 2 ^ (ew * sub + ew)
  .ofNat 32 (lo + 2 ^ (ew * sub) * (v % 2 ^ ew) + 2 ^ (ew * sub + ew) * hi)

/-- Write element i of a shape: only that element's bits change (R8). -/
def elemSet (v : Shape) (ew i x : Nat) (s : State) : State :=
  let (r, c, sub) := place v ew i
  if ew = 64 then writeCell r (c + 1) (.ofNat 32 (x / 2 ^ 32)) (writeCell r c (.ofNat 32 x) s)
  else writeCell r c (cellPut (readCell r c s) ew sub x) s

/-- The rows and columns a shape's box covers: first row, rows, first column, columns (R85). -/
def Shape.box (v : Shape) : Nat × Nat × Nat × Nat :=
  match v.kind with
  | 1 => (v.row0, v.h, v.col0, v.w)
  | 2 => (v.row0, v.h, v.col0, v.h)
  | _ => (0, 0, 0, 0)

/-- Two boxes intersect. -/
def boxesMeet (a b : Nat × Nat × Nat × Nat) : Bool :=
  decide (a.1 < b.1 + b.2.1) && decide (b.1 < a.1 + a.2.1)
    && decide (a.2.2.1 < b.2.2.1 + b.2.2.2) && decide (b.2.2.1 < a.2.2.1 + a.2.2.2)

/-- Identical geometry (R89). -/
def sameGeometry (a b : Shape) : Bool :=
  a.kind == b.kind && a.colMajor == b.colMajor && a.row0 == b.row0 && a.col0 == b.col0 && a.h == b.h
    && (a.kind != 1 || a.w == b.w)

/-- The state of a plane band: 0 OFF, 1 RETAIN, 2 ON (R90). -/
def bandState (pwr : BitVec 16) (b : Nat) : Nat := pwr.toNat / 4 ^ b % 4

/-- Some cell of the shape lies in a band that is OFF (R91). -/
def shapeGated (pwr : BitVec 16) (v : Shape) : Bool :=
  v.kind != 0 && (List.range 8).any (fun b =>
    bandState pwr b == 0 && decide (v.row0 < 64 * b + 64) && decide (64 * b < v.row0 + v.h))

/-- The power register after an access to elements of a shape: a band in RETAIN that holds one of them goes ON (R91). -/
def wakeBands (pwr : BitVec 16) (v : Shape) (ew : Nat) (elems : List Nat) : BitVec 16 :=
  .ofNat 16 ((List.range 8).foldl (fun acc b =>
    let st := bandState pwr b
    acc + 4 ^ b * (if st = 1 ∧ v.kind ≠ 0 ∧ elems.any (fun e => (place v ew e).1 / 64 == b) then 2 else st)) 0)

/-- Elements of a shape, walked at a width, that an instruction accesses. -/
structure Access where
  shape : Nat
  ew : Nat
  elems : List Nat
  deriving DecidableEq, Repr, Inhabited

/-- The power register after accesses. -/
def wakeAll (l : List Access) (pwr : BitVec 16) (s : State) : BitVec 16 :=
  if (List.range 8).any (fun b => bandState pwr b == 1) then
    l.foldl (fun p x => wakeBands p (shapeAt x.shape s) x.ew x.elems) pwr
  else pwr

/-- The elements of a list that are active under a mask. -/
def activeOf (m : Nat) (l : List Nat) (s : State) : List Nat := l.filter (fun e => maskBit m e s)

/-- The elements below VL. -/
def State.elems (s : State) : List Nat := List.range s.vl

/-! ## E2M1x (R96, R97) -/

/-- The magnitude of an E2M1 code in halves of a block unit. -/
def e2m1Halves (code : Nat) : Nat :=
  match code % 8 with
  | 0 => 0 | 1 => 1 | 2 => 2 | 3 => 3 | 4 => 4 | 5 => 6 | 6 => 8 | _ => 12

/-- A value times the block scale SC; 0xFF is NaN. -/
def blockScale (sc : Nat) (x : FVal) : FVal := if sc = 0xFF then .nan false else scaleVal x ((sc : Int) - 127)

/-- A value with a zero's sign dropped. -/
def plusZero (x : FVal) : FVal :=
  match x with
  | .fin _ 0 e => .fin false 0 e
  | y => y

/-- The value of an E2M1 code under a metadata word. Zero decodes as +0, the block's extra value too (R97). -/
def e2m1Val (code word : Nat) : FVal :=
  let sc := word % 256
  if code % 16 = 8 then blockScale sc (plusZero (e4m3.decode (word / 256 % 256)))
  else blockScale sc (.fin (decide (8 ≤ code % 16)) (e2m1Halves code) (-1))

/-! ## The values of elements -/

/-- The value of the bits of a type other than E2M1x. -/
def typeVal (t raw : Nat) : FVal := if isI t then .ofInt ((intTyOf t).value raw) else (fmtOf t).decode raw

/-- A value converted to a type other than E2M1x, under VTYPE's rounding (R99, R100). DEDUCED: log entry 20. -/
def convertTo (t rm : Nat) (sat : Bool) (x : FVal) : Nat × FlagSet :=
  if isI t then floatToInt (intTyOf t) rm x
  else
    let (raw, fl) := roundTo (fmtOf t) rm sat x
    (raw, fl ||| flagIf x.isSnan flagNV)

/-- The value of element i of a shape under a type; an E2M1x element takes its metadata from element i / 32 of v63,
walked as 16-bit elements (R92, R97). -/
def elemVal (v : Shape) (t i : Nat) (s : State) : FVal :=
  let raw := elemGet v (ewOf t) i s
  if isE2 t then e2m1Val raw (elemGet (shapeAt 63 s) 16 (i / 32) s) else typeVal t raw

/-! ## Conversion of a block into E2M1x (R98), and of a block into a scaled FP8 (R130) -/

/-- |x| > c/4 for an exact value. -/
def aboveQuarter (x : FVal) (c : Nat) : Bool :=
  match x with
  | .fin _ m e => cmpVal (.fin false m e) (.fin false c (-2)) == 2
  | .inf _ => true
  | .nan _ => false

/-- The code other than 0b1000 whose value is nearest, the lower code on a tie. -/
def nearestE2m1 (x : FVal) : Nat :=
  let n := ([1, 3, 5, 7, 10, 14, 20].filter (aboveQuarter x)).length
  if n = 0 then 0 else n + (if x.isNeg then 8 else 0)

/-- The participating element of greatest magnitude: its index, the lowest on a tie, and its value. -/
def blockMax : List (Nat × FVal) → Option (Nat × FVal)
  | [] => none
  | (t, x) :: l =>
    match blockMax l with
    | none => some (t, x)
    | some (u, y) =>
      let ax := if x.isNeg then x.neg else x
      let ay := if y.isNeg then y.neg else y
      if cmpVal ax ay = 0 then some (u, y) else some (t, x)

/-- floor(log2 |x|) of a non-zero finite value. -/
def floorLog2 (x : FVal) : Int :=
  match x with
  | .fin _ m e => e + (Nat.log2 m : Int)
  | _ => 0

/-- sat(n, 0, 254). -/
def satScale (n : Int) : Nat := if n < 0 then 0 else if 254 < n then 254 else n.toNat

/-- to_e2m1x of R98 over the participating elements of a block, in rising order of index; the flags of the block as a whole
and of its X stand at every element, so that a run that begins inside the block raises them (05_convoy.md R130). Where SC is held at 254 and X
overflows E4M3, which of the rows of R99 it takes is left open. DESIGN CHOICE: log entry 75. -/
def toE2m1x (l : List (Nat × FVal)) : Block :=
  if l.any (fun p => p.2.isNan || p.2.isInf) then
    ⟨0x7FFF, l.map (fun p => (p.1, 0, flagNV))⟩
  else match blockMax l with
    | none => ⟨0x007F, []⟩
    | some (m, x) =>
      if x.isZero then ⟨0x007F, l.map (fun p => (p.1, 0, 0))⟩
      else
        let sc := satScale (floorLog2 x - 2 + 127)
        let scaled := fun (y : FVal) => scaleVal y (127 - (sc : Int))
        let (xv, fx) := roundTo e4m3 rmNearest Config.blockSat (scaled x)
        ⟨256 * xv + sc, l.map (fun p =>
          if p.1 = m then (p.1, 8, fx)
          else
            let y := scaled p.2
            let c := nearestE2m1 y
            let back : FVal := .fin (decide (8 ≤ c)) (e2m1Halves c) (-1)
            (p.1, c, fx ||| flagIf (cmpVal back y != 1) flagNX ||| flagIf (!y.isZero && c == 0) flagUF))⟩

/-- The scaled conversion of a block into an FP8 type (R130). -/
def toScaledFp8 (t rm : Nat) (sat : Bool) (l : List (Nat × FVal)) : Block :=
  let f := fmtOf t
  if l.any (fun p => p.2.isNan || p.2.isInf) then
    ⟨0xFF, l.map (fun p => (p.1, f.nanRaw, flagNV))⟩
  else match blockMax l with
    | none => ⟨127, []⟩
    | some (_, x) =>
      if x.isZero then ⟨127, l.map (fun p => (p.1, 0, 0))⟩
      else
        let sc := satScale (floorLog2 x - (if t = 3 then 8 else 15) + 127)
        ⟨sc, l.map (fun p =>
          let (raw, fl) := roundTo f rm sat (scaleVal p.2 (127 - (sc : Int)))
          (p.1, raw, fl))⟩

/-- The write-back of an FP32 slab value before its one conversion: scaled and clipped, exactly (R110). A NaN bound, a
signaling one too, sets no flag. DESIGN CHOICE: log entry 78. -/
def writebackVal (a e bound : Nat) : FVal × FlagSet :=
  let x := fp32.decode a
  if e = 0xFF then (.nan false, flagNV)
  else
    let y := scaleVal x ((e : Int) - 127)
    let b := fp32.decode bound
    let mag := if b.isNeg then b.neg else b
    let ay := if y.isNeg then y.neg else y
    if y.isNan then (y, flagIf y.isSnan flagNV)
    else if b.isNan || cmpVal ay mag != 2 then (y, 0)
    else (if y.isNeg then mag.neg else mag, flagSAT)

end Sys2Proof.Machine
end

