-- ==== Sys2Proof/Machine/Cluster.lean ====
section
/-! DEFINITION. The stream controller (14_cluster.md): posts to eq and cq, timelines, launch layouts, and the life of a
task from its placement to its end. -/

namespace Sys2Proof.Machine

/-! ## Parts of the machine by number -/

def State.modCoreAt (c : Nat) (f : Core → Core) (s : State) : State := s.setCoreAt c (f (s.coreAt c))
def State.modClusterAt (l : Nat) (f : Cluster → Cluster) (s : State) : State := s.setClusterAt l (f (s.clusterAt l))
def State.modDieAt (d : Nat) (f : Die → Die) (s : State) : State := s.setDieAt d (f (s.dieAt d))

/-- The context save slot of a core (08_core_steering.md R207). -/
def slotKey (core : Nat) : Nat := dieKey (dieOf core) (0x6000000 + 0x40000 * (core % 384))

/-- Memory with a range of keys emptied: its bytes read as zero, and its granules hold no error (09_core_memory.md R229). -/
def clearMem (lo n : Nat) (s : State) : State :=
  { s with
    mem := s.mem.filter (fun p => !(decide (lo ≤ p.1) && decide (p.1 < lo + n)))
    poison := s.poison.filter (fun g => !(decide (lo ≤ g) && decide (g + 8 ≤ lo + n))) }

/-- Copy a range of bytes that does not overlap its destination. -/
def copyMem (src dst n : Nat) (s : State) : State :=
  (s.mem.filter (fun p => decide (src ≤ p.1) && decide (p.1 < src + n))).foldl
    (fun t p => writeByte (dst + (p.1 - src)) p.2 t) (clearMem dst n s)

/-- A cluster stands still while it or its die is frozen (18_package.md R390). -/
def State.frozenAt (s : State) (l : Nat) : Bool := (s.clusterAt l).frozen || (s.dieAt (dieOfCluster l)).frozen

/-! ## Timelines (09_core_memory.md R235, R236) -/

/-- The context that a handle names, by the upper half of the handle. -/
def ctxKey (handle : Word) : Nat := handle.toNat / 2 ^ 32

/-- The class of a handle. -/
def handleClass (h : Word) : Nat := h.toNat / 2 ^ 60

/-- A handle names a context (R235; 16 R341, R361; 19 R402; 14 R303). -/
def handleOk (h : Word) : Bool :=
  let n := h.toNat
  let die := n / 2 ^ 48 % 256
  let unit := n / 2 ^ 40 % 256
  let ctx := n / 2 ^ 32 % 256
  n / 2 ^ 56 % 16 == 0 && n % 2 ^ 32 == 0 &&
    match handleClass h with
    | 1 => decide (die ≤ 5) && decide (unit ≤ 15) && decide (ctx ≤ 7)
    | 2 => (die == 6 || die == 7) && decide (unit ≤ 15) && decide (ctx ≤ 3)
    | 3 => (die == 6 || die == 7) && unit == 0 && decide (ctx ≤ 7)
    | 4 => decide (die ≤ 5) && decide (unit ≤ 3) && decide (ctx ≤ 15)
    | _ => false

/-- The handle of a launch context of a cluster (R303). -/
def launchHandle (cluster ctx : Nat) : Word :=
  .ofNat 64 (4 * 2 ^ 60 + cluster / 4 * 2 ^ 48 + cluster % 4 * 2 ^ 40 + ctx * 2 ^ 32)

/-- A context of the package. -/
def State.context (s : State) (key : Nat) : Context := poolGet .reset s.pkg.contexts key

/-- The package with a context changed. -/
def State.modContext (key : Nat) (f : Context → Context) (s : State) : State :=
  s.modPkg (fun p => { p with contexts := poolSet p.contexts key (f (poolGet .reset p.contexts key)) })

/-- COUNT advanced across the unbroken run of successes among the finished commands (R236). -/
def runOfSuccesses (finished : List (Nat × BitVec 8)) : Nat → Nat → Nat
  | 0, n => n
  | fuel + 1, n => if finished.any (fun p => p.1 == n + 1 && p.2 == 0) then runOfSuccesses finished fuel (n + 1) else n

/-- A command of a context finishes, with an error code or 0 (R236, R351). -/
def Context.finish (num : Nat) (err : BitVec 8) (c : Context) : Context :=
  let fin := c.finished ++ [(num, err)]
  let n := runOfSuccesses fin fin.length c.count.toNat
  let rest := c.cmds.filter (fun m => decide (m.num ≠ num))
  { c with
    cmds := rest
    undo := c.undo.filter (fun u => rest.any (fun m => decide (m.since ≤ u.1)))
    count := .ofNat 64 n
    finished := fin.filter (fun p => decide (n < p.1))
    failed := c.failed || err != 0
    err := if c.failed then c.err else err }

/-- The command COUNT + 1 of a context has failed and every one below it has succeeded. -/
def Context.stoppedAt (c : Context) : Bool := c.finished.any (fun p => p.1 == c.count.toNat + 1 && p.2 != 0)

/-- A command of a lower number than this has failed. -/
def Context.failedBelow (num : Nat) (c : Context) : Bool := c.finished.any (fun p => p.2 != 0 && decide (p.1 < num))

/-- A wait for COUNT to reach a number is over (R237, R304): 1 reached, 0 failed, none neither. -/
def Context.settled (c : Context) (want : Word) : Option Bool :=
  if want.toNat ≤ c.count.toNat then some true
  else if c.failed && c.stoppedAt then some false
  else none

/-- The status word (R236). -/
def Context.status (c : Context) : Word :=
  .ofNat 64 ((if c.failed then 2 ^ 63 else 0) + c.err.toNat * 2 ^ 48)

/-! ## Launch layouts (01_levels.md R17 to R20, R23) -/

/-- The widths W0 to W5 of a layout. -/
def layoutWidths (layout : Word) : List Nat := (List.range 6).map (fun j => layout.toNat / 2 ^ (7 * j) % 128)

/-- The extents, from the WID of the last task. -/
def extentsOf : List Nat → Nat → List Nat
  | [], _ => []
  | w :: ws, m => (m % 2 ^ w + 1) :: extentsOf ws (m / 2 ^ w)

/-- The product of a list. -/
def product (l : List Nat) : Nat := l.foldl (· * ·) 1

/-- The WID of task n in enumeration order. -/
def packWid : List Nat → List Nat → Nat → Nat
  | w :: ws, e :: es, n => n % e + 2 ^ w * packWid ws es (n / e)
  | _, _, _ => 0

def LaunchBlock.widths (b : LaunchBlock) : List Nat := layoutWidths b.widlayout
def LaunchBlock.extents (b : LaunchBlock) : List Nat := extentsOf b.widths b.widmax.toNat
def LaunchBlock.clv (b : LaunchBlock) : Nat := b.widlayout.toNat / 2 ^ 42 % 8
def LaunchBlock.glv (b : LaunchBlock) : Nat := b.widlayout.toNat / 2 ^ 45 % 8
def LaunchBlock.bsc (b : LaunchBlock) : Nat := b.widlayout.toNat / 2 ^ 48 % 8
/-- The tasks of a level-n group. -/
def LaunchBlock.levelSize (b : LaunchBlock) (n : Nat) : Nat := product (b.extents.take n)
def LaunchBlock.total (b : LaunchBlock) : Nat := product b.extents
/-- The tasks of a gang-level group. -/
def LaunchBlock.gang (b : LaunchBlock) : Nat := b.levelSize b.glv
/-- The gang-level groups of the launch. -/
def LaunchBlock.groups (b : LaunchBlock) : Nat := b.total / b.gang
/-- The gang-level groups of a share (R314). -/
def LaunchBlock.shareGroups (b : LaunchBlock) : Nat := if b.clv = 7 then 1 else b.levelSize b.clv / b.gang
def LaunchBlock.widOf (b : LaunchBlock) (n : Nat) : Word := .ofNat 64 (packWid b.widths b.extents n)
def LaunchBlock.preempt (b : LaunchBlock) : Bool := b.flags.getLsbD 0
def LaunchBlock.feed (b : LaunchBlock) : Bool := b.flags.getLsbD 1

/-! ## Events into eq (08_core_steering.md R182, R209) -/

/-- Events that wait for room enter eq while there is any. -/
def Queues.settle (q : Queues) : Queues :=
  let room := 16 - q.eq.length
  { q with eq := q.eq ++ q.posts.take room, posts := q.posts.drop room }

/-- An event is posted to eq. -/
def Queues.post (ev : Word) (q : Queues) : Queues := { q with posts := q.posts ++ [ev] }.settle

/-- The task of a serial, and its cluster. -/
def State.findTask (s : State) (serial : Nat) : Option (Nat × GangTask) :=
  (List.range 24).findSome? (fun l =>
    ((s.clusterAt l).groups.findSome? (fun g => g.tasks.find? (fun t => t.serial == serial))).map (fun t => (l, t)))

/-- The bytes of memory that a physical address leads to. -/
def paKey (s : State) (pa : Nat) : Option Nat :=
  match paLoc s pa with
  | .mem key _ => some key
  | _ => none

/-- A GLOB address under the tables of a control core: the stream controller's own accesses (R297, R312). The firmware's
tables map each physical address at the same GLOB address (18_package.md R372). -/
def globKey (s : State) (direct : Bool) (ptroot : Word) (va : Nat) : Option Nat :=
  if direct then paKey s va
  else match tableWalk s ptroot va with
    | .leaf e bits => paKey s (e.toNat / 2 ^ 16 % 2 ^ 41 * 2 ^ 16 / 2 ^ bits * 2 ^ bits + va % 2 ^ bits)
    | .fault _ => none

/-- Byte `off` of the image in a parking slot (R312). -/
def parkKey (s : State) (l slot off : Nat) : Option Nat :=
  let c := s.clusterAt l
  globKey s c.dispatch.isSome c.ctl.ptroot (c.cparkBase.toNat + 0x80000 * slot + off)

/-- The task's state stands in its core's save slot, the core not having restored it yet. -/
def GangTask.inSlot (s : State) (t : GangTask) : Bool :=
  t.place == .saved || (t.place == .running && (s.coreAt t.core).run == .restoring)

/-- A task that is parked. -/
def GangTask.isParked (t : GangTask) : Bool :=
  match t.place with
  | .parked _ => true
  | _ => false

/-- Byte `off` of the context of a task that is saved or parked. -/
def savedKey (s : State) (l : Nat) (t : GangTask) (off : Nat) : Option Nat :=
  match t.place with
  | .parked j => parkKey s l j off
  | _ => some (slotKey t.core + off)

/-- An event for a saved task: it enters the saved eq, or waits there (R209), as it does while the die store that holds the
saved eq is frozen (18_package.md R390). -/
def postSaved (l : Nat) (t : GangTask) (ev : Word) (s : State) : State :=
  let wait := s.modClusterAt l (fun c => { c with eqPosts := c.eqPosts ++ [(t.serial, ev)] })
  if !t.isParked && (s.dieAt (dieOfCluster l)).frozen then wait
  else match savedKey s l t 0x32643 with
  | none => wait
  | some k =>
    let n := readMem s k 1
    match savedKey s l t (0x32480 + 8 * n) with
    | some e =>
      if n < 16 ∧ (s.clusterAt l).eqPosts.all (fun p => p.1 != t.serial) then
        writeMem k 1 (n + 1) (writeMem e 8 ev.toNat s)
      else wait
    | none => wait

/-- An event for a task: to its core's eq, to its saved eq, or to none when it has ended (R186, R191, R209); a frozen
cluster takes it when it thaws (18_package.md R390). -/
def postTask (serial : Nat) (ev : Word) (s : State) : State :=
  match s.findTask serial with
  | none => s
  | some (l, t) =>
    if t.inSlot s then postSaved l t ev s
    else match t.place with
    | .running => s.modCoreAt t.core (fun c => { c with
        q := if s.frozenAt l then { c.q with posts := c.q.posts ++ [ev] } else c.q.post ev })
    | .parked _ => postSaved l t ev s
    | _ => s

/-! ## Messages into cq (R293; 18_package.md R374) -/

/-- Messages that wait enter cq while it has room for four words: the cq, and those that still wait. -/
def settleCq : List Word → List (List Word) → List Word × List (List Word)
  | cq, [] => (cq, [])
  | cq, m :: ms => if cq.length + 4 ≤ 64 then settleCq (cq ++ m) ms else (cq, m :: ms)

/-- The KIND of a message. -/
def msgKind (m : List Word) : Nat := (m.headD 0).toNat / 2 ^ 56

/-- Signal an MSI-X vector. -/
def signalMsix (v : Nat) (s : State) : State := s.modPkg (fun p => { p with msix := p.msix ||| .ofNat 4 (2 ^ v) })

/-- A cluster's bit of ERRSTAT, with MSI-X vector 0. -/
def reportCluster (l : Nat) (s : State) : State :=
  signalMsix 0 (s.modPkg (fun p => { p with clerr := p.clerr ||| .ofNat 24 (2 ^ l) }))

/-- Let waiting messages into the cq of a cluster. -/
def cqSettle (l : Nat) (s : State) : State :=
  s.modClusterAt l (fun c => { c with cq := (settleCq c.cq c.cqPosts).1, cqPosts := (settleCq c.cq c.cqPosts).2 })

/-- Post a message to a cluster's cq; a frozen cluster takes it when it thaws (18_package.md R390). -/
def cqPost (l : Nat) (m : List Word) (s : State) : State :=
  let t := s.modClusterAt l (fun c => { c with cqPosts := c.cqPosts ++ [m] })
  if s.frozenAt l then t else cqSettle l t

/-! ## The scoreboard (R302 to R304) -/

/-- An entry of a cluster's scoreboard, absent when the index is free. -/
def Cluster.entry? (c : Cluster) (i : Nat) : Option Entry := (c.entries.find? (fun p => p.1 == i)).map (·.2)

/-- The entry changed. -/
def Cluster.modEntry (i : Nat) (f : Entry → Entry) (c : Cluster) : Cluster :=
  { c with entries := c.entries.map (fun p => if p.1 = i then (p.1, f p.2) else p) }

/-- The entry freed. -/
def Cluster.freeEntry (i : Nat) (c : Cluster) : Cluster :=
  { c with entries := c.entries.filter (fun p => decide (p.1 ≠ i)) }

/-- The lowest free index. -/
def Cluster.freeIndex (c : Cluster) : Option Nat := (List.range 64).find? (fun i => (c.entry? i).isNone)

/-- A new entry takes an index; the entries stand in order of age, oldest first. -/
def Cluster.addEntry (i : Nat) (e : Entry) (c : Cluster) : Cluster :=
  { c with entries := c.entries.filter (fun p => decide (p.2.age ≤ e.age)) ++ [(i, e)]
      ++ c.entries.filter (fun p => decide (e.age < p.2.age)) }

/-! ## The states of entries (R304) -/

/-- A stream entry. -/
def Entry.isStream (e : Entry) : Bool := e.kind == .streamIn || e.kind == .streamOut

/-- Some kernel entry that is not DONE names a stream. -/
def streamNamed (c : Cluster) (i : Nat) : Bool := c.entries.any (fun p => p.2.kind == .kernel && p.2.streams.contains i)

/-- A live task that is saved. -/
def GangTask.isSaved (t : GangTask) : Bool :=
  match t.place with
  | .saved => true
  | .parked _ => true
  | _ => false

/-- A task that has neither ended nor been abandoned. -/
def GangTask.live (t : GangTask) : Bool :=
  match t.place with
  | .ended => false
  | .abandoned _ => false
  | _ => true

/-- A group whose live tasks are all saved, and which therefore stands with its entry again (R304, R311). -/
def PlacedGroup.isSaved (g : PlacedGroup) : Bool :=
  g.tasks.any GangTask.isSaved && g.tasks.all (fun t => !t.live || t.isSaved)

/-- The end of the groups that an entry places in all: of a feed launch, one for each crossing that it takes. -/
def Entry.lastGroup (e : Entry) : Nat := if e.kind == .kernel && e.block.feed then e.block.total else e.upTo

/-- Groups of an entry are still to be placed in its cluster. -/
def Cluster.issues (c : Cluster) (i : Nat) (e : Entry) : Bool :=
  decide (e.next < e.lastGroup) || c.groups.any (fun g => g.entry == i && g.isSaved)

/-- What the stream controller's state of an entry is. A kernel entry with shares follows the proxies of all of them. -/
def Cluster.entryState (c : Cluster) (i : Nat) (e : Entry) : EntryState :=
  match e.kind, e.st with
  | .streamOut, .waiting => if streamNamed c e.target then .waiting else .ready
  | .kernel, .issuing | .kernel, .running =>
    if e.block.cmask ≠ 0 then e.st else if c.issues i e then .issuing else .running
  | .proxy, .issuing | .proxy, .running => if c.issues i e then .issuing else .running
  | _, st => st

/-- The stream pump, when it has no copy in hand, starts the oldest stream entry that is READY (R297), also where an older
stream-out still waits. DESIGN CHOICE: log entry 89. -/
def Cluster.startPump (c : Cluster) : Cluster :=
  if c.entries.any (fun p => p.2.isStream && p.2.st == .running) then c
  else match c.entries.find? (fun p => p.2.isStream && p.2.st == .ready) with
    | some p => c.modEntry p.1 (fun e => { e with st := .running })
    | none => c

/-- The state of every entry as its row of R304 has it now. -/
def Cluster.refresh (c : Cluster) : Cluster :=
  Cluster.startPump { c with entries := c.entries.map (fun p => (p.1, { p.2 with st := c.entryState p.1 p.2 })) }

/-- The context of an entry of a cluster. -/
def entryCtx (l : Nat) (e : Entry) : Nat := ctxKey (launchHandle l e.ctx)

/-- A kernel or stream entry of its home cluster is DONE with an error code or 0: its context records it, and it is
freed, but a stream-in entry, which stays until it is released (R303, R304, R318). -/
def entryDone (l i : Nat) (err : BitVec 8) (s : State) : State :=
  match (s.clusterAt l).entry? i with
  | none => s
  | some e =>
    let s := s.modContext (entryCtx l e) (Context.finish e.num err)
    s.modClusterAt l (fun c =>
      Cluster.refresh (match e.kind with
      | .streamIn => c.modEntry i (fun e => { e with st := .done, err := err })
      | .streamOut => (c.freeEntry i).freeEntry e.target
      | _ =>
        let c := c.freeEntry i
        { c with feeds := c.feeds.map (fun p =>
            if p.2.attached = some i then (p.1, { p.2 with attached := none }) else p) }))

/-! ## Groups and their tasks -/

/-- The group with the barriers freed of every barrier group whose tasks have all ended (R315). -/
def PlacedGroup.freeBars (g : PlacedGroup) : PlacedGroup :=
  { g with bars := (List.range g.bars.length).map (fun i =>
      if ((g.tasks.drop (i * g.perBar)).take g.perBar).all (fun t => !t.live) then none
      else g.bars.getD i none) }

/-- The groups with a task's place changed; a group with no live task is dropped. -/
def placeTask (serial : Nat) (p : TaskPlace) (l : List PlacedGroup) : List PlacedGroup :=
  (l.map (fun g => PlacedGroup.freeBars { g with
    tasks := g.tasks.map (fun t => if t.serial = serial then { t with place := p } else t) })).filter
    (fun g => g.tasks.any GangTask.live)

/-- The group that a task of a cluster belongs to, and its slot. -/
def Cluster.groupOf (c : Cluster) (serial : Nat) : Option (PlacedGroup × Nat) :=
  c.groups.findSome? (fun g => (g.tasks.findIdx? (fun t => t.serial == serial)).map (fun i => (g, i)))

/-- The home of the entry of a group: cluster and index. -/
def homeOf (l i : Nat) (c : Cluster) : Nat × Nat :=
  match c.entry? i with
  | some e => if e.kind = .proxy then e.home else (l, i)
  | none => (l, i)

/-- The home of an entry of a cluster still holds the entry it stands for: a reset of the home leaves none. -/
def homeHolds (s : State) (l i : Nat) : Bool :=
  let (hl, hi) := homeOf l i (s.clusterAt l)
  match (s.clusterAt l).entry? i, (s.clusterAt hl).entry? hi with
  | some e, some h => e.age == h.age
  | _, _ => false

/-- A share of an entry has groups that are still to be placed (R304, R314). -/
def shareIssues (s : State) (l i : Nat) : Bool :=
  (List.range 24).any (fun k => (s.clusterAt k).entries.any (fun p =>
    p.2.kind == .proxy && p.2.home == (l, i) && homeHolds s k p.1 && (s.clusterAt k).issues p.1 p.2))

/-- The state of a kernel entry that runs in shares: RUNNING once the last group of its last share is placed and no group
is saved (R304); a frozen cluster's follows when it thaws (18_package.md R390). -/
def refreshHome (l i : Nat) (s : State) : State :=
  if s.frozenAt l then s
  else s.modClusterAt l (·.modEntry i (fun e =>
    if e.kind = .kernel ∧ e.block.cmask ≠ 0 ∧ (e.st = .issuing ∨ e.st = .running) then
      { e with st := if e.next < e.upTo || shareIssues s l i then .issuing else .running }
    else e))

/-- The states of the entries of a cluster, and of the homes of its shares. -/
def refreshEntries (l : Nat) (s : State) : State :=
  let t := s.modClusterAt l Cluster.refresh
  (t.clusterAt l).entries.foldl (fun u p => if p.2.kind = .proxy then refreshHome p.2.home.1 p.2.home.2 u else u)
    ((t.clusterAt l).entries.foldl (fun u p => refreshHome l p.1 u) t)

/-- A task's place changes. -/
def State.placeTask (l serial : Nat) (p : TaskPlace) (s : State) : State :=
  refreshEntries l (s.modClusterAt l (fun c => { c with groups := Machine.placeTask serial p c.groups }))

/-- The number of a task of a group in enumeration order. -/
def PlacedGroup.taskNumber (g : PlacedGroup) (slot : Nat) : Nat := g.index * g.tasks.length + slot

/-- A proxy counts a task that ended or was abandoned; it is DONE at the share's task count, and freed (R304). -/
def proxyCount (l i : Nat) (s : State) : State :=
  match (s.clusterAt l).entry? i with
  | none => s
  | some e =>
    if e.kind = .proxy then
      s.modClusterAt l (fun c =>
        if e.upTo ≤ e.next ∧ !(c.groups.any (fun g => g.entry == i)) then c.freeEntry i else c)
    else s

/-! ## The core between tasks -/

/-- A core with no task: its settings stay (R199, R207), and a debugger's attachment, also over a cluster reset
(07_prog_alias.md R166); everything else is as task issue sets it. DESIGN CHOICE: log entry 87. -/
def Core.clear (c : Core) : Core :=
  { Core.reset with
    half := c.half
    halfNext := c.halfNext
    steer := { Steer.reset with
      attached := c.steer.attached, sbkpt := c.steer.sbkpt, sdbg := c.steer.sdbg, tvec := c.steer.tvec, htbase := c.steer.htbase
      htlen := c.steer.htlen }
    conv := { Conv.reset with vskew := c.conv.vskew, cbkpt := c.conv.cbkpt, cdbg := c.conv.cdbg }
    trace := c.trace
    tlbS := c.tlbS
    tlbV := c.tlbV }

/-- The core lets go of its task, disables its matrix unit (R315) and clears its TCM (03_plane.md R80). Its registers stay
as the task leaves them, until another task is issued (17_prog_kvdecode.md R367). -/
def releaseCore (core : Nat) (s : State) : State :=
  s.modCoreAt core (fun c => { c with
    run := .clearing
    halfNext := false
    preq := false
    steer := { c.steer with outs := [], failedStore := none, expired := false, stepped := false, stopped := false }
    q := .reset
    mat := { c.mat with en := false, acc := [] }
    conv := { c.conv with
      forming := [], flight := none, parked := [], trapDue := none, failedStore := none, stored := [], missed := [], missEntry := 0
      expired := false, block := none, wrote := none }
    gang := { c.gang with armed := false, shares := [] } })

/-- PLANEPWR from FRAME (R80). -/
def framePower (frame : Nat) : BitVec 16 :=
  .ofNat 16 ((List.range 8).foldl (fun acc b => acc + 4 ^ b * (if frame = 0 ∨ 64 * b < frame then 2 else 0)) 0)

/-- The core as the stream controller loads it for a task (R313; 08_core_steering.md R167). -/
def Core.issue (c : Core) (cl : Cluster) (b : LaunchBlock) (t : Task) (overdue : Bool) : Core :=
  let c0 := c.clear
  { c0 with
    run := .running
    half := cl.half || overdue
    halfNext := cl.half || overdue
    task := t
    steer := { c0.steer with
      pc := b.entry
      tvec := cl.chentry
      htbase := cl.chtbase
      htlen := cl.chtlen
      ptroot := b.ptroot &&& 0x1FFFFFFFFE0FFFF }
    conv := { c0.conv with planepwr := framePower b.frame.toNat } }

/-! ## The end of a task -/

/-- An event of KIND 0x04 for an abandoned slot (R329, R330). -/
def abandonEvent (code : BitVec 8) (slot : Nat) : Word :=
  .ofNat 64 (4 * 2 ^ 56 + code.toNat * 2 ^ 48 + 2 ^ 47 + slot % 128 * 2 ^ 40)

/-- The saved arm of a task that is not on a core, when it names a slot: it is withdrawn. -/
def withdrawSaved (l : Nat) (t : GangTask) (slot : Nat) (s : State) : State :=
  match savedKey s l t (0x32680 + 8 * 0x072) with
  | none => s
  | some k =>
    let a := readMem s k 4
    if a % 2 = 1 ∧ a / 2 ^ 16 % 128 = slot then writeMem k 4 (a - 1) s else s

/-- The other members of an abandoned task's group are told, and their arms that name its slot are withdrawn
(R306, R330). -/
def tellGang (l : Nat) (g : PlacedGroup) (slot : Nat) (code : BitVec 8) (s : State) : State :=
  (g.tasks.filter (fun t => t.live)).foldl (fun s t =>
    let s := postTask t.serial (abandonEvent code slot) s
    if t.place = .running ∧ t.inSlot s = false then s.modCoreAt t.core (fun c =>
      if c.gang.armed ∧ c.gang.armIslot.toNat = slot then { c with gang := { c.gang with armed := false } } else c)
    else withdrawSaved l t slot s) s

/-- The place of a task on a core: its cluster's group and the slot. -/
def State.taskOf (s : State) (core : Nat) : Option (PlacedGroup × Nat) :=
  (s.clusterAt (clusterOf core)).groupOf (s.coreAt core).task.serial

/-- A task on a core has ended: the core is freed, its barriers with its group's, and the home is told (R191, R305,
R315). -/
def endTaskOn (core : Nat) (aborted : Bool) (s : State) : State :=
  let l := clusterOf core
  match s.taskOf core with
  | none => releaseCore core s
  | some (g, slot) =>
    let (hl, hi) := homeOf l g.entry (s.clusterAt l)
    let held := homeHolds s l g.entry
    let s := endWatch (ladderWatch (s.coreAt core).task.serial) (s.placeTask l (s.coreAt core).task.serial .ended)
    let s := releaseCore core s
    let s := if held then s.modClusterAt hl (fun c => { c with
      reports := c.reports ++ [{ entry := hi, task := g.taskNumber slot, aborted := aborted }] }) else s
    proxyCount l g.entry s

/-- A kernel entry is DONE when its reports and its abandoned tasks equal its task total (R303, R305). -/
def kernelCount (l i : Nat) (s : State) : State :=
  match (s.clusterAt l).entry? i with
  | none => s
  | some e =>
    if e.ended + e.abandoned = e.block.total then
      entryDone l i (if e.abandoned ≠ 0 then 1 else if e.aborted then 2 else 0) s
    else s

/-- Tasks of an entry have been abandoned: its stream controller counts them, once it is not frozen (R306; 18_package.md
R390). -/
def countLost (l i n : Nat) (s : State) : State :=
  if s.frozenAt l then s.modClusterAt l (fun c => { c with lost := c.lost ++ [(i, n)] })
  else kernelCount l i (s.modClusterAt l (·.modEntry i (fun e => { e with abandoned := e.abandoned + n })))

/-- A cluster that thaws counts the abandoned tasks that it has been told of, and its shares' states reach its entries. -/
def settleLost (l : Nat) (s : State) : State :=
  refreshEntries l ((s.clusterAt l).lost.foldl (fun t p => countLost l p.1 p.2 t)
    (s.modClusterAt l (fun c => { c with lost := [] })))

/-- The task on a core is abandoned after a double trap (R306). -/
def abandonTask (core : Nat) (d : DoubleTrap) (s : State) : State :=
  let l := clusterOf core
  match s.taskOf core with
  | none => releaseCore core s
  | some (g, slot) =>
    let (hl, hi) := homeOf l g.entry (s.clusterAt l)
    let t := (s.coreAt core).task
    let code : BitVec 8 := .ofNat 8 d.cause.toNat
    let home := if homeHolds s l g.entry then (s.clusterAt hl).entry? hi else none
    let w0 : Word := .ofNat 64 (0x11 * 2 ^ 56 + code.toNat * 2 ^ 48
      + ((home.map (·.ctx)).getD 0) % 16 * 2 ^ 44 + ((home.map (·.num)).getD 0) % 2 ^ 24 * 2 ^ 16 + core % 96)
    let s := endWatch (ladderWatch t.serial) (s.placeTask l t.serial (.abandoned code))
    let s := releaseCore core s
    let s := if g.tasks.length ≤ 1 then s else
      tellGang l { g with tasks := g.tasks.filter (fun u => decide (u.serial ≠ t.serial)) } slot code s
    let s := cqPost hl [w0, d.tval, d.epc.setWidth 64, t.wid] s
    let s := if home.isNone then s else countLost hl hi 1 s
    proxyCount l g.entry s

/-! ## Power (R308) -/

/-- The estimate of a task that runs, mW: half at half lane clock, rounded down. DESIGN CHOICE: log entry 80. -/
def taskUse (s : State) (g : PlacedGroup) (t : GangTask) : Nat :=
  match t.place with
  | .running => if (s.coreAt t.core).half then g.power / 2 else g.power
  | _ => 0

/-- CGRANT.USE: the estimates in use. -/
def clusterUse (s : State) (l : Nat) : Nat :=
  ((s.clusterAt l).groups.map (fun g => (g.tasks.map (taskUse s g)).foldl (· + ·) 0)).foldl (· + ·) 0

/-- The estimates with every task counted in full (18_package.md R378). -/
def clusterFull (s : State) (l : Nat) : Nat :=
  ((s.clusterAt l).groups.map (fun g =>
    g.power * (g.tasks.filter (fun t => decide (t.place = .running))).length)).foldl (· + ·) 0

/-! ## Pre-emption requests (08 R204; 14 R323) -/

/-- A request stands at every core that runs a task of a group. -/
def requestGroup (g : PlacedGroup) (s : State) : State :=
  (g.tasks.filter (fun t => decide (t.place = .running))).foldl (fun s t =>
    s.modCoreAt t.core (fun c => if c.run = .running ∨ c.run = .restoring then { c with preq := true } else c)) s

/-- A request for the task on a core is widened to its gang (R323). -/
def requestCore (core : Nat) (s : State) : State :=
  if (s.coreAt core).run ≠ .running ∧ (s.coreAt core).run ≠ .restoring then s
  else match s.taskOf core with
    | none => s.modCoreAt core (fun c => { c with preq := true })
    | some (g, _) => requestGroup g s

end Sys2Proof.Machine
end

