-- ==== Sys2Proof/Machine/Trace.lean ====
section
/-! DEFINITION. Lantern: the records and frames of a core (05_convoy.md R142 to R145). -/

namespace Sys2Proof.Machine

/-- Bytes of memory from a key upward. -/
def readBytes (s : State) (key n : Nat) : List Byte := (List.range n).map (fun i => readByte s (key + i))

/-- Write bytes from a key upward. -/
def writeBytes (key : Nat) : List Byte → State → State
  | [], s => s
  | b :: l, s => writeBytes (key + 1) l (writeByte key b s)

/-- A number as little-endian bytes. -/
def leBytes : Nat → Nat → List Byte
  | 0, _ => []
  | n + 1, v => .ofNat 8 v :: leBytes n (v / 256)

/-- A delta as groups of 7 bits, lowest first, bit 7 set on all but the last (R144). -/
def deltaBytes (d : Nat) : List Byte :=
  if d < 2 ^ 7 then [.ofNat 8 d]
  else if d < 2 ^ 14 then [.ofNat 8 (128 + d % 128), .ofNat 8 (d / 128)]
  else [.ofNat 8 (128 + d % 128), .ofNat 8 (128 + d / 128 % 128), .ofNat 8 (d / 2 ^ 14)]

/-- The DIE offset at which the next frame of a ring is written. -/
def Trace.place (t : Trace) : Nat := t.ltrbase.toNat + 4096 * t.ptr.toNat

/-- The ring can take a record: it has frames, and the next one lies in the die store (R145).
DESIGN CHOICE: log entry 61. -/
def Trace.takes (t : Trace) : Bool := t.n != 0 && decide (t.place + 4096 ≤ 0xC000000)

/-- The bytes of the open frame of a core (R143). -/
def Trace.bytes (core : Nat) (t : Trace) : List Byte :=
  leBytes 8 t.ts.toNat ++ leBytes 2 (core % 384) ++ leBytes 2 t.seq.toNat ++ leBytes 4 t.frameLost.toNat
    ++ t.frame ++ (if t.frame.length < 4080 then [0xF0] else [])

/-- The open frame of a core closes and is written whole to its ring (R143, R145); the records of a frame that the ring
cannot take are lost. DESIGN CHOICE: log entry 61. -/
def closeFrame (core : Nat) (s : State) : State :=
  let t := (s.coreAt core).trace
  if t.frame = [] then s
  else
    let key := dieKey (dieOf core) t.place
    let s1 := if t.takes then writeBytes key (t.bytes core) (clearMem key 4096 s) else s
    s1.modCoreAt core (fun c => { c with trace :=
      if t.takes then
        { t with frame := [], count := 0, seq := t.seq + 1, ptr := if t.ptr + 1 = t.n then 0 else t.ptr + 1 }
      else { t with frame := [], count := 0, lost := t.lost + t.frameLost + .ofNat 32 t.count, frameLost := 0 } })

/-- A record joins the open frame of the core in focus; when it does not fit, the frame closes first. A frame that opens
takes the records dropped since the frame before it as its LOST. -/
def appendRecord (now : Word) (delta key : Nat) (header : Byte) (head : BitVec 32) (s : State) : State :=
  let full := fun (d : Nat) => if d ≤ 2097151 then ([] : List Byte) else 0x70 :: leBytes 8 now.toNat
  let body := fun (d : Nat) => full d ++ [header] ++ deltaBytes (if d ≤ 2097151 then d else 0) ++ leBytes 4 head.toNat
  let s1 := if (s.core.trace.frame ++ body delta).length ≤ 4080 then s else closeFrame s.coreId s
  s1.modTrace (fun t =>
    if t.frame = [] then
      { t with
        frame := body 0, ts := now, last := now, lastKey := key, count := 1, frameLost := t.lost, lost := 0 }
    else { t with frame := t.frame ++ body delta, last := now, lastKey := key, count := t.count + 1 })

/-- The place of a record among those of one time: ends first, then by pipe code and member index (R144). -/
def recordKey (isEnd : Bool) (pipe mem : Nat) : Nat := (if isEnd then 0 else 32) + 4 * pipe + mem

/-- The time of a record: it stands after the records of the frame, so it is later than the last one unless it may follow
that one at the same time (R144). -/
def recordTime (t : Trace) (key : Nat) (now : Word) : Word :=
  if t.frame ≠ [] ∧ now = t.last ∧ key < t.lastKey then now + 1 else now

/-- A begin or an end record of a member (R142, R144): dropped and counted when the ring cannot take it.
DESIGN CHOICE: log entry 61. -/
def emitRecord (isEnd : Bool) (pipe mem cnt : Nat) (s : State) : State :=
  let t := s.core.trace
  if t.ltrc.getLsbD 8 = false ∨ t.ltrc.getLsbD pipe = false ∨ 6 ≤ pipe then s
  else if t.takes = false then s.modTrace (fun t => { t with lost := t.lost + 1 })
  else
    let key := recordKey isEnd pipe mem
    let now := recordTime t key s.now
    let header : Byte := .ofNat 8 ((if isEnd then 128 else 0) + pipe % 8 * 16 + mem % 4 * 4 + (cnt - 1) % 4)
    let head : BitVec 32 := .ofNat 32 (s.core.task.cbase.toNat + s.core.conv.cpc.toNat)
    appendRecord now (now - t.last).toNat key header head { s.clockRead with time := now.toNat }

end Sys2Proof.Machine
end

