-- ==== Sys2Proof/Machine/Crypto.lean ====
section
/-! DEFINITION. The two standards that 18_package.md R384 and R387 name: SHA3-512 of FIPS 202, and the verification of
ML-DSA-87 of FIPS 204. Each step has the name that the standard gives it. PRESUMED: log entry 86. -/

namespace Sys2Proof.Machine

/-- Bytes as a number, the first lowest. -/
def leNat (l : List Byte) : Nat := l.foldr (fun b n => b.toNat + 256 * n) 0

/-! ## Keccak (FIPS 202) -/

/-- The 25 lanes A(x, y), at 5 y + x. -/
abbrev Keccak := List (BitVec 64)

/-- A lane. -/
def lane (a : Keccak) (x y : Nat) : BitVec 64 := a.getD (5 * (y % 5) + x % 5) 0

/-- The lanes by their coordinates. -/
def lanesOf (f : Nat → Nat → BitVec 64) : Keccak := (List.range 25).map (fun i => f (i % 5) (i / 5))

/-- The rotation of each lane, at 5 y + x. -/
def rhoOffsets : List Nat :=
  [0, 1, 62, 28, 27, 36, 44, 6, 55, 20, 3, 10, 43, 25, 39, 41, 45, 15, 21, 8, 18, 2, 61, 56, 14]

/-- The constants of the 24 rounds. -/
def roundConstants : List (BitVec 64) :=
  [0x0000000000000001, 0x0000000000008082, 0x800000000000808A, 0x8000000080008000, 0x000000000000808B,
    0x0000000080000001, 0x8000000080008081, 0x8000000000008009, 0x000000000000008A, 0x0000000000000088,
    0x0000000080008009, 0x000000008000000A]
  ++ [0x000000008000808B, 0x800000000000008B, 0x8000000000008089, 0x8000000000008003, 0x8000000000008002,
    0x8000000000000080, 0x000000000000800A, 0x800000008000000A, 0x8000000080008081, 0x8000000000008080,
    0x0000000080000001, 0x8000000080008008]

/-- Theta. -/
def thetaStep (a : Keccak) : Keccak :=
  let c := (List.range 5).map (fun x => lane a x 0 ^^^ lane a x 1 ^^^ lane a x 2 ^^^ lane a x 3 ^^^ lane a x 4)
  lanesOf (fun x y => lane a x y ^^^ c.getD ((x + 4) % 5) 0 ^^^ (c.getD ((x + 1) % 5) 0).rotateLeft 1)

/-- Rho and pi. -/
def rhoPiStep (a : Keccak) : Keccak :=
  lanesOf (fun x y => (lane a (x + 3 * y) x).rotateLeft (rhoOffsets.getD (5 * x + (x + 3 * y) % 5) 0))

/-- Chi. -/
def chiStep (a : Keccak) : Keccak := lanesOf (fun x y => lane a x y ^^^ (~~~(lane a (x + 1) y) &&& lane a (x + 2) y))

/-- A round. -/
def keccakRound (a : Keccak) (rc : BitVec 64) : Keccak :=
  let b := chiStep (rhoPiStep (thetaStep a))
  b.set 0 (b.getD 0 0 ^^^ rc)

/-- The permutation. -/
def keccakF (a : Keccak) : Keccak := roundConstants.foldl keccakRound a

/-- A block of the rate is added. -/
def addBlock (l : List Byte) (a : Keccak) : Keccak :=
  (List.range 25).map (fun i => a.getD i 0 ^^^ .ofNat 64 (leNat ((l.drop (8 * i)).take 8)))

/-- Blocks of the rate are absorbed. -/
def absorbBlocks (rate : Nat) : Nat → List Byte → Keccak → Keccak
  | 0, _, a => a
  | n + 1, l, a => absorbBlocks rate n (l.drop rate) (keccakF (addBlock (l.take rate) a))

/-- A message with its suffix and its padding. -/
def padMessage (rate : Nat) (suffix : Byte) (m : List Byte) : List Byte :=
  let n := rate - m.length % rate
  if n = 1 then m ++ [suffix ||| 0x80] else m ++ [suffix] ++ List.replicate (n - 2) 0 ++ [0x80]

/-- Blocks of the rate are squeezed. -/
def squeezeBlocks (rate : Nat) : Nat → Keccak → List Byte
  | 0, _ => []
  | n + 1, a => (a.flatMap (fun x => leBytes 8 x.toNat)).take rate ++ squeezeBlocks rate n (keccakF a)

/-- The first n bytes that the sponge of a rate and a suffix yields for a message. -/
def sponge (rate : Nat) (suffix : Byte) (m : List Byte) (n : Nat) : List Byte :=
  let p := padMessage rate suffix m
  (squeezeBlocks rate ((n + rate - 1) / rate) (absorbBlocks rate (p.length / rate) p (List.replicate 25 0))).take n

/-- SHA3-512. -/
def sha3 (m : List Byte) : List Byte := sponge 72 0x06 m 64

/-- n bytes of SHAKE128. -/
def shake128 (m : List Byte) (n : Nat) : List Byte := sponge 168 0x1F m n

/-- n bytes of SHAKE256. -/
def shake256 (m : List Byte) (n : Nat) : List Byte := sponge 136 0x1F m n

/-! ## ML-DSA-87 (FIPS 204) -/

/-- The modulus. -/
def dsaQ : Nat := 8380417

/-- The 256 coefficients of a polynomial, each below q. -/
abbrev Poly := List Nat

/-- A polynomial by its coefficients. -/
def polyOf (f : Nat → Nat) : Poly := (List.range 256).map f

/-- The sum of two polynomials. -/
def polyAdd (a b : Poly) : Poly := List.zipWith (fun x y => (x + y) % dsaQ) a b

/-- The product of two polynomials, each by its values. -/
def polyMul (a b : Poly) : Poly := List.zipWith (fun x y => x * y % dsaQ) a b

/-- The difference of two polynomials. -/
def polySub (a b : Poly) : Poly := List.zipWith (fun x y => (x + dsaQ - y) % dsaQ) a b

/-- Eight bits reversed. -/
def reverse8 (n : Nat) : Nat := (List.range 8).foldl (fun r i => r + n / 2 ^ i % 2 * 2 ^ (7 - i)) 0

/-- A power of the 512th root of unity 1753. -/
def zetaPow (e : Nat) : Nat := 1753 ^ (e % 512) % dsaQ

/-- The powers of the root. -/
def zetaTable : List Nat := (List.range 512).map zetaPow

/-- NTT: the values of a polynomial at the odd powers of the root, in reversed order of bits. -/
def dsaNtt (w : Poly) : Poly :=
  let z := zetaTable
  polyOf (fun i => ((List.range 256).foldl (fun t j => t + w.getD j 0 * z.getD ((2 * reverse8 i + 1) * j % 512) 0) 0) % dsaQ)

/-- The polynomial of the values. -/
def dsaInvNtt (w : Poly) : Poly :=
  let z := zetaTable
  polyOf (fun j => 8347681 * ((List.range 256).foldl (fun t i =>
    t + w.getD i 0 * z.getD ((512 - (2 * reverse8 i + 1) * j % 512) % 512) 0) 0 % dsaQ) % dsaQ)

/-- Field i of a width, of bytes. -/
def bitField (width : Nat) (l : List Byte) (i : Nat) : Nat := leNat l / 2 ^ (width * i) % 2 ^ width

/-- The coefficients that RejNTTPoly takes from a stream of bytes. -/
def takeCoeffs : List Byte → List Nat
  | a :: b :: c :: l =>
    let z := a.toNat + 2 ^ 8 * b.toNat + 2 ^ 16 * (c.toNat % 128)
    if z < dsaQ then z :: takeCoeffs l else takeCoeffs l
  | _ => []

/-- An entry of the matrix that ExpandA makes: of the stream 1,344 bytes are enough. -/
def expandEntry (rho : List Byte) (r s : Nat) : Poly :=
  (takeCoeffs (shake128 (rho ++ [.ofNat 8 s, .ofNat 8 r]) 1344)).take 256

/-- The places that SampleInBall takes from a stream of bytes, from coefficient i on; bit n of `signs` is the sign of the
n-th. -/
def ballCoeffs (signs : Nat) : List Byte → Nat → Poly → Poly
  | [], _, c => c
  | j :: l, i, c =>
    if 256 ≤ i then c
    else if i < j.toNat then ballCoeffs signs l i c
    else ballCoeffs signs l (i + 1)
      ((c.set i (c.getD j.toNat 0)).set j.toNat (if signs / 2 ^ (i + 60 - 256) % 2 = 1 then dsaQ - 1 else 1))

/-- SampleInBall: of the stream 1,360 bytes are enough. -/
def sampleInBall (seed : List Byte) : Poly :=
  let l := shake256 seed 1360
  ballCoeffs (leNat (l.take 8)) (l.drop 8) 196 (polyOf (fun _ => 0))

/-- The places of the hints of one polynomial, which rise. -/
def risingHints : List Nat → Bool
  | a :: b :: l => decide (a < b) && risingHints (b :: l)
  | _ => true

/-- HintBitUnpack: the places of the hints of each of the 8 polynomials, of 83 bytes. -/
def unpackHints (y : List Byte) : Option (List (List Nat)) :=
  let at' := fun (i : Nat) => (y.getD i 0).toNat
  let from' := fun (i : Nat) => if i = 0 then 0 else at' (75 + i - 1)
  let h := (List.range 8).map (fun i => ((List.range (at' (75 + i))).drop (from' i)).map at')
  if (List.range 8).all (fun i => decide (from' i ≤ at' (75 + i)) && decide (at' (75 + i) ≤ 75)) && h.all risingHints
      && (List.range 75).all (fun i => decide (i < at' 82) || at' i == 0) then some h
  else none

/-- UseHint: the high part of a coefficient, moved by a hint. -/
def useHint (hint : Bool) (r : Nat) : Nat :=
  let low := r % 523776
  let up := decide (261888 < low)
  let top := decide (r - low + (if up then 523776 else 0) = dsaQ - 1)
  let r1 := if top then 0 else r / 523776 + (if up then 1 else 0)
  let positive := !up && low != 0 && !top
  if hint = false then r1 else if positive then (r1 + 1) % 16 else (r1 + 15) % 16

/-- w1Encode of one polynomial: 4 bits to a coefficient. -/
def packHigh (w : Poly) : List Byte :=
  (List.range 128).map (fun i => .ofNat 8 (w.getD (2 * i) 0 + 16 * w.getD (2 * i + 1) 0))

/-- A polynomial of z: 20 bits to a coefficient, which is 2^19 less the field. -/
def unpackZ (l : List Byte) : Poly := polyOf (fun i => (2 ^ 19 + dsaQ - bitField 20 l i) % dsaQ)

/-- The coefficient lies within the bound of z. -/
def withinBound (z : Nat) : Bool := decide (z < 2 ^ 19 - 120) || decide (dsaQ - z < 2 ^ 19 - 120)

/-- Part n of bytes, of a size. -/
def partOf (size n : Nat) (l : List Byte) : List Byte := (l.drop (size * n)).take size

/-- ML-DSA-87 verification of a signature over a message, in the pure form with an empty context string: key, message and
signature. -/
def dsaVerify (pk m sig : List Byte) : Bool :=
  match unpackHints (sig.drop 4544) with
  | none => false
  | some h =>
    let z := (List.range 7).map (fun i => unpackZ (partOf 640 i (sig.drop 64)))
    let t1 := (List.range 8).map (fun i =>
      dsaNtt (polyOf (fun j => 2 ^ 13 * bitField 10 (partOf 320 i (pk.drop 32)) j % dsaQ)))
    let mu := shake256 (shake256 pk 64 ++ [0, 0] ++ m) 64
    let c := dsaNtt (sampleInBall (sig.take 64))
    let zs := z.map dsaNtt
    let w1 := (List.range 8).map (fun r =>
      let az := (List.range 7).foldl (fun t s => polyAdd t (polyMul (expandEntry (pk.take 32) r s) (zs.getD s [])))
        (polyOf (fun _ => 0))
      let w := dsaInvNtt (polySub az (polyMul c (t1.getD r [])))
      polyOf (fun i => useHint ((h.getD r []).contains i) (w.getD i 0)))
    z.all (fun p => p.all withinBound) && shake256 (mu ++ w1.flatMap packHigh) 64 == sig.take 64

end Sys2Proof.Machine
end

