-- ==== Sys2Proof/Machine/Package.lean ====
section
/-! DEFINITION. The package (18_package.md): reset of a cluster and of the package, boot, mailbox, pre-emption by the
host, freeze and read-out, power, and the package and fabric register blocks (R370, R371; 19_fabric.md R394). -/

namespace Sys2Proof.Machine

/-! ## Cluster reset (R374) -/

/-- A control core as the firmware starts it (14_cluster.md R292, 08_core_steering.md R180), also at a cluster reset: no
debugger is attached to it (07_prog_alias.md R166). DESIGN CHOICE: log entry 87. -/
def firmwareSteer (l : Nat) : Steer :=
  { Steer.reset with
    pc := (Config.firmware l 2).setWidth 32
    tvec := (Config.firmware l 3).setWidth 32 &&& 0xFFFFFFFC
    ptroot := Config.firmware l 4 &&& 0x1FFFFFFFFE0FFFF }

/-- The proxies of a cluster's shares tell their homes in other clusters that their tasks are gone.
DEDUCED: log entry 53. -/
def abandonShares (l : Nat) (s : State) : State :=
  (s.clusterAt l).entries.foldl (fun s p =>
    let e := p.2
    if e.kind = .proxy ∧ e.home.1 ≠ l ∧ homeHolds s l p.1 = true then
      let live := ((s.clusterAt l).groups.filter (fun g => g.entry == p.1)).map
        (fun g => (g.tasks.filter GangTask.live).length)
      let lost := live.foldl (· + ·) 0 + (e.upTo - e.next) * e.block.gang
      countLost e.home.1 e.home.2 lost s
    else s) s

/-- The cores of a cluster let go of their tasks and are as task issue sets them. -/
def releaseCores (l : Nat) (s : State) : State :=
  (List.range 96).foldl (fun s n =>
    if (s.coreAt (96 * l + n)).run = .free then s
    else (releaseCore (96 * l + n) s).modCoreAt (96 * l + n) (fun c => { c.clear with run := .clearing })) s

/-- The rung areas of a cluster's tasks are watched no longer, and its scratchpad holds nothing that was written. -/
def forgetAreas (l : Nat) (s : State) : State :=
  useUp (spadKey l 0) (2 ^ 25) { s with watches := s.watches.filter (fun m =>
    !(m.guards && (m.within.map (fun p => decide (spadKey l 0 ≤ p.1) && decide (p.1 < spadKey (l + 1) 0))).getD false)) }

/-- Reset of a cluster: its tasks are abandoned with no completion-word update, the scoreboard, barriers, feed queues
and launch contexts are cleared, the scratchpad reads as zero, and the dispatcher restarts. DEDUCED: log entry 53. A
frozen cluster is reset at once and stays frozen. DESIGN CHOICE: log entry 83. -/
def resetCluster (l : Nat) (s : State) : State :=
  let gone := (s.clusterAt l).groups.flatMap (fun g => g.tasks.map (·.serial))
  let s := forgetAreas l (releaseCores l (abandonShares l s))
  let s := clearMem (ctlTcmKey l 0) (2 ^ 18) (clearMem (spadKey l 0) (2 ^ 25) s)
  let s := s.modClusterAt l (fun c => { Cluster.reset with
    ctl := firmwareSteer l
    ctlBase := Config.firmware l 0
    ctlLen := (Config.firmware l 1).setWidth 32
    dispatch := some { Dispatch.reset with ring := spGet 0 s.pkg.drbase l }
    grant := c.grant
    half := c.half
    log := c.log
    frozen := c.frozen })
  let s := (List.range 16).foldl (fun s n => s.modContext (ctxKey (launchHandle l n)) (fun _ => .reset)) s
  s.modPkg (fun p => { p with preqTasks := p.preqTasks.filter (fun t => !gone.contains t) })

/-- Every cluster whose bit is set. -/
def resetClusters (mask : BitVec 24) (s : State) : State :=
  (List.range 24).foldl (fun s l => if mask.getLsbD l then resetCluster l s else s) s

/-! ## Boot (R383, R384) and package reset (R386) -/

/-- The boot flash. -/
def flashKey (off : Nat) : Nat := 2 ^ 66 + off

/-- The message that an image's signature covers. -/
def imageMessage (s : State) (base len : Nat) : List Byte :=
  sha3 (readBytes s base 64 ++ readBytes s (base + 0x2000) len)

/-- The steps of R384 on an image: the code of the first that fails, 0 when none does. -/
def verifySteps (s : State) (base : Nat) : Nat :=
  let len := readMem s (base + 12) 4
  let pk := readBytes s (base + 0x40) 2592
  if poisoned s base 0x1000000 then 5
  else if readMem s base 4 ≠ 0x5A364657 ∨ 0xFFE000 < len then 4
  else if leNat (sha3 pk) ≠ Config.fusedDigest.toNat then 1
  else if readMem s (base + 8) 4 < s.pkg.fusedSvn.toNat then 2
  else if dsaVerify pk (imageMessage s base len) (readBytes s (base + 0xA60) 4627) = false then 3
  else 0

/-- The verification of an image; one in flash that a power loss left half written fails it (R385). -/
def verifyImage (s : State) (base : Nat) : Nat :=
  if base = flashKey 0 ∧ s.pkg.flashFail ≠ 0 then s.pkg.flashFail.toNat else verifySteps s base

/-- The capability list that the firmware builds (R381): the words from block offset 0x100. A field that the spec does
not state is the identity's, and VERSION is 1. DESIGN CHOICE: log entry 56. -/
def capabilityWords (svn fused version : BitVec 32) : List Word :=
  let record := fun (id next : Nat) (fields : List Word) =>
    (.ofNat 64 (id + 2 ^ 16 + (fields.length + 1) * 2 ^ 24 + next * 2 ^ 32) : Word) :: fields
  record 1 0x130 [0x5A360001, Config.identity 0, Config.identity 1, Config.identity 2, Config.identity 3]
  ++ record 2 0x170 [6, 4, 96, 512, 64, 8192, 4]
  ++ record 3 0x1B8 [2100, 2100, 2100, 1050, 8192, 4096, 2048, 512]
  ++ record 4 0x1E8 [12, 0x1000000000, 0xC000000, 389, 0x40000]
  ++ record 5 0x218 [.ofNat 64 (16 + 32 * 2 ^ 16 + 32 * 2 ^ 32 + 16 * 2 ^ 48), 64, 32, 16, 8]
  ++ record 6 0x228 [0x3F]
  ++ record 7 0x248 [18, 8, 2048]
  ++ record 8 0 [version.setWidth 64, svn.setWidth 64, fused.setWidth 64]

/-- How a port comes out of its training: up at 8 lanes, at 4 when a lane fails, or down when it cannot train; the far end
is found then (19_fabric.md R394, R396). DESIGN CHOICE: log entry 50. -/
def trainPort (tick n : Nat) (p : Port) : Port :=
  let r := (Config.freeWord (tick + n)).toNat
  match r % 3 with
  | 0 => { p with state := 2, width := 8, peer := .ofNat 12 (r / 3), replays := 0 }
  | 1 => { p with state := 3, width := 4, peer := .ofNat 12 (r / 3), replays := 0 }
  | _ => { p with state := 0, width := 0, replays := 0 }

/-- The 18 ports changed. -/
def modPorts (f : Nat → Port → Port) (s : State) : State :=
  s.modFab (fun b => { b with ports := (List.range 18).map (fun n => (n, f n (poolGet .reset b.ports n))) })

/-- The dispatcher is loaded into every control core, and reads its DRBASE (R372, R374; 14_cluster.md R292). -/
def loadDispatcher (s : State) : State :=
  (List.range 24).foldl (fun s l => s.modClusterAt l (fun c => { c with
    ctl := firmwareSteer l, ctlBase := Config.firmware l 0, ctlLen := (Config.firmware l 1).setWidth 32
    dispatch := some { Dispatch.reset with ring := spGet 0 s.pkg.drbase l } })) s

/-- The firmware's work after a verified boot, in STATE 1: the links, the capability list, the dispatcher in every control
core, READY (R384). -/
def startFirmware (s : State) : State :=
  (loadDispatcher (modPorts (trainPort s.tick) { s with tick := s.tick + 18 })).modPkg (fun p => { p with
    bootState := 2, caps := capabilityWords p.svn p.fusedSvn p.version })

/-- The boot of the ROM from an image: the firmware starts, with its ports in training, or the package is in RECOVERY
(R384). -/
def bootFrom (base : Nat) (s : State) : State :=
  let code := verifyImage s base
  if code = 0 then
    (modPorts (fun _ p => { p with state := 1 }) s).modPkg (fun p => { p with
      bootFail := 0, bootState := 1, svn := .ofNat 32 (readMem s (base + 8) 4)
      version := .ofNat 32 (readMem s (base + 4) 4) })
  else s.modPkg (fun p => { p with bootFail := .ofNat 4 code, bootState := 3 })

/-- The keys of this package's own HBM. -/
def isOwnHbm (key : Nat) : Bool := decide (0xFFF * 2 ^ 42 ≤ key) && decide (key < 0x1000 * 2 ^ 42)

/-- Keys of host memory, other packages' HBM and the boot flash, which a package reset does not reach. -/
def keepsOverReset (key : Nat) : Bool :=
  decide (key < 0xFFF * 2 ^ 42) || (decide (2 ^ 56 ≤ key) && decide (key < 2 ^ 57)) || decide (2 ^ 66 ≤ key)

/-- Memory after a package reset: every on-die byte reads as zero, and each byte of HBM that had been written holds an
unspecified value. DESIGN CHOICE: log entry 51. -/
def memAfterReset (tick : Nat) (m : Memory) : Memory :=
  m.foldl (fun acc p =>
    if isOwnHbm p.1 then spPut unlistedByte acc p.1 (Config.resetByte tick p.1)
    else if keepsOverReset p.1 then spPut unlistedByte acc p.1 p.2 else acc) []

/-- A package reset (R386), up to the boot of the ROM: the machine as State.reset has it, with the flash, the fuses and
the memory that is not the package's. -/
def resetPackage (s : State) : State :=
  { State.reset with
    tick := s.tick + 1
    agenda := s.agenda
    mem := memAfterReset s.tick s.mem
    poison := s.poison.filter keepsOverReset
    pkg := { Pkg.reset with
      fusedSvn := s.pkg.fusedSvn, serials := s.pkg.serials, flashFail := s.pkg.flashFail } }

/-! ## The mailbox (R382, R385, R387) -/

/-- The recovery window is writable in RECOVERY; a command's state test. -/
def inRecovery (s : State) : Bool := s.pkg.bootState == 3
def isReady (s : State) : Bool := s.pkg.bootState == 2

/-- A mailbox command completes: CODE, LEN, DONE and MSI-X vector 1. -/
def mbDone (code len : Nat) (s : State) : State :=
  signalMsix 1 (s.modPkg (fun p => { p with
    mbBusy := false, mbDone := true, mbCode := .ofNat 8 code, mbLen := .ofNat 32 len }))

/-- A result stands in MBDATA. -/
def mbResult (bytes : List Byte) (s : State) : State :=
  mbDone 0 bytes.length (writeBytes (mbdataKey 0) bytes (clearMem (mbdataKey 0) 8192 s))

/-- The report of R387: in RECOVERY, with the fields of the image in flash as far as it was verified: SVN and VERSION are
0 also when the flash could not be read. DESIGN CHOICE: log entry 93. -/
def attestation (s : State) : List Byte :=
  let flash := flashKey 0
  let code := verifyImage s flash
  let read := code ≠ 5 ∧ code ≠ 4
  let rec3 := inRecovery s
  let zeros : List Byte := List.replicate 64 0
  let msg := if rec3 ∧ ¬ read then zeros else imageMessage s flash (readMem s (flash + 12) 4)
  let svn := if rec3 then (if read then readMem s (flash + 8) 4 else 0) else s.pkg.svn.toNat
  let version := if rec3 then (if read then readMem s (flash + 4) 4 else 0) else s.pkg.version.toNat
  let caps := if rec3 then [] else s.pkg.caps.flatMap (fun w => leBytes 8 w.toNat)
  let body := readBytes s (mbdataKey 0) 64 ++ sha3 Config.rom ++ msg ++ leBytes 4 svn
    ++ leBytes 4 s.pkg.fusedSvn.toNat ++ leBytes 4 version ++ leBytes 4 (Config.identity 3).toNat
    ++ sha3 caps ++ leBytes 8 (Config.identity 2).toNat ++ [0]
  body ++ leBytes 4627 (Config.sign body).toNat

/-- ATTEST. -/
def mbAttest (s : State) : State := if isReady s || inRecovery s then mbResult (attestation s) s else mbDone 4 0 s

/-- The flash has been written anew: no granule of it is uncorrectable. -/
def writtenFlash (s : State) : State :=
  { s with poison := s.poison.filter (fun g => !(decide (flashKey 0 ≤ g) && decide (g < flashKey 0x1000000))) }

/-- RECOVER: the window's image is verified, written to flash and booted from the window's copy, or flash stays; so it does,
with CODE 3, when ARG is not the image's length (R385). DESIGN CHOICE: log entry 93. -/
def mbRecover (len : Nat) (s : State) : State :=
  if !inRecovery s then mbDone 4 0 s
  else if verifyImage s (recoveryKey 0) ≠ 0 ∨ len ≠ 0x2000 + readMem s (recoveryKey 12) 4 then mbDone 3 0 s
  else mbDone 0 0 (bootFrom (recoveryKey 0)
    (writtenFlash ((copyMem (recoveryKey 0) (flashKey 0) 0x1000000 s).modPkg (fun p => { p with flashFail := 0 }))))

/-- COMMIT-SVN. -/
def mbCommitSvn (s : State) : State :=
  if isReady s then mbDone 0 0 (s.modPkg (fun p => { p with fusedSvn := p.svn })) else mbDone 4 0 s

/-- CERT. -/
def mbCert (s : State) : State := if isReady s || inRecovery s then mbResult Config.certificates s else mbDone 4 0 s

/-- CLLOG. -/
def mbCllog (cluster : Nat) (s : State) : State :=
  if !isReady s then mbDone 4 0 s
  else if 24 ≤ cluster then mbDone 2 0 s
  else
    let msgs := (s.clusterAt cluster).log.take 256
    mbResult (msgs.flatMap (fun m => m.flatMap (fun w => leBytes 8 w.toNat)))
      (s.modClusterAt cluster (fun c => { c with log := c.log.drop 256 }))

/-- DBGEN. -/
def mbDbgen (arg : Nat) (s : State) : State :=
  if !isReady s then mbDone 4 0 s
  else if 2 ≤ arg then mbDone 2 0 s
  else mbDone 0 0 (s.modPkg (fun p => { p with debugEn := arg == 1 }))

/-- A command code that is not in the table: CODE 1, or CODE 4 where no command is permitted. -/
def mbUnknown (s : State) : State := if isReady s || inRecovery s then mbDone 1 0 s else mbDone 4 0 s

/-- A command posted through MBCMD: the fields are stored and, unless a command is running, it runs. -/
def mbPost (cmd : BitVec 8) (arg : BitVec 32) (run : State → State) (s : State) : State :=
  if s.pkg.unpowered then s
  else
    let busy := s.pkg.mbBusy
    let s := s.modPkg (fun p => { p with mbArg := arg, mbCmd := cmd })
    if busy then s else run s

/-- The command of a code; ATTEST, COMMIT-SVN and CERT ignore ARG (R382). DESIGN CHOICE: log entry 93. -/
def mbRun (cmd : Nat) (arg : Nat) : State → State :=
  match cmd with
  | 1 => mbAttest
  | 2 => mbRecover arg
  | 3 => mbCommitSvn
  | 4 => mbCert
  | 5 => mbCllog arg
  | 6 => mbDbgen arg
  | _ => mbUnknown

/-- A write of MBCMD. -/
def writeMbcmd (v : Word) (s : State) : State :=
  let cmd : BitVec 8 := v.setWidth 8
  let arg : BitVec 32 := (v >>> 32).setWidth 32
  if v.getLsbD 31 then mbPost cmd arg (mbRun cmd.toNat arg.toNat) s
  else s.modPkg (fun p => { p with mbArg := arg, mbCmd := cmd })

/-! ## Pre-emption by the host, and holds (R388) -/

/-- A core matches the fields of PREQ. -/
def preqMatches (die clus core : BitVec 8) (c : Nat) : Bool :=
  (die == 0xFF || die.toNat == c / 384) && (clus == 0xFF || clus.toNat == c / 96 % 4)
    && (core == 0xFF || core.toNat == c % 96)

/-- The groups that a request names: those with a running task on a matching core. -/
def preqGroups (s : State) (die clus core : BitVec 8) : List PlacedGroup :=
  (List.range 24).flatMap (fun l => (s.clusterAt l).groups.filter (fun g =>
    g.tasks.any (fun t => decide (t.place = .running) && preqMatches die clus core t.core)))

/-- A write of PREQ: with GO and no request in progress, the matching tasks and their gangs are pre-empted.
DEDUCED: log entry 52. -/
def writePreq (v : Word) (s : State) : State :=
  let die : BitVec 8 := (v >>> 40).setWidth 8
  let clus : BitVec 8 := (v >>> 32).setWidth 8
  let core : BitVec 8 := (v >>> 24).setWidth 8
  let go := v.getLsbD 63 && !s.pkg.preqBusy
  let s := s.modPkg (fun p => { p with
    preqDie := die, preqClus := clus, preqCore := core, preqDone := p.preqDone && !v.getLsbD 61 })
  if go then
    let gs := preqGroups s die clus core
    let names := gs.flatMap (fun g => (g.tasks.filter (fun t => decide (t.place = .running))).map (·.serial))
    gs.foldl (fun s g => requestGroup g s)
      (s.modPkg (fun p => { p with preqBusy := true, preqDone := false, preqTasks := names }))
  else s

/-- A task named by a request is saved, has ended or has been abandoned. -/
def preqSettled (s : State) (serial : Nat) : Bool :=
  match s.findTask serial with
  | none => true
  | some (_, t) => !(decide (t.place = .running))

/-- The request in progress completes once every named task has settled. -/
def preqFinish (s : State) : State :=
  if s.pkg.preqBusy && s.pkg.preqTasks.all (preqSettled s) then
    signalMsix 2 (s.modPkg (fun p => { p with preqBusy := false, preqDone := true, preqTasks := [] }))
  else s

/-- A write of CLHOLD. -/
def writeClhold (v : Word) (s : State) : State := s.modPkg (fun p => { p with clhold := v.setWidth 24 })

/-- A write of PLIMIT: clamped to 1,900 to 4,400 W. -/
def writePlimit (v : Word) (s : State) : State :=
  let w := v.toNat % 2 ^ 16
  s.modPkg (fun p => { p with plimit := .ofNat 16 (max 1900 (min 4400 w)) })

/-! ## Freeze (R390) -/

/-- The cores of a scope: of a cluster (0), a die (1) or the package (2). -/
def scopeCores (scope die clus : Nat) : List Nat :=
  match scope with
  | 0 => (List.range 96).map (fun n => 384 * die + 96 * clus + n)
  | 1 => (List.range 384).map (fun n => 384 * die + n)
  | _ => List.range 2304

/-- The cores of a scope whose Lantern frames are open. -/
def openFrames (s : State) (scope die clus : Nat) : List Nat :=
  ((s.coreId, s.core) :: s.cores).filterMap (fun p =>
    if p.2.trace.frame ≠ [] && (scopeCores scope die clus).contains p.1 then some p.1 else none)

/-- The scope is frozen. -/
def scopeFrozen (s : State) (scope die clus : Nat) : Bool :=
  match scope with
  | 0 => (s.clusterAt (4 * die + clus)).frozen
  | 1 => (s.dieAt die).frozen
  | _ => s.pkg.frozen

/-- Freeze a scope: Lantern writes its open frames whole, and its clocks stop. A scope already frozen, the code 3, and a
die that does not exist are ignored. -/
def freezeScope (scope die clus : Nat) (s : State) : State :=
  if 3 ≤ scope ∨ (scope ≠ 2 ∧ 6 ≤ die) ∨ scopeFrozen s scope die clus then s
  else
    let s := (openFrames s scope die clus).foldl (fun s c => closeFrame c s) s
    match scope with
    | 0 => s.modClusterAt (4 * die + clus) (fun c => { c with frozen := true })
    | 1 => s.modDieAt die (fun d => { d with frozen := true })
    | _ => s.modPkg (fun p => { p with frozen := true, bootState := 4 })

/-- The events that waited for a saved eq in a frozen die store enter it (08_core_steering.md R209). -/
def settleSaved (l : Nat) (s : State) : State :=
  (s.clusterAt l).eqPosts.foldl (fun t p => postTask p.1 p.2 t) (s.modClusterAt l (fun c => { c with eqPosts := [] }))

/-- The events, messages and counts that waited for a scope to thaw reach its cores and clusters. -/
def settleScope (scope die clus : Nat) (s : State) : State :=
  let cores := (s.coreId :: s.cores.map (·.1)).filter (fun n =>
    (scopeCores scope die clus).contains n && !s.frozenAt (clusterOf n))
  let clusters := (if scope = 0 then [4 * die + clus] else (List.range 4).map (4 * die + ·)).filter (fun l => !s.frozenAt l)
  clusters.foldl (fun t l => settleLost l (settleSaved l (cqSettle l t)))
    (cores.foldl (fun t n => t.modCoreAt n (fun c => { c with q := c.q.settle })) s)

/-- Thaw a cluster or a die; of the package scope it is ignored. -/
def thawScope (scope die clus : Nat) (s : State) : State :=
  match scope with
  | 0 =>
    if die < 6 then
      settleScope 0 die clus (s.modClusterAt (4 * die + clus) (fun c => { c with frozen := false }))
    else s
  | 1 => if die < 6 then settleScope 1 die clus (s.modDieAt die (fun d => { d with frozen := false })) else s
  | _ => s

/-- A write of FRZ; with both GO and THAW set it is ignored (R371). -/
def writeFrz (v : Word) (s : State) : State :=
  let go := v.getLsbD 63
  let thaw := v.getLsbD 62
  let scope := v.toNat / 2 ^ 8 % 4
  let die := v.toNat / 2 ^ 5 % 8
  let clus := v.toNat % 4
  if go && thaw then s
  else
    let s := s.modPkg (fun p => { p with frzScope := .ofNat 2 scope, frzDie := .ofNat 3 die, frzClus := .ofNat 2 clus })
    if go then freezeScope scope die clus s else if thaw then thawScope scope die clus s else s

/-- The clocks of a core's cluster stand: it, its die or the package is frozen, or power is off (R380, R385, R390). -/
def clocksStopped (s : State) : Bool :=
  s.cluster.frozen || s.die.frozen || s.pkg.frozen || s.pkg.cutOff || s.pkg.unpowered

/-! ## Power (R377 to R380) -/

/-- The floor of a consumer. -/
def floorW (d : Nat) : Nat := if d = 6 then 200 else 224

/-- The estimates of a cluster that wait: of groups not yet placed, and of saved tasks. -/
def clusterWaiting (s : State) (l : Nat) : Nat :=
  let c := s.clusterAt l
  (c.entries.map (fun p =>
      if (p.2.kind = .kernel ∨ p.2.kind = .proxy) ∧ p.2.st ≠ .waiting then
        (p.2.upTo - p.2.next) * p.2.block.gang * p.2.block.power.toNat else 0)).foldl (· + ·) 0
    + (c.groups.map (fun g => g.power * (g.tasks.filter GangTask.isSaved).length)).foldl (· + ·) 0

/-- The demand of a cluster, mW: its estimates in use and waiting (R377). -/
def clusterDemand (s : State) (l : Nat) : Nat := clusterUse s l + clusterWaiting s l

/-- The demand of a consumer: a die's clusters' estimates in use and waiting, and its engines; HBM's. A frozen die, and one
that sends no demand, count as demanding the floor (R377, R379). The estimates, in mW, are rounded up to whole watts.
DESIGN CHOICE: log entries 59 and 80. -/
def demandW (s : State) (d : Nat) : Nat :=
  if d = 6 then Config.engineWatts s.tick 6
  else if (s.dieAt d).frozen || Config.silent s.tick d then floorW d
  else
    let mw := ((List.range 4).map (fun k => clusterDemand s (4 * d + k))).foldl (· + ·) 0
    (mw + 999) / 1000 + Config.engineWatts s.tick d

/-- Watts left over go one each to consumers in ascending order, none past its demand. -/
def handRest : List (Nat × Nat × Nat) → Nat → List (Nat × Nat)
  | [], _ => []
  | (d, g, want) :: l, rest =>
    if 0 < rest ∧ g < want then (d, g + 1) :: handRest l (rest - 1) else (d, g) :: handRest l rest

/-- The grants of a cycle, from the demands of consumers 0 to 6 and the limit (R377). -/
def grantsFor (limit : Nat) (demand : Nat → Nat) : List (Nat × Nat) :=
  let ds := List.range 7
  let floors := (ds.map floorW).foldl (· + ·) 0
  let a := limit - 350 - floors
  let x := fun d => demand d - floorW d
  let sum := (ds.map x).foldl (· + ·) 0
  if sum ≤ a then ds.map (fun d => (d, floorW d + x d))
  else
    let base := ds.map (fun d => (d, floorW d + x d * a / sum, max (demand d) (floorW d)))
    let used := (base.map (fun p => p.2.1 - floorW p.1)).foldl (· + ·) 0
    handRest base (a - used)

/-- PGRANT of a consumer. -/
def pgrantWord (floor demand grant : Nat) : Word :=
  .ofNat 64 (floor % 2 ^ 16 * 2 ^ 48 + demand % 2 ^ 16 * 2 ^ 32 + grant % 2 ^ 16)

/-- The grant of a consumer is in force, and PGRANT shows it (R377). -/
def showGrant (d grant : Nat) (s : State) : State :=
  let word : Word := .ofNat 64 ((spGet 0 s.pkg.pgrant d).toNat / 2 ^ 32 * 2 ^ 32 + grant % 2 ^ 16)
  s.modPkg (fun k => { k with pgrant := spPut 0 k.pgrant d word })

/-- One cycle of Sluice (R377, R380): the demands are collected and the grants computed; a die above 105 degrees is
capped at 90 % of its previous grant, rounded down to whole watts, until it has cooled. A die's grant is in force when it
reaches the die; HBM's and the I/O dies' at once, and PGRANT shows 350 W for the floor, the demand and the grant of the I/O
dies. DESIGN CHOICE: log entry 92. -/
def grantCycle (s : State) : State :=
  let gs := grantsFor s.pkg.plimit.toNat (demandW s)
  let s1 := gs.foldl (fun t p =>
    let d := p.1
    let die := s.dieAt d
    let hot := die.hot && !Config.cooled (s.tick + d)
    let g := if d ≠ 6 ∧ hot then min p.2 (die.grant.toNat * 9 / 10) else p.2
    let shown := if d = 6 then g else die.grant.toNat
    let t := t.modPkg (fun k => { k with pgrant := spPut 0 k.pgrant d (pgrantWord (floorW d) (demandW s d) shown) })
    if d = 6 then t else t.modDieAt d (fun x => { x with pending := some (.ofNat 16 g), hot := hot })) s
  (s1.modPkg (fun k => { k with pgrant := spPut 0 k.pgrant 7 (pgrantWord 350 350 350) })).tickUp

/-- The share of cluster k of a die in a grant, rounded down to whole mW: in proportion to the clusters' demands, and equal
where all of them demand 0 (R378). DESIGN CHOICE: log entry 92. -/
def clusterShare (s : State) (d grant k : Nat) : Nat :=
  let dem := fun k => clusterDemand s (4 * d + k)
  let sum := ((List.range 4).map dem).foldl (· + ·) 0
  if sum = 0 then grant * 1000 / 4 else grant * 1000 * dem k / sum

/-- A die controller splits a grant among its four clusters: each takes its share, and orders its cores' lanes to half rate
when the full estimates exceed it (R378). What is frozen keeps what it holds (R390). -/
def splitGrant (d grant : Nat) (s : State) : State :=
  (List.range 4).foldl (fun t k =>
    let l := 4 * d + k
    let mw := clusterShare s d grant k
    let half := decide (mw < clusterFull s l)
    if s.frozenAt l then t
    else
      let t := t.modClusterAt l (fun c => { c with grant := .ofNat 32 mw, half := half })
      (s.clusterAt l).groups.foldl (fun t g => g.tasks.foldl (fun t u =>
        if u.place = .running then t.modCoreAt u.core (fun c => { c with halfNext := half || g.overdue }) else t) t) t) s

/-- A grant reaches a die controller (R378). -/
def deliverGrant (d : Nat) (s : State) : State :=
  if 6 ≤ d then s
  else match (s.dieAt d).pending with
    | none => s
    | some g => splitGrant d g.toNat (showGrant d g.toNat
        (s.modDieAt d (fun x => { x with grant := g, pending := none, missed := 0 })))

/-- A die controller receives no grant in a cycle: after the second in a row it falls to its floor (R379). -/
def missGrant (d : Nat) (s : State) : State :=
  if 6 ≤ d then s
  else
    let n := (s.dieAt d).missed + 1
    let s := s.modDieAt d (fun x => { x with missed := n, pending := none })
    if 2 ≤ n then splitGrant d 224 (showGrant d 224 (s.modDieAt d (fun x => { x with grant := 224 }))) else s

/-! ## The register blocks -/

/-- A field of a register. -/
def bitsAt (v n : Nat) : Nat := v * 2 ^ n

/-- The value of the package register at a block offset (R370, R371). -/
def pkgRead (s : State) (off : Nat) : Word :=
  let p := s.pkg
  match off with
  | 0x00 => .ofNat 64 (bitsAt p.bootFail.toNat 4 + p.bootState.toNat)
  | 0x08 => p.clerr.setWidth 64
  | 0x18 => .ofNat 64 ((if p.preqBusy then 2 ^ 62 else 0) + (if p.preqDone then 2 ^ 61 else 0)
      + bitsAt p.preqDie.toNat 40 + bitsAt p.preqClus.toNat 32 + bitsAt p.preqCore.toNat 24)
  | 0x20 => p.clhold.setWidth 64
  | 0x28 => p.plimit.setWidth 64
  | 0x30 => s.now
  | 0x38 => .ofNat 64 (bitsAt p.frzScope.toNat 8 + bitsAt p.frzDie.toNat 5 + p.frzClus.toNat)
  | 0x40 => .ofNat 64 (bitsAt p.mbArg.toNat 32 + p.mbCmd.toNat)
  | 0x48 => .ofNat 64 (bitsAt p.mbLen.toNat 32 + (if p.mbBusy then 2 ^ 31 else 0) + (if p.mbDone then 2 ^ 30 else 0)
      + p.mbCode.toNat)
  | _ =>
    if 0x100 ≤ off ∧ off < 0x400 then p.caps.getD ((off - 0x100) / 8) 0
    else if 0x400 ≤ off ∧ off < 0x4C0 then spGet 0 p.drbase ((off - 0x400) / 8)
    else if 0x800 ≤ off ∧ off < 0x840 then spGet 0 p.pgrant ((off - 0x800) / 8)
    else if 0x2000 ≤ off ∧ off < 0x4000 then readMem64 s (mbdataKey (off - 0x2000))
    else 0

/-- A write of the package register at a block offset. DEDUCED: log entry 52. -/
def pkgWrite (off : Nat) (v : Word) (s : State) : State :=
  match off with
  | 0x08 => s.modPkg (fun p => { p with clerr := p.clerr &&& ~~~(v.setWidth 24) })
  | 0x10 => resetClusters (v.setWidth 24) s
  | 0x18 => writePreq v s
  | 0x20 => writeClhold v s
  | 0x28 => writePlimit v s
  | 0x38 => writeFrz v s
  | 0x40 => writeMbcmd v s
  | 0x48 => s.modPkg (fun p => { p with mbDone := p.mbDone && !v.getLsbD 30 })
  | _ =>
    if 0x400 ≤ off ∧ off < 0x4C0 then s.modPkg (fun p => { p with drbase := spPut 0 p.drbase ((off - 0x400) / 8) v })
    else if 0x2000 ≤ off ∧ off < 0x4000 then writeMem (mbdataKey (off - 0x2000)) 8 v.toNat s
    else s

/-- A fabric port. -/
def State.port (s : State) (n : Nat) : Port := poolGet .reset s.fab.ports n

/-- A fabric port changed; there are 18. -/
def modPort (n : Nat) (f : Port → Port) (s : State) : State :=
  if n < 18 then s.modFab (fun b => { b with ports := poolSet b.ports n (f (poolGet .reset b.ports n)) }) else s

/-- The value of the fabric register at a block offset (19_fabric.md R394). -/
def fabRead (s : State) (off : Nat) : Word :=
  let f := s.fab
  match off with
  | 0x00 => .ofNat 64 (bitsAt f.dmax.toNat 32 + f.pkg.toNat)
  | 0x08 => .ofNat 64 (bitsAt f.offh.toNat 48 + bitsAt f.ctmo.toNat 32 + f.tmo.toNat)
  | 0x10 => .ofNat 64 ((if f.master then 2 ^ 63 else 0) + f.ofs.toNat)
  | _ =>
    if 0x100 ≤ off ∧ off < 0x190 then
      let p := s.port ((off - 0x100) / 8)
      .ofNat 64 (bitsAt p.replay.toNat 32 + bitsAt p.peer.toNat 12 + bitsAt p.width.toNat 4 + p.state.toNat)
    else 0

/-- A write of the fabric register at a block offset. -/
def fabWrite (off : Nat) (v : Word) (s : State) : State :=
  match off with
  | 0x00 =>
    let d := v.toNat / 2 ^ 32 % 2 ^ 12
    let k := v.toNat % 2 ^ 12
    s.modFab (fun f => { f with
      dmax := if d < 2048 then .ofNat 12 d else f.dmax
      pkg := if 2048 ≤ k ∧ k ≠ 0xFFF then f.pkg else .ofNat 12 k })
  | 0x08 =>
    let tmo := v.toNat % 2 ^ 16
    s.modFab (fun f => { f with
      offh := (v >>> 48).setWidth 16, ctmo := (v >>> 32).setWidth 16, tmo := if tmo = 0 then 1 else .ofNat 16 tmo })
  | 0x10 =>
    s.modFab (fun f => { f with master := v.getLsbD 63, ofs := if v.getLsbD 63 = f.master then f.ofs else 0 })
  | _ => s

/-- An access that a register block answers: aligned, of 8 bytes (R371). -/
def registerAccess (off n : Nat) : Bool := n == 8 && off % 8 == 0

/-- A read of a place that an address leads to: bytes of memory, or a register block, which reads as zero in other
accesses than its own. -/
def readLoc (s : State) (loc : PaLoc) (n : Nat) : Nat :=
  match loc with
  | .mem key _ => readMem s key n
  | .pkgReg off => if registerAccess off n then (pkgRead s off).toNat else 0
  | .fabReg off => if registerAccess off n then (fabRead s off).toNat else 0
  | .bad => 0

/-- A write of a place that an address leads to. -/
def writeLoc (loc : PaLoc) (n v : Nat) (s : State) : State :=
  match loc with
  | .mem key _ => storeMem key n v s
  | .pkgReg off => if registerAccess off n then pkgWrite off (.ofNat 64 v) s else s
  | .fabReg off => if registerAccess off n then fabWrite off (.ofNat 64 v) s else s
  | .bad => s

/-- The state after a read of a place: the timebase may have been read. -/
def State.afterRead (s : State) (loc : PaLoc) : State :=
  match loc with
  | .pkgReg off => if off = 0x30 then s.clockRead else s
  | _ => s

/-- The home of a place is another package. DESIGN CHOICE: log entry 68. -/
def PaLoc.remote : PaLoc → Bool
  | .mem _ r => r
  | _ => false

/-- Data that a read of the place would find is uncorrectable (09_core_memory.md R229). -/
def locPoisoned (s : State) (loc : PaLoc) (n : Nat) : Bool :=
  match loc with
  | .mem key _ => poisoned s key n
  | _ => false

/-- A store of the place needs a granule that is uncorrectable. -/
def locStorePoisoned (s : State) (loc : PaLoc) (n : Nat) : Bool :=
  match loc with
  | .mem key _ => storePoisoned s key n
  | _ => false

end Sys2Proof.Machine
end

