-- ==== Sys2Proof/Machine/Member.lean ====
section
/-! DEFINITION. What a member of a convoy is: its class, its pipe, the shapes and masks it names, the checks and the
interlocks it adds, and its effect (05_convoy.md R111 to R121). Each vector word's member is built from the forms of
this file. -/

namespace Sys2Proof.Machine

/-- The classes of R111. -/
inductive Cls where
  /-- Element-wise. -/
  | e
  /-- Permute. -/
  | p
  /-- Reduction. -/
  | r
  /-- Non-element. -/
  | n
  /-- Alone. -/
  | a
  deriving DecidableEq, Repr, Inhabited

/-- The pipes of R112, by their codes; the scalar side and the sequencer have none. -/
inductive Pipe where
  | valu | sfu | perm | vmem | matrix | ladder | scalar | sequencer
  deriving DecidableEq, Repr, Inhabited

/-- The pipe codes of R112. -/
def Pipe.code : Pipe → Nat
  | .valu => 0 | .sfu => 1 | .perm => 2 | .vmem => 3 | .matrix => 4 | .ladder => 5 | .scalar => 6 | .sequencer => 7

/-- The members a pipe takes in one convoy; none where it has no limit. -/
def Pipe.capacity : Pipe → Option Nat
  | .valu => some 2
  | .scalar => none
  | _ => some 1

/-- A shape a member names. -/
structure Use where
  /-- The name v0 to v63. -/
  shape : Nat
  /-- The width it is walked at. -/
  ew : Nat
  rd : Bool
  wr : Bool
  /-- The elements it must hold (condition 3 of R83); none where the condition does not apply. -/
  need : Option Nat
  /-- Condition 4 of R83 applies, and the shape takes a box; not for the va of VLEN (R70). -/
  box : Bool
  deriving DecidableEq, Repr, Inhabited

/-- What one element of an E or P member, or the whole of another member, comes to. -/
inductive Step where
  /-- Performed: the state after it, the convoy-scalar writes and the rq entries that land when the convoy retires. -/
  | ok (s : State) (kout : List (Nat × Word)) (rqout : List Word)
  /-- It raises: the flags of the element, the cause, TVAL and MFINFO. Nothing is written. -/
  | trap (flags : FlagSet) (cause : Cause) (tval : Word) (mf : Option (BitVec 8))
  /-- A member that stands alone stops with state of its own: VSTART.K, VSTART.DONE, VISPOS and the trap. -/
  | stop (s : State) (k : Nat) (done : BitVec 4) (vispos : Word) (cause : Cause) (tval : Word)
      (mf : Option (BitVec 8))
  /-- It waits: the state with what it has done so far. -/
  | wait (s : State)
  deriving DecidableEq, Repr, Inhabited

/-- A member of a convoy. -/
structure Member where
  cls : Cls
  pipe : Pipe
  /-- The governing mask, 0 when none. -/
  mask : Nat
  /-- The shapes, in the order of R83. -/
  uses : List Use
  /-- The masks it reads besides the governing mask. -/
  maskReads : List Nat
  maskWrites : List Nat
  /-- Its pairing with VTYPE exists (R37). -/
  paired : Bool
  /-- Shapes it reads besides, which take a box and are not tested by R83. -/
  extra : List Use
  /-- The interlock that its checks wait for has released (11_core_ladder.md R282). -/
  settled : Bool
  /-- The checks at issue that its own description adds after R83. -/
  check : Option (Cause × Word)
  /-- It may issue: the interlocks of R117 that concern it. -/
  ready : Bool
  /-- dq entries it pops and rq entries it pushes (R115). -/
  pops : Nat
  pushes : Nat
  /-- Element e of an E or P member. -/
  elem : Nat → State → Step
  /-- The whole of an R, N or A member. -/
  run : State → Step
  /-- What it accesses at elements it runs; none where each shape is accessed at the active ones. -/
  touch : Option (List Nat → State → List Access)
  /-- The cells that count for the cost of a group; none where those of its elements in every shape do (05_convoy.md
  R119). -/
  cost : Option (List Nat → State → List Access)
  /-- It skips no cell group (05_convoy.md R119). -/
  always : Bool
  /-- Its MEM-DATA reports a store of the stream that was discarded (19_fabric.md R401). -/
  reports : Bool

/-- A member of a class and a pipe that names nothing and does nothing. -/
def Member.base (cls : Cls) (pipe : Pipe) : Member :=
  { cls := cls, pipe := pipe, mask := 0, uses := [], maskReads := [], maskWrites := [], extra := [], settled := true, paired := true,
    check := none, ready := true, pops := 0, pushes := 0, elem := fun _ s => .ok s [] [],
    run := fun s => .ok s [] [], touch := none, cost := none, always := false, reports := false }

/-- A shape that is read and walked by VL. -/
def readVl (n ew vl : Nat) : Use := ⟨n, ew, true, false, some vl, true⟩
/-- A shape that is written and walked by VL. -/
def writeVl (n ew vl : Nat) : Use := ⟨n, ew, false, true, some vl, true⟩
/-- A shape that is read and written, and walked by VL. -/
def updateVl (n ew vl : Nat) : Use := ⟨n, ew, true, true, some vl, true⟩
/-- A shape that is read at elements the word computes. -/
def readFree (n ew : Nat) : Use := ⟨n, ew, true, false, none, true⟩
/-- A shape that is written at an element that VL does not bound. -/
def writeFree (n ew : Nat) : Use := ⟨n, ew, false, true, none, true⟩

/-- The shapes of a member that take boxes (R85). -/
def Member.boxes (m : Member) : List Use := (m.uses ++ m.extra).filter (fun u => u.box)

/-- What a member accesses at elements it runs. -/
def Member.touched (m : Member) (l : List Nat) (s : State) : List Access :=
  match m.touch with
  | some f => f l s
  | none => m.boxes.map (fun u => ⟨u.shape, u.ew, activeOf m.mask l s⟩)

/-- What it reads at them. -/
def Member.readTouched (m : Member) (l : List Nat) (s : State) : List Access :=
  (m.touched l s).filter (fun a => m.boxes.any (fun u => u.rd && u.shape == a.shape && u.ew == a.ew))

/-- The bands that accesses find in RETAIN go ON (03_plane.md R91). -/
def wake (l : List Access) (s : State) : State :=
  s.modConv (fun c => { c with planepwr := wakeAll l c.planepwr s })

/-- Performed, with no writes that wait for the retirement. -/
def Step.done (s : State) : Step := .ok s [] []

/-- The end of an element: an enabled flag traps with the destination as TVAL (R104); otherwise the flags are set and
the result written. -/
def finishElem (dest : Nat) (fl : FlagSet) (write : State → State) (s : State) : Step :=
  match arithCause fl s.core.conv.vctl with
  | some c => .trap fl c (.ofNat 64 dest) none
  | none => .done (raiseFlags fl (write s))

/-! ## Sources -/

/-- A source operand of an element-wise word (R121). -/
inductive Src where
  | shape (n : Nat)
  | scalar (k : Nat)
  | imm (v : Int)
  | unused
  deriving DecidableEq, Repr, Inhabited

/-- The bits of a source at element e. -/
def Src.get (src : Src) (ew e : Nat) (s : State) : Nat :=
  match src with
  | .shape n => elemGet (shapeAt n s) ew e s
  | .scalar k => (readK k s).toNat % 2 ^ ew
  | .imm v => (v % 2 ^ ew).toNat
  | .unused => 0

/-- The shapes a source names. -/
def Src.uses (src : Src) (ew vl : Nat) : List Use :=
  match src with
  | .shape n => [readVl n ew vl]
  | _ => []

/-- The operands of the VK forms: fx = 1 swaps the shape and the scalar (R121). -/
def vkSources (a : Nat) (k : Nat) (swap : BitVec 1) : Src × Src :=
  if swap = 1 then (.scalar k, .shape a) else (.shape a, .scalar k)

/-- A 12-bit immediate, sign-extended (R31). -/
def immSrc (i : BitVec 12) : Src := .imm i.toInt

/-- An operation on the bits of its operands, under the convoy's registers. -/
abbrev ElemOp := Conv → Nat → Nat → Nat → Nat × FlagSet

/-- The body of R121: vd from x and y, and from the old vd when the operation reads it. -/
def elementwise (s0 : State) (pipe : Pipe) (paired : Bool) (d : Nat) (x y : Src) (readsD : Bool) (m : Nat)
    (op : ElemOp) : Member :=
  let ew := s0.core.conv.ew
  let vl := s0.vl
  { Member.base .e pipe with
    mask := m
    uses := (if readsD then updateVl d ew vl else writeVl d ew vl) :: (x.uses ew vl ++ y.uses ew vl)
    paired := paired
    elem := fun e s =>
      if maskBit m e s = false then .done s
      else
        let z := if readsD then elemGet (shapeAt d s) ew e s else 0
        let (raw, fl) := op s.core.conv (x.get ew e s) (y.get ew e s) z
        finishElem d fl (elemSet (shapeAt d s) ew e raw) s }

/-- The body of the VI words: x is the old vd and y the immediate (R121). -/
def elementwiseImm (s0 : State) (paired : Bool) (d : Nat) (y : Src) (readsD : Bool) (m : Nat) (op : ElemOp) :
    Member :=
  elementwise s0 .valu paired d .unused y readsD m (fun c _ y z => op c z y 0)

end Sys2Proof.Machine
end

