-- ==== Sys2Proof/Machine/VectorArith.lean ====
section
/-! DEFINITION. The element operations of the arithmetic families: floating point and special functions (05_convoy.md
R122, R123), integers (R124), logic, shifts and moves (R125), and the compares, mask logic and selects (R126 to
R128). -/

namespace Sys2Proof.Machine

/-! ## Floating point (R122, R123) -/

/-- An operation on two floating-point values under VTYPE. -/
def fOp2 (f : Rnd → FVal → FVal → Nat × FlagSet) : ElemOp :=
  fun c x y _ => f c.rnd (c.rnd.fmt.decode x) (c.rnd.fmt.decode y)

/-- An operation on one floating-point value. -/
def fOp1 (f : Rnd → FVal → Nat × FlagSet) : ElemOp := fun c x _ _ => f c.rnd (c.rnd.fmt.decode x)

/-- The minimum or the maximum. -/
def fMinMaxOp (greater : Bool) : ElemOp :=
  fun c x y _ => fMinMax c.rnd.fmt greater (c.rnd.fmt.decode x) (c.rnd.fmt.decode y) x y

/-- A fused multiply-add: ±(x × y) ± z with one rounding. -/
def fmaOp (negProduct negAddend : Bool) : ElemOp :=
  fun c x y z =>
    let f := c.rnd.fmt
    let p := if negProduct then (f.decode x).neg else f.decode x
    let a := if negAddend then (f.decode z).neg else f.decode z
    fFma c.rnd p (f.decode y) a

/-- The sign bit of a format. -/
def signBit (f : Fmt) : Nat := 2 ^ (f.ebits + f.fbits)

/-- The bits without the sign. -/
def magBits (f : Fmt) (x : Nat) : Nat := x % signBit f

/-- The sign bit of the bits, in place. -/
def signOf (f : Fmt) (x : Nat) : Nat := x / signBit f % 2 * signBit f

/-- x with the sign bit inverted. -/
def fNegOp : ElemOp := fun c x _ _ => (magBits c.rnd.fmt x + (signBit c.rnd.fmt - signOf c.rnd.fmt x), 0)
/-- x with the sign bit cleared. -/
def fAbsOp : ElemOp := fun c x _ _ => (magBits c.rnd.fmt x, 0)
/-- x with the sign bit of y. -/
def fCpysOp : ElemOp := fun c x y _ => (magBits c.rnd.fmt x + signOf c.rnd.fmt y, 0)
/-- x with the inverted sign bit of y. -/
def fCpysnOp : ElemOp := fun c x y _ => (magBits c.rnd.fmt x + (signBit c.rnd.fmt - signOf c.rnd.fmt y), 0)
/-- The kind of x in bits 2:0 and its sign in bit 3. -/
def fKindOp : ElemOp := fun c x _ _ => (kindOf c.rnd.fmt x + 8 * (x / signBit c.rnd.fmt % 2), 0)

/-! ## Integers (R124) -/

/-- An operation on the integer values of two operands, wrapped to the element. -/
def iOp2 (f : Int → Int → Int) : ElemOp :=
  fun c x y _ =>
    let t := intTyOf c.type
    (t.bits (f (t.value x) (t.value y)), 0)

/-- The quotient truncated toward zero: a zero divisor gives all ones, with DZ or NV (R124). -/
def iDivOp : ElemOp :=
  fun c x y _ =>
    let t := intTyOf c.type
    if y = 0 then (2 ^ t.width - 1, if x = 0 then flagNV else flagDZ)
    else (t.bits ((t.value x).tdiv (t.value y)), 0)

/-- The remainder with the sign of x: a zero divisor gives x, with the flags of the quotient. -/
def iRemOp : ElemOp :=
  fun c x y _ =>
    let t := intTyOf c.type
    if y = 0 then (x, if x = 0 then flagNV else flagDZ)
    else (t.bits ((t.value x).tmod (t.value y)), 0)

/-- An operation clamped to the type's range; SAT when it clamps. -/
def iSatOp (f : Int → Int → Int) : ElemOp :=
  fun c x y _ =>
    let t := intTyOf c.type
    let (raw, clamped) := t.clamp (f (t.value x) (t.value y))
    (raw, flagIf clamped flagSAT)

/-- The high half of the double-width product. -/
def iMulhOp : ElemOp :=
  fun c x y _ =>
    let t := intTyOf c.type
    (t.bits (t.value x * t.value y / 2 ^ t.width), 0)

/-! ## Logic, shifts and moves (R125) -/

/-- A bitwise operation on two elements of EW bits. -/
def bitOp (f : Nat → Nat → Nat) : ElemOp := fun c x y _ => (f x y % 2 ^ c.ew, 0)

/-- x & ~y. -/
def andnOp : ElemOp := fun c x y _ => (x &&& (2 ^ c.ew - 1 - y), 0)

/-- The shift amount: the low log2(EW) bits of y. -/
def shiftAmount (c : Conv) (y : Nat) : Nat := y % c.ew

def sllOp : ElemOp := fun c x y _ => (x * 2 ^ shiftAmount c y % 2 ^ c.ew, 0)
def srlOp : ElemOp := fun c x y _ => (x / 2 ^ shiftAmount c y, 0)
/-- x shifted right with its own sign bit, whatever the type's signedness. -/
def sraOp : ElemOp := fun c x y _ =>
  let t : IntTy := ⟨c.ew, true⟩
  (t.bits (t.value x / 2 ^ shiftAmount c y), 0)
def movOp : ElemOp := fun _ x _ _ => (x, 0)
/-- The immediate itself. -/
def immOp : ElemOp := fun _ _ y _ => (y, 0)

/-! ## Compares into a mask (R126) -/

/-- The compares, in the order of f3. -/
inductive Cmp where
  | eq | ne | lt | le | gt | ge | un
  deriving DecidableEq, Repr, Inhabited

/-- The truth of a compare from the order of its operands: 0 less, 1 equal, 2 greater. -/
def Cmp.holds (c : Cmp) (o : Nat) : Bool :=
  match c with
  | .eq => o == 1
  | .ne => o != 1
  | .lt => o == 0
  | .le => o != 2
  | .gt => o == 2
  | .ge => o != 0
  | .un => false

/-- The result of a compare, with its flags: a NaN operand makes VCNE and VCUN true and the others false, with NV for
the orderings, and for the rest only when it is signaling. -/
def cmpElem (cmp : Cmp) (t x y : Nat) : Bool × FlagSet :=
  if isI t then
    let a := (intTyOf t).value x
    let b := (intTyOf t).value y
    (cmp.holds (if a < b then 0 else if a = b then 1 else 2), 0)
  else
    let a := (fmtOf t).decode x
    let b := (fmtOf t).decode y
    if a.isNan || b.isNan then
      match cmp with
      | .ne | .un => (true, snanFlags [a, b])
      | .eq => (false, snanFlags [a, b])
      | _ => (false, flagNV)
    else (cmp.holds (cmpVal a b), 0)

/-- A compare member: bit e of md, whose number is the TVAL of its traps. DEDUCED: log entry 74. -/
def compareMember (s0 : State) (cmp : Cmp) (md : Nat) (x y : Src) (m : Nat) : Member :=
  let ew := s0.core.conv.ew
  let t := s0.core.conv.type
  { Member.base .e .valu with
    mask := m
    uses := x.uses ew s0.vl ++ y.uses ew s0.vl
    maskWrites := [md]
    paired := !isE2 t && !(cmp == .un && isI t)
    elem := fun e s =>
      if maskBit m e s = false then .done s
      else
        let (r, fl) := cmpElem cmp s.core.conv.type (x.get ew e s) (y.get ew e s)
        finishElem md fl (writeMaskBit md e r) s }

/-! ## Mask logic (R127) -/

/-- A mask-logic member: bit e of md from the bits of its sources. -/
def maskLogic (md : Nat) (srcs : List Nat) (m : Nat) (f : Nat → State → Bool) : Member :=
  { Member.base .e .valu with
    mask := m
    maskReads := srcs
    maskWrites := [md]
    elem := fun e s => if maskBit m e s = false then .done s else .done (writeMaskBit md e (f e s) s) }

/-! ## Select (R128) -/

/-- A select member: every element below VL is written; the mask chooses the value. -/
def selectMember (s0 : State) (d : Nat) (a : Nat) (other : Src) (m : Nat) : Member :=
  let ew := s0.core.conv.ew
  let vl := s0.vl
  { Member.base .e .valu with
    mask := m
    uses := writeVl d ew vl :: readVl a ew vl :: other.uses ew vl
    elem := fun e s =>
      let raw := if maskBit m e s then elemGet (shapeAt a s) ew e s else other.get ew e s
      .done (elemSet (shapeAt d s) ew e raw s)
    always := true
    touch := some (fun l s =>
      [⟨d, ew, l⟩, ⟨a, ew, activeOf m l s⟩]
        ++ (match other with
          | .shape n => [⟨n, ew, l.filter (fun e => !maskBit m e s)⟩]
          | _ => [])) }

end Sys2Proof.Machine
end

