-- ==== Sys2Proof/Machine/VectorMove.lean ====
section
/-! DEFINITION. The members of the conversions (05_convoy.md R129, R130), the permutes (R131), the reductions (R132;
04_numbers.md R106 to R108), the convoy scalars (R133, R134), and the words that set type, length, space and shapes
(03_plane.md R69 to R71, R77 to R79). -/

namespace Sys2Proof.Machine

/-! ## Conversions -/

/-- The conversion of the bits of one type into another (R129). -/
def convertElem (src dst rm : Nat) (sat : Bool) (x : Nat) : Nat × FlagSet :=
  if isI src && isI dst then
    let (raw, clamped) := (intTyOf dst).clamp ((intTyOf src).value x)
    (raw, flagIf clamped flagSAT)
  else convertTo dst rm sat (typeVal src x)

/-- VCVT. -/
def convertMember (s0 : State) (d a src m : Nat) : Member :=
  let t := s0.core.conv.type
  let vl := s0.vl
  { Member.base .e .valu with
    mask := m
    uses := [writeVl d (ewOf t) vl, readVl a (ewOf src) vl]
    paired := src != t && !isE2 src && !isE2 t
    elem := fun e s =>
      if maskBit m e s = false then .done s
      else
        let c := s.core.conv
        let (raw, fl) := convertElem src c.type c.rm c.sat (elemGet (shapeAt a s) (ewOf src) e s)
        finishElem d fl (elemSet (shapeAt d s) (ewOf c.type) e raw) s }

/-- The number of 32-element blocks of a length. -/
def blockCount (n : Nat) : Nat := (n + 31) / 32

/-- The participating elements of a block: active and below VL, with their values (R130). -/
def participants (b vl m : Nat) (val : Nat → FVal) (s : State) : List (Nat × FVal) :=
  ((List.range 32).map (fun t => 32 * b + t)).filterMap (fun i =>
    if decide (i < vl) && maskBit m i s then some (i, val i) else none)

/-- The first element of the run in its block. -/
def startsBlock (start e : Nat) : Bool := e % 32 == 0 || e == start

/-- The last element of a block. -/
def endsBlock (vl e : Nat) : Bool := e % 32 == 31 || e + 1 == vl

/-- The block of element e as it converts from the sources as they stand (03_plane.md R88); none when no element
participates. DEDUCED: log entry 67. -/
def latchBlock (block : Nat → State → Option Block) (e : Nat) (s : State) : State :=
  s.modConv (fun c => { c with block := block (e / 32) s })

/-- The code and the flags of an element in the block in hand. -/
def Block.at? (b : Option Block) (e : Nat) : Option (Nat × FlagSet) :=
  b.bind (fun b => (b.codes.find? (fun p => p.1 == e)).map (fun p => p.2))

/-- Element e of a block is written, and its flags are set. -/
def blockWrite (d : Nat) (block : Nat → State → Option Block) (e : Nat) (s : State) : State :=
  let u := latchBlock block e s
  match Block.at? u.core.conv.block e with
  | some p => raiseFlags p.2 (elemSet (shapeAt d u) u.core.conv.ew e p.1 u)
  | none => u

/-- The flags of the elements of a block from e up, each converted once those below it are written. -/
def blockFlags (d vl : Nat) (block : Nat → State → Option Block) (e : Nat) (s : State) : FlagSet :=
  (((List.range 32).map (fun t => 32 * (e / 32) + t)).foldl (fun (p : FlagSet × State) i =>
    if decide (e ≤ i) && decide (i < vl) then
      (p.1 ||| ((Block.at? (block (i / 32) p.2) i).map (·.2)).getD 0, blockWrite d block i p.2)
    else p) ((0 : FlagSet), s)).1

/-- Element e of a member that converts by blocks: an enabled flag of the block traps at its first element of the run, with
the block unwritten from there on; its metadata word is written after its last element (R98, R130, R260). The flags and
the CAUSE of the trap are those of all its elements from there on. DESIGN CHOICE: log entry 76. -/
def blockElem (d start vl : Nat) (block : Nat → State → Option Block) (e : Nat) (s : State) : Step :=
  let fl := if startsBlock start e ∧ s.core.conv.vctl ≠ 0 then blockFlags d vl block e s else 0
  match arithCause fl s.core.conv.vctl with
  | some c => .trap fl c (.ofNat 64 d) none
  | none =>
    let u := blockWrite d block e s
    .done (match (if endsBlock vl e then block (e / 32) u else none) with
      | some blk => elemSet (shapeAt 63 u) 16 (e / 32) blk.word u
      | none => u)

/-- VQNT. -/
def quantizeMember (s0 : State) (d a src m : Nat) : Member :=
  let t := s0.core.conv.type
  let vl := s0.vl
  let parts := fun (b : Nat) (s : State) =>
    participants b vl m (fun i => typeVal src (elemGet (shapeAt a s) (ewOf src) i s)) s
  { Member.base .p .sfu with
    mask := m
    uses := [writeVl d (ewOf t) vl, readVl a (ewOf src) vl, ⟨63, 16, false, true, some (blockCount vl), true⟩]
    paired := isF src && (isE2 t || isFp8 t)
    elem := blockElem d s0.core.conv.startK.toNat vl
      (fun b s =>
        let c := s.core.conv
        let l := parts b s
        if l.isEmpty then none else some (if isE2 c.type then toE2m1x l else toScaledFp8 c.type c.rm c.sat l))
    touch := some (fun l s =>
      let members := fun (b : Nat) => activeOf m (s.elems.filter (fun i => i / 32 == b)) s
      let on := activeOf m l s
      [⟨d, ewOf t, on⟩, ⟨a, ewOf src, on.flatMap (fun e => members (e / 32))⟩,
        ⟨63, 16, ((l.filter (endsBlock s.vl)).map (fun e => e / 32)).filter (fun b => !(members b).isEmpty)⟩]) }

/-- The value of an element of a scaled operand (R97, R130). -/
def scaledVal (src raw word : Nat) : FVal :=
  if isE2 src then e2m1Val raw word else blockScale (word % 256) ((fmtOf src).decode raw)

/-- VDQNT. An enabled flag of a block traps at the block's first element of the run (R130), with the flags and the CAUSE of
all its elements from there on. DESIGN CHOICE: log entry 76. -/
def dequantizeMember (s0 : State) (d a src m : Nat) : Member :=
  let t := s0.core.conv.type
  let vl := s0.vl
  let start := s0.core.conv.startK.toNat
  let conv := fun (i : Nat) (s : State) =>
    let x := scaledVal src (elemGet (shapeAt a s) (ewOf src) i s) (elemGet (shapeAt 63 s) 16 (i / 32) s)
    convertTo s.core.conv.type s.core.conv.rm s.core.conv.sat x
  { Member.base .p .sfu with
    mask := m
    uses := [writeVl d (ewOf t) vl, readVl a (ewOf src) vl, ⟨63, 16, true, false, some (blockCount vl), true⟩]
    paired := (isE2 src || isFp8 src) && isF t
    elem := fun e s =>
      let first := startsBlock start e
      let put := fun (i : Nat) (t : State) => elemSet (shapeAt d t) t.core.conv.ew i (conv i t).1 t
      let all := ((List.range 32).map (fun j => 32 * (e / 32) + j)).foldl (fun (p : FlagSet × State) i =>
        if decide (e ≤ i) && decide (i < vl) && maskBit m i p.2 then (p.1 ||| (conv i p.2).2, put i p.2) else p)
        ((0 : FlagSet), s)
      match (if first then arithCause all.1 s.core.conv.vctl else none) with
      | some c => .trap all.1 c (.ofNat 64 d) none
      | none =>
        if maskBit m e s = false then .done s
        else
          let (raw, fl) := conv e s
          .done (raiseFlags fl (elemSet (shapeAt d s) s.core.conv.ew e raw s))
    touch := some (fun l s =>
      let l := activeOf m l s
      [⟨d, ewOf t, l⟩, ⟨a, ewOf src, l⟩, ⟨63, 16, l.map (fun e => e / 32)⟩]) }

/-! ## Permutes -/

/-- A permute whose element e is given by its bits and flags, or left alone. -/
def permute (s0 : State) (d : Nat) (srcs : List Use) (m : Nat) (f : Nat → State → Option (Nat × FlagSet))
    (touch : List Nat → State → List Access) : Member :=
  { Member.base .p .perm with
    mask := m
    uses := writeVl d s0.core.conv.ew s0.vl :: srcs
    elem := fun e s =>
      if maskBit m e s = false then .done s
      else match f e s with
        | none => .done s
        | some (raw, fl) => finishElem d fl (elemSet (shapeAt d s) s.core.conv.ew e raw) s
    touch := some (fun l s => touch (activeOf m l s) s) }

/-- Element i of a shape under VTYPE. -/
def elemAt (n i : Nat) (s : State) : Nat := elemGet (shapeAt n s) s.core.conv.ew i s

/-- VGATH; the cells that its group reads count for its cost (R119). -/
def gatherMember (s0 : State) (d a b m : Nat) : Member :=
  let ew := s0.core.conv.ew
  let reads := fun (l : List Nat) (s : State) => [(⟨b, ew, l⟩ : Access),
    ⟨a, ew, (l.map (fun e => elemAt b e s)).filter (fun j => decide (j < (shapeAt a s).cap ew))⟩]
  { permute s0 d [readFree a ew, readVl b ew s0.vl] m (fun e s =>
      let j := elemAt b e s
      if j < (shapeAt a s).cap s.core.conv.ew then some (elemAt a j s, 0) else some (0, flagIDX))
      (fun l s => ⟨d, ew, l⟩ :: reads l s) with
    cost := some (fun l s => reads (activeOf m l s) s) }

/-- VHEAD. -/
def headMember (s0 : State) (d a b m : Nat) : Member :=
  let ew := s0.core.conv.ew
  permute s0 d [readVl a ew s0.vl, readFree b ew] m (fun e s =>
    some (if e = 0 then elemAt b 0 s else elemAt a (e - 1) s, 0))
    (fun l _ => [⟨d, ew, l⟩, ⟨b, ew, l.filter (fun e => e == 0)⟩,
      ⟨a, ew, (l.filter (fun e => e != 0)).map (fun e => e - 1)⟩])

/-- VTAIL. -/
def tailMember (s0 : State) (d a b m : Nat) : Member :=
  let ew := s0.core.conv.ew
  permute s0 d [readVl a ew s0.vl, readFree b ew] m (fun e s =>
    some (if e + 1 < s.vl then elemAt a (e + 1) s else elemAt b 0 s, 0))
    (fun l s => [⟨d, ew, l⟩, ⟨a, ew, (l.map (fun e => e + 1)).filter (fun e => decide (e < s.vl))⟩,
      ⟨b, ew, (l.filter (fun e => e + 1 == s.vl)).map (fun _ => 0)⟩])

/-- VBCAST. -/
def broadcastMember (s0 : State) (d a m : Nat) : Member :=
  let ew := s0.core.conv.ew
  permute s0 d [readFree a ew] m (fun _ s => some (elemAt a 0 s, 0))
    (fun l _ => [⟨d, ew, l⟩, ⟨a, ew, l.map (fun _ => 0)⟩])

/-- VRAISE. -/
def raiseMember (s0 : State) (d a k m : Nat) : Member :=
  let ew := s0.core.conv.ew
  permute s0 d [readVl a ew s0.vl] m (fun e s =>
    let n := (readK k s).toNat
    if n ≤ e then some (elemAt a (e - n) s, 0) else none)
    (fun l s =>
      let n := (readK k s).toNat
      let up := l.filter (fun e => decide (n ≤ e))
      [⟨d, ew, up⟩, ⟨a, ew, up.map (fun e => e - n)⟩])

/-- VLOWER. -/
def lowerMember (s0 : State) (d a k m : Nat) : Member :=
  let ew := s0.core.conv.ew
  permute s0 d [readFree a ew] m (fun e s =>
    let n := (readK k s).toNat
    some (if e + n < (shapeAt a s).cap s.core.conv.ew then elemAt a (e + n) s else 0, 0))
    (fun l s => [⟨d, ew, l⟩,
      ⟨a, ew, (l.map (fun e => e + (readK k s).toNat)).filter (fun j => decide (j < (shapeAt a s).cap ew))⟩])

/-- VBCASTK. -/
def broadcastScalarMember (s0 : State) (d k m : Nat) : Member :=
  permute s0 d [] m (fun _ s => some ((readK k s).toNat % 2 ^ s.core.conv.ew, 0))
    (fun l _ => [⟨d, s0.core.conv.ew, l⟩])

/-! ## Reductions -/

/-- A partial result: absent, or its bits; with the flags so far. -/
abbrev Partial := Option Nat × FlagSet

/-- One operation of a reduction: an absent operand passes the other through (R106). -/
def redStep (op : Nat → Nat → Nat × FlagSet) (x y : Partial) : Partial :=
  match x.1, y.1 with
  | some a, some b => let (r, fl) := op a b; (some r, x.2 ||| y.2 ||| fl)
  | some a, none => (some a, x.2 ||| y.2)
  | none, r => (r, x.2 ||| y.2)

/-- Adjacent pairs combined: one level of a tree. -/
def redLevel (op : Nat → Nat → Nat × FlagSet) : List Partial → List Partial
  | a :: b :: l => redStep op a b :: redLevel op l
  | l => l

/-- Lane l of a list with lane l + d, for l < d (R107). -/
def redFold (op : Nat → Nat → Nat × FlagSet) (d : Nat) (l : List Partial) : List Partial :=
  (List.range d).map (fun i => redStep op (l.getD i (none, 0)) (l.getD (i + d) (none, 0)))

/-- The lane order of R107. DEDUCED: log entry 67. -/
def laneOrder (op : Nat → Nat → Nat × FlagSet) (vl : Nat) (get : Nat → Partial) : Partial :=
  let lanes := (List.range 64).map (fun l =>
    (List.range ((vl + 63) / 64)).foldl (fun acc g =>
      if l + 64 * g < vl then redStep op acc (get (l + 64 * g)) else acc) (none, 0))
  ([32, 16, 8, 4, 2, 1].foldl (fun l d => redFold op d l) lanes).getD 0 (none, 0)

/-- The canonical tree of R108. -/
def canonicalTree (op : Nat → Nat → Nat × FlagSet) (vl : Nat) (get : Nat → Partial) : Partial :=
  (List.range (blockCount vl)).foldl (fun acc b =>
    let leaves := (List.range 32).map (fun t => if 32 * b + t < vl then get (32 * b + t) else (none, 0))
    let sum := (redLevel op (redLevel op (redLevel op (redLevel op (redLevel op leaves))))).getD 0 (none, 0)
    redStep op acc sum) (none, 0)

/-- A reduction member: `get` gives the bits of an active element, `op` combines two, `empty` stands for no active
element, `put` writes the result. -/
def reduction (s0 : State) (d a m : Nat) (paired tree : Bool) (op : Conv → Nat → Nat → Nat × FlagSet)
    (get : Conv → Nat → Nat × FlagSet) (empty : Conv → Nat) (put : Nat → State → State) : Member :=
  let ew := s0.core.conv.ew
  { Member.base .r .perm with
    mask := m
    uses := [writeFree d ew, readVl a ew s0.vl]
    paired := paired
    run := fun s =>
      let c := s.core.conv
      let leaf := fun (i : Nat) =>
        if maskBit m i s then let (r, fl) := get c (elemGet (shapeAt a s) c.ew i s); (some r, fl) else (none, 0)
      let (r, fl) := if tree && c.la then canonicalTree (op c) s.vl leaf else laneOrder (op c) s.vl leaf
      finishElem d fl (put (r.getD (empty c))) s
    touch := some (fun _ s => [⟨d, ew, [0]⟩, ⟨a, ew, activeOf m s.elems s⟩]) }

/-- Write element 0 of the destination under VTYPE. -/
def putFirst (d : Nat) (raw : Nat) (s : State) : State := elemSet (shapeAt d s) s.core.conv.ew 0 raw s

/-- The bits as they are. -/
def rawLeaf : Conv → Nat → Nat × FlagSet := fun _ x => (x, 0)

/-- A floating-point sum in VTYPE's format. -/
def fsumMember (s0 : State) (d a m : Nat) : Member :=
  reduction s0 d a m (isF s0.core.conv.type) true
    (fun c x y => fAdd c.rnd (c.rnd.fmt.decode x) (c.rnd.fmt.decode y)) rawLeaf (fun _ => 0) (putFirst d)

/-- A floating-point sum in FP32, written as FP32 into the first cell of the destination. -/
def fsumWideMember (s0 : State) (d a m : Nat) : Member :=
  reduction s0 d a m (isF s0.core.conv.type) true
    (fun c x y => fAdd ⟨fp32, c.rm, c.sat⟩ (fp32.decode x) (fp32.decode y))
    (fun c x => if c.type = 0 then (x, 0) else convertTo 0 c.rm c.sat (typeVal c.type x))
    (fun _ => 0)
    (fun raw s => let v := shapeAt d s; writeCell v.row0 v.col0 (.ofNat 32 raw) s)

/-- A floating-point maximum or minimum. -/
def fextremeMember (s0 : State) (d a m : Nat) (greater : Bool) : Member :=
  reduction s0 d a m (isF s0.core.conv.type) false
    (fun c x y => fMinMax c.rnd.fmt greater (c.rnd.fmt.decode x) (c.rnd.fmt.decode y) x y)
    rawLeaf (fun c => c.rnd.fmt.nanRaw) (putFirst d)

/-- An integer sum, wrapping. -/
def isumMember (s0 : State) (d a m : Nat) : Member :=
  reduction s0 d a m (isI s0.core.conv.type) false (fun c x y => ((x + y) % 2 ^ c.ew, 0)) rawLeaf (fun _ => 0)
    (putFirst d)

/-- An integer maximum or minimum; with no active element, the least or the greatest value of the type. -/
def iextremeMember (s0 : State) (d a m : Nat) (greater : Bool) : Member :=
  reduction s0 d a m (isI s0.core.conv.type) false
    (fun c x y =>
      let t := intTyOf c.type
      (if (t.value x < t.value y) = greater then y else x, 0))
    rawLeaf
    (fun c => let t := intTyOf c.type; t.bits (if greater then t.lo else t.hi))
    (putFirst d)

/-! ## Convoy scalars and rq (R133, R134) -/

/-- A scalar-side member that writes a convoy scalar. -/
def scalarMember (kd : Nat) (f : State → Word) : Member :=
  { Member.base .n .scalar with run := fun s => .ok s [(kd, f s)] [] }

/-- VKPOP: the entry is taken when the convoy issues; the scalar is written when it retires (R115). -/
def kpopMember (kd : Nat) : Member :=
  { Member.base .n .scalar with
    pops := 1
    run := fun s => .ok (s.modQ (fun q => { q with dq := q.dq.tail })) [(kd, s.core.q.dq.headD 0)] [] }

/-- VKGET: element 0 of a shape, sign-extended for the i types. -/
def kgetMember (s0 : State) (kd a : Nat) : Member :=
  { Member.base .n .scalar with
    uses := [readFree a s0.core.conv.ew]
    run := fun s =>
      let t := s.core.conv.type
      let raw := elemAt a 0 s
      .ok s [(kd, .ofInt 64 (if isI t then (intTyOf t).value raw else raw))] []
    touch := some (fun _ _ => [⟨a, s0.core.conv.ew, [0]⟩]) }

/-- A member that pushes an entry to rq when the convoy retires. -/
def pushMember (reads : List Nat) (f : State → Word) : Member :=
  { Member.base .n .scalar with maskReads := reads, pushes := 1, run := fun s => .ok s [] [f s] }

/-- The number of 1 bits of a mask below VL. -/
def maskCount (m : Nat) (s : State) : Nat := ((List.range s.vl).filter (fun i => maskBit m i s)).length

/-- The lowest 1 bit of a mask below VL; all ones when there is none. -/
def maskFirst (m : Nat) (s : State) : Word :=
  match (List.range s.vl).find? (fun i => maskBit m i s) with
  | some i => .ofNat 64 i
  | none => 0xFFFFFFFFFFFFFFFF

/-! ## Type, length, space and shapes -/

/-- A sequencer member: it stands alone. -/
def aloneMember (uses : List Use) (run : State → Step) : Member :=
  { Member.base .a .sequencer with uses := uses, run := run }

/-- VSETT: the low 8 bits of the immediate are VTYPE (R69). -/
def vsettMember (i : BitVec 8) : Member :=
  aloneMember [] (fun s => .done (s.modConv (fun c => { c with vtype := i })))

/-- Grant a length, and hand it back (R70). -/
def grantLength (k want : Nat) (s : State) : Step :=
  let g := min want 8192
  .ok (s.modConv (fun c => { c with vl := .ofNat 14 g })) [(k, .ofNat 64 g)] []

/-- VLEN of a scalar. -/
def vlenMember (k : Nat) : Member := aloneMember [] (fun s => grantLength k (readK k s).toNat s)

/-- VLEN of a shape: tested for conditions 1 and 2 only. -/
def vlenShapeMember (s0 : State) (k a : Nat) : Member :=
  aloneMember [⟨a, s0.core.conv.ew, true, false, none, false⟩]
    (fun s => grantLength k ((shapeAt a s).cap s.core.conv.ew) s)

/-- VSETMT (R71). -/
def vsetmtMember (f : State → BitVec 2) : Member :=
  aloneMember [] (fun s => .done (s.modConv (fun c => { c with vmt := f s })))

/-- VDEF (R77). -/
def vdefMember (d k : Nat) : Member :=
  aloneMember [] (fun s =>
    let desc := readK k s
    if descValid desc then .done (s.modConv (fun c => { c with table := spPut 0 c.table d desc }))
    else .trap 0 .shapeDef desc none)

/-- The access of VTLD and VTST to the 512 bytes at a TCM offset: its fault, or none (R78, R79). -/
def tableFault (s : State) (a : Word) (write : Bool) : Option MemFault :=
  if a.toNat % 8 ≠ 0 then some ⟨.memAlign, 7⟩
  else if 262144 < a.toNat + 512 then some ⟨.memRange, 7⟩
  else if !write && poisoned s (tcmKey s.coreId a.toNat) 512 then some ⟨.memData, 7⟩
  else none

/-- The access of the convoy stream to the table in TCM, for MFINFO. -/
def tableWant (write : Bool) : Want := ⟨8, write, false, false, true⟩

/-- Entry j of a table in TCM. -/
def tableEntry (s : State) (a : Word) (j : Nat) : Word := readMem64 s (tcmKey s.coreId (a.toNat + 8 * j))

/-- VTLD: all 64 entries are tested before any is written. -/
def vtldMember (k : Nat) : Member :=
  aloneMember [] (fun s =>
    let a := readK k s
    match tableFault s a false with
    | some f => .trap 0 f.cause a (some (mfinfoOf f.level (tableWant false) 0))
    | none =>
      match (List.range 64).find? (fun j => !descValid (tableEntry s a j)) with
      | some j => .trap 0 .shapeDef (a + .ofNat 64 (8 * j)) none
      | none => .done (s.modConv (fun c => { c with
          table := (List.range 64).foldl (fun t j => spPut 0 t j (tableEntry s a j)) c.table })))

/-- VTST. -/
def vtstMember (k : Nat) : Member :=
  aloneMember [] (fun s =>
    let a := readK k s
    match tableFault s a true with
    | some f => .trap 0 f.cause a (some (mfinfoOf f.level (tableWant true) 0))
    | none => .done ((List.range 64).foldl (fun t j =>
        storeMem (tcmKey s.coreId (a.toNat + 8 * j)) 8 (spGet 0 s.core.conv.table j).toNat t) s))

end Sys2Proof.Machine
end

