-- ==== Sys2Proof/Machine/VectorMem.lean ====
section
/-! DEFINITION. The members that reach memory: vector loads and stores (09_core_memory.md R220 to R229), the slab gather
VLDSLAB (16_die.md R356 to R358), feed appends VCAPP (06_issue.md R154 to R157) and the wait VWAIT (R158 to R160). -/

namespace Sys2Proof.Machine

/-! ## One element of a vector load or store -/

/-- The access of an element, for R226 and MFINFO. -/
def elemWant (size : Nat) (write ordered : Bool) : Want := ⟨size, write, false, !ordered, true⟩

/-- A memory fault of an element (R226, R234). -/
def elemFault (f : MemFault) (w : Want) (space : BitVec 2) (addr : Word) : Step :=
  .trap 0 f.cause addr (some (mfinfoOf f.level w space))

/-- A remote access that the fabric could not complete (19_fabric.md R401): a choice left open.
DESIGN CHOICE: log entry 29. -/
def remoteFails (s : State) (loc : PaLoc) : Bool := loc.remote && Config.freeBool s.tick

/-- The bytes of an element address that an earlier element of the same unordered store has written. -/
def storedBefore (s : State) (bpe key : Nat) : Bool :=
  s.core.conv.stored.any (fun k => decide (k ≤ key) && decide (key < k + bpe))

/-- Store an element of an unordered instruction: of several elements that write the same bytes, which one remains is
unspecified (R223). DESIGN CHOICE: log entry 22. -/
def storeUnordered (bpe key v : Nat) (s : State) : State :=
  let again := (List.range bpe).any (fun b => storedBefore s bpe (key + b))
  let s1 :=
    if again && !Config.laterWins s.tick then
      noteWrite key bpe ((List.range bpe).foldl (fun t b =>
        if storedBefore s bpe (key + b) then t else writeByte (key + b) (.ofNat 8 (v / 256 ^ b)) t) s)
    else storeMem key bpe v s
  (s1.modConv (fun c => { c with stored := key :: c.stored })).tickUp

/-- The value of an element that is loaded: the whole access, or one nibble of it (R221). -/
def loadedValue (ew i raw : Nat) : Nat := if ew = 4 then raw / 16 ^ (i % 2) % 16 else raw

/-- The bytes that a stored element leaves: for E2M1x, the byte with one nibble replaced. -/
def storedValue (ew i old v : Nat) : Nat :=
  if ew = 4 then (if i % 2 = 0 then old / 16 * 16 + v % 16 else v % 16 * 16 + old % 16) else v

/-- A load of element i from an address into a shape. DESIGN CHOICE: log entry 29. -/
def loadElem (ordered : Bool) (d i : Nat) (addr : Word) (s : State) : Step :=
  let c := s.core.conv
  let bpe := max 1 (c.ew / 8)
  let w := elemWant bpe false ordered
  match resolve s c.vmt addr w with
  | .error f => elemFault f w c.vmt addr
  | .ok loc =>
    if locPoisoned s loc bpe || remoteFails s loc then elemFault ⟨.memData, 7⟩ w c.vmt addr
    else .done ((elemSet (shapeAt d s) c.ew i (loadedValue c.ew i (readLoc s loc bpe)) s).afterRead loc).tickUp

/-- The record of a store of the convoy stream that the fabric discarded: the lowest-numbered is kept (R401). -/
def noteFailedStore (addr : Word) (s : State) : State :=
  s.modConv (fun c => { c with failedStore := some (c.failedStore.getD addr) })

/-- A store of element i of a shape to an address. One that the fabric could not complete may have been performed at its
home (19_fabric.md R401). DESIGN CHOICE: log entry 29. -/
def storeElem (ordered : Bool) (d i : Nat) (addr : Word) (s : State) : Step :=
  let c := s.core.conv
  let bpe := max 1 (c.ew / 8)
  let w := elemWant bpe true ordered
  match resolve s c.vmt addr w with
  | .error f => elemFault f w c.vmt addr
  | .ok loc =>
    let v := storedValue c.ew i (if c.ew = 4 then readLoc s loc 1 else 0) (elemGet (shapeAt d s) c.ew i s)
    let stored :=
      match loc with
      | .mem key _ => if ordered || c.ew == 4 then (storeMem key bpe v s).tickUp else storeUnordered bpe key v s
      | _ => (writeLoc loc bpe v s).tickUp
    if locStorePoisoned s loc bpe || (c.ew == 4 && locPoisoned s loc 1) then elemFault ⟨.memData, 7⟩ w c.vmt addr
    else if remoteFails s loc then
      .done (noteFailedStore addr (if Config.freeBool (s.tick + 1) then stored.tickUp else s.tickUp.tickUp))
    else .done stored

/-- A vector load or store of the form of R220. -/
def vmemMember (s0 : State) (load ordered : Bool) (d : Nat) (index : List Use) (m : Nat) (paired : Bool)
    (addr : Nat → State → Word) : Member :=
  let ew := s0.core.conv.ew
  { Member.base .e .vmem with
    mask := m
    uses := (if load then writeVl d ew s0.vl else readVl d ew s0.vl) :: index
    paired := paired
    elem := fun e s =>
      if maskBit m e s = false then .done s
      else if load then loadElem ordered d e (addr e s) s else storeElem ordered d e (addr e s) s }

/-- The address of an element of VLD and VST (R221). -/
def unitAddr (k : Nat) (imm : BitVec 9) (e : Nat) (s : State) : Word :=
  let ew := s.core.conv.ew
  readK k s + imm.signExtend 64 * 8 + .ofNat 64 (if ew = 4 then e / 2 else e * (ew / 8))

/-- The address of an element of VLD2 and VST2. -/
def walkAddr (k : Nat) (imm : BitVec 9) (e : Nat) (s : State) : Word :=
  let d := readK (k + 1) s
  let n := d.toNat % 2 ^ 16
  let n0 := if n = 0 then 65536 else n
  let inner : BitVec 16 := (d >>> 16).setWidth 16
  let outer : BitVec 32 := (d >>> 32).setWidth 32
  readK k s + imm.signExtend 64 * 8 + .ofNat 64 (e % n0) * inner.signExtend 64
    + .ofNat 64 (e / n0) * outer.signExtend 64

/-- The address of an element of VLDX and VSTX: fx[1:0] is the scale and fx[2] the extension. -/
def indexAddr (k a : Nat) (fx : BitVec 3) (e : Nat) (s : State) : Word :=
  let x : BitVec 32 := .ofNat 32 (elemGet (shapeAt a s) 32 e s)
  readK k s + ((if fx.getLsbD 2 then x.signExtend 64 else x.setWidth 64) <<< (fx.toNat % 4))

/-- VLD and VST. -/
def vldMember (s0 : State) (load : Bool) (d k : Nat) (imm : BitVec 9) (m : Nat) (o : BitVec 1) : Member :=
  vmemMember s0 load (o == 1) d [] m true (unitAddr k imm)

/-- VLD2 and VST2. -/
def vld2Member (s0 : State) (load : Bool) (d k : Nat) (imm : BitVec 9) (m : Nat) (o : BitVec 1) : Member :=
  vmemMember s0 load (o == 1) d [] m (!isE2 s0.core.conv.type) (walkAddr k imm)

/-- VLDX and VSTX: the index shape is walked as 32-bit elements. -/
def vldxMember (s0 : State) (load : Bool) (d k a : Nat) (fx : BitVec 3) (m : Nat) (o : BitVec 1) : Member :=
  vmemMember s0 load (o == 1) d [readVl a 32 s0.vl] m (!isE2 s0.core.conv.type) (indexAddr k a fx)

/-! ## Key-value slabs (R356, R357) -/

/-- A slab entry. -/
structure SlabEntry where
  base : Nat
  log2p : Nat
  tsz : Nat
  mov : Bool
  lock : Bool
  wmark : Nat
  res : Nat
  nbase : Nat
  /-- The entry is malformed. -/
  bad : Bool
  deriving DecidableEq, Repr, Inhabited

/-- The fields of the 32 bytes of an entry. -/
def slabEntry (n : Nat) : SlabEntry :=
  let base := n % 2 ^ 64
  let log2p := n / 2 ^ 64 % 256
  let tsz := n / 2 ^ 72 % 256
  let flags := n / 2 ^ 80 % 256
  let nbase := n / 2 ^ 192 % 2 ^ 64
  { base := base, log2p := log2p, tsz := tsz, mov := flags % 2 == 1, lock := flags / 2 % 2 == 1
    wmark := n / 2 ^ 96 % 2 ^ 32, res := n / 2 ^ 128 % 2 ^ 64, nbase := nbase
    bad := decide (4 ≤ flags) || n / 2 ^ 88 % 256 != 0 || decide (6 < log2p) || decide (tsz < 2) || decide (16 < tsz)
      || decide (log2p + 16 < tsz) || base % 65536 != 0 || nbase % 65536 != 0
      || (flags / 2 % 2 == 1 && flags % 2 == 0) }

/-- The pages missed, in rising order without repeats. -/
def addPage (p : Nat) : List Nat → List Nat
  | [] => [p]
  | q :: l => if p < q then p :: q :: l else if p = q then q :: l else q :: addPage p l

/-- What an element of VLDSLAB finds in its entry. -/
inductive SlabPlace where
  | range
  | locked
  | miss (page : Nat)
  | at (addr : Word)
  deriving DecidableEq, Repr, Inhabited

/-- Where token element (t, e) of the walk lies: p is its position and off its offset in the slab (R357). -/
def slabPlace (S : SlabEntry) (p off : Nat) : SlabPlace :=
  if 2 ^ (S.log2p + 16) ≤ off then .range
  else if S.mov && S.lock && p / 64 == S.wmark then .locked
  else if S.mov && decide (p / 64 < S.wmark) then .at (.ofNat 64 (S.nbase + off))
  else if S.res / 2 ^ (off / 65536) % 2 = 0 then .miss (off / 65536)
  else .at (.ofNat 64 (S.base + off))

/-- The read of an entry: its fault, or the entry; a home in another package may fail (19_fabric.md R401). -/
def readSlabEntry (s : State) (ea : Word) : Except MemFault SlabEntry :=
  let w : Want := ⟨32, false, false, true, true⟩
  match resolve s 3 ea w with
  | .error f => .error f
  | .ok loc =>
    if locPoisoned s loc 32 || remoteFails s loc then .error ⟨.memData, 7⟩
    else
      let S := slabEntry (readLoc s loc 32)
      if S.bad then .error ⟨.memRange, 7⟩ else .ok S

/-- One element of VLDSLAB. -/
def slabElem (d a t k : Nat) (i : Nat) (s : State) : Step :=
  let c := s.core.conv
  let bpe := c.ew / 8
  let ea := readK k s
  let w : Want := ⟨32, false, false, true, true⟩
  match readSlabEntry s ea with
  | .error f => elemFault f w 3 ea
  | .ok S =>
    let s := s.tickUp
    if 2 ^ S.tsz < bpe then elemFault ⟨.memAlign, 7⟩ w 3 ea
    else
      let n := 2 ^ S.tsz / bpe
      if (shapeAt a s).cap 32 ≤ i / n then elemFault ⟨.memRange, 7⟩ w 3 ea
      else
        let p := elemGet (shapeAt a s) 32 (i / n) s
        match slabPlace S p (p * 2 ^ S.tsz + i % n * bpe) with
        | .range => elemFault ⟨.memRange, 7⟩ w 3 ea
        | .locked => .wait s
        | .miss page => .done ((writeMaskBit t i true s).modConv (fun c =>
            { c with missed := addPage page c.missed, missEntry := ea }))
        | .at addr =>
          match loadElem false d i addr s with
          | .ok s' ko rq => .ok (writeMaskBit t i false s') ko rq
          | r => r

/-- What VLDSLAB accesses: the positions of the active elements, and the elements that it loads. -/
def slabTouch (d a k : Nat) (l : List Nat) (s : State) : List Access :=
  match readSlabEntry s (readK k s) with
  | .error _ => []
  | .ok S =>
    let bpe := s.core.conv.ew / 8
    let n := 2 ^ S.tsz / bpe
    let inside := l.filter (fun i => decide (i / n < (shapeAt a s).cap 32))
    [⟨a, 32, inside.map (fun i => i / n)⟩,
      ⟨d, s.core.conv.ew, inside.filter (fun i =>
        let p := elemGet (shapeAt a s) 32 (i / n) s
        match slabPlace S p (p * 2 ^ S.tsz + i % n * bpe) with
        | .at _ => true
        | _ => false)⟩]

/-- VLDSLAB. -/
def vldslabMember (s0 : State) (d a t k m : Nat) : Member :=
  let c := s0.core.conv
  { Member.base .e .vmem with
    mask := m
    uses := [writeVl d c.ew s0.vl, readFree a 32]
    maskWrites := [t]
    paired := !isE2 c.type
    check := if c.vmt = 3 then none else some (.memSpace, c.vmt.setWidth 64)
    elem := fun e s => if maskBit m e s = false then .done s else slabElem d a t k e s
    touch := some (fun l s => slabTouch d a k (activeOf m l s) s) }

/-- The event of the tier misses of a convoy's VLDSLAB (R358). -/
def missEvent (c : Conv) : Word :=
  .ofNat 64 (2 ^ 56 + c.missed.headD 0 * 2 ^ 48 + c.missed.length * 2 ^ 40 + c.missEntry.toNat / 32 % 2 ^ 40)

/-! ## Feed appends -/

/-- A feed queue of a cluster. -/
def Cluster.feed (c : Cluster) (q : Nat) : FeedQueue := poolGet .reset c.feeds q

/-- The feed queue changed. -/
def Cluster.modFeed (q : Nat) (f : FeedQueue → FeedQueue) (c : Cluster) : Cluster :=
  { c with feeds := poolSet c.feeds q (f (c.feed q)) }

/-- Entries of the ring between HEAD and TAIL. -/
def FeedQueue.held (f : FeedQueue) : Nat := (f.tail - f.head).toNat

/-- One entry is written at TAIL by a task; a multiple of VLFEED that it completes is to be crossed (R155, R156). -/
def feedWrite (q : Nat) (task : Nat) (v : Nat) (s : State) : State :=
  let f := s.cluster.feed q
  let s1 := storeMem (spadKey s.clusterId (f.base.toNat + 4 * (f.tail.toNat % f.cap.toNat))) 4 v s
  let full := f.partialCount + 1 = f.vlfeed.toNat
  s1.modCluster (·.modFeed q (fun f => { f with
    tail := f.tail + 1
    partialCount := if full then 0 else f.partialCount + 1
    written := if full then f.written ++ [task] else f.written }))

/-- The elements still to append: active, at or above `from'`. -/
def feedElems (m vl from' : Nat) (s : State) : List Nat :=
  ((List.range vl).filter (fun i => decide (from' ≤ i) && maskBit m i s))

/-- A feed-ready event of a queue, of the crossing at a position (R156). -/
def feedEvent (q pos : Nat) : Word := .ofNat 64 (2 * 2 ^ 56 + q % 16 * 2 ^ 48 + pos % 2 ^ 32)

/-- The event of a crossing of a feed queue is posted to this task and is not in eq yet. -/
def feedPosted (q : Nat) (s : State) : Bool := s.core.q.posts.any (fun w => w.toNat / 2 ^ 48 == 2 * 2 ^ 8 + q % 16)

/-- Some crossing of this task's entries is still to come, or its event is not in eq yet. -/
def feedEventWaits (q : Nat) (s : State) : Bool :=
  let f := s.cluster.feed q
  f.even && (f.written.contains s.core.task.serial || feedPosted q s)

/-- VCAPP: one chunk after another, waiting while the ring is full, and until the events of its crossings are in eq. -/
def feedRun (q m : Nat) (value : Nat → State → Nat) (s : State) : Step :=
  let start := ((s.core.conv.flight.map (·.capp)).getD 0)
  let elems := feedElems m s.vl start s
  let f := s.cluster.feed q
  let room := f.cap.toNat - f.held
  let now := elems.take room
  let s1 := now.foldl (fun t i => feedWrite q t.core.task.serial (value i s) t) s
  let rest := elems.drop room
  let s2 := s1.modConv (fun c => { c with flight := c.flight.map (fun g => { g with capp := rest.headD s.vl }) })
  if rest ≠ [] ∨ feedEventWaits q s2 then .wait s2 else .ok s2 [] []

/-- VCAPP of a shape, or of a scalar. -/
def vcappMember (s0 : State) (q m : Nat) (uses : List Use) (value : Nat → State → Nat) : Member :=
  { Member.base .n .vmem with
    mask := m
    uses := uses
    check := if (s0.cluster.feed q).cap = 0 then some (.feedOff, .ofNat 64 q) else none
    run := feedRun q m value }

/-- The entries of `vcapp vi`. -/
def vcappShape (s0 : State) (q a m : Nat) : Member :=
  vcappMember s0 q m [readVl a 32 s0.vl] (fun i s => elemGet (shapeAt a s) 32 i s)

/-- The entries of `vcapp kN`. -/
def vcappScalar (s0 : State) (q k m : Nat) : Member :=
  vcappMember s0 q m [] (fun i s => ((readK k s).toNat + i) % 2 ^ 32)

/-! ## VWAIT -/

/-- The condition of a wait on a buoy (R159, R161). -/
def buoyMet (mode : Nat) (x want : Word) : Bool :=
  match mode with
  | 0 => x == want
  | 1 => x != want
  | _ => decide (want.toNat ≤ x.toNat)

/-- The limit that remains after a wait (R159). -/
def remainingLimit (lim : Word) (elapsed : Word) : Word :=
  if lim = 0xFFFFFFFFFFFFFFFF then lim else .ofNat 64 (lim.toNat - elapsed.toNat)

/-- The tests of one pass over the elements still set: the state with the met bits cleared, and the fault that stops it
with its address. DEDUCED: log entry 64. -/
def waitPass (a d mode m : Nat) : List Nat → State → State × Option (MemFault × Word)
  | [], s => (s, none)
  | i :: l, s =>
    if maskBit m i s = false then waitPass a d mode m l s
    else
      let addr : Word := .ofNat 64 (elemGet (shapeAt a s) 64 i s)
      let w : Want := ⟨8, false, false, true, true⟩
      match resolve s s.core.conv.vmt addr w with
      | .error f => (s, some (f, addr))
      | .ok loc =>
        if locPoisoned s loc 8 || remoteFails s loc then (s, some (⟨.memData, 7⟩, addr))
        else
          let x : Word := .ofNat 64 (readLoc s loc 8)
          let want : Word := .ofNat 64 (elemGet (shapeAt d s) 64 i s)
          let t := (s.afterRead loc).tickUp
          waitPass a d mode m l (if buoyMet mode x want then writeMaskBit m i false t else t)

/-- VWAIT: a pass; success, the limit and a fault, which leaves VISPOS (06_issue.md R151), end it, and otherwise it
sleeps. -/
def waitRun (d a mode k m : Nat) (s : State) : Step :=
  if ((List.range s.vl).any (fun i => maskBit m i s)) = false then .ok s [] []
  else
    let lim := readK k s
    let (s1, fault) := waitPass a d mode m (List.range s.vl) s
    let left := remainingLimit lim (Config.elapsed s.tick)
    match fault with
    | some (f, addr) =>
      .stop (writeK k left s1).tickUp 0 0 s.core.conv.vispos f.cause addr
        (some (mfinfoOf f.level ⟨8, false, false, true, true⟩ s.core.conv.vmt))
    | none =>
      if ((List.range s.vl).any (fun i => maskBit m i s1)) = false then .ok s1.tickUp [(k, left)] []
      else if lim ≠ 0xFFFFFFFFFFFFFFFF ∧ (lim = 0 ∨ s.core.conv.expired) then .ok s1.tickUp [(k, 0)] []
      else .wait s1

/-- VWAIT stands alone on the VMEM pipe; its shapes are walked as 64-bit elements (R158). -/
def vwaitMember (s0 : State) (d a mode k m : Nat) : Member :=
  { Member.base .a .vmem with
    uses := [readVl d 64 s0.vl, readVl a 64 s0.vl]
    run := waitRun d a mode k m
    touch := some (fun _ s => [⟨d, 64, activeOf m s.elems s⟩, ⟨a, 64, activeOf m s.elems s⟩]) }

end Sys2Proof.Machine
end

