-- ==== Sys2Proof/Machine/VectorMatrix.lean ====
section
/-! DEFINITION. The matrix unit (10_core_matrix.md): views, products, the members of its words, and the ganged product
GMMA with its multicast (14_cluster.md R325 to R330). -/

namespace Sys2Proof.Machine

/-! ## Granted sizes -/

/-- MSIZE.M, N and K. -/
def sizeM (z : BitVec 26) : Nat := z.toNat % 128
def sizeN (z : BitVec 26) : Nat := z.toNat / 2 ^ 8 % 128
def sizeK (z : BitVec 26) : Nat := z.toNat / 2 ^ 16

/-- MSIZE of three sizes. -/
def packSize (m n k : Nat) : BitVec 26 := .ofNat 26 (m + n * 2 ^ 8 + k * 2 ^ 16)

/-- Kmax: 64 cells of elements (R247). -/
def kMax (ew : Nat) : Nat := 64 * (32 / ew)

/-- The types of an unscaled product and of a scaled one (R247). -/
def isMma (t : Nat) : Bool := decide (t ≤ 4)
def isMmas (t : Nat) : Bool := isFp8 t || isE2 t

/-! ## Matrix views (R246, R247) -/

/-- The rows and columns of the view of a RECT. -/
def viewDims (v : Shape) (ew : Nat) : Nat × Nat :=
  if v.colMajor then (rowElems v ew, v.h) else (v.h, rowElems v ew)

/-- Element (i, j) of a view. -/
def viewElem (v : Shape) (ew i j : Nat) (s : State) : Nat := elemGet v ew (i * (viewDims v ew).2 + j) s

/-- A view of at least so many rows and columns. -/
def viewHolds (v : Shape) (ew rows cols : Nat) : Bool :=
  v.kind == 1 && decide (rows ≤ (viewDims v ew).1) && decide (cols ≤ (viewDims v ew).2)

/-! ## Slabs in use (R249, R328) -/

/-- A slab that an arm or a share that is not complete names: other members that name it wait. -/
def slabHeld (s : State) (n : BitVec 2) : Bool :=
  let g := s.core.gang
  (g.armed && g.armSlab == n) || g.shares.any (fun h => h.slab == n && !h.ended && decide (h.pos < 8))

/-- Some slab is held. -/
def anySlabHeld (s : State) : Bool :=
  s.core.gang.armed || s.core.gang.shares.any (fun h => !h.ended && decide (h.pos < 8))

/-- MAT-OFF (R249). -/
def matOff (s : State) (n : BitVec 2) : Option (Cause × Word) :=
  if s.core.mat.en then none else some (.matOff, n.setWidth 64)

/-- The first of two checks that fails. -/
def orCheck (a b : Option (Cause × Word)) : Option (Cause × Word) := a.or b

/-- A check that raises a cause on a shape. -/
def shapeCheck (bad : Bool) (c : Cause) (n : Nat) : Option (Cause × Word) := if bad then some (c, .ofNat 64 n) else none

/-! ## Products (R256, R257; 04_numbers.md R109) -/

/-- The exact sum of some products; the sign of an exact zero sum is minus only when every product is. -/
def sumOf : List FVal → Option FVal × FlagSet
  | [] => (none, 0)
  | p :: l =>
    match sumOf l with
    | (none, _) => (some p, 0)
    | (some q, f1) =>
      let (v, f2) := addVal rmNearest p q
      (some v, f1 ||| f2)

/-- Some value is an infinity of a sign. -/
def anyInf (neg : Bool) (l : List FVal) : Bool := l.any (fun x => x.isInf && x.isNeg == neg)

/-- The exact sum of the products of one K-group, with its flags: opposite infinities set NV wherever they stand in the
group (R109). -/
def groupSum (ps : List (FVal × FlagSet)) : Option FVal × FlagSet :=
  let vs := ps.map (·.1)
  let (v, f) := sumOf vs
  (v, ps.foldl (fun acc p => acc ||| p.2) (f ||| flagIf (anyInf false vs && anyInf true vs) flagNV))

/-- One K-group added into an FP32 value: one rounding (R109). -/
def addGroup (acc : BitVec 32) (l : List (FVal × FlagSet)) : BitVec 32 × FlagSet :=
  match groupSum l with
  | (none, _) => (acc, 0)
  | (some v, f) =>
    let (raw, g) := fAdd ⟨fp32, rmNearest, false⟩ (fp32.decode acc.toNat) v
    (.ofNat 32 raw, f ||| g)

/-- All the K-groups of one element, in ascending order, from its products. -/
def addProducts (kc k : Nat) (p : Nat → FVal × FlagSet) (acc : BitVec 32) : BitVec 32 × FlagSet :=
  (List.range ((k + kc - 1) / kc)).foldl (fun r g =>
    let idx := ((List.range kc).map (fun t => g * kc + t)).filter (fun q => decide (q < k))
    let (v, f) := addGroup r.1 (idx.map p)
    (v, r.2 ||| f)) (acc, 0)

/-- Products, of each row and column with each k, into slab n of the core in focus: the rows and columns inside the sizes
whose predicates are 1. -/
def productInto (n : Nat) (z : BitVec 26) (rowp colp : Word) (kc : Nat) (p : Nat → Nat → Nat → FVal × FlagSet)
    (s : State) : State :=
  ((List.range (sizeM z)).filter (fun i => rowp.getLsbD i)).foldl (fun s i =>
    ((List.range (sizeN z)).filter (fun j => colp.getLsbD j)).foldl (fun s j =>
      let (v, f) := addProducts kc (sizeK z) (p i j) (readAcc n i j s)
      raiseFlags f (writeAcc n i j v s)) s) s

/-- The product of the values of two views. -/
def product2 (n : Nat) (z : BitVec 26) (rowp colp : Word) (kc : Nat) (a b : Nat → Nat → FVal) (s : State) : State :=
  productInto n z rowp colp kc (fun i j k => mulVal (a i k) (b k j)) s

/-- The product of two elements under their metadata words: the block scales of FP8 elements come to the product of the
elements themselves, whose flags it keeps, and a scale of 0xFF makes it NaN; the decode of E2M1x elements holds their
scales (R257; 04_numbers.md R95, R97, R109). -/
def scaledProduct (t x wx y wy : Nat) : FVal × FlagSet :=
  if isE2 t then mulVal (e2m1Val x wx) (e2m1Val y wy)
  else
    let p := mulVal ((fmtOf t).decode x) ((fmtOf t).decode y)
    (blockScale (wx % 256) (blockScale (wy % 256) p.1), p.2)

/-- The checks of R262 on the operands of a product. -/
def productCheck (s : State) (n : BitVec 2) (a b : Nat) : Option (Cause × Word) :=
  let ew := s.core.conv.ew
  let z := s.core.mat.msize
  orCheck (matOff s n) (orCheck
    (shapeCheck (!viewHolds (shapeAt a s) ew (sizeM z) (sizeK z) || decide (kMax ew < sizeK z)) .matView a)
    (shapeCheck (!viewHolds (shapeAt b s) ew (sizeK z) (sizeN z)) .matView b))

/-- The block-count checks of R257. -/
def scaleCheck (s : State) (a b : Nat) : Option (Cause × Word) :=
  let ew := s.core.conv.ew
  let z := s.core.mat.msize
  let va := shapeAt a s
  let vb := shapeAt b s
  let nc := (viewDims va ew).2
  let nr := (viewDims vb ew).1
  let need := fun (rows q : Nat) => (((rows : Int) - 1) * (q : Int) + ((sizeK z + 31) / 32 : Nat)).toNat
  orCheck (shapeCheck (nc % 32 != 0) .matView a) (orCheck (shapeCheck (nr % 32 != 0) .matView b) (orCheck
    (shapeCheck (decide ((shapeAt 63 s).cap 16 < need (sizeM z) (nc / 32))) .shapeLength 63)
    (shapeCheck (decide ((shapeAt 62 s).cap 16 < need (sizeN z) (nr / 32))) .shapeLength 62)))

/-- The checks of MMAS: MAT-OFF and MAT-VIEW on each shape, then the counts. -/
def scaledCheck (s : State) (n : BitVec 2) (a b : Nat) : Option (Cause × Word) :=
  let ew := s.core.conv.ew
  let z := s.core.mat.msize
  let va := shapeAt a s
  let vb := shapeAt b s
  orCheck (matOff s n) (orCheck
    (shapeCheck (!viewHolds va ew (sizeM z) (sizeK z) || decide (kMax ew < sizeK z)
      || (viewDims va ew).2 % 32 != 0) .matView a) (orCheck
    (shapeCheck (!viewHolds vb ew (sizeK z) (sizeN z) || (viewDims vb ew).1 % 32 != 0) .matView b)
    (scaleCheck s a b)))

/-- The rows inside M whose predicate is 1. -/
def rowsOn (z : BitVec 26) (rowp : Word) : List Nat := (List.range (sizeM z)).filter (fun i => rowp.getLsbD i)

/-- The columns inside N whose predicate is 1. -/
def colsOn (z : BitVec 26) (colp : Word) : List Nat := (List.range (sizeN z)).filter (fun j => colp.getLsbD j)

/-- The elements of some rows and columns of a view. -/
def viewElems (v : Shape) (ew : Nat) (rows cols : List Nat) : List Nat :=
  (rows.map (fun i => cols.map (fun j => i * (viewDims v ew).2 + j))).flatten

/-- A grant with a zero field: a product reads and writes nothing (R256). -/
def emptyGrant (z : BitVec 26) : Bool := sizeM z == 0 || sizeN z == 0 || sizeK z == 0

/-- What a product accesses of its operands: what the rows and columns that its predicates leave take part in. -/
def productTouch (a b : Nat) (cols : List Nat) (s : State) : List Access :=
  let ew := s.core.conv.ew
  let z := s.core.mat.msize
  let ks := List.range (sizeK z)
  let rows := rowsOn z s.core.mat.mrowp
  if emptyGrant z then []
  else [⟨a, ew, if cols.isEmpty then [] else viewElems (shapeAt a s) ew rows ks⟩,
    ⟨b, ew, if rows.isEmpty then [] else viewElems (shapeAt b s) ew ks cols⟩]

/-- The metadata words of some rows of an operand of q blocks a row, over K. -/
def scaleElems (z : BitVec 26) (q : Nat) (rows : List Nat) : List Nat :=
  (rows.map (fun i => (List.range (sizeK z)).map (fun k => i * q + k / 32))).flatten

/-- MMA. -/
def mmaMember (s0 : State) (n : BitVec 2) (a b : Nat) : Member :=
  let c := s0.core.conv
  { Member.base .n .matrix with
    uses := [readFree a c.ew, readFree b c.ew]
    paired := isMma c.type
    check := productCheck s0 n a b
    ready := !slabHeld s0 n
    run := fun s =>
      let c := s.core.conv
      let m := s.core.mat
      let va := shapeAt a s
      let vb := shapeAt b s
      .done (product2 n.toNat m.msize m.mrowp m.mcolp (32 / c.ew)
        (fun i k => typeVal c.type (viewElem va c.ew i k s)) (fun k j => typeVal c.type (viewElem vb c.ew k j s)) s)
    touch := some (fun _ s => productTouch a b (colsOn s.core.mat.msize s.core.mat.mcolp) s) }

/-- MMAS: the scales of the blocks are A's through v63 and B's through v62 (R257). -/
def mmasMember (s0 : State) (n : BitVec 2) (a b : Nat) : Member :=
  let c := s0.core.conv
  { Member.base .n .matrix with
    uses := [readFree a c.ew, readFree b c.ew, ⟨63, 16, true, false, none, true⟩, ⟨62, 16, true, false, none, true⟩]
    paired := isMmas c.type
    check := scaledCheck s0 n a b
    ready := !slabHeld s0 n
    run := fun s =>
      let c := s.core.conv
      let m := s.core.mat
      let va := shapeAt a s
      let vb := shapeAt b s
      let qa := (viewDims va c.ew).2 / 32
      let qb := (viewDims vb c.ew).1 / 32
      .done (productInto n.toNat m.msize m.mrowp m.mcolp (32 / c.ew) (fun i j k => scaledProduct c.type
        (viewElem va c.ew i k s) (elemGet (shapeAt 63 s) 16 (i * qa + k / 32) s)
        (viewElem vb c.ew k j s) (elemGet (shapeAt 62 s) 16 (j * qb + k / 32) s)) s)
    touch := some (fun _ s =>
      let z := s.core.mat.msize
      let cols := colsOn z s.core.mat.mcolp
      productTouch a b cols s ++ if emptyGrant z then [] else
        let rows := rowsOn z s.core.mat.mrowp
        [⟨63, 16, if cols.isEmpty then [] else scaleElems z ((viewDims (shapeAt a s) s.core.conv.ew).2 / 32) rows⟩,
          ⟨62, 16, if rows.isEmpty then [] else scaleElems z ((viewDims (shapeAt b s) s.core.conv.ew).1 / 32) cols⟩]) }

/-! ## Power, sizes and scale -/

/-- The matrix unit is enabled: every slab element reads as +0, also one that the debug port wrote before (R250). -/
def Matrix.enable (m : Matrix) : Matrix := if m.en then m else { m with en := true, acc := [] }

/-- MEN (R250). -/
def menMember : Member := { Member.base .n .matrix with run := fun s => .done (s.modMat Matrix.enable) }

/-- The numbers under which the writes that land at a convoy's retirement stand: k0 to k7, MSHAPE, MSCL and MDIS. -/
def outShape : Nat := 8
def outScale : Nat := 9
def outDisable : Nat := 10

/-- MDIS: the unit is disabled once every other member of the convoy has finished (R251). -/
def mdisMember (s0 : State) : Member :=
  { Member.base .n .matrix with ready := !anySlabHeld s0, run := fun s => .ok s [(outDisable, 0)] [] }

/-- Every element of a slab is +0. -/
def zeroSlab (n : Nat) (s : State) : State :=
  s.modMat (fun m => { m with acc := m.acc.filter (fun p => decide (p.1 / 4096 ≠ n)) })

/-- MZERO (R252). -/
def mzeroMember (s0 : State) (n : BitVec 2) : Member :=
  { Member.base .n .matrix with
    check := matOff s0 n
    ready := !slabHeld s0 n
    run := fun s => .done (zeroSlab n.toNat s) }

/-- The grant of MSHAPE (R253). -/
def grantShape (ew : Nat) (req : Word) : Word :=
  let n := req.toNat
  .ofNat 64 (min (n % 2 ^ 16) 64 + min (n / 2 ^ 16 % 2 ^ 16) 64 * 2 ^ 16 + min (n / 2 ^ 32 % 2 ^ 16) (kMax ew) * 2 ^ 32)

/-- The low bits of a predicate. -/
def lowOnes (n : Nat) : Word := .ofNat 64 (2 ^ n - 1)

/-- MSHAPE: the grant lands in the scalar and in the sizes when the convoy retires. -/
def mshapeMember (s0 : State) (k : Nat) : Member :=
  { Member.base .n .matrix with
    paired := isMma s0.core.conv.type || isMmas s0.core.conv.type
    run := fun s =>
      let g := grantShape s.core.conv.ew (readK k s)
      .ok s [(k, g), (outShape, g)] [] }

/-- MSCL (R255). -/
def msclMember (k : Nat) : Member :=
  { Member.base .n .matrix with run := fun s => .ok s [(outScale, readK k s)] [] }

/-- A write that lands when a convoy retires (05_convoy.md R115). -/
def landWrite (p : Nat × Word) (s : State) : State :=
  if p.1 < 8 then writeK p.1 p.2 s
  else if p.1 = outShape then
    let n := p.2.toNat
    let m := n % 2 ^ 16
    let nn := n / 2 ^ 16 % 2 ^ 16
    s.modMat (fun x => { x with
      msize := packSize m nn (n / 2 ^ 32 % 2 ^ 16), mrowp := lowOnes m, mcolp := lowOnes nn })
  else if p.1 = outScale then s.modMat (fun x => { x with mxscl := p.2 &&& 0xFFFFFFFF000000FF })
  else s.modMat (fun x => { x with en := false, acc := [] })

/-! ## MEXT and MINS (R260) -/

/-- The three kinds of slice. -/
inductive Slice where
  | row (s : Nat)
  | col (s : Nat)
  | rect
  deriving DecidableEq, Repr, Inhabited

/-- The slot of element i. -/
def Slice.slot (k : Slice) (z : BitVec 26) (i : Nat) : Nat × Nat :=
  match k with
  | .row s => (s, i)
  | .col s => (i, s)
  | .rect => (i / sizeN z, i % sizeN z)

/-- The slice length. -/
def Slice.length (k : Slice) (z : BitVec 26) : Nat :=
  match k with
  | .rect => sizeM z * sizeN z
  | _ => 64

/-- Element i takes part: inside the slice, active, below VL, and with both predicate bits. -/
def takesPart (k : Slice) (m i : Nat) (s : State) : Bool :=
  let x := s.core.mat
  let (r, c) := k.slot x.msize i
  decide (i < k.length x.msize) && decide (i < s.vl) && maskBit m i s && x.mrowp.getLsbD r && x.mcolp.getLsbD c

/-- What element i of a MEXT writes back, before its conversion (R110). -/
def extractVal (n : Nat) (k : Slice) (i : Nat) (s : State) : FVal × FlagSet :=
  let x := s.core.mat
  let (r, c) := k.slot x.msize i
  writebackVal (readAcc n r c s).toNat (x.mxscl.toNat % 256) (x.mxscl.toNat / 2 ^ 32)

/-- The block of a MEXT into E2M1x: R98 over the elements that take part, with the flags of each write-back. -/
def extractBlock (start n : Nat) (k : Slice) (m b : Nat) (s : State) : Option Block :=
  let idx := ((List.range 32).map (fun t => 32 * b + t)).filter (fun i => decide (start ≤ i) && takesPart k m i s)
  let vals := idx.map (fun i => (i, extractVal n k i s))
  let blk := toE2m1x (vals.map (fun p => (p.1, p.2.1)))
  if idx.isEmpty then none
  else some { blk with codes := blk.codes.map (fun c =>
      (c.1, c.2.1, c.2.2 ||| ((vals.find? (fun p => p.1 == c.1)).map (·.2.2)).getD 0)) }

/-- What MEXT and MINS access: the elements that take part, with the words of their blocks. -/
def sliceTouch (d : Nat) (k : Slice) (m : Nat) (l : List Nat) (s : State) : List Access :=
  let c := s.core.conv
  let l := l.filter (fun i => takesPart k m i s)
  ⟨d, c.ew, l⟩ :: (if isE2 c.type then [⟨63, 16, l.map (fun i => i / 32)⟩] else [])

/-- MEXT. -/
def mextMember (s0 : State) (d : Nat) (n : BitVec 2) (k : Slice) (m : Nat) : Member :=
  let c := s0.core.conv
  let scale : List Use := if isE2 c.type then [⟨63, 16, false, true, some (blockCount s0.vl), true⟩] else []
  { Member.base .p .matrix with
    mask := m
    uses := writeVl d c.ew s0.vl :: scale
    check := matOff s0 n
    ready := !slabHeld s0 n
    elem := fun e s =>
      let c := s.core.conv
      if isE2 c.type then
        blockElem d s0.core.conv.startK.toNat s.vl (extractBlock s0.core.conv.startK.toNat n.toNat k m) e s
      else if takesPart k m e s = false then .done s
      else
        let (v, f1) := extractVal n.toNat k e s
        let (raw, f2) := convertTo c.type c.rm c.sat v
        finishElem d (f1 ||| f2) (elemSet (shapeAt d s) c.ew e raw) s
    touch := some (sliceTouch d k m)
    cost := some (fun l _ => ⟨d, c.ew, l⟩ :: (if isE2 c.type then [⟨63, 16, l.map (fun i => i / 32)⟩] else [])) }

/-- What element i of a MINS brings: FP32 bits unchanged, anything else rounded to FP32. -/
def insertVal (d i : Nat) (s : State) : BitVec 32 × FlagSet :=
  let c := s.core.conv
  if c.type = 0 then (.ofNat 32 (elemGet (shapeAt d s) 32 i s), 0)
  else
    let (raw, f) := convertTo 0 c.rm false (elemVal (shapeAt d s) c.type i s)
    (.ofNat 32 raw, f)

/-- MINS. -/
def minsMember (s0 : State) (d : Nat) (n : BitVec 2) (k : Slice) (m : Nat) : Member :=
  let c := s0.core.conv
  let scale : List Use := if isE2 c.type then [⟨63, 16, true, false, some (blockCount s0.vl), true⟩] else []
  { Member.base .n .matrix with
    mask := m
    uses := readVl d c.ew s0.vl :: scale
    check := matOff s0 n
    ready := !slabHeld s0 n
    run := fun s =>
      let start := s.core.conv.startK.toNat
      .done (((List.range s.vl).filter (fun i => decide (start ≤ i) && takesPart k m i s)).foldl (fun t i =>
        let (r, c) := k.slot s.core.mat.msize i
        let (v, f) := insertVal d i s
        raiseFlags f (writeAcc n.toNat r c v t)) s)
    touch := some (sliceTouch d k m) }

/-! ## The ganged product (14_cluster.md R325 to R330) -/

/-- This task's slot. -/
def State.slot (s : State) : Nat := s.core.task.gslot.toNat % 128

/-- The other slots that GSEL selects, with their window positions. -/
def gangSlots (gsel : BitVec 24) : List (Nat × Nat) :=
  ((List.range 8).filter (fun t => gsel.getLsbD (8 + t))).map (fun t => (t, gsel.toNat % 128 + t))

/-- A slot of this task's group: its task, absent when there is none. -/
def gangTask (s : State) (slot : Nat) : Option GangTask :=
  match s.cluster.groupOf s.core.task.serial with
  | some (g, _) => g.tasks[slot]?
  | none => none

/-- The slot has been abandoned: the cause of its double trap (R330). -/
def abandonedCause (s : State) (slot : Nat) : Option (BitVec 8) :=
  match gangTask s slot with
  | some t => match t.place with
    | .abandoned code => some code
    | _ => none
  | none => none

/-- The slot has been abandoned. -/
def slotAbandoned (s : State) (slot : Nat) : Bool := (abandonedCause s slot).isSome

/-- The core of a slot, armed for this task's slot. -/
def armedCore (s : State) (slot : Nat) : Option Nat :=
  match gangTask s slot with
  | some t =>
    let c := s.coreAt t.core
    if t.place = .running ∧ c.gang.armed ∧ c.gang.armIslot.toNat = s.slot then some t.core else none
  | none => none

/-- Every other participant has an arm that names the issuer's slot, or has been abandoned. -/
def gangArmed (s : State) : Bool :=
  (gangSlots s.core.gang.gsel).all (fun p => (armedCore s p.2).isSome || slotAbandoned s p.2)

/-- The B view of a product as the multicast brings it. -/
def latchB (s : State) (b : Nat) : Sp Nat :=
  let ew := s.core.conv.ew
  let z := s.core.mat.msize
  (List.range (sizeK z)).foldl (fun m k =>
    (List.range (sizeN z)).foldl (fun m j => spPut 0 m (64 * k + j) (viewElem (shapeAt b s) ew k j s)) m) []

/-- A failed share in the issuer's GSTAT (R327). -/
def failShare (pos : Nat) (g : Gang) : Gang := { g with gstat := g.gstat ||| .ofNat 9 (256 + 2 ^ pos) }

/-- The events that a GMMA posts to its issuer for the abandoned slots that it names (R330). -/
def abandonedEvents (s : State) (l : List (Nat × Nat)) : List Word :=
  l.filterMap (fun p => (abandonedCause s p.2).map (fun code => abandonEvent code p.2))

/-- The multicast to one participant: its arm is consumed, or, for an abandoned slot, the share fails at once with one
event to the issuer (R330). -/
def multicastTo (share : Share) (p : Nat × Nat) (s : State) : State :=
  match armedCore s p.2 with
  | some core =>
    s.modCoreAt core (fun c => { c with gang := { c.gang with
      armed := false
      shares := c.gang.shares ++
        [{ share with pos := p.1, slab := c.gang.armSlab, bar := some c.gang.armBar, mark := c.gang.armMark }] } })
  | none =>
    match abandonedCause s p.2 with
    | some code => (s.modGang (failShare p.1)).modQ (·.post (abandonEvent code p.2))
    | none => s

/-- The store of the convoy stream that a GMMA reports: every GMMA is a release, through the arrivals of its participants
(R327, R334; 19_fabric.md R401). -/
def releaseFault (s : State) : Option Word := s.core.conv.failedStore

/-- GMMA: the issuer's own product, and the multicast to the armed participants (R325). -/
def gmmaMember (s0 : State) (n : BitVec 2) (a b : BitVec 6) : Member :=
  let base := mmaMember s0 n a.toNat b.toNat
  { base with
    ready := base.ready && gangArmed s0
    reports := true
    run := fun s =>
      let g := s.core.gang.gsel
      let m := s.core.mat
      let share : Share :=
        { issuer := s.coreId, issuerTask := s.core.task.serial, issuerSlot := .ofNat 7 s.slot, pos := 8, a := a, slab := n
          bar := if g.getLsbD 23 then some (.ofNat 5 (g.toNat / 2 ^ 16)) else none
          vtype := s.core.conv.vtype, msize := m.msize, mrowp := m.mrowp, mcolp := m.mcolp, b := latchB s b.toNat
          head := s.core.conv.cpc, mark := 0, ended := false, events := abandonedEvents s (gangSlots g) }
      match releaseFault s with
      | some va => .trap 0 .memData va (some (mfinfoOf 7 (elemWant 8 true false) 3))
      | none =>
      match base.run s with
      | .ok s1 ko rq =>
        let s2 := (gangSlots g).foldl (fun t p => multicastTo share p t) s1
        .ok (s2.modGang (fun x => { x with shares := x.shares ++ [{ share with b := [] }] })) ko rq
      | r => r
    touch := some (fun _ s => productTouch a.toNat b.toNat (List.range (sizeN s.core.mat.msize)) s) }

/-- The first check of R326 that a participant's share fails. -/
def shareFault (s : State) (h : Share) : Option Cause :=
  let t := h.vtype.toNat % 16
  let ew := ewOf t
  let v := shapeAt h.a.toNat s
  if s.core.mat.en = false then some .matOff
  else if v.kind = 0 then some .shapeOff
  else if ew = 64 then some .shapeType
  else if shapeGated s.core.conv.planepwr v then some .planeGated
  else if viewHolds v ew (sizeM h.msize) (sizeK h.msize) = false then some .matView
  else none

/-- An event of KIND 0x04 for a failed share (R329). -/
def shareEvent (code : BitVec 8) (fslot : Nat) (islot : Nat) (head : BitVec 32) : Word :=
  .ofNat 64 (4 * 2 ^ 56 + code.toNat * 2 ^ 48 + fslot % 128 * 2 ^ 40 + islot % 128 * 2 ^ 32 + head.toNat)

/-- The cells that convoys have written since the GARM of a share. -/
def wroteSince (h : Share) (c : Conv) : List Nat :=
  let l := c.wrote.getD []
  l.take (l.length - h.mark)

/-- The state whose plane the A reads of a share see: what convoys issued after the GARM have written is unspecified
(R328). DESIGN CHOICE: log entry 71. -/
def armedPlane (h : Share) (s : State) : State :=
  (wroteSince h s.core.conv).foldl (fun t k =>
    t.modConv (fun c => { c with plane := spPut 0 c.plane k (Config.freeCell s.tick k) })) s

/-- A failed share's bits in the GSTAT of the issuer, whose task is still on its core (R327). -/
def failAtIssuer (h : Share) (s : State) : State :=
  s.modCoreAt h.issuer (fun c =>
    if c.task.serial = h.issuerTask then { c with gang := failShare h.pos c.gang } else c)

/-- The share of a participant in focus: its product, or its failure with the updates of R336, which its arrival follows.
The second part holds the events that it posts. -/
def performShare (h : Share) (s : State) : State × List Word :=
  match shareFault s h with
  | none =>
    let t := h.vtype.toNat % 16
    let ew := ewOf t
    let v := shapeAt h.a.toNat s
    let s1 := s.modConv (fun c => { c with
      planepwr := wakeBands c.planepwr v ew (viewElems v ew (rowsOn h.msize h.mrowp) (List.range (sizeK h.msize))) })
    let plane := armedPlane h s
    (product2 h.slab.toNat h.msize h.mrowp h.mcolp (32 / ew)
      (fun i k => typeVal t (viewElem v ew i k plane)) (fun k j => typeVal t (spGet 0 h.b (64 * k + j))) s1.tickUp, [])
  | some c =>
    let ev := shareEvent c.code s.slot h.issuerSlot.toNat h.head
    let s1 := failAtIssuer h (s.modGang (fun g => { g with armFault := true, armCause := c.code }))
    ((postTask h.issuerTask ev s1).modQ (·.post ev), [ev])

/-- Some participant of a GMMA that the core in focus issued has still to receive its multicast. -/
def multicastPending (s : State) : Bool :=
  (s.coreId :: s.cores.map (·.1)).any (fun n => (s.coreAt n).gang.shares.any (fun h =>
    !h.ended && decide (h.pos < 8) && h.issuer == s.coreId && h.issuerTask == s.core.task.serial))

/-- A share of the core in focus can end: a participant's, or the issuer's own once every multicast has arrived. -/
def shareEnds (s : State) (h : Share) : Bool := !h.ended && (decide (h.pos < 8) || !multicastPending s)

/-- A share of the core in focus ends, with its product or its failure. -/
def endShare (h : Share) (s : State) : State :=
  let (s1, evs) := if h.pos < 8 then performShare h s else (s, [])
  s1.modGang (fun g => { g with shares := g.shares.map (fun x =>
    if x = h then { x with ended := true, events := x.events ++ evs } else x) })

/-- The multicast reaches the core in focus: its oldest share that can end is performed (R326). -/
def multicastArrives (s : State) : State :=
  match s.core.gang.shares.find? (shareEnds s) with
  | none => s
  | some h => endShare h s

/-- A BARV-style arrival of 1 on a relative barrier of a core (R327): on barrier (BASE + BAR) mod 32, also where GSEL.BAR is
no barrier of the group. DESIGN CHOICE: log entry 90. -/
def arrive (bar : BitVec 5) (s : State) : State :=
  let b := (s.core.task.barwin.toNat + bar.toNat) % 32
  s.modCluster (fun c => { c with barriers := spPut 0 c.barriers b (spGet 0 c.barriers b + 1) })

/-- The events of a share are in the eq of the issuer and of the participant, or their tasks have ended (R182, R336). -/
def eventsIn (s : State) (h : Share) : Bool :=
  h.events.all (fun ev =>
    !s.core.q.posts.contains ev
      && !((s.coreAt h.issuer).task.serial == h.issuerTask && (s.coreAt h.issuer).q.posts.contains ev)
      && !(s.cluster.eqPosts.contains (h.issuerTask, ev)))

/-- An event waits for room in the eq of a task: on its core, or saved (R182, R209). -/
def eventWaits (s : State) (task : Nat) (ev : Word) : Bool :=
  s.cluster.eqPosts.contains (task, ev)
    || (s.coreId :: s.cores.map (·.1)).any (fun n =>
      (s.coreAt n).task.serial == task && (s.coreAt n).q.posts.contains ev)

/-- The events of an arrival are in. -/
def arrivalDue (s : State) (a : Arrival) : Bool :=
  a.events.all (fun ev => !eventWaits s a.task ev && !eventWaits s a.issuer ev)

/-- The hardware barrier of a task's relative barrier, as its group holds it; none when it has been freed (R315, R319). -/
def taskBarrier (c : Cluster) (task : Nat) (bar : BitVec 5) : Option Nat :=
  (c.groupOf task).bind (fun p => (p.1.bars.getD (p.2 / p.1.perBar) none).map (fun b => (b + bar.toNat) % 32))

/-- The oldest arrival of the cluster in focus that is due is made. -/
def arrivalMade (s : State) : State :=
  match s.cluster.arrivals.find? (arrivalDue s) with
  | none => s
  | some a => s.modCluster (fun c =>
      let rest := c.arrivals.erase a
      match taskBarrier c a.task a.bar with
      | some b => { c with arrivals := rest, barriers := spPut 0 c.barriers b (spGet 0 c.barriers b + 1) }
      | none => { c with arrivals := rest })

/-- The arrivals of shares that have ended pass to the cluster: their task leaves its core (R327). -/
def handOverShares (task : Nat) (l : List Share) (c : Cluster) : Cluster :=
  { c with arrivals := c.arrivals ++ l.filterMap (fun h => h.bar.map (fun b => ⟨task, h.issuerTask, b, h.events⟩)) }

/-- Nothing of an arm stands: the plane's writes are no longer noted (R328). -/
def disarmPlane (s : State) : State :=
  if s.core.gang.armed || s.core.gang.shares.any (fun h => decide (h.pos < 8)) then s
  else s.modConv (fun c => { c with wrote := none })

/-- A share is complete: it arrives on its barrier (R327). -/
def completeShare (h : Share) (s : State) : State :=
  let s1 := disarmPlane (s.modGang (fun g => { g with shares := g.shares.erase h }))
  match h.bar with
  | some bar => arrive bar s1
  | none => s1

/-- The oldest share of the core in focus that has ended, and whose events are in, arrives on its barrier, or an arrival
of a task that has left its core is made (R327, R336). -/
def shareCompletes (s : State) : State :=
  match s.core.gang.shares.find? (fun h => h.ended && eventsIn s h) with
  | none => arrivalMade s
  | some h => completeShare h s

/-- Every share of the core in focus ends, as its task leaves the core; one whose events are in arrives, and the arrival of
another follows its events (R327, R336). -/
def endShares (s : State) : State :=
  let t := (s.core.gang.shares.filter (fun h => !h.ended)).foldl (fun u h => endShare h u) s
  let u := (t.core.gang.shares.filter (eventsIn t)).foldl (fun u h => completeShare h u) t
  u.modCluster (handOverShares u.core.task.serial u.core.gang.shares)

/-- The shares of the core in focus, and those that its GMMA has multicast, end before its task leaves it. -/
def leaveShares (s : State) : State :=
  let home := s.coreId
  let serial := s.core.task.serial
  let s1 := ((s.cores.map (·.1)).filter (fun n => (s.coreAt n).gang.shares.any (fun h =>
      !h.ended && decide (h.pos < 8) && h.issuer == home && h.issuerTask == serial))).foldl (fun t n =>
    ((t.focus n).core.gang.shares.filter (fun h => !h.ended && h.issuer == home && h.issuerTask == serial)).foldl
      (fun u h => endShare h u) (t.focus n)) s
  endShares (s1.focus home)

end Sys2Proof.Machine
end

