-- ==== Sys2Proof/Machine/VectorLadder.lean ====
section
/-! DEFINITION. The ladder accumulator (11_core_ladder.md): its configuration, the rung area in the scratchpad, the
stages of the carry chain, and the members of the ladder words. -/

namespace Sys2Proof.Machine

/-! ## Configuration (R265 to R268) -/

/-- The fields of a configuration word. -/
def lcfgBase (w : Word) : Nat := w.toNat % 2 ^ 25
def lcfgH (w : Word) : Nat := w.toNat / 2 ^ 32 % 2 ^ 7
def lcfgW (w : Word) : Nat := w.toNat / 2 ^ 40 % 2 ^ 7
def lcfgMax (w : Word) : Nat := w.toNat / 2 ^ 48 % 2 ^ 5
def lcfgWsh (w : Word) : Nat := w.toNat / 2 ^ 56 % 2 ^ 6

/-- The cells of a tile. -/
def lcfgCells (w : Word) : Nat := lcfgH w * lcfgW w

/-- A valid configuration word (R265). -/
def lcfgValid (w : Word) : Bool :=
  let n := w.toNat
  n / 2 ^ 25 % 2 ^ 7 == 0 && n / 2 ^ 39 % 2 == 0 && n / 2 ^ 47 % 2 == 0 && n / 2 ^ 53 % 2 ^ 3 == 0 && n / 2 ^ 62 == 0
    && decide (1 ≤ lcfgMax w) && decide (lcfgMax w ≤ 24) && decide (1 ≤ lcfgH w) && decide (lcfgH w ≤ 64)
    && decide (1 ≤ lcfgW w) && decide (lcfgW w ≤ 64) && lcfgBase w % 8 == 0
    && decide (lcfgBase w + 4 * lcfgCells w * (lcfgMax w + 1) ≤ 25493504)

/-- A chain is running (R271). -/
def Core.chainRuns (c : Core) : Bool := c.lad.act && !c.lad.err && (c.run == .running)

/-- LCARRY (R268). -/
def lcarryWord (l : Ladder) : Word :=
  .ofNat 64 ((if l.err then 128 else 0) + (if l.act then 64 else 0) + l.lvl.toNat)

/-- Rung l is full (R267). -/
def rungFull (l : Ladder) (r : Nat) : Bool :=
  let top := lcfgMax l.lcfgr - 1
  if r < top then l.lcnt.getLsbD r else decide (r = top) && decide (2 ^ top ≤ l.lcnt.toNat)

/-! ## The rung area (R266) -/

/-- The SPAD offset of a cell of a rung; rung Lmax is the carry slot. -/
def rungOff (w : Word) (r e : Nat) : Nat := lcfgBase w + 4 * lcfgCells w * r + 4 * e

/-- The watch over the rung area of the task on the core in focus: it stands from LCFG to LRESET (R285). -/
def State.rungWatch (s : State) : Nat := ladderWatch s.core.task.serial

/-- The first byte of a rung, or of the carry slot at LMAX, and the bytes of a tile. -/
def State.rungKey (s : State) (r : Nat) : Nat := spadKey s.clusterId (rungOff s.core.lad.lcfgr r 0)
def State.tileBytes (s : State) : Nat := 4 * lcfgCells s.core.lad.lcfgr

/-- A rung, or the carry slot at LMAX, holds a tile: each byte has been written, by the ladder or by another, and no chain
has used it up (R268, R273). -/
def rungKnown (s : State) (r : Nat) : Bool := laid s (s.rungKey r) s.tileBytes

/-- Another has written the rung area since LCFG (R285). -/
def State.areaBroken (s : State) : Bool :=
  s.watches.any (fun m => decide (m.entry = s.rungWatch) && (m.broken || !m.wrote.isEmpty))

/-- The values that the ladder produces are unspecified: another has written the area since LCFG (R285), or a write of LCNT
or LCARRY has not described it (R268). DESIGN CHOICE: log entry 71. -/
def State.spoiled (s : State) : Bool := s.core.lad.wild || s.areaBroken

/-- A value of the ladder, or any value where it is unspecified; the unspecified one is that of cell `n`. -/
def State.orAny (s : State) (n v : Nat) : Nat := if s.spoiled then (Config.freeCell s.tick n).toNat else v

/-- A cell of a rung as the ladder reads it: the bytes of the scratchpad. -/
def readRung (s : State) (r e : Nat) : Nat :=
  s.orAny (4096 * r + e) (readMem s (spadKey s.clusterId (rungOff s.core.lad.lcfgr r e)) 4)

/-- A cell of a rung lies in a granule with an uncorrectable error (R229): the granule's SPAD offset. -/
def cellPoison (s : State) (r e : Nat) : Option Nat :=
  let off := rungOff s.core.lad.lcfgr r e
  if poisoned s (spadKey s.clusterId off) 4 then some (off / 8 * 8) else none

/-- The first cell of a rung, at or above cell `from'`, that lies in a granule with an uncorrectable error. -/
def rungPoison (s : State) (r from' : Nat) : Option Nat :=
  (List.range (lcfgCells s.core.lad.lcfgr)).findSome? (fun e => if e < from' then none else cellPoison s r e)

/-- The bytes of cells of a tile from cell `lo` up, the first lowest. -/
def packTile (t : Nat → Nat) (lo : Nat) : Nat → Nat
  | 0 => 0
  | n + 1 => packTile t lo n + 2 ^ (32 * n) * t (lo + n)

/-- Write the cells from `lo` to `hi` of a tile to a rung or to the carry slot, and nothing beside them: with h × w odd, the
half of the last 64-bit word that belongs to the next rung stays. DESIGN CHOICE: log entry 84. -/
def writeCells (r lo hi : Nat) (t : Nat → Nat) (s : State) : State :=
  (ownWrites s.rungWatch s (storeMem (spadKey s.clusterId (rungOff s.core.lad.lcfgr r lo)) (4 * (hi - lo))
    (packTile (fun e => s.orAny (4096 * r + e) (t e)) lo (hi - lo)) s)).tickUp

/-- Write a tile to a rung or to the carry slot. -/
def writeTile (r : Nat) (t : Nat → Nat) (s : State) : State := writeCells r 0 (lcfgCells s.core.lad.lcfgr) t s

/-- From now on a store in this granule of the rung area is the repair of a handler, and no write of another; or none is
(R275, R285). -/
def spareGranule (off : Option Nat) (s : State) : State :=
  modWatch s.rungWatch (fun m => { m with spare := off.map (spadKey s.clusterId) }) s

/-! ## The carry chain (R270 to R275) -/

/-- The number of consecutive 1 bits from bit 0, counting the lowest n bits. -/
def trailingOnes (x : Word) : Nat → Nat → Nat
  | 0, c => c
  | n + 1, c => if x.getLsbD c then trailingOnes x n (c + 1) else c

/-- c of R270: the merges of the step. -/
def chainMerges (l : Ladder) : Nat := trailingOnes l.lcnt (lcfgMax l.lcfgr - 1) 0

/-- top of R270: the chain absorbs into the top rung. -/
def chainTop (l : Ladder) : Bool :=
  decide (chainMerges l + 1 = lcfgMax l.lcfgr) && decide (2 ^ (lcfgMax l.lcfgr - 1) ≤ l.lcnt.toNat)

/-- older + newer, FP32, nearest-even. -/
def ladderAdd (older newer : Nat) : Nat × FlagSet :=
  fAdd ⟨fp32, rmNearest, false⟩ (fp32.decode older) (fp32.decode newer)

/-- A chain has used up a rung, or at its end the carry slot: what is there is stale (R273). -/
def consumeRung (r : Nat) (s : State) : State := useUp (s.rungKey r) s.tileBytes s

/-- The rungs hold what LCNT says of them, and the unit or the carry slot the tile of a chain that is pending (R267, R268,
R273). -/
def State.describes (s : State) : Bool :=
  let l := s.core.lad
  (List.range (lcfgMax l.lcfgr)).all (fun r => !rungFull l r || rungKnown s r || (l.act && decide (r < l.lvl.toNat)))
    && (!l.act || ((l.tile.isSome || rungKnown s (lcfgMax l.lcfgr))
      && (decide (l.lvl.toNat < chainMerges l) || (decide (l.lvl.toNat = chainMerges l) && (chainTop l || l.lvl == 0)))))

/-- After a write of LCNT or LCARRY: from the first that does not describe the area, what the ladder produces is
unspecified (R268). DESIGN CHOICE: log entry 71. -/
def rewritten (s : State) : State := s.modLad (fun l => { l with wild := l.wild || !s.describes })

/-- The end of a chain: LCNT = N0 + 1 and LCARRY = 0 (13_prog_ladder.md shows LCARRY 0x00 after a chain whose LVL was 2). -/
def chainDone (s : State) : State :=
  s.modLad (fun l => { l with lcnt := l.lcnt + 1, act := false, lvl := 0, tile := none })

/-- A stage stops on an uncorrectable granule: the carry slot holds the input tile, and ERR is set (R275). -/
def chainStops (off : Nat) (s : State) : State :=
  let s1 := match s.core.lad.tile with
    | some t => writeTile (lcfgMax s.core.lad.lcfgr) (fun e => (spGet 0 t e).toNat) s
    | none => s
  spareGranule (some off) (s1.modLad (fun l => { l with err := true, tile := none, fault := .ofNat 25 off }))

/-- T + rung r, with the flags of its elements. -/
def mergeTile (s : State) (r : Nat) (t : Sp (BitVec 32)) : Sp (BitVec 32) × FlagSet :=
  (List.range (lcfgCells s.core.lad.lcfgr)).foldl (fun acc e =>
    let (v, f) := ladderAdd (readRung s r e) (spGet 0 t e).toNat
    (spPut 0 acc.1 e (.ofNat 32 v), acc.2 ||| f)) ([], 0)

/-- One stage on a tile that the unit holds. -/
def chainStage (t : Sp (BitVec 32)) (s : State) : State :=
  let l := s.core.lad
  let j := l.lvl.toNat
  let c := chainMerges l
  let cells := fun (u : Sp (BitVec 32)) (e : Nat) => (spGet 0 u e).toNat
  if j < c ∨ chainTop l then
    let r := if j < c then j else lcfgMax l.lcfgr - 1
    match rungPoison s r 0 with
    | some off => chainStops off s
    | none =>
      let (u, f) := mergeTile s r t
      let s0 := raiseFlags f s.tickUp
      let s1 := if j < c then consumeRung r s0 else s0
      if j < c ∧ (j + 1 < c ∨ chainTop l) then
        (writeTile (lcfgMax l.lcfgr) (cells u) s1).modLad (fun l => { l with lvl := l.lvl + 1, tile := some u })
      else chainDone (consumeRung (lcfgMax l.lcfgr) (writeTile (if j < c then c else r) (cells u) s1))
  else chainDone (writeTile c (cells t) s)

/-- The tile that the carry slot holds, reloaded (R273). -/
def reloadTile (s : State) : Sp (BitVec 32) :=
  (List.range (lcfgCells s.core.lad.lcfgr)).foldl (fun t e =>
    spPut 0 t e (.ofNat 32 (readRung s (lcfgMax s.core.lad.lcfgr) e))) []

/-- The next stage of the running chain, after a reload when the unit does not hold T. -/
def chainNext (s : State) : State :=
  match s.core.lad.tile with
  | some t => chainStage t s
  | none =>
    match rungPoison s (lcfgMax s.core.lad.lcfgr) 0 with
    | some off => chainStops off s
    | none =>
      let t := reloadTile s
      chainStage t (s.tickUp.modLad (fun l => { l with tile := some t }))

/-! ## The ladder members (R276 to R283) -/

/-- A ladder member: N, on the LADDER pipe. -/
def ladderMember (s0 : State) (waits : Bool) (check : Option (Cause × Word)) (run : State → Step) : Member :=
  { Member.base .n .ladder with
    check := check
    ready := !waits || !s0.core.chainRuns
    run := run }

/-- LAD-OFF (R282). -/
def ladOff (s : State) : Option (Cause × Word) := if lcfgMax s.core.lad.lcfgr = 0 then some (.ladOff, 0) else none

/-- The tile that LSTEP reads: rows and columns of the slab. -/
def stepTile (s : State) (n : Nat) : Sp (BitVec 32) :=
  let w := s.core.lad.lcfgr
  (List.range (lcfgCells w)).foldl (fun t e => spPut 0 t e (readAcc n (e / lcfgW w) (e % lcfgW w) s)) []

/-- LSTEP. -/
def lstepMember (s0 : State) (n : BitVec 2) : Member :=
  let m := ladderMember s0 true
    (orCheck (matOff s0 n) (orCheck (ladOff s0)
      (if s0.core.lad.lcnt = 0xFFFFFFFFFFFFFFFF then some (.ladRange, s0.core.lad.lcnt) else none)))
    (fun s => .done (s.modLad (fun l => { l with act := true, lvl := 0, tile := some (stepTile s n.toNat) })))
  { m with settled := !s0.core.chainRuns, ready := m.ready && !slabHeld s0 n }

/-- The blend of one element (R280). -/
def blendElem (s : State) (wsh e : Nat) : Nat × FlagSet :=
  ((List.range (lcfgMax s.core.lad.lcfgr)).filter (fun r => rungFull s.core.lad r)).foldl (fun acc r =>
    let (v, f) := fFma ⟨fp32, rmNearest, false⟩ (fp32.decode (elemGet (shapeAt wsh s) 32 r s))
      (fp32.decode (readRung s r e)) (fp32.decode acc.1)
    (v, acc.2 ||| f)) (0, 0)

/-- An element that the ladder produces: any value where it is unspecified (R268, R285). -/
def putElem (d e v : Nat) (s : State) : State :=
  elemSet (shapeAt d s) s.core.conv.ew e (s.orAny (2 ^ 17 + e) v) s

/-- An FP32 value written to a shape of the current type: the bits themselves under f32. -/
def putFp32 (d e raw : Nat) (s : State) : State :=
  let c := s.core.conv
  if c.type = 0 then putElem d e raw s
  else
    let (v, f) := convertTo c.type c.rm c.sat (fp32.decode raw)
    raiseFlags f (putElem d e v s)

/-- The first element that the ladder member of the convoy has not begun: LK of the convoy in flight, or of VSTART. -/
def State.lk (s : State) : Nat :=
  match s.core.conv.flight with
  | some f => f.lk
  | none => s.core.conv.startLk.toNat

/-- Where a turn of the ladder member ends: at the last element, or at a multiple of 64 (R280). -/
def ladderEnd (s : State) : Nat :=
  let n := lcfgCells s.core.lad.lcfgr
  match s.core.pace with
  | some p => min n ((s.lk / 64 + p + 1) * 64)
  | none => n

/-- The elements that a turn of a ladder member runs. -/
def ladderElems (s : State) : List Nat := (List.range (ladderEnd s)).filter (fun e => decide (s.lk ≤ e))

/-- The end of a turn of a ladder member of the state `s`: it has completed, or it goes on from a multiple of 64. -/
def ladderGoes (s t : State) : Step :=
  if ladderEnd s < lcfgCells s.core.lad.lcfgr then
    .wait (t.modConv (fun c => { c with flight := c.flight.map (fun f => { f with lk := ladderEnd s }) }))
  else .done t

/-- LAD-MEM (R283). -/
def ladMemTrap (off : Nat) : Step := .trap 0 .ladMem (.ofNat 64 off) none

/-- The checks of R282 on the destination's or the source's capacity. -/
def tileCheck (s : State) (d : Nat) : Option (Cause × Word) :=
  shapeCheck (decide ((shapeAt d s).cap s.core.conv.ew < lcfgCells s.core.lad.lcfgr)) .shapeLength d

/-- LBLEND. -/
def lblendMember (s0 : State) (d : Nat) : Member :=
  let w := lcfgWsh s0.core.lad.lcfgr
  let v := shapeAt w s0
  let configured := lcfgMax s0.core.lad.lcfgr ≠ 0
  let m := ladderMember s0 true
    (orCheck (ladOff s0) (orCheck (shapeCheck (v.kind == 0) .shapeOff w)
      (orCheck (shapeCheck (shapeGated s0.core.conv.planepwr v) .planeGated w)
        (orCheck (tileCheck s0 d)
          (shapeCheck (decide (v.cap 32 < lcfgMax s0.core.lad.lcfgr)) .shapeLength w)))))
    (fun s =>
      let full := (List.range (lcfgMax s.core.lad.lcfgr)).filter (fun r => rungFull s.core.lad r)
      match (List.range (lcfgCells s.core.lad.lcfgr)).findSome? (fun e =>
          if e < s.lk then none else full.findSome? (fun r => cellPoison s r e)) with
      | some off => ladMemTrap off
      | none => ladderGoes s ((ladderElems s).foldl (fun t e =>
          let (v, f) := blendElem t w e
          putFp32 d e v (raiseFlags f t)) s).tickUp)
  { m with
    uses := [writeFree d s0.core.conv.ew]
    extra := if configured then [readFree w 32] else []
    paired := isF s0.core.conv.type
    settled := !s0.core.chainRuns
    touch := some (fun _ s => [⟨d, s.core.conv.ew, ladderElems s⟩,
      ⟨w, 32, (List.range (lcfgMax s.core.lad.lcfgr)).filter (fun r => rungFull s.core.lad r)⟩]) }

/-- LRUNG of either direction. -/
def lrungMember (s0 : State) (load : Bool) (d : Nat) (level : State → Word) : Member :=
  let w := s0.core.lad.lcfgr
  let m := ladderMember s0 true
    (orCheck (ladOff s0) (orCheck (tileCheck s0 d)
      (if lcfgMax w ≤ (level s0).toNat then some (.ladRange, level s0) else none)))
    (fun s =>
      let r := (level s).toNat
      if load then
        let full := rungFull s.core.lad r
        match if full then rungPoison s r s.lk else none with
        | some off => ladMemTrap off
        | none => ladderGoes s
            ((ladderElems s).foldl (fun t e => putFp32 d e (if full then readRung s r e else 0) t) s).tickUp
      else
        let cells := fun e =>
          let c := s.core.conv
          if c.type = 0 then (elemGet (shapeAt d s) 32 e s, 0)
          else convertTo 0 rmNearest false (elemVal (shapeAt d s) c.type e s)
        let f := (ladderElems s).foldl (fun acc e => acc ||| (cells e).2) 0
        ladderGoes s (raiseFlags f (writeCells r s.lk (ladderEnd s) (fun e => (cells e).1) s)))
  { m with
    uses := [if load then writeFree d s0.core.conv.ew else readFree d s0.core.conv.ew]
    paired := isF s0.core.conv.type
    settled := !s0.core.chainRuns
    touch := some (fun _ s => [⟨d, s.core.conv.ew, ladderElems s⟩]) }

/-- The ladder set up under a configuration (R277): from now on only the ladder may write the rung area (R285). -/
def configureLadder (w : Word) (s : State) : State :=
  (beginWatch s.rungWatch (some (spadKey s.clusterId (lcfgBase w), 4 * lcfgCells w * (lcfgMax w + 1))) s).modLad (fun _ =>
    { Ladder.reset with lcfgr := w })

/-- The ladder emptied: no agent is kept from the rung area any longer (R278, R285). -/
def emptyLadder (s : State) : State :=
  (endWatch s.rungWatch s).modLad (fun l => { Ladder.reset with lcfgr := l.lcfgr })

/-- LCFG (R277). -/
def lcfgMember (s0 : State) (k : Nat) : Member :=
  ladderMember s0 true (if lcfgValid (readK k s0) then none else some (.ladCfg, readK k s0))
    (fun s => .done (configureLadder (readK k s) s))

/-- LRESET (R278). -/
def lresetMember (s0 : State) : Member := ladderMember s0 true none (fun s => .done (emptyLadder s))

/-- What LSTAT reads; any value once another has written the rung area (R279, R285). DESIGN CHOICE: log entry 71. -/
def lstatWord (carry : Bool) (s : State) : Word :=
  if s.areaBroken then Config.freeWord s.tick else if carry then lcarryWord s.core.lad else s.core.lad.lcnt

/-- LSTAT (R279). -/
def lstatMember (s0 : State) (k : Nat) (carry : Bool) : Member :=
  ladderMember s0 false none (fun s => .ok s.tickUp [(k, lstatWord carry s)] [])

end Sys2Proof.Machine
end

