-- ==== Sys2Proof/Machine/Members.lean ====
section
/-! DEFINITION. The member that each vector word is (05_convoy.md R121 to R134 and the chapters it names): one arm for
each word, over the forms of Machine/Member.lean and the operations of the vector files. -/

namespace Sys2Proof.Machine

/-- A floating-point element operation of class F. -/
def floatMember (s : State) (pipe : Pipe) (d : Nat) (x y : Src) (readsD : Bool) (m : Nat) (op : ElemOp) : Member :=
  elementwise s pipe (isF s.core.conv.type) d x y readsD m op

/-- An integer element operation of class I. -/
def intMember (s : State) (pipe : Pipe) (d : Nat) (x y : Src) (m : Nat) (op : ElemOp) : Member :=
  elementwise s pipe (isI s.core.conv.type) d x y false m op

/-- A bitwise element operation of class B. -/
def bitsMember (s : State) (d : Nat) (x y : Src) (m : Nat) (op : ElemOp) : Member :=
  elementwise s .valu true d x y false m op

/-- A special function of one operand. -/
def specialMember (s : State) (d a m : Nat) (f : Rnd → FVal → Nat × FlagSet) : Member :=
  floatMember s .sfu d (.shape a) .unused false m (fOp1 f)

/-- A float operation of a shape and a scalar, which fx swaps. -/
def floatScalar (s : State) (pipe : Pipe) (d a k : Nat) (x : BitVec 1) (m : Nat) (op : ElemOp) : Member :=
  floatMember s pipe d (vkSources a k x).1 (vkSources a k x).2 false m op

/-- An integer operation of a shape and a scalar, which fx swaps. -/
def intScalar (s : State) (pipe : Pipe) (d a k : Nat) (x : BitVec 1) (m : Nat) (op : ElemOp) : Member :=
  intMember s pipe d (vkSources a k x).1 (vkSources a k x).2 m op

/-- A shift amount: six bits of the immediate. -/
def shiftSrc (i : BitVec 6) : Src := .imm (i.toNat : Int)

/-- VISSUE: alone, one read box for the lane words; its run stands in Machine/Convoy.lean. -/
def vissueMember (s : State) (d a m : Nat) : Member :=
  { Member.base .a .sequencer with mask := m, uses := [readVl a 32 s.vl], maskWrites := [d], touch := some (fun _ _ => []) }

/-- The member of a vector word under the state it issues in; `g` gives the number of the mask that governs it, which is
the one it names but for a word that VISSUE issues. -/
def describe (g : Nat → Nat) (i : Instr) (s : State) : Member :=
  match i with
  | .vfadd d a b m _ => floatMember s .valu d.toNat (.shape a.toNat) (.shape b.toNat) false (g m.toNat) (fOp2 fAdd)
  | .vfsub d a b m _ => floatMember s .valu d.toNat (.shape a.toNat) (.shape b.toNat) false (g m.toNat) (fOp2 fSub)
  | .vfmul d a b m _ => floatMember s .valu d.toNat (.shape a.toNat) (.shape b.toNat) false (g m.toNat) (fOp2 fMul)
  | .vfmin d a b m _ => floatMember s .valu d.toNat (.shape a.toNat) (.shape b.toNat) false (g m.toNat) (fMinMaxOp false)
  | .vfmax d a b m _ => floatMember s .valu d.toNat (.shape a.toNat) (.shape b.toNat) false (g m.toNat) (fMinMaxOp true)
  | .vfdiv d a b m _ => floatMember s .sfu d.toNat (.shape a.toNat) (.shape b.toNat) false (g m.toNat) (fOp2 fDiv)
  | .vfaddK d a x k m _ => floatScalar s .valu d.toNat a.toNat k.toNat x (g m.toNat) (fOp2 fAdd)
  | .vfsubK d a x k m _ => floatScalar s .valu d.toNat a.toNat k.toNat x (g m.toNat) (fOp2 fSub)
  | .vfmulK d a x k m _ => floatScalar s .valu d.toNat a.toNat k.toNat x (g m.toNat) (fOp2 fMul)
  | .vfminK d a x k m _ => floatScalar s .valu d.toNat a.toNat k.toNat x (g m.toNat) (fMinMaxOp false)
  | .vfmaxK d a x k m _ => floatScalar s .valu d.toNat a.toNat k.toNat x (g m.toNat) (fMinMaxOp true)
  | .vfdivK d a x k m _ => floatScalar s .sfu d.toNat a.toNat k.toNat x (g m.toNat) (fOp2 fDiv)
  | .vfneg d a m _ => floatMember s .valu d.toNat (.shape a.toNat) .unused false (g m.toNat) fNegOp
  | .vfabs d a m _ => floatMember s .valu d.toNat (.shape a.toNat) .unused false (g m.toNat) fAbsOp
  | .vfkind d a m _ => floatMember s .valu d.toNat (.shape a.toNat) .unused false (g m.toNat) fKindOp
  | .vfcpys d a b m _ => floatMember s .valu d.toNat (.shape a.toNat) (.shape b.toNat) false (g m.toNat) fCpysOp
  | .vfcpysn d a b m _ => floatMember s .valu d.toNat (.shape a.toNat) (.shape b.toNat) false (g m.toNat) fCpysnOp
  | .vfma d a b m _ => floatMember s .valu d.toNat (.shape a.toNat) (.shape b.toNat) true (g m.toNat) (fmaOp false false)
  | .vfmaK d a k m _ => floatMember s .valu d.toNat (.shape a.toNat) (.scalar k.toNat) true (g m.toNat) (fmaOp false false)
  | .vfnma d a b m _ => floatMember s .valu d.toNat (.shape a.toNat) (.shape b.toNat) true (g m.toNat) (fmaOp true false)
  | .vfnmaK d a k m _ => floatMember s .valu d.toNat (.shape a.toNat) (.scalar k.toNat) true (g m.toNat) (fmaOp true false)
  | .vfms d a b m _ => floatMember s .valu d.toNat (.shape a.toNat) (.shape b.toNat) true (g m.toNat) (fmaOp false true)
  | .vfmsK d a k m _ => floatMember s .valu d.toNat (.shape a.toNat) (.scalar k.toNat) true (g m.toNat) (fmaOp false true)
  | .vfnms d a b m _ => floatMember s .valu d.toNat (.shape a.toNat) (.shape b.toNat) true (g m.toNat) (fmaOp true true)
  | .vfnmsK d a k m _ => floatMember s .valu d.toNat (.shape a.toNat) (.scalar k.toNat) true (g m.toNat) (fmaOp true true)
  | .vfsqrt d a m _ => specialMember s d.toNat a.toNat (g m.toNat) fSqrt
  | .vfrsqrt d a m _ => specialMember s d.toNat a.toNat (g m.toNat) fRsqrt
  | .vfrcp d a m _ => specialMember s d.toNat a.toNat (g m.toNat) fRcp
  | .vfexp2 d a m _ => specialMember s d.toNat a.toNat (g m.toNat) fExp2
  | .vflog2 d a m _ => specialMember s d.toNat a.toNat (g m.toNat) fLog2
  | .vfsinpi d a m _ => specialMember s d.toNat a.toNat (g m.toNat) fSinPi
  | .vftanh d a m _ => specialMember s d.toNat a.toNat (g m.toNat) fTanh
  | .vfsigm d a m _ => specialMember s d.toNat a.toNat (g m.toNat) fSigm
  | .vadd d a b m _ => intMember s .valu d.toNat (.shape a.toNat) (.shape b.toNat) (g m.toNat) (iOp2 (· + ·))
  | .vsub d a b m _ => intMember s .valu d.toNat (.shape a.toNat) (.shape b.toNat) (g m.toNat) (iOp2 (· - ·))
  | .vmul d a b m _ => intMember s .valu d.toNat (.shape a.toNat) (.shape b.toNat) (g m.toNat) (iOp2 (· * ·))
  | .vmin d a b m _ => intMember s .valu d.toNat (.shape a.toNat) (.shape b.toNat) (g m.toNat) (iOp2 min)
  | .vmax d a b m _ => intMember s .valu d.toNat (.shape a.toNat) (.shape b.toNat) (g m.toNat) (iOp2 max)
  | .vdiv d a b m _ => intMember s .sfu d.toNat (.shape a.toNat) (.shape b.toNat) (g m.toNat) iDivOp
  | .vrem d a b m _ => intMember s .sfu d.toNat (.shape a.toNat) (.shape b.toNat) (g m.toNat) iRemOp
  | .vaddK d a x k m _ => intScalar s .valu d.toNat a.toNat k.toNat x (g m.toNat) (iOp2 (· + ·))
  | .vsubK d a x k m _ => intScalar s .valu d.toNat a.toNat k.toNat x (g m.toNat) (iOp2 (· - ·))
  | .vmulK d a x k m _ => intScalar s .valu d.toNat a.toNat k.toNat x (g m.toNat) (iOp2 (· * ·))
  | .vminK d a x k m _ => intScalar s .valu d.toNat a.toNat k.toNat x (g m.toNat) (iOp2 min)
  | .vmaxK d a x k m _ => intScalar s .valu d.toNat a.toNat k.toNat x (g m.toNat) (iOp2 max)
  | .vdivK d a x k m _ => intScalar s .sfu d.toNat a.toNat k.toNat x (g m.toNat) iDivOp
  | .vremK d a x k m _ => intScalar s .sfu d.toNat a.toNat k.toNat x (g m.toNat) iRemOp
  | .vaddi d i m _ => elementwiseImm s (isI s.core.conv.type) d.toNat (immSrc i) true (g m.toNat) (iOp2 (· + ·))
  | .vrsubi d i m _ => elementwiseImm s (isI s.core.conv.type) d.toNat (immSrc i) true (g m.toNat) (iOp2 (fun x y => y - x))
  | .vmuli d i m _ => elementwiseImm s (isI s.core.conv.type) d.toNat (immSrc i) true (g m.toNat) (iOp2 (· * ·))
  | .vmini d i m _ => elementwiseImm s (isI s.core.conv.type) d.toNat (immSrc i) true (g m.toNat) (iOp2 min)
  | .vmaxi d i m _ => elementwiseImm s (isI s.core.conv.type) d.toNat (immSrc i) true (g m.toNat) (iOp2 max)
  | .vand d a b m _ => bitsMember s d.toNat (.shape a.toNat) (.shape b.toNat) (g m.toNat) (bitOp (· &&& ·))
  | .vor d a b m _ => bitsMember s d.toNat (.shape a.toNat) (.shape b.toNat) (g m.toNat) (bitOp (· ||| ·))
  | .vxor d a b m _ => bitsMember s d.toNat (.shape a.toNat) (.shape b.toNat) (g m.toNat) (bitOp (· ^^^ ·))
  | .vandn d a b m _ => bitsMember s d.toNat (.shape a.toNat) (.shape b.toNat) (g m.toNat) andnOp
  | .vsll d a b m _ => intMember s .valu d.toNat (.shape a.toNat) (.shape b.toNat) (g m.toNat) sllOp
  | .vsrl d a b m _ => intMember s .valu d.toNat (.shape a.toNat) (.shape b.toNat) (g m.toNat) srlOp
  | .vsra d a b m _ => intMember s .valu d.toNat (.shape a.toNat) (.shape b.toNat) (g m.toNat) sraOp
  | .vmov d a m _ => bitsMember s d.toNat (.shape a.toNat) .unused (g m.toNat) movOp
  | .vandi d i m _ => elementwiseImm s true d.toNat (immSrc i) true (g m.toNat) (bitOp (· &&& ·))
  | .vori d i m _ => elementwiseImm s true d.toNat (immSrc i) true (g m.toNat) (bitOp (· ||| ·))
  | .vxori d i m _ => elementwiseImm s true d.toNat (immSrc i) true (g m.toNat) (bitOp (· ^^^ ·))
  | .vli d i m _ => elementwiseImm s true d.toNat (immSrc i) false (g m.toNat) immOp
  | .vslli d i m _ => elementwiseImm s (isI s.core.conv.type) d.toNat (shiftSrc i) true (g m.toNat) sllOp
  | .vsrli d i m _ => elementwiseImm s (isI s.core.conv.type) d.toNat (shiftSrc i) true (g m.toNat) srlOp
  | .vsrai d i m _ => elementwiseImm s (isI s.core.conv.type) d.toNat (shiftSrc i) true (g m.toNat) sraOp
  | .vsadd d a b m _ => intMember s .valu d.toNat (.shape a.toNat) (.shape b.toNat) (g m.toNat) (iSatOp (· + ·))
  | .vssub d a b m _ => intMember s .valu d.toNat (.shape a.toNat) (.shape b.toNat) (g m.toNat) (iSatOp (· - ·))
  | .vmulh d a b m _ => intMember s .valu d.toNat (.shape a.toNat) (.shape b.toNat) (g m.toNat) iMulhOp
  | .vavg d a b m _ => intMember s .valu d.toNat (.shape a.toNat) (.shape b.toNat) (g m.toNat) (iOp2 (fun x y => (x + y + 1) / 2))
  | .vceq d a b m _ => compareMember s .eq d.toNat (.shape a.toNat) (.shape b.toNat) (g m.toNat)
  | .vcne d a b m _ => compareMember s .ne d.toNat (.shape a.toNat) (.shape b.toNat) (g m.toNat)
  | .vclt d a b m _ => compareMember s .lt d.toNat (.shape a.toNat) (.shape b.toNat) (g m.toNat)
  | .vcle d a b m _ => compareMember s .le d.toNat (.shape a.toNat) (.shape b.toNat) (g m.toNat)
  | .vcgt d a b m _ => compareMember s .gt d.toNat (.shape a.toNat) (.shape b.toNat) (g m.toNat)
  | .vcge d a b m _ => compareMember s .ge d.toNat (.shape a.toNat) (.shape b.toNat) (g m.toNat)
  | .vcun d a b m _ => compareMember s .un d.toNat (.shape a.toNat) (.shape b.toNat) (g m.toNat)
  | .vceqK d a k m _ => compareMember s .eq d.toNat (.shape a.toNat) (.scalar k.toNat) (g m.toNat)
  | .vcneK d a k m _ => compareMember s .ne d.toNat (.shape a.toNat) (.scalar k.toNat) (g m.toNat)
  | .vcltK d a k m _ => compareMember s .lt d.toNat (.shape a.toNat) (.scalar k.toNat) (g m.toNat)
  | .vcleK d a k m _ => compareMember s .le d.toNat (.shape a.toNat) (.scalar k.toNat) (g m.toNat)
  | .vcgtK d a k m _ => compareMember s .gt d.toNat (.shape a.toNat) (.scalar k.toNat) (g m.toNat)
  | .vcgeK d a k m _ => compareMember s .ge d.toNat (.shape a.toNat) (.scalar k.toNat) (g m.toNat)
  | .vcunK d a k m _ => compareMember s .un d.toNat (.shape a.toNat) (.scalar k.toNat) (g m.toNat)
  | .vmand d a b m _ => maskLogic d.toNat [a.toNat, b.toNat] (g m.toNat) (fun e t => maskBit a.toNat e t && maskBit b.toNat e t)
  | .vmor d a b m _ => maskLogic d.toNat [a.toNat, b.toNat] (g m.toNat) (fun e t => maskBit a.toNat e t || maskBit b.toNat e t)
  | .vmxor d a b m _ => maskLogic d.toNat [a.toNat, b.toNat] (g m.toNat) (fun e t => maskBit a.toNat e t ^^ maskBit b.toNat e t)
  | .vmandn d a b m _ => maskLogic d.toNat [a.toNat, b.toNat] (g m.toNat) (fun e t => maskBit a.toNat e t && !maskBit b.toNat e t)
  | .vmnot d a m _ => maskLogic d.toNat [a.toNat] (g m.toNat) (fun e t => !maskBit a.toNat e t)
  | .vmset d m _ => maskLogic d.toNat [] (g m.toNat) (fun _ _ => true)
  | .vmclr d m _ => maskLogic d.toNat [] (g m.toNat) (fun _ _ => false)
  | .vsel d a b m _ => selectMember s d.toNat a.toNat (.shape b.toNat) (g m.toNat)
  | .vselz d a m _ => selectMember s d.toNat a.toNat (.imm 0) (g m.toNat)
  | .vcvt d a t m _ => convertMember s d.toNat a.toNat t.toNat (g m.toNat)
  | .vqnt d a t m _ => quantizeMember s d.toNat a.toNat t.toNat (g m.toNat)
  | .vdqnt d a t m _ => dequantizeMember s d.toNat a.toNat t.toNat (g m.toNat)
  | .vgath d a b m _ => gatherMember s d.toNat a.toNat b.toNat (g m.toNat)
  | .vhead d a b m _ => headMember s d.toNat a.toNat b.toNat (g m.toNat)
  | .vtail d a b m _ => tailMember s d.toNat a.toNat b.toNat (g m.toNat)
  | .vbcast d a m _ => broadcastMember s d.toNat a.toNat (g m.toNat)
  | .vfredsum d a m _ => fsumMember s d.toNat a.toNat (g m.toNat)
  | .vfredsumw d a m _ => fsumWideMember s d.toNat a.toNat (g m.toNat)
  | .vfredmax d a m _ => fextremeMember s d.toNat a.toNat (g m.toNat) true
  | .vfredmin d a m _ => fextremeMember s d.toNat a.toNat (g m.toNat) false
  | .vredsum d a m _ => isumMember s d.toNat a.toNat (g m.toNat)
  | .vredmax d a m _ => iextremeMember s d.toNat a.toNat (g m.toNat) true
  | .vredmin d a m _ => iextremeMember s d.toNat a.toNat (g m.toNat) false
  | .vraise d a k m _ => raiseMember s d.toNat a.toNat k.toNat (g m.toNat)
  | .vlower d a k m _ => lowerMember s d.toNat a.toNat k.toNat (g m.toNat)
  | .vbcastk d k m _ => broadcastScalarMember s d.toNat k.toNat (g m.toNat)
  | .vld d i k m r _ => vldMember s true d.toNat k.toNat i (g m.toNat) r
  | .vst d i k m r _ => vldMember s false d.toNat k.toNat i (g m.toNat) r
  | .vld2 d i k m r _ => vld2Member s true d.toNat k.toNat i (g m.toNat) r
  | .vst2 d i k m r _ => vld2Member s false d.toNat k.toNat i (g m.toNat) r
  | .vldx d a x k m r _ => vldxMember s true d.toNat k.toNat a.toNat x (g m.toNat) r
  | .vstx d a x k m r _ => vldxMember s false d.toNat k.toNat a.toNat x (g m.toNat) r
  | .vldslab d a t k m _ => vldslabMember s d.toNat a.toNat t.toNat k.toNat (g m.toNat)
  | .vdef d k => vdefMember d.toNat k.toNat
  | .vtld k => vtldMember k.toNat
  | .vtst k => vtstMember k.toNat
  | .vsett i => vsettMember i
  | .vlen k => vlenMember k.toNat
  | .vlenShape a k => vlenShapeMember s k.toNat a.toNat
  | .vsetmt k => vsetmtMember (fun t => (readK k.toNat t).setWidth 2)
  | .vsetmtImm v => vsetmtMember (fun _ => v)
  | .mma n a b _ => mmaMember s n a.toNat b.toNat
  | .mmas n a b _ => mmasMember s n a.toNat b.toNat
  | .men _ => menMember
  | .mdis _ => mdisMember s
  | .mzero n _ => mzeroMember s n
  | .mshape k _ => mshapeMember s k.toNat
  | .mscl k _ => msclMember k.toNat
  | .mextRow d n r m _ => mextMember s d.toNat n (.row r.toNat) (g m.toNat)
  | .mextCol d n r m _ => mextMember s d.toNat n (.col r.toNat) (g m.toNat)
  | .mextRect d n m _ => mextMember s d.toNat n .rect (g m.toNat)
  | .minsRow d n r m _ => minsMember s d.toNat n (.row r.toNat) (g m.toNat)
  | .minsCol d n r m _ => minsMember s d.toNat n (.col r.toNat) (g m.toNat)
  | .minsRect d n m _ => minsMember s d.toNat n .rect (g m.toNat)
  | .lstep n _ => lstepMember s n
  | .lblend d _ => lblendMember s d.toNat
  | .lrungLd d l _ => lrungMember s true d.toNat (fun _ => l.setWidth 64)
  | .lrungSt d l _ => lrungMember s false d.toNat (fun _ => l.setWidth 64)
  | .lrungLdK d k _ => lrungMember s true d.toNat (readK k.toNat)
  | .lrungStK d k _ => lrungMember s false d.toNat (readK k.toNat)
  | .lcfg k _ => lcfgMember s k.toNat
  | .lstatCnt k _ => lstatMember s k.toNat false
  | .lstatCarry k _ => lstatMember s k.toNat true
  | .lreset _ => lresetMember s
  | .vissue d a m => vissueMember s d.toNat a.toNat (g m.toNat)
  | .vcapp q a m _ => vcappShape s q.toNat a.toNat (g m.toNat)
  | .vcappK q k m _ => vcappScalar s q.toNat k.toNat (g m.toNat)
  | .vwait d a e k m => vwaitMember s d.toNat a.toNat e.toNat k.toNat (g m.toNat)
  | .gmma n a b _ => gmmaMember s n a b
  | .vkadd d i k _ => scalarMember d.toNat (fun t => readK k.toNat t + i.signExtend 64)
  | .vkaddK d r k _ => scalarMember d.toNat (fun t => readK k.toNat t + readK r.toNat t)
  | .vkpop d _ => kpopMember d.toNat
  | .vkget d a _ => kgetMember s d.toNat a.toNat
  | .vkpush k _ => pushMember [] (readK k.toNat)
  | .vmpushCount a _ => pushMember [a.toNat] (fun t => .ofNat 64 (maskCount a.toNat t))
  | .vmpushFirst a _ => pushMember [a.toNat] (maskFirst a.toNat)
  | .vbend => Member.base .a .sequencer
  | _ => Member.base .a .sequencer

end Sys2Proof.Machine
end

