-- ==== Sys2Proof/Machine/Convoy.lean ====
section
/-! DEFINITION. The convoy sequencer: forming a convoy (02_encoding.md R40), its checks and interlocks at issue
(03_plane.md R83; 05_convoy.md R112 to R117), running and retiring it (R111, R114, R118), the trap point (R137, R138),
blocks (R135), and VISSUE (06_issue.md R146 to R153). -/

namespace Sys2Proof.Machine

/-! ## The checks at issue -/

/-- SHAPE-TYPE: what R75 asks of a shape under 64-bit elements. -/
def shapeTypeBad (v : Shape) (ew : Nat) : Bool :=
  ew == 64 && (v.kind == 2 || (v.kind == 1 && (v.col0 % 2 == 1 || v.w % 2 == 1)))

/-- The conditions of R83, in their order. -/
inductive ShapeCond where
  | off | type | length | gated
  deriving DecidableEq, Repr, Inhabited

/-- The cause of a condition. -/
def ShapeCond.cause : ShapeCond → Cause
  | .off => .shapeOff
  | .type => .shapeType
  | .length => .shapeLength
  | .gated => .planeGated

/-- A shape fails a condition. -/
def ShapeCond.fails (k : ShapeCond) (u : Use) (s : State) : Bool :=
  let v := shapeAt u.shape s
  match k with
  | .off => v.kind == 0
  | .type => shapeTypeBad v u.ew
  | .length => match u.need with
    | some n => decide (v.cap u.ew < n)
    | none => false
  | .gated => u.box && shapeGated s.core.conv.planepwr v

/-- The first condition and shape of a member that fails (R83). -/
def shapeFault (m : Member) (s : State) : Option (Cause × Word) :=
  [ShapeCond.off, .type, .length, .gated].findSome? (fun k =>
    (m.uses.find? (fun u => k.fails u s)).map (fun u => (k.cause, .ofNat 64 u.shape)))

/-- A member of a convoy with its index. -/
structure Slot where
  idx : Nat
  mem : Member

/-- The first member that fails R83 or the checks of its own description. -/
def memberFault (slots : List Slot) (s : State) : Option (Nat × Cause × Word) :=
  slots.findSome? (fun x => (orCheck (shapeFault x.mem s) x.mem.check).map (fun p => (x.idx, p.1, p.2)))

/-- CONVOY-STRUCTURE: the first member that exceeds its pipe's capacity (R112). -/
def structureFault : List Slot → List Pipe → Option (Nat × Cause × Word)
  | [], _ => none
  | x :: l, seen =>
    match x.mem.pipe.capacity with
    | some n =>
      if n ≤ (seen.filter (fun p => p == x.mem.pipe)).length then
        some (x.idx, .convoyStructure, .ofNat 64 x.mem.pipe.code)
      else structureFault l (x.mem.pipe :: seen)
    | none => structureFault l seen

/-- The masks a member reads. -/
def Member.readsMasks (m : Member) : List Nat := (m.mask :: m.maskReads).filter (fun k => k != 0)

/-- A box of j meets a write box of i, or a write box of j a read box of i (R113). -/
def usesTouch (i j : Use) (s : State) : Bool :=
  boxesMeet (shapeAt i.shape s).box (shapeAt j.shape s).box && (i.wr || (j.wr && i.rd))

/-- The classes of two touching members allow it: both E, or a P that an E only reads. -/
def classesAllow (i j : Member) (jReadsWrite : Bool) : Bool :=
  j.cls == .e && (i.cls == .e || (i.cls == .p && jReadsWrite))

/-- A touching pair of shapes that does not meet both conditions of R113. -/
def usesClash (mi mj : Member) (i j : Use) (s : State) : Bool :=
  usesTouch i j s
    && !(sameGeometry (shapeAt i.shape s) (shapeAt j.shape s) && i.ew == j.ew
      && classesAllow mi mj (i.wr && !j.wr))

/-- The first clash of member j with member i: a shape of j, or a mask. DEDUCED: log entry 19. -/
def aliasOf (mi mj : Member) (s : State) : Option Word :=
  match mj.boxes.find? (fun u => mi.boxes.any (fun v => usesClash mi mj v u s)) with
  | some u => some (.ofNat 64 u.shape)
  | none =>
    if classesAllow mi mj false then none
    else
      ((mj.maskWrites.filter (fun k => mi.maskWrites.contains k || mi.readsMasks.contains k))
        ++ mj.readsMasks.filter (fun k => mi.maskWrites.contains k)).head?.map (fun k => .ofNat 64 k)

/-- CONVOY-ALIAS: the first failing pair (R113). DEDUCED: log entry 19. -/
def aliasFault (before : List Slot) (s : State) : List Slot → Option (Nat × Cause × Word)
  | [] => none
  | x :: l =>
    match before.findSome? (fun y => aliasOf y.mem x.mem s) with
    | some v => some (x.idx, .convoyAlias, v)
    | none => aliasFault (before ++ [x]) s l

/-- The first check at issue that the convoy fails. -/
def convoyFault (slots : List Slot) (s : State) : Option (Nat × Cause × Word) :=
  ((memberFault slots s).or (structureFault slots [])).or (aliasFault [] s slots)

/-- LTRC.STALL holds the convoy: it has a record to make that the ring cannot take (R145). -/
def traceHolds (slots : List Slot) (s : State) : Bool :=
  let t := s.core.trace
  t.ltrc.getLsbD 9 && t.ltrc.getLsbD 8 && !t.takes
    && slots.any (fun x => decide (x.mem.pipe.code < 6) && t.ltrc.getLsbD x.mem.pipe.code)

/-- The convoy scalars that a word names. -/
def kNamed (i : Instr) : List (BitVec 3) :=
  match i with
  | .vfaddK _ _ _ k _ _ | .vfsubK _ _ _ k _ _ | .vfmulK _ _ _ k _ _ | .vfminK _ _ _ k _ _ | .vfmaxK _ _ _ k _ _
  | .vfdivK _ _ _ k _ _ | .vaddK _ _ _ k _ _ | .vsubK _ _ _ k _ _ | .vmulK _ _ _ k _ _ | .vminK _ _ _ k _ _
  | .vmaxK _ _ _ k _ _ | .vdivK _ _ _ k _ _ | .vremK _ _ _ k _ _ | .vldx _ _ _ k _ _ _ | .vstx _ _ _ k _ _ _ => [k]
  | .vfmaK _ _ k _ _ | .vfnmaK _ _ k _ _ | .vfmsK _ _ k _ _ | .vfnmsK _ _ k _ _ | .vceqK _ _ k _ _ | .vcneK _ _ k _ _
  | .vcltK _ _ k _ _ | .vcleK _ _ k _ _ | .vcgtK _ _ k _ _ | .vcgeK _ _ k _ _ | .vcunK _ _ k _ _ | .vraise _ _ k _ _
  | .vlower _ _ k _ _ => [k]
  | .vbcastk _ k _ _ | .vcappK _ k _ _ => [k]
  | .vld _ _ k _ _ _ | .vst _ _ k _ _ _ | .vldslab _ _ _ k _ _ => [k]
  | .vld2 _ _ k _ _ _ | .vst2 _ _ k _ _ _ => [k, k + 1]
  | .vdef _ k | .vlenShape _ k | .vtld k | .vtst k | .vlen k | .vsetmt k => [k]
  | .lrungLdK _ k _ | .lrungStK _ k _ => [k]
  | .mshape k _ | .mscl k _ | .lcfg k _ | .lstatCnt k _ | .lstatCarry k _ | .vkpush k _ | .vkpop k _ => [k]
  | .vwait _ _ _ k _ => [k]
  | .vkadd d _ k _ => [d, k]
  | .vkaddK d t k _ => [d, t, k]
  | .vkget d _ _ => [d]
  | _ => []

/-- A word that pushes into rq. -/
def pushWord (i : Instr) : Bool :=
  match i with
  | .vkpush _ _ | .vmpushCount _ _ | .vmpushFirst _ _ => true
  | _ => false

/-- A convoy that waits to retire holds back a later one that is a VISSUE, that names a convoy scalar it has still to write,
or that pushes into rq after a push it has still to make (16_die.md R358; R115). DESIGN CHOICE: log entry 36. -/
def parkedHolds (words : List Instr) (s : State) : Bool :=
  let parked := s.core.conv.parked
  parked != [] && words.any (fun i =>
    (match i with
      | .vissue _ _ _ => true
      | _ => false)
    || (pushWord i && parked.any (fun p => p.rqout != []))
    || parked.any (fun p => p.kout.any (fun x => (kNamed i).any (fun k => k.toNat == x.1))))

/-- The dq entries and the rq room that a convoy needs are there (R115). -/
def queuesServe (slots : List Slot) (s : State) : Bool :=
  decide ((slots.map (fun x => x.mem.pops)).sum ≤ s.core.q.dq.length)
    && decide ((slots.map (fun x => x.mem.pushes)).sum ≤ 32 - s.core.q.rq.length)

/-- The interlocks of R115, R117 and R145. -/
def convoyReady (words : List Instr) (slots : List Slot) (s : State) : Bool :=
  slots.all (fun x => x.mem.ready) && queuesServe slots s && !traceHolds slots s && !parkedHolds words s

/-! ## The trap point (R137, R138) -/

/-- What a convoy trap records besides CAUSE, TVAL and EPC. -/
structure TrapPoint where
  member : Nat
  k : Nat
  done : BitVec 4
  vispos : Word
  cause : Cause
  tval : Word
  mf : Option (BitVec 8)
  deriving DecidableEq, Repr, Inhabited

/-- MFINFO for a check at issue: MEM-SPACE names the space of VMT (09_core_memory.md R234). -/
def issueMf (c : Cause) (s : State) : Option (BitVec 8) :=
  if c = .memSpace then some (mfinfoOf 7 ⟨8, false, false, true, true⟩ s.core.conv.vmt) else none

/-- The convoy stream records the trap point. DEDUCED: log entry 17. -/
def recordPoint (t : TrapPoint) (c : Conv) : Conv :=
  { c with cmem := .ofNat 2 t.member, startK := .ofNat 14 t.k, startDone := t.done, startLk := 0, vispos := t.vispos }

/-- A trap whose point is recorded is taken (08_core_steering.md R196). After the CSTEP of the last trip of a block the
stream stays IDLE (R141). -/
def takeDue (d : Due) (s : State) : State :=
  (takeTrapTask ⟨d.cause, true, d.tval, s.core.steer.pc⟩ (s.modCore (fun c => { c with
    conv := { c.conv with trapDue := none }, steer := { c.steer with mfinfo := d.mf.getD c.steer.mfinfo } }))).modConv
      (fun c => if d.cause = .cstep ∧ c.lc = 0 then { c with st := .idle } else c)

/-- The convoy stream records the trap point, and the core takes the trap. An SSTEP that is due goes before it: the trap
then stands until that handler has returned (08_core_steering.md R201). DEDUCED: log entries 17 and 35. -/
def convoyTrap (t : TrapPoint) (s : State) : State :=
  let d : Due := ⟨t.cause, t.tval, t.mf⟩
  let s1 := s.modConv (recordPoint t)
  if s.core.steer.stepped then
    takeTrapTask ⟨.sstep, false, 0, s.core.steer.pc⟩ (s1.modCore (fun c => { c with
      conv := { c.conv with trapDue := some d }, steer := { c.steer with stepped := false } }))
  else takeDue d s1

/-- A fault at issue: no member has any effect. DEDUCED: log entry 17. -/
def issueFault (member : Nat) (c : Cause) (tval : Word) (s : State) : State :=
  convoyTrap ⟨member, 0, 0, s.core.conv.vispos, c, tval, issueMf c s⟩ s

/-- A decoding fault of convoy text: it is raised once every earlier convoy has retired (02_encoding.md R38; 16_die.md
R358). -/
def decodingFault (member : Nat) (c : Cause) (tval : Word) (s : State) : Result :=
  .next (if s.core.conv.parked = [] then issueFault member c tval s else stall s)

/-! ## The elements of E and P members (R114) -/

/-- How a run of elements ends. -/
inductive RunEnd where
  | done (s : State)
  | trap (s : State) (k : Nat) (member : Nat) (flags : FlagSet) (cause : Cause) (tval : Word) (mf : Option (BitVec 8))
  | wait (s : State) (k : Nat)

/-- The snapshot, with the counter of free values, the time and the bands where the run left them. -/
def keepTick (old new : State) : State :=
  { old with tick := new.tick, time := new.time }.modConv (fun c => { c with planepwr := new.core.conv.planepwr })

/-- Element e of each member in order, each waking the bands that it accesses (03_plane.md R91); a trap or a wait leaves
the element unwritten by all of them, and the bands as the start with those that the members have read.
DEDUCED: log entry 70. -/
def runElement (start : State) (e : Nat) : List Slot → State → RunEnd
  | [], s => .done s
  | x :: l, s =>
    let read := wake (x.mem.readTouched [e] s) start
    match x.mem.elem e (wake (x.mem.touched [e] s) s) with
    | .ok s' _ _ => runElement read e l s'
    | .trap fl c tv mf => .trap ({ read with tick := s.tick, time := s.time } : State).tickUp e x.idx fl c tv mf
    | .stop s' k _ _ c tv mf => .trap s' k x.idx 0 c tv mf
    | .wait s' => .wait ({ read with tick := s'.tick, time := s'.time } : State).tickUp e

/-- The elements from e, as many as are left. -/
def runElements (slots : List Slot) : Nat → Nat → State → RunEnd
  | 0, _, s => .done s
  | n + 1, e, s =>
    match runElement s e slots s with
    | .done s' => runElements slots n (e + 1) s'
    | r => r

/-! ## Where a pre-emption request may stop a convoy (R119; 08_core_steering.md R205) -/

/-- The boxes of the cells a shape holds: its rectangle, or the cells of its diagonal. -/
def cellBoxes (v : Shape) : List (Nat × Nat × Nat × Nat) :=
  if v.kind = 2 then (List.range v.h).map (fun q => (v.row0 + q, 1, v.col0 + q, 1)) else [v.box]

/-- Two shapes share a cell. -/
def cellsMeet (a b : Shape) : Bool := (cellBoxes a).any (fun x => (cellBoxes b).any (fun y => boxesMeet x y))

/-- Overlap mode: a destination shares cells with a source of another geometry (03_plane.md R89). -/
def Member.overlaps (m : Member) (s : State) : Bool :=
  m.boxes.any (fun u => u.wr && m.boxes.any (fun v => v.rd
    && cellsMeet (shapeAt u.shape s) (shapeAt v.shape s) && !sameGeometry (shapeAt u.shape s) (shapeAt v.shape s)))

/-- The governing walk of a member: its plane destination, or its first plane source (R119). -/
def Member.walk (m : Member) : Option Use := (m.boxes.find? (fun u => u.wr)).or m.boxes.head?

/-- The elements of a cell group of a member's governing walk: 64 visits (03_plane.md R82). -/
def Member.groupSize (m : Member) (s : State) : Nat :=
  match m.walk with
  | some u => if u.ew < 32 ∧ (shapeAt u.shape s).colMajor then 64 else 2048 / u.ew
  | none => 64

/-- The cells that elements of a shape lie in. -/
def cellsOf (v : Shape) (ew : Nat) (l : List Nat) : List (Nat × Nat) :=
  ((l.map (fun e =>
    let (r, c, _) := place v ew e
    if ew = 64 then [(r, c), (r, c + 1)] else [(r, c)])).flatten).eraseDups

/-- The L-cycles in which a port moves cells: the most that lie in one bank, at least 1 (03_plane.md R81). -/
def bankCount (cells : List (Nat × Nat)) : Nat :=
  (List.range 64).foldl (fun n b => max n (cells.countP (fun p => (p.1 + p.2) % 64 == b))) 1

/-- The elements of group g of a member, below VL. -/
def Member.group (m : Member) (g : Nat) (s : State) : List Nat :=
  ((List.range (m.groupSize s)).map (fun t => g * m.groupSize s + t)).filter (fun e => decide (e < s.vl))

/-- The cost of a group of a member: by the cells of the group in each of its shapes, whatever the mask (R119).
DESIGN CHOICE: log entry 73. -/
def Member.groupCost (m : Member) (g : Nat) (s : State) : Nat :=
  if m.pipe = .sfu ∨ m.overlaps s then 4
  else
    let l := m.group g s
    let cells : List Access := match m.cost with
      | some f => f l s
      | none => m.boxes.map (fun u => ⟨u.shape, u.ew, l.filter (fun e => decide (e < (shapeAt u.shape s).cap u.ew))⟩)
    cells.foldl (fun n a => max n (bankCount (cellsOf (shapeAt a.shape s) a.ew a.elems))) 1

/-- The plane sources of members that no chaining delivers, each geometry and width once. -/
def sourcesOf (l : List Member) (s : State) : List (Shape × Nat) :=
  ((List.range l.length).zip l).foldl (fun acc p =>
    let before := (l.take p.1).flatMap (fun m => m.boxes.filter (fun u => u.wr))
    let new := p.2.boxes.filter (fun u => u.rd
      && !before.any (fun w => cellsMeet (shapeAt w.shape s) (shapeAt u.shape s)))
    new.foldl (fun acc u =>
      if acc.any (fun q => sameGeometry q.1 (shapeAt u.shape s) && q.2 == u.ew) then acc
      else (shapeAt u.shape s, u.ew) :: acc) acc) []

/-- The issue occupancy of E and P members, in L-cycles (R119). DESIGN CHOICE: log entry 73. -/
def occupancy (l : List Member) (s : State) : Nat :=
  let reads := (sourcesOf l s).length
  let writes := ((l.flatMap (fun m => m.boxes.filter (fun u => u.wr))).map (·.shape)).eraseDups.length
  (List.range (s.vl / 32 + 1)).foldl (fun o g =>
    let on := l.filter (fun m => (m.group g s).any (fun e => m.always || maskBit m.mask e s))
    if on.isEmpty then o else o + on.foldl (fun n m => max n (m.groupCost g s)) (max 1 (max ((reads + 1) / 2) writes))) 0

/-- A request may stop E and P members: at any element of a vector load or store, and between the cell groups of a member
in overlap mode or of members that would take more than 512 L-cycles (08_core_steering.md R205). The elements of a
group. -/
def stopGrain (l : List Member) (s : State) : Option Nat :=
  if l.any (fun m => m.pipe == .vmem) then some 1
  else match l.find? (fun m => m.overlaps s) with
    | some m => some (m.groupSize s)
    | none => if 512 < occupancy l s then l.head?.map (fun m => m.groupSize s) else none

/-- Where a turn of E and P members ends that begins at element k. -/
def turnEnd (l : List Member) (k : Nat) (s : State) : Nat :=
  match s.core.pace with
  | none => s.vl
  | some n => match stopGrain l s with
    | some g => min s.vl ((k + n) / g * g + g)
    | none => s.vl

/-! ## VISSUE (06_issue.md R146 to R153) -/

/-- What encloses a lane word: the box of vs, the governing mask and md of a VISSUE. -/
structure Enclosing where
  box : Nat × Nat × Nat × Nat
  mask : Nat
  md : Nat
  deriving DecidableEq, Repr, Inhabited

/-- The number of the model's register for the mask that VISSUE governs a word with. -/
def virtualMask : Nat := 8

/-- A member writes something that an enclosing VISSUE needs (condition 4 of R147): every cell that its destination shape
holds counts. DEDUCED: log entry 74. -/
def writesEnclosing (m : Member) (e : Enclosing) (s : State) : Bool :=
  m.uses.any (fun u => u.wr && (cellBoxes (shapeAt u.shape s)).any (fun b => boxesMeet b e.box))
    || m.maskWrites.any (fun k => k == e.mask || k == e.md)

/-- The opcodes of condition 3 of R147, for a VISSUE of depth n. -/
def laneOpcode (n op : Nat) : Bool :=
  (decide (0x40 ≤ op) && decide (op ≤ 0x45)) || (decide (0x50 ≤ op) && decide (op ≤ 0x55))
    || (decide (0x58 ≤ op) && decide (op ≤ 0x5C)) || op == 0x64 || op == 0x65 || op == 0x68 || op == 0x69
    || (op == 0x78 && n == 1)

/-- The instruction of a legal lane word, for a VISSUE of depth n (R147). -/
def laneInstr (n : Nat) (encl : List Enclosing) (w : Nat) (s : State) : Option Instr :=
  if 2 ^ 31 ≤ w ∨ laneOpcode n (w % 128) = false then none
  else match readVector (.ofNat 32 w) with
    | none => none
    | some i =>
      let m := describe id i s
      if i.wf && m.paired && !encl.any (fun e => writesEnclosing m e s) then some i else none

/-- Every element, with its lane word and the word's instruction when it is legal. -/
def laneWords (n : Nat) (encl : List Enclosing) (a : Nat) (active : List Nat) (s : State) :
    List (Nat × Nat × Option Instr) :=
  active.map (fun i =>
    let w := elemGet (shapeAt a s) 32 i s
    (i, w, laneInstr n encl w s))

/-- A number put into a rising list without repeats. -/
def insertAsc (x : Nat) : List Nat → List Nat
  | [] => [x]
  | y :: l => if x < y then x :: y :: l else if x = y then y :: l else y :: insertAsc x l

/-- The distinct legal words at or above the start word, ascending. -/
def legalWords (lanes : List (Nat × Nat × Option Instr)) (start : Nat) : List Nat :=
  (lanes.filter (fun p => p.2.2.isSome && decide (start ≤ p.2.1))).foldl (fun l p => insertAsc p.2.1 l) []

/-- Set the model's register for a governing mask. -/
def setVirtual (elems : List Nat) (s : State) : State :=
  elems.foldl (fun t i => writeMaskBit virtualMask i true t) s

/-- Clear it. -/
def clearVirtual (s : State) : State :=
  s.modConv (fun c => { c with masks := c.masks.filter (fun p => decide (p.1 < 8192 * virtualMask)) })

/-- How a word, or a VISSUE, ends: done, with the bit that md of a VISSUE received an illegal element; or a pause at an
element of a word; or a stop, with the element, DONE, the depth-2 word and the trap. -/
inductive VisEnd where
  | done (s : State) (ill : Bool)
  | pause (s : State) (k w1 w2 : Nat)
  | stop (s : State) (k : Nat) (done : BitVec 4) (w1 w2 : Nat) (cause : Cause) (tval : Word) (mf : Option (BitVec 8))

/-- The pipe of the lane word that stands unfinished. -/
def laneMid (s : State) : Option Nat := s.core.conv.flight.bind (·.mid)

/-- Set it. -/
def setMid (n : Option Nat) (s : State) : State :=
  s.modConv (fun c => { c with flight := c.flight.map (fun f => { f with mid := n }) })

/-- The end record of the lane word in hand. -/
def endLane (s : State) : State :=
  match laneMid s with
  | some n => setMid none (emitRecord true n 0 1 s)
  | none => s

/-- A lane word begins, unless it goes on. -/
def beginLane (pipe : Nat) (s : State) : State :=
  match laneMid s with
  | some _ => s
  | none => setMid (some pipe) (emitRecord false pipe 0 1 (s.modConv (fun c => { c with stored := [] })))

/-- A lane word that is no VISSUE, run as a one-member convoy under the mask of `elems` from an element; LTRC.STALL holds
it before it begins, at the word boundary of the fields `at'` (05_convoy.md R145; R152). -/
def runLaneWord (i : Instr) (elems : List Nat) (k0 w : Nat) (at' : Nat × Nat) (s : State) : VisEnd :=
  let m := describe (fun _ => virtualMask) i s
  match shapeFault m s with
  | some (c, tv) => .stop s 0 0 w 0 c tv none
  | none =>
    if (laneMid s).isNone && traceHolds [⟨0, m⟩] s then .pause s k0 at'.1 at'.2
    else
    let s1 := setVirtual elems (beginLane m.pipe.code s)
    let stop := turnEnd [m] k0 s1
    match runElements [⟨0, m⟩] (stop - k0) k0 s1 with
    | .done t => if stop < t.vl then .pause (clearVirtual t) stop w 0 else .done (endLane (clearVirtual t)) false
    | .trap t k _ fl c tv mf => .stop (endLane (clearVirtual (raiseFlags fl t))) k 0 w 0 c tv mf
    | .wait t k => .pause (clearVirtual t) k w 0

/-- After a word: the next turn goes on with the words above it, or this turn does. -/
def nextWord (w : Nat) (s : State) (go : State → VisEnd) : VisEnd :=
  if s.core.pace.isSome then .pause s 0 (w + 1) 0 else go s

/-- The elements of a word: those that hold it, under the mask that the word names as it stands now. -/
def wordElems (lanes : List (Nat × Nat × Option Instr)) (w : Nat) (s : State) : List Nat :=
  (lanes.filter (fun p => p.2.1 == w)).map (fun p => p.1) |>.filter (fun i => maskBit (w / 2 ^ 25 % 8) i s)

/-- The instruction of a legal word. -/
def wordInstr (lanes : List (Nat × Nat × Option Instr)) (w : Nat) : Option Instr :=
  (lanes.find? (fun p => p.2.1 == w)).bind (fun p => p.2.2)

/-- The element at which the word in hand begins. -/
def startElem (s : State) : Nat := (s.core.conv.flight.map (·.next)).getD 0

/-- The words of one VISSUE in order, from the word boundary of the fields `at'`: those of the issue, or past the last
completed word (R152); `run` runs a VISSUE word, given it, its fields, its elements and the inner start. -/
def runWords (lanes : List (Nat × Nat × Option Instr)) (start inner : Nat) (depth1 : Bool)
    (run : Nat → Nat → Nat → Nat → List Nat → Nat → State → VisEnd) : List Nat → Nat × Nat → State → VisEnd
  | [], _, s => .done s false
  | w :: l, at', s =>
    let elems := wordElems lanes w s
    match wordInstr lanes w with
    | some (.vissue d a m) =>
      match run w d.toNat a.toNat m.toNat elems (if w = start then inner else 0) s with
      | .stop t k dn w2 _ c tv mf => .stop t k dn w w2 c tv mf
      | .pause t k w2 _ => if w2 = 0 then .pause t k at'.1 at'.2 else .pause t k w w2
      | .done t ill =>
        if depth1 && ill && t.core.conv.vctl.getLsbD 7 then
          .stop t 0 0 (w + 1) 0 .issueLane (.ofNat 64 (d.toNat + 0x100)) none
        else nextWord w t (runWords lanes start inner depth1 run l (w + 1, 0))
    | some i =>
      match runLaneWord i elems (if w = start then startElem s else 0) w at' s with
      | .stop t k dn w1 w2 c tv mf => .stop t k dn w1 w2 c tv mf
      | .pause t k w1 w2 => .pause t k w1 w2
      | .done t _ => nextWord w t (runWords lanes start inner depth1 run l (w + 1, 0))
    | none => runWords lanes start inner depth1 run l at' s

/-- The grouping of a VISSUE: md receives the elements whose word is illegal (R148). -/
def markIllegal (md : Nat) (active : List Nat) (lanes : List (Nat × Nat × Option Instr)) (s : State) : State :=
  let bad := (lanes.filter (fun p => p.2.2.isNone)).map (fun p => p.1)
  let s1 := (List.range s.vl).foldl (fun t i => writeMaskBit md i (active.contains i && bad.contains i) t) s
  if bad.isEmpty then s1 else raiseFlags flagISS s1

/-- The active elements that the VISSUE in flight, or its word of a number, has latched (R148). -/
def latchedAt (w : Nat) (s : State) : Option (List Nat) :=
  s.core.conv.flight.bind (fun f => (f.latched.find? (fun p => p.1 == w)).map (fun p => p.2))

/-- They are latched. -/
def latchAt (w : Nat) (active : List Nat) (s : State) : State :=
  s.modConv (fun c => { c with flight := c.flight.map (fun f => { f with latched := f.latched ++ [(w, active)] }) })

/-- The grouping of a VISSUE, once: the elements are latched, vs is read, and md receives its bits (R148). -/
def beginGrouping (w a md : Nat) (active : List Nat) (lanes : List (Nat × Nat × Option Instr)) (s : State) : State :=
  if (latchedAt w s).isSome then s
  else latchAt w active (markIllegal md active lanes (wake [⟨a, 32, active⟩] s))

/-- Some lane word is illegal. -/
def anyIllegal (lanes : List (Nat × Nat × Option Instr)) : Bool := lanes.any (fun p => p.2.2.isNone)

/-- A depth-2 VISSUE, the word `w`, under the mask of `elems`. -/
def runInner (encl : Enclosing) (w d a m : Nat) (elems : List Nat) (start : Nat) (s : State) : VisEnd :=
  match shapeFault (vissueMember s d a m) s with
  | some (c, tv) => .stop s 0 0 0 0 c tv none
  | none =>
    let active := (latchedAt w s).getD elems
    let lanes := laneWords 2 [encl, ⟨(shapeAt a s).box, m, d⟩] a active s
    match runWords lanes start 0 false (fun _ _ _ _ _ _ t => .done t false) (legalWords lanes start) (start, 0)
        (beginGrouping w a d active lanes s) with
    | .done t _ => .done t (anyIllegal lanes)
    | .pause t k w1 _ => .pause t k w1 0
    | .stop t k dn w1 _ c tv mf => .stop t k dn w1 0 c tv mf

/-- VISPOS of a depth-1 and a depth-2 word. -/
def visposOf (w1 w2 : Nat) : Word := .ofNat 64 (w1 % 2 ^ 32 + w2 * 2 ^ 32)

/-- The VISSUE of convoy text, from the start words of VISPOS; ISSUE-LANE after it when IT is set (R150). -/
def runVissue (d a m : Nat) (s : State) : Step :=
  let start := s.core.conv.vispos.toNat % 2 ^ 32
  let inner := s.core.conv.vispos.toNat / 2 ^ 32
  let active := (latchedAt 0 s).getD (activeOf m s.elems s)
  let encl : Enclosing := ⟨(shapeAt a s).box, m, d⟩
  let lanes := laneWords 1 [encl] a active s
  match runWords lanes start inner true (runInner encl) (legalWords lanes start) (start, inner)
      (beginGrouping 0 a d active lanes s) with
  | .done t _ =>
    if anyIllegal lanes && t.core.conv.vctl.getLsbD 7 then .stop t 0 1 0 .issueLane (.ofNat 64 d) none
    else .done t
  | .pause t k w1 w2 => .wait (t.modConv (fun c => { c with
      vispos := visposOf w1 w2, flight := c.flight.map (fun f => { f with next := k }) }))
  | .stop t k dn w1 w2 c tv mf => .stop t k dn (visposOf w1 w2) c tv mf

/-! ## Running a convoy that has issued -/

/-- The member of a word of convoy text. -/
def memberOf (i : Instr) (s : State) : Member :=
  match i with
  | .vissue d a m => { vissueMember s d.toNat a.toNat m.toNat with run := runVissue d.toNat a.toNat m.toNat }
  | i => describe id i s

/-- The members of a convoy that a set of DONE bits does not skip. -/
def slotsOf (words : List Instr) (done : BitVec 4) (s : State) : List Slot :=
  ((List.range words.length).zip words).filterMap (fun p =>
    if done.getLsbD p.1 then none else some ⟨p.1, memberOf p.2 s⟩)

/-- An E or P member. -/
def Slot.walks (x : Slot) : Bool := x.mem.cls == .e || x.mem.cls == .p

/-- The end records of the members that the issue has not skipped (R142). -/
def endRecords (words : List Instr) (s : State) : State :=
  (slotsOf words s.core.conv.startDone s).foldl (fun t x => emitRecord true x.mem.pipe.code x.idx words.length t) s

/-- The begin records of members. DESIGN CHOICE: log entry 61. -/
def beginRecords (slots : List Slot) (cnt : Nat) (s : State) : State :=
  slots.foldl (fun t x => emitRecord false x.mem.pipe.code x.idx cnt t) s

/-- The writes and pushes of completed members land (R115). DEDUCED: log entry 18. -/
def landAll (f : Flight) (s : State) : State :=
  (f.kout.foldl (fun t p => landWrite p t) s).modQ (fun q => { q with rq := q.rq ++ f.rqout })

/-- The tier-miss event of the convoy is posted (16_die.md R358). -/
def postMisses (s : State) : State :=
  if s.core.conv.missed.isEmpty then s else s.modQ (·.post (missEvent s.core.conv))

/-- A convoy lands its writes and posts its event; or, when its event finds eq full, it waits to retire, and its
convoy-scalar writes and rq pushes wait with it (R358). -/
def landOrPark (f : Flight) (s : State) : State :=
  if s.core.conv.missed ≠ [] ∧ (16 ≤ s.core.q.eq.length ∨ s.core.conv.parked ≠ []) then
    ((f.kout.filter (fun p => decide (8 ≤ p.1))).foldl (fun t p => landWrite p t) s).modConv (fun c => { c with
      parked := c.parked ++ [⟨missEvent c, f.kout.filter (fun p => decide (p.1 < 8)), f.rqout⟩] })
  else postMisses (landAll f s)

/-- The oldest convoy that waits to retire does so (R358); under CDBG its CSTEP then stands at the boundary (R141).
DESIGN CHOICE: log entry 85. -/
def unpark (s : State) : State :=
  match s.core.conv.parked with
  | [] => s
  | p :: rest =>
    let t := p.kout.foldl (fun t x => landWrite x t) (s.modConv (fun c => { c with
      parked := rest
      trapDue := if c.cdbg && rest.isEmpty then c.trapDue.or (some ⟨.cstep, 0, none⟩) else c.trapDue }))
    t.modQ (fun q => ({ q with rq := q.rq ++ p.rqout } : Queues).post p.event)

/-- It may: there is room in eq, or a trap or a pre-emption request does not wait for it (R358). -/
def unparks (s : State) : Bool :=
  s.core.conv.parked != []
    && (s.core.steer.chalt || s.core.preq || decide (s.core.q.eq.length < 16) || s.core.run != .running)

/-- A write of the debug port to what a convoy has latched, by the numbering of `Flight.late`. -/
def setLate (c : Conv) (p : Nat × Word) : Conv :=
  if p.1 < 8 then { c with k := spPut 0 c.k p.1 p.2 }
  else match p.1 with
    | 8 => { c with vtype := p.2.setWidth 8 }
    | 9 => { c with vl := p.2.setWidth 14 }
    | 10 => { c with vmt := p.2.setWidth 2 }
    | 11 => { c with vctl := p.2.setWidth 8 }
    | n => if n < 64 then c else { c with table := spPut 0 c.table (n - 64) p.2 }

/-- One to a register of the matrix unit that a MEXT has latched (10_core_matrix.md R260). -/
def setLateMatrix (m : Matrix) (p : Nat × Word) : Matrix :=
  match p.1 with
  | 12 => { m with msize := p.2.setWidth 26 }
  | 13 => { m with mrowp := p.2 }
  | 14 => { m with mcolp := p.2 }
  | 15 => { m with mxscl := p.2 }
  | _ => m

/-- The late writes of the convoy in flight. -/
def Conv.late (c : Conv) : List (Nat × Word) := (c.flight.map (fun f => f.late)).getD []

/-- The late writes of the convoy in flight are made (03_plane.md R76). DESIGN CHOICE: log entry 48. -/
def applyLate (c : Conv) : Conv := c.late.foldl setLate c

/-- The convoy is no longer in flight. -/
def clearFlight (c : Conv) : Conv :=
  { applyLate c with flight := none, forming := [], stored := [], missed := [], missEntry := 0, expired := false, block := none }

/-- The convoy in flight has ended, and the late writes stand. -/
def endFlight (s : State) : State :=
  (s.modMat (fun m => s.core.conv.late.foldl setLateMatrix m)).modConv clearFlight

/-- Where the convoy stream goes when a convoy retires (R135). -/
def afterConvoy (words : List Instr) (c : Conv) : Conv :=
  match words with
  | [.vbend] => if 1 < c.lc.toNat then { c with lc := c.lc - 1, cpc := c.cblk } else { c with lc := 0, st := .idle }
  | _ => { c with cpc := c.cpc + 4 * .ofNat 32 words.length }

/-- CSTEP after a convoy that retires (R141). -/
def stepTrap (s : State) : State := convoyTrap ⟨0, 0, 0, s.core.conv.vispos, .cstep, 0, none⟩ s

/-- A convoy retires (R111, R115, R138, R151). -/
def retireConvoy (f : Flight) (s : State) : State :=
  let s1 := (endFlight (endRecords f.words (landOrPark f s))).modConv (fun c =>
    { afterConvoy f.words c with startK := 0, startDone := 0, startLk := 0, vispos := 0 })
  if s1.core.conv.cdbg && s1.core.conv.parked.isEmpty then stepTrap s1 else s1

/-- The member that pushes into rq, and so releases what the stream has stored, and the store of it that was discarded:
the push raises MEM-DATA (09_core_memory.md R244; 19_fabric.md R401). -/
def failedPush (f : Flight) (s : State) : Option (Nat × Word) :=
  match s.core.conv.failedStore, f.rqout with
  | some va, _ :: _ =>
    ((slotsOf f.words s.core.conv.startDone s).find? (fun x => x.mem.pushes != 0)).map (fun x => (x.idx, va))
  | _, _ => none

/-- Without the bits of the members that push. -/
def pushesUndone (f : Flight) (done : BitVec 4) (s : State) : BitVec 4 :=
  ((slotsOf f.words s.core.conv.startDone s).filter (fun x => x.mem.pushes != 0)).foldl
    (fun d x => d &&& ~~~(.ofNat 4 (2 ^ x.idx))) done

/-- A convoy that stops, with its DONE bits: its pushes are not made, and are not complete, where the stream has a discarded
store to report (19_fabric.md R401; 20_ordering.md R411). -/
def withheld (f : Flight) (done : BitVec 4) (s : State) : Flight × BitVec 4 :=
  if (failedPush f s).isSome then ({ f with rqout := [] }, pushesUndone f done s) else (f, done)

/-- A convoy in flight stops at a trap point. DEDUCED: log entry 18. -/
def trapConvoy (f : Flight) (flags : FlagSet) (t : TrapPoint) (s : State) : State :=
  let w := withheld f t.done s
  convoyTrap { t with done := w.2 } (endFlight (endRecords f.words (postMisses (landAll w.1 (raiseFlags flags s)))))

/-- What the members that walk no elements have come to. -/
structure Progress where
  s : State
  done : BitVec 4
  kout : List (Nat × Word)
  rqout : List Word
  /-- The lowest member that raises. -/
  raised : Option (Nat × FlagSet × Cause × Word × Option (BitVec 8))
  /-- A member waits that may raise. -/
  waits : Bool
  /-- VCAPP waits, for room in its ring or in eq. -/
  appends : Bool
  /-- A member that stands alone has stopped. -/
  stop : Option TrapPoint

/-- One such member; it wakes the bands that it accesses (03_plane.md R91). DEDUCED: log entry 70. -/
def runMember (p : Progress) (x : Slot) : Progress :=
  match x.mem.run (wake (x.mem.touched (p.s.elems.filter (fun e => decide (startElem p.s ≤ e))) p.s) p.s) with
  | .ok s ko rq => { p with
      s := s, done := p.done ||| .ofNat 4 (2 ^ x.idx), kout := p.kout ++ ko, rqout := p.rqout ++ rq }
  | .trap fl c tv mf => { p with
      s := (wake (x.mem.readTouched p.s.elems p.s) p.s).tickUp, raised := p.raised.or (some (x.idx, fl, c, tv, mf)) }
  | .wait s => if x.mem.pipe = .vmem then { p with s := s, appends := true } else { p with s := s, waits := true }
  | .stop s k dn vp c tv mf => { p with s := s, stop := some ⟨x.idx, k, dn, vp, c, tv, mf⟩ }

/-- DONE with the members that walk elements. -/
def walkersDone (slots : List Slot) (done : BitVec 4) : BitVec 4 :=
  (slots.filter Slot.walks).foldl (fun d x => d ||| .ofNat 4 (2 ^ x.idx)) done

/-- The trap of a push that finds a discarded store: every other member has completed, and no push takes effect. -/
def releaseTrap (slots : List Slot) (f : Flight) (j : Nat) (va : Word) (s : State) : State :=
  trapConvoy { f with rqout := [] } 0
    ⟨j, 0, pushesUndone f (walkersDone slots f.done) s, s.core.conv.vispos, .memData, va, some (mfinfoOf 7 (elemWant 8 true false) 3)⟩
    (s.modConv (fun c => { c with failedStore := none }))

/-- A store of the stream that member j reports is no longer recorded. -/
def reported (slots : List Slot) (j : Nat) (c : Cause) (s : State) : State :=
  if c = .memData ∧ slots.any (fun x => x.idx == j && x.mem.reports) then s.modConv (fun c => { c with failedStore := none })
  else s

/-- The convoy in flight goes as far as it can: the members that walk no elements, then the elements, then the
retirement or the trap (R111, R114, R137). While its VCAPP waits every other member completes (06_issue.md R157); a trap of
one of them waits, as VCAPP has then to complete first (R137). DESIGN CHOICE: log entry 36. -/
def runConvoy (s : State) : Result :=
  match s.core.conv.flight with
  | none => .next s
  | some f =>
    let slots := slotsOf f.words f.done s
    let walkers := slots.filter Slot.walks
    let p := (slots.filter (fun x => !x.walks)).foldl runMember ⟨s, f.done, f.kout, f.rqout, none, false, false, none⟩
    let f1 : Flight := { f with done := p.done, kout := p.kout, rqout := p.rqout }
    let hold := fun (done : BitVec 4) (t : State) => stall (t.modConv (fun c => { c with
      flight := c.flight.map (fun g => { g with done := done, kout := p.kout, rqout := p.rqout }) }))
    let holdAt := fun (k : Nat) (t : State) =>
      hold p.done (t.modConv (fun c => { c with flight := c.flight.map (fun g => { g with next := k }) }))
    match p.stop with
    | some t => .next (trapConvoy f1 0 t p.s)
    | none =>
      if p.waits || (p.appends && p.raised.isSome) then .next (hold p.done p.s)
      else
        let vp := p.s.core.conv.vispos
        match p.raised with
        | some (j, fl, c, tv, mf) =>
          match runElements (walkers.filter (fun x => decide (x.idx < j))) (if f.next = 0 then min 1 p.s.vl else 0) 0 p.s with
          | .trap t _ i fl2 c2 tv2 mf2 =>
            .next (trapConvoy f1 fl2 ⟨i, 0, p.done, vp, c2, tv2, mf2⟩ (keepTick p.s t))
          | _ => .next (trapConvoy f1 fl ⟨j, 0, p.done, vp, c, tv, mf⟩ (reported slots j c p.s))
        | none =>
          let stop := turnEnd (walkers.map (·.mem)) f.next p.s
          match runElements walkers (stop - f.next) f.next p.s with
          | .trap t k j fl c tv mf =>
            .next (if p.appends then hold p.done p.s else trapConvoy f1 fl ⟨j, k, p.done, vp, c, tv, mf⟩ t)
          | .wait t k => .next (holdAt k t)
          | .done t =>
            .next (if walkers ≠ [] ∧ stop < t.vl then holdAt stop t
              else if p.appends then hold (walkersDone slots p.done) t
              else match failedPush f1 t with
                | some (j, va) => releaseTrap slots f1 j va t
                | none => retireConvoy f1 t)

/-! ## Issue -/

/-- A convoy issues: it takes its descriptors, and CBKSUP is cleared (R76, R117, R141). -/
def enterFlight (words : List Instr) (slots : List Slot) (s : State) : State :=
  let s1 := s.modCore (fun c => { c with
    half := c.halfNext
    steer := { c.steer with cbksup := false }
    conv := { c.conv with
      forming := [], stored := [], missed := [], missEntry := 0, expired := false, block := none
      flight := some { words := words, next := c.conv.startK.toNat, capp := c.conv.startK.toNat
                       lk := c.conv.startLk.toNat, mid := none, done := c.conv.startDone, kout := [], rqout := [] } } })
  beginRecords slots words.length s1

/-- Every member of a convoy, as its checks at issue see it: one that is skipped takes R83, R112 and R113 again, but not
the checks of its own description (R138). -/
def checkedSlots (words : List Instr) (s : State) : List Slot :=
  (slotsOf words 0 s).map (fun x =>
    if s.core.conv.startDone.getLsbD x.idx then { x with mem := { x.mem with check := none } } else x)

/-- A whole convoy is tried: a fault at issue, a wait for an interlock, or the issue (R117, R138).
DESIGN CHOICE: log entry 36. -/
def issueConvoy (words : List Instr) (s : State) : Result :=
  let slots := slotsOf words s.core.conv.startDone s
  let held := stall (s.modConv (fun c => { c with forming := words }))
  match slots.find? (fun x => !x.mem.paired) with
  | some x => decodingFault x.idx .illegalWord ((encode (words.getD x.idx .endTask)).setWidth 64) s
  | none =>
  if slots.any (fun x => !x.mem.settled) then .next held
  else match convoyFault (checkedSlots words s) s with
    | some (j, c, tv) => .next (issueFault j c tv s)
    | none => if convoyReady words slots s then runConvoy (enterFlight words slots s) else .next held

/-- The chain bit of a word (R29). -/
def chained (i : Instr) : Bool := decide (2 ^ 31 ≤ (encode i).toNat)

/-- A word of convoy text joins the convoy that forms (R38, R40); the last one makes it whole.
DESIGN CHOICE: log entry 7. -/
def vectorWord (i : Instr) (s : State) : Result :=
  let j := s.core.conv.forming.length
  let m := memberOf i s
  let word : Word := (encode i).setWidth 64
  if m.paired = false then decodingFault j .illegalWord word s
  else if (m.cls = .a ∧ (j ≠ 0 ∨ chained i)) ∨ (j = 3 ∧ chained i) then decodingFault j .convoyForm word s
  else
    let words := s.core.conv.forming ++ [i]
    if chained i then .next (s.modConv (fun c => { c with forming := words })) else issueConvoy words s

/-- A whole convoy has formed and waits to issue. -/
def Conv.formed (c : Conv) : Bool :=
  match c.forming.getLast? with
  | some i => !chained i
  | none => false

/-! ## Blocks and the early stop -/

/-- The head of bq is popped (R135). -/
def popBlock (s : State) : State :=
  match s.core.q.bq with
  | [] => s
  | b :: l =>
    let s1 := s.modQ (fun q => { q with bq := l })
    if s.core.conv.st ≠ .idle then s
    else if b.trips = 0 then s1
    else s1.modConv (fun c => { c with cblk := b.addr, cpc := b.addr, lc := b.trips, st := .run })

/-- The state that an early stop leaves (R157, R160, R205). -/
def stopAt (k lk : Nat) (done : BitVec 4) (f : Flight) (s : State) : State :=
  let w := withheld f done s
  (endFlight (endRecords f.words (postMisses (landAll w.1 s)))).modConv (fun c => { c with
    startK := .ofNat 14 k, startDone := w.2, startLk := .ofNat 13 lk })

/-- The element at which E and P members may stop that stand at element k: of a vector load or store its lowest active
element from there on, none with no such element left (R228); else the element itself. -/
def stopElem (l : List Member) (k : Nat) (s : State) : Option Nat :=
  match l.find? (fun m => m.pipe == .vmem) with
  | some m => s.elems.find? (fun e => decide (k ≤ e) && maskBit m.mask e s)
  | none => some k

/-- A member of R, N or A class that a request may stop inside its convoy: VCAPP, and the resumable ladder members. -/
def Slot.resumes (x : Slot) (words : List Instr) : Bool :=
  match words[x.idx]? with
  | some (.vcapp ..) | some (.vcappK ..) | some (.lblend ..) | some (.lrungLd ..) | some (.lrungSt ..)
  | some (.lrungLdK ..) | some (.lrungStK ..) => true
  | _ => false

/-- The element at which a member that walks none stops: of VCAPP, none of a ladder member. -/
def cappStop (slots : List Slot) (f : Flight) : Option Nat :=
  if slots.any (fun x => !x.walks && x.mem.pipe == .vmem) then some f.capp else none

/-- Some member of the convoy is a ladder member that stops at LK. -/
def ladderStops (slots : List Slot) : Bool := slots.any (fun x => !x.walks && x.mem.pipe == .ladder)

/-- The convoy in flight stops early under a pre-emption request, when the members that are not complete let it: a VWAIT
with its remaining limit, a VISSUE at its word, a VCAPP once every other member has completed, a ladder member at a
multiple of 64, and E and P members at an element or between cell groups (08_core_steering.md R205; 09_core_memory.md R228).
A push that finds a discarded store is not complete. DEDUCED: log entry 32. -/
def stopFlight (s : State) : Option State :=
  match s.core.conv.flight with
  | none => none
  | some f =>
    let slots := slotsOf f.words f.done s
    let walkers := slots.filter Slot.walks
    let lk := if ladderStops slots then f.lk else 0
    match f.words with
    | [.vwait _ _ _ k _] =>
      some (stopAt 0 0 0 f (writeK k.toNat (remainingLimit (readK k.toNat s) (Config.elapsed s.tick)) s).tickUp)
    | [.vissue ..] => some (stopAt f.next 0 0 f (endLane s))
    | _ =>
      if slots.any (fun x => !x.walks && !x.resumes f.words) then none
      else
      let grain := if walkers ≠ [] ∧ (cappStop slots f).isNone then stopGrain (walkers.map (·.mem)) s else none
      match grain.bind (fun _ => stopElem (walkers.map (·.mem)) f.next s) with
      | some k =>
        match runElements walkers (k - f.next) f.next s with
        | .done t => some (stopAt k lk f.done f t)
        | _ => none
      | none =>
        match runElements walkers (s.vl - f.next) f.next s with
        | .done t =>
          if slots.all Slot.walks then (if (failedPush f t).isSome then none else some (retireConvoy f t))
          else some (stopAt ((cappStop slots f).getD 0) lk (walkersDone slots f.done) f t)
        | _ => none

end Sys2Proof.Machine
end

