-- ==== Sys2Proof/Machine/Integer.lean ====
section
/-! DEFINITION. The steering stream's integer words, branches and jumps (08_core_steering.md R170 to R177). -/

namespace Sys2Proof.Machine

/-! ## Operations -/

/-- Bits 5:0 of an operand: a shift amount or a bit position. -/
def low6 (x : Word) : Nat := x.toNat % 64

/-- 1 when a condition holds, otherwise 0. -/
def boolWord (b : Bool) : Word := if b then 1 else 0

/-- The high 64 bits of the signed product. -/
def mulHighSigned (x y : Word) : Word := .ofInt 64 (x.toInt * y.toInt / 2 ^ 64)

/-- The high 64 bits of the unsigned product. -/
def mulHighUnsigned (x y : Word) : Word := .ofNat 64 (x.toNat * y.toNat / 2 ^ 64)

/-- The signed quotient, truncated toward zero and saturated: a zero divisor gives the bound on the dividend's side, and
-2^63 by -1 gives 2^63 - 1 (R170). -/
def divSigned (x y : Word) : Word :=
  if y = 0 then (if x.toInt < 0 then 0x8000000000000000 else 0x7FFFFFFFFFFFFFFF)
  else
    let q := x.toInt.tdiv y.toInt
    if 2 ^ 63 ≤ q then 0x7FFFFFFFFFFFFFFF else .ofInt 64 q

/-- The unsigned quotient; a zero divisor gives 2^64 - 1. -/
def divUnsigned (x y : Word) : Word := if y = 0 then 0xFFFFFFFFFFFFFFFF else .ofNat 64 (x.toNat / y.toNat)

/-- The signed remainder, with the sign of the dividend; a zero divisor gives the dividend. -/
def remSigned (x y : Word) : Word := if y = 0 then x else .ofInt 64 (x.toInt.tmod y.toInt)

/-- The unsigned remainder; a zero divisor gives the dividend. -/
def remUnsigned (x y : Word) : Word := if y = 0 then x else .ofNat 64 (x.toNat % y.toNat)

/-- The low w bits, sign-extended. -/
def sextField (x : Word) (w : Nat) : Word :=
  let v := x.toNat % 2 ^ w
  if v / 2 ^ (w - 1) % 2 = 1 then .ofInt 64 ((v : Int) - 2 ^ w) else .ofNat 64 v

/-- The low w bits, zero-extended. -/
def zextField (x : Word) (w : Nat) : Word := .ofNat 64 (x.toNat % 2 ^ w)

/-- The w bits from bit lo; bits above bit 63 read as 0. -/
def extractField (x : Word) (lo w : Nat) : Word := .ofNat 64 (x.toNat / 2 ^ lo % 2 ^ w)

/-- The old value with bits lo to min(lo + w - 1, 63) replaced by the low bits of x. -/
def insertField (old x : Word) (lo w : Nat) : Word :=
  let n := min w (64 - lo)
  .ofNat 64 (old.toNat % 2 ^ lo + x.toNat % 2 ^ n * 2 ^ lo + old.toNat / 2 ^ (lo + n) * 2 ^ (lo + n))

/-- The zeros above the highest 1 bit. -/
def leadingZeros (x : Word) : Nat := if x = 0 then 64 else 63 - Nat.log2 x.toNat

/-- The zeros below the lowest 1 bit. -/
def trailingZeros (x : Word) : Nat := ((List.range 64).find? (fun i => x.getLsbD i)).getD 64

/-- The number of 1 bits. -/
def popCount (x : Word) : Nat := ((List.range 64).filter (fun i => x.getLsbD i)).length

/-- An operation on two registers (R170). -/
def alu (f : Word → Word → Word) (d a b : BitVec 5) (s : State) : Result := retire d (f (readReg a s) (readReg b s)) s

/-- An operation on a register and an immediate. -/
def aluImm (f : Word → Word → Word) (d a : BitVec 5) (i : Word) (s : State) : Result := retire d (f (readReg a s) i) s

/-- A compare and jump (R175). -/
def branch (cond : Word → Word → Bool) (a b : BitVec 5) (off : BitVec 15) (s : State) : Result :=
  .next (if cond (readReg a s) (readReg b s) then setPc (branchTarget s.cur.pc off) s else advance s)

/-! ## Register forms (R170) -/

/-- ADD. -/
def execAdd (d a b : BitVec 5) (s : State) : Result := alu (· + ·) d a b s
/-- SUB. -/
def execSub (d a b : BitVec 5) (s : State) : Result := alu (· - ·) d a b s
/-- AND. -/
def execAnd (d a b : BitVec 5) (s : State) : Result := alu (· &&& ·) d a b s
/-- OR. -/
def execOr (d a b : BitVec 5) (s : State) : Result := alu (· ||| ·) d a b s
/-- XOR. -/
def execXor (d a b : BitVec 5) (s : State) : Result := alu (· ^^^ ·) d a b s
/-- SLL. -/
def execSll (d a b : BitVec 5) (s : State) : Result := alu (fun x y => x <<< low6 y) d a b s
/-- SRL. -/
def execSrl (d a b : BitVec 5) (s : State) : Result := alu (fun x y => x >>> low6 y) d a b s
/-- SRA. -/
def execSra (d a b : BitVec 5) (s : State) : Result := alu (fun x y => x.sshiftRight (low6 y)) d a b s
/-- SLT. -/
def execSlt (d a b : BitVec 5) (s : State) : Result := alu (fun x y => boolWord (x.slt y)) d a b s
/-- SLTN. -/
def execSltn (d a b : BitVec 5) (s : State) : Result := alu (fun x y => boolWord (x.ult y)) d a b s
/-- MUL. -/
def execMul (d a b : BitVec 5) (s : State) : Result := alu (· * ·) d a b s
/-- MULHS. -/
def execMulhs (d a b : BitVec 5) (s : State) : Result := alu mulHighSigned d a b s
/-- MULHN. -/
def execMulhn (d a b : BitVec 5) (s : State) : Result := alu mulHighUnsigned d a b s
/-- DIV. -/
def execDiv (d a b : BitVec 5) (s : State) : Result := alu divSigned d a b s
/-- DIVN. -/
def execDivn (d a b : BitVec 5) (s : State) : Result := alu divUnsigned d a b s
/-- REM. -/
def execRem (d a b : BitVec 5) (s : State) : Result := alu remSigned d a b s
/-- REMN. -/
def execRemn (d a b : BitVec 5) (s : State) : Result := alu remUnsigned d a b s

/-! ## Immediate forms (R171 to R173; 02_encoding.md R31) -/

/-- ADDI. -/
def execAddi (d a : BitVec 5) (i : BitVec 15) (s : State) : Result := aluImm (· + ·) d a (sext64 i) s
/-- ANDI. -/
def execAndi (d a : BitVec 5) (i : BitVec 15) (s : State) : Result := aluImm (· &&& ·) d a (zext64 i) s
/-- ORI. -/
def execOri (d a : BitVec 5) (i : BitVec 15) (s : State) : Result := aluImm (· ||| ·) d a (zext64 i) s
/-- XORI. -/
def execXori (d a : BitVec 5) (i : BitVec 15) (s : State) : Result := aluImm (· ^^^ ·) d a (zext64 i) s
/-- SLLI. -/
def execSlli (d a : BitVec 5) (n : BitVec 6) (s : State) : Result := aluImm (fun x y => x <<< low6 y) d a (zext64 n) s
/-- SRLI. -/
def execSrli (d a : BitVec 5) (n : BitVec 6) (s : State) : Result := aluImm (fun x y => x >>> low6 y) d a (zext64 n) s
/-- SRAI. -/
def execSrai (d a : BitVec 5) (n : BitVec 6) (s : State) : Result :=
  aluImm (fun x y => x.sshiftRight (low6 y)) d a (zext64 n) s
/-- SLTI. -/
def execSlti (d a : BitVec 5) (i : BitVec 15) (s : State) : Result :=
  aluImm (fun x y => boolWord (x.slt y)) d a (sext64 i) s
/-- SLTIN: the sign-extended immediate compared as unsigned. -/
def execSltin (d a : BitVec 5) (i : BitVec 15) (s : State) : Result :=
  aluImm (fun x y => boolWord (x.ult y)) d a (sext64 i) s
/-- LUI. -/
def execLui (d : BitVec 5) (i : BitVec 20) (s : State) : Result := retire d (zext64 i <<< 12) s

/-! ## Bit fields (R174); the word holds w - 1 -/

/-- SEXT. -/
def execSext (d a : BitVec 5) (w : BitVec 6) (s : State) : Result := retire d (sextField (readReg a s) (w.toNat + 1)) s
/-- ZEXT. -/
def execZext (d a : BitVec 5) (w : BitVec 6) (s : State) : Result := retire d (zextField (readReg a s) (w.toNat + 1)) s
/-- EXTR. -/
def execExtr (d a b : BitVec 5) (w : BitVec 6) (s : State) : Result :=
  alu (fun x y => extractField x (low6 y) (w.toNat + 1)) d a b s
/-- INS. -/
def execIns (d a b : BitVec 5) (w : BitVec 6) (s : State) : Result :=
  alu (fun x y => insertField (readReg d s) x (low6 y) (w.toNat + 1)) d a b s
/-- CLZ. -/
def execClz (d a : BitVec 5) (s : State) : Result := retire d (.ofNat 64 (leadingZeros (readReg a s))) s
/-- CTZ. -/
def execCtz (d a : BitVec 5) (s : State) : Result := retire d (.ofNat 64 (trailingZeros (readReg a s))) s
/-- POPC. -/
def execPopc (d a : BitVec 5) (s : State) : Result := retire d (.ofNat 64 (popCount (readReg a s))) s

/-! ## Branches and jumps (R175 to R177) -/

/-- CJ.EQ. -/
def execCjEq (b a : BitVec 5) (i : BitVec 15) (s : State) : Result := branch (fun x y => x == y) a b i s
/-- CJ.NE. -/
def execCjNe (b a : BitVec 5) (i : BitVec 15) (s : State) : Result := branch (fun x y => x != y) a b i s
/-- CJ.LT. -/
def execCjLt (b a : BitVec 5) (i : BitVec 15) (s : State) : Result := branch (fun x y => x.slt y) a b i s
/-- CJ.GE. -/
def execCjGe (b a : BitVec 5) (i : BitVec 15) (s : State) : Result := branch (fun x y => !x.slt y) a b i s
/-- CJ.LTN. -/
def execCjLtn (b a : BitVec 5) (i : BitVec 15) (s : State) : Result := branch (fun x y => x.ult y) a b i s
/-- CJ.GEN. -/
def execCjGen (b a : BitVec 5) (i : BitVec 15) (s : State) : Result := branch (fun x y => !x.ult y) a b i s
/-- JAL. -/
def execJal (d : BitVec 5) (i : BitVec 20) (s : State) : Result :=
  .next (setPc (branchTarget s.cur.pc i) (writeReg d (zext64 (s.cur.pc + 4)) s))
/-- JR: sa is read before sd is written. -/
def execJr (d a : BitVec 5) (s : State) : Result :=
  let target : BitVec 32 := (readReg a s).setWidth 32 &&& 0xFFFFFFFC
  .next (setPc target (writeReg d (zext64 (s.cur.pc + 4)) s))

end Sys2Proof.Machine
end

