-- ==== Sys2Proof/Machine/ScalarMem.lean ====
section
/-! DEFINITION. The steering stream's loads, stores, atomics and fences (09_core_memory.md R215 to R219), the scalar wait
WAITW (06_issue.md R161, R162), and DCOLL (R163, R164). -/

namespace Sys2Proof.Machine

/-! ## Accesses -/

/-- A scalar load. -/
def loadWant (size : Nat) : Want := ⟨size, false, false, false, false⟩
/-- A scalar store. -/
def storeWant (size : Nat) : Want := ⟨size, true, false, false, false⟩
/-- An atomic. DEDUCED: log entry 27. -/
def atomicWant : Want := ⟨8, true, true, false, false⟩

/-- The outstanding access is a load. -/
def OutAcc.isLoad (a : OutAcc) : Bool := a.kind == .load

/-- Room for another outstanding load, or for another store or atomic (R216). -/
def roomFor (load : Bool) (s : State) : Bool :=
  decide ((s.cur.outs.filter (fun a => a.isLoad == load)).length < 16)

/-- The page of a GLOB address has ATTR = 3 (R231). -/
def devicePage (s : State) (addr : Word) : Bool :=
  match translate s false addr.toNat with
  | .leaf e _ => e.toNat / 64 % 4 == 3
  | .fault _ => false

/-- The translation of a GLOB address by the processor that moves. -/
def viaOf (s : State) (addr : Word) : TlbEntry :=
  match translate s false addr.toNat with
  | .leaf e bits => ⟨.ofNat 16 s.cur.ptroot.toNat, addr.toNat / 2 ^ bits * 2 ^ bits, bits, e⟩
  | .fault _ => default

/-- An access of the instruction at PC to another package. -/
def remoteAcc (kind : AccKind) (rd : BitVec 5) (key size : Nat) (data expect va : Word) (s : State) : OutAcc :=
  { kind := kind, rd := rd, key := key, size := size, data := data, expect := expect, va := va, pc := s.cur.pc
    device := devicePage s va, via := viaOf s va, performed := false, value := 0 }

/-- The bytes lie in a 64-byte line of another package that an earlier access of the stream has still to reach
(R240; 19_fabric.md R400). -/
def lineHeld (s : State) (loc : PaLoc) : Bool :=
  match loc with
  | .mem key true => s.cur.outs.any (fun a => !a.performed && a.key / 64 == key / 64)
  | _ => false

/-- An access of a device page is not performed ahead of program order: it waits for what is outstanding (R231). -/
def deviceHeld (s : State) (space : BitVec 2) (addr : Word) : Bool :=
  s.cur.outs.any (fun a => !a.performed) && space == 3 && devicePage s addr

/-- An access to another package issues: it is outstanding until the home answers (R216; 19_fabric.md R399). -/
def issueRemote (a : OutAcc) (s : State) : Result :=
  if roomFor a.isLoad s then .next (advance (s.modCur (fun c => { c with outs := c.outs ++ [a] }))) else .next (stall s)

/-- MEM-DATA for a discarded store, at the stream's next release (19_fabric.md R401); none when no store failed.
DEDUCED: log entry 28. -/
def failedGate (s : State) : Option Result :=
  s.cur.failedStore.map (fun va =>
    if s.agent ≠ .control ∧ s.inFlight then .next (stall s)
    else steerMemFault ⟨.memData, 7⟩ (storeWant 8) 3 va (s.modCur (fun c => { c with failedStore := none })))

/-- What a release waits for: every earlier access that is outstanding; then the failed stores are reported.
DEDUCED: log entry 28. -/
def releaseGate (s : State) : Option Result := if s.cur.outs ≠ [] then some (.next (stall s)) else failedGate s

/-- LDB, LDW and LDD (R215). -/
def scalarLoad (size : Nat) (d a : BitVec 5) (space : BitVec 2) (imm : BitVec 13) (s : State) : Result :=
  let addr := readReg a s + sext64 imm
  match resolve s space addr (loadWant size) with
  | .error f => steerMemFault f (loadWant size) space addr s
  | .ok (.mem key true) => issueRemote (remoteAcc .load d key size 0 0 addr s) s
  | .ok loc =>
    if deviceHeld s space addr then .next (stall s)
    else if locPoisoned s loc size then steerMemFault ⟨.memData, 7⟩ (loadWant size) space addr s
    else retire d (.ofNat 64 (readLoc s loc size)) (s.afterRead loc)

/-- STB, STW and STD (R215). -/
def scalarStore (size : Nat) (d a : BitVec 5) (space : BitVec 2) (imm : BitVec 13) (s : State) : Result :=
  let addr := readReg a s + sext64 imm
  let v := (readReg d s).toNat % 256 ^ size
  match resolve s space addr (storeWant size) with
  | .error f => steerMemFault f (storeWant size) space addr s
  | .ok (.mem key true) => issueRemote (remoteAcc .store 0 key size (.ofNat 64 v) 0 addr s) s
  | .ok loc =>
    if deviceHeld s space addr then .next (stall s)
    else if locStorePoisoned s loc size then steerMemFault ⟨.memData, 7⟩ (storeWant size) space addr s
    else .next (advance (writeLoc loc size v s))

/-- LDB. -/
def execLdb (d a : BitVec 5) (p : BitVec 2) (i : BitVec 13) (s : State) : Result := scalarLoad 1 d a p i s
/-- LDW. -/
def execLdw (d a : BitVec 5) (p : BitVec 2) (i : BitVec 13) (s : State) : Result := scalarLoad 4 d a p i s
/-- LDD. -/
def execLdd (d a : BitVec 5) (p : BitVec 2) (i : BitVec 13) (s : State) : Result := scalarLoad 8 d a p i s
/-- STB. -/
def execStb (d a : BitVec 5) (p : BitVec 2) (i : BitVec 13) (s : State) : Result := scalarStore 1 d a p i s
/-- STW. -/
def execStw (d a : BitVec 5) (p : BitVec 2) (i : BitVec 13) (s : State) : Result := scalarStore 4 d a p i s
/-- STD. -/
def execStd (d a : BitVec 5) (p : BitVec 2) (i : BitVec 13) (s : State) : Result := scalarStore 8 d a p i s

/-! ## Atomics (R217, R218) -/

/-- The operation of an AMO, by its code. -/
def amoOp (op : BitVec 3) (old x : Word) : Word :=
  match op.toNat with
  | 0 => x
  | 1 => old + x
  | 2 => old &&& x
  | 3 => old ||| x
  | 4 => old ^^^ x
  | 5 => if old.slt x then x else old
  | 6 => if x.slt old then x else old
  | _ => if old.ult x then x else old

/-- The access of an atomic at its address, once releases have what they wait for; `done` performs it at a local home. -/
def atomicAt (space : BitVec 2) (a : BitVec 5) (ord : BitVec 2) (remote : Nat → Word → OutAcc)
    (done : PaLoc → Word → State) (d : BitVec 5) (s : State) : Result :=
  let addr := readReg a s
  match resolve s space addr atomicWant with
  | .error f => steerMemFault f atomicWant space addr s
  | .ok loc =>
    match (if 2 ≤ ord.toNat then releaseGate s else none) with
    | some r => r
    | none =>
      match loc with
      | .mem key true => issueRemote (remote key addr) s
      | _ =>
        if deviceHeld s space addr then .next (stall s)
        else if locPoisoned s loc 8 then steerMemFault ⟨.memData, 7⟩ atomicWant space addr s
        else
          let old : Word := .ofNat 64 (readLoc s loc 8)
          retire d old ((done loc old).afterRead loc)

/-- An AMO. -/
def amo (op : BitVec 3) (d a b : BitVec 5) (ord space : BitVec 2) (s : State) : Result :=
  let x := readReg b s
  atomicAt space a ord (fun key addr => remoteAcc (.amo op) d key 8 x 0 addr s)
    (fun loc old => writeLoc loc 8 (amoOp op old x).toNat s) d s

/-- AMOSWAP. -/
def execAmoswap (d a b : BitVec 5) (_e : BitVec 3) (o p : BitVec 2) (s : State) : Result := amo 0 d a b o p s
/-- AMOADD. -/
def execAmoadd (d a b : BitVec 5) (_e : BitVec 3) (o p : BitVec 2) (s : State) : Result := amo 1 d a b o p s
/-- AMOAND. -/
def execAmoand (d a b : BitVec 5) (_e : BitVec 3) (o p : BitVec 2) (s : State) : Result := amo 2 d a b o p s
/-- AMOOR. -/
def execAmoor (d a b : BitVec 5) (_e : BitVec 3) (o p : BitVec 2) (s : State) : Result := amo 3 d a b o p s
/-- AMOXOR. -/
def execAmoxor (d a b : BitVec 5) (_e : BitVec 3) (o p : BitVec 2) (s : State) : Result := amo 4 d a b o p s
/-- AMOMAX. -/
def execAmomax (d a b : BitVec 5) (_e : BitVec 3) (o p : BitVec 2) (s : State) : Result := amo 5 d a b o p s
/-- AMOMIN. -/
def execAmomin (d a b : BitVec 5) (_e : BitVec 3) (o p : BitVec 2) (s : State) : Result := amo 6 d a b o p s
/-- AMOMAXU. -/
def execAmomaxu (d a b : BitVec 5) (_e : BitVec 3) (o p : BitVec 2) (s : State) : Result := amo 7 d a b o p s

/-- CAS: sd holds the expected value and receives the old one. -/
def execCas (d a b : BitVec 5) (_e : BitVec 3) (o p : BitVec 2) (s : State) : Result :=
  let x := readReg b s
  let want := readReg d s
  atomicAt p a o (fun key addr => remoteAcc .cas d key 8 x want addr s)
    (fun loc old => if old = want then writeLoc loc 8 x.toNat s else s) d s

/-- FENCE: accesses are performed in program order here, so it waits for the outstanding ones of the kinds before it; one
whose BEF includes `st` reports a failed store (R219; 19_fabric.md R401). -/
def execFence (_e : BitVec 3) (_q p : BitVec 2) (s : State) : Result :=
  let held := s.cur.outs.filter (fun a => if a.isLoad then p.getLsbD 0 else if a.kind = .store then p.getLsbD 1 else true)
  if held ≠ [] then .next (stall s)
  else match (if p.getLsbD 1 then failedGate s else none) with
    | some r => r
    | none => .next (advance s)

/-! ## Waits -/

/-- A limit of 2^TLOG S-cycles that has passed: 0 tests once and 63 never ends (R161). -/
def limitPassed (tlog : BitVec 6) (s : State) : Bool := tlog == 0 || (tlog != 63 && s.cur.expired)

/-- WAITW. -/
def execWaitw (d a b : BitVec 5) (p m : BitVec 2) (t : BitVec 6) (s : State) : Result :=
  let addr := readReg a s
  match resolve s p addr (loadWant 8) with
  | .error f => steerMemFault f (loadWant 8) p addr s
  | .ok loc =>
    if lineHeld s loc || deviceHeld s p addr then .next (stall s)
    else if locPoisoned s loc 8 || remoteFails s loc then steerMemFault ⟨.memData, 7⟩ (loadWant 8) p addr s.tickUp
    else
      let x : Word := .ofNat 64 (readLoc s loc 8)
      let s1 := (s.afterRead loc).tickUp
      if buoyMet m.toNat x (readReg b s) || limitPassed t s then retire d x s1 else .next (stall s1)

/-! ## DCOLL -/

/-- The access of DCOLL to its descriptor, which it reads first. DEDUCED: log entry 27. -/
def dcollWant : Want := ⟨8, false, false, false, false⟩

/-- A walk descriptor. -/
structure Walk where
  base : Nat
  esz : Nat
  ndim : Nat
  reserved : Nat
  ext : List Nat
  cnt : List Nat
  str : List Int
  deriving DecidableEq, Repr, Inhabited

/-- The descriptor at a key. -/
def readWalk (s : State) (key : Nat) : Walk :=
  { base := readMem s key 8
    esz := readMem s (key + 0x10) 1
    ndim := readMem s (key + 0x11) 1
    reserved := readMem s (key + 0x12) 6
    ext := (List.range 4).map (fun t => readMem s (key + 0x18 + 4 * t) 4)
    cnt := (List.range 4).map (fun t => readMem s (key + 0x28 + 4 * t) 4)
    str := (List.range 4).map (fun t => (readMem64 s (key + 0x38 + 8 * t)).toInt) }

/-- The complete state of a walk. -/
def Walk.complete (w : Walk) : Bool :=
  (List.range w.ndim).all (fun t => w.cnt.getD t 0 == (if t + 1 = w.ndim then w.ext.getD t 0 else 0))

/-- A valid descriptor (R163). -/
def Walk.valid (w : Walk) : Bool :=
  decide (w.esz ≤ 3) && decide (1 ≤ w.ndim) && decide (w.ndim ≤ 4) && w.reserved == 0
    && (List.range 4).all (fun t =>
      if w.ndim ≤ t then w.ext.getD t 0 == 0 && w.cnt.getD t 0 == 0 && w.str.getD t 0 == 0
      else decide (1 ≤ w.ext.getD t 0))
    && (w.complete || (List.range w.ndim).all (fun t => decide (w.cnt.getD t 0 < w.ext.getD t 0)))

/-- The last dimension that merges with those below it, with the position and the length of the merged run. -/
def mergeDims (w : Walk) : Nat → Nat → Nat → Nat → Nat × Nat × Nat
  | 0, j, lin, tot => (j, lin, tot)
  | n + 1, j, lin, tot =>
    if j + 1 < w.ndim ∧ w.str.getD (j + 1) 0 = w.str.getD j 0 * (w.ext.getD j 0 : Int) then
      mergeDims w n (j + 1) (lin + tot * w.cnt.getD (j + 1) 0) (tot * w.ext.getD (j + 1) 0)
    else (j, lin, tot)

/-- The counters of a position in the merged dimensions 0 to j. -/
def splitLinear (w : Walk) (j : Nat) : Nat → Nat → List Nat → List Nat
  | _, _, [] => []
  | t, lin, c :: l =>
    if t ≤ j then lin % w.ext.getD t 1 :: splitLinear w j (t + 1) (lin / w.ext.getD t 1) l
    else c :: splitLinear w j (t + 1) lin l

/-- The counters after a whole merged run: the first dimension above it that is not at its end advances. -/
def carryDims (w : Walk) : Nat → Nat → List Nat → List Nat
  | 0, _, cnt => cnt
  | n + 1, t, cnt =>
    if t + 1 < w.ndim ∧ cnt.getD t 0 + 1 = w.ext.getD t 0 then carryDims w n (t + 1) (cnt.set t 0)
    else if t < w.ndim then cnt.set t (cnt.getD t 0 + 1)
    else cnt.set (w.ndim - 1) (w.ext.getD (w.ndim - 1) 0)

/-- The length granted, RUNADDR and the counters after (R164). -/
def walkStep (w : Walk) (lim : Nat) : Nat × Nat × List Nat :=
  let (j, lin, tot) := mergeDims w 4 0 (w.cnt.getD 0 0) (w.ext.getD 0 0)
  let len := min (tot - lin) lim
  let off : Int := (List.range w.ndim).foldl (fun acc t => acc + (w.cnt.getD t 0 : Int) * w.str.getD t 0) 0
  let addr := ((w.base : Int) + off * 2 ^ w.esz) % 2 ^ 64
  let cnt :=
    if lin + len < tot then splitLinear w j 0 (lin + len) w.cnt
    else carryDims w 5 (j + 1) ((List.range 4).map (fun t => if t ≤ j then 0 else w.cnt.getD t 0))
  (len, addr.toNat, cnt)

/-- Store the counters of a descriptor. -/
def storeCounters (key : Nat) (cnt : List Nat) (s : State) : State :=
  (List.range 4).foldl (fun t i => storeMem (key + 0x28 + 4 * i) 4 (cnt.getD i 0) t) s

/-- DCOLL. -/
def execDcoll (d a b : BitVec 5) (s : State) : Result :=
  let sa := readReg a s
  let n := (readReg b s).toNat
  let lim := if n = 0 ∨ 2 ^ 32 - 1 < n then 2 ^ 32 - 1 else n
  if sa.toNat % 8 ≠ 0 then steerMemFault ⟨.memAlign, 7⟩ dcollWant 0 sa s
  else if 262144 < sa.toNat + 88 then steerMemFault ⟨.memRange, 7⟩ dcollWant 0 sa s
  else
    let key := spaceKey s 0 sa.toNat
    if poisoned s key 88 then steerMemFault ⟨.memData, 7⟩ dcollWant 0 sa s
    else
      let w := readWalk s key
      if w.valid = false then steerFault .dcollDesc sa s
      else if w.complete then retire d 0 s
      else
        let (len, addr, cnt) := walkStep w lim
        retire d (.ofNat 64 len) (storeCounters key cnt (storeMem (key + 8) 8 addr s))

end Sys2Proof.Machine
end

