-- ==== Sys2Proof/Machine/Csr.lean ====
section
/-! DEFINITION. The control and status registers: what each number reads and what a write of it does (R178 to R180 and
the register maps of every chapter), the four control-register words, and the register writes that are events. -/

namespace Sys2Proof.Machine

/-! ## The values of registers -/

/-- A bit at a position. -/
def bitAt (b : Bool) (n : Nat) : Nat := if b then 2 ^ n else 0

/-- STATUS (R194). -/
def statusWord (c : Steer) : Word :=
  .ofNat 64 (bitAt c.bksup 7 + bitAt c.cbksup 6 + bitAt c.tpend 4 + bitAt c.chalt 3 + bitAt c.pmode 1 + bitAt c.mode 0)

/-- QSTAT.CST (R187). -/
def cstCode (c : Conv) : Nat :=
  match c.st with
  | .idle => 0
  | .run => 1
  | .halted => 2

/-- QSTAT (R187). -/
def qstatWord (c : Core) : Word :=
  .ofNat 64 (2 ^ 30 * cstCode c.conv + 2 ^ 24 * c.q.eq.length + 2 ^ 16 * c.q.rq.length + 2 ^ 8 * c.q.dq.length
    + c.q.bq.length)

/-- VSTART (05_convoy.md R138). -/
def vstartWord (c : Conv) : Word :=
  .ofNat 64 (2 ^ 32 * c.startLk.toNat + 2 ^ 16 * c.startDone.toNat + c.startK.toNat)

/-- GARMST (14_cluster.md R331). -/
def garmstWord (g : Gang) : Word :=
  .ofNat 64 (2 ^ 24 * g.armCause.toNat + 2 ^ 16 * g.armIslot.toNat + 2 ^ 8 * g.armBar.toNat + 2 ^ 4 * g.armSlab.toNat
    + bitAt g.armFault 1 + bitAt g.armed 0)

/-- The registers of the task core's convoy stream, matrix unit, ladder, task and gang. -/
def csrReadTask (n : Nat) (c : Core) : Word :=
  match n with
  | 0x000 => c.task.wid
  | 0x001 => c.task.widmax
  | 0x002 => c.task.widlayout
  | 0x003 => c.task.dbase
  | 0x004 => c.task.cbase
  | 0x005 => c.task.stbase
  | 0x006 => c.task.stlen.setWidth 64
  | 0x007 => c.task.cwaddr
  | 0x00A => qstatWord c
  | 0x00B => c.task.clen.setWidth 64
  | 0x010 => c.conv.vtype.setWidth 64
  | 0x011 => c.conv.vl.setWidth 64
  | 0x012 => c.conv.vmt.setWidth 64
  | 0x013 => c.conv.planepwr.setWidth 64
  | 0x014 => c.conv.vctl.setWidth 64
  | 0x015 => c.conv.vflags.setWidth 64
  | 0x016 => vstartWord c.conv
  | 0x017 => c.conv.vispos
  | 0x018 => c.conv.vskew.setWidth 64
  | 0x020 => c.conv.cpc.setWidth 64
  | 0x021 => c.conv.cblk.setWidth 64
  | 0x022 => c.conv.lc.setWidth 64
  | 0x023 => c.conv.cmem.setWidth 64
  | 0x038 => (spGet 0 c.conv.cbkpt 0).setWidth 64
  | 0x039 => (spGet 0 c.conv.cbkpt 1).setWidth 64
  | 0x03A => (spGet 0 c.conv.cbkpt 2).setWidth 64
  | 0x03B => (spGet 0 c.conv.cbkpt 3).setWidth 64
  | 0x03C => .ofNat 64 (bitAt c.conv.cdbg 0)
  | 0x040 => c.trace.ltrc.setWidth 64
  | 0x041 => c.trace.ltrbase.setWidth 64
  | 0x042 => .ofNat 64 (2 ^ 32 * c.trace.ptr.toNat + c.trace.n.toNat)
  | 0x050 => .ofNat 64 (bitAt c.mat.en 0)
  | 0x051 => c.mat.msize.setWidth 64
  | 0x052 => c.mat.mrowp
  | 0x053 => c.mat.mcolp
  | 0x054 => c.mat.mxscl
  | 0x060 => c.lad.lcfgr
  | 0x061 => c.lad.lcnt
  | 0x062 => lcarryWord c.lad
  | 0x070 => c.task.gslot
  | 0x071 => c.gang.gsel.setWidth 64
  | 0x072 => garmstWord c.gang
  | 0x073 => c.gang.gstat.setWidth 64
  | 0x074 => c.task.barwin
  | 0x075 => c.task.lhandle
  | _ => 0

/-- The registers of a steering processor. -/
def csrReadSteer (n : Nat) (c : Steer) : Option Word :=
  match n with
  | 0x028 => some (statusWord c)
  | 0x029 => some (causeWord c)
  | 0x02A => some c.tval
  | 0x02B => some (c.epc.setWidth 64)
  | 0x02C => some (c.tvec.setWidth 64)
  | 0x02D => some (c.htbase.setWidth 64)
  | 0x02E => some (c.htlen.setWidth 64)
  | 0x02F => some c.sscr
  | 0x030 => some ((spGet 0 c.sbkpt 0).setWidth 64)
  | 0x031 => some ((spGet 0 c.sbkpt 1).setWidth 64)
  | 0x032 => some ((spGet 0 c.sbkpt 2).setWidth 64)
  | 0x033 => some ((spGet 0 c.sbkpt 3).setWidth 64)
  | 0x034 => some (c.sdbg.setWidth 64)
  | 0x048 => some c.ptroot
  | 0x049 => some (c.mfinfo.setWidth 64)
  | _ => none

/-- The registers of a control core (14_cluster.md R332). -/
def csrReadCluster (n : Nat) (s : State) : Option Word :=
  let c := s.cluster
  match n with
  | 0x078 => some (c.chtbase.setWidth 64)
  | 0x079 => some (c.chtlen.setWidth 64)
  | 0x07A => some (c.chentry.setWidth 64)
  | 0x07B => some (.ofNat 64 (c.cparkBase.toNat + c.cparkN.toNat))
  | 0x07C => some (.ofNat 64 (2 ^ 32 * (clusterUse s s.clusterId % 2 ^ 32) + c.grant.toNat))
  | 0x07D => some (.ofNat 64 c.cq.length)
  | _ => none

/-- What a control register reads (R179); a write-only register reads as zero (00_scope.md R5).
DEDUCED: log entry 16. -/
def csrRead (n : Nat) (s : State) : Word :=
  if n = 0x008 then s.now
  else if n = 0x009 then Config.scyc s.tick
  else match csrReadSteer n s.cur with
    | some v => v
    | none => match csrReadCluster n s with
      | some v => v
      | none => csrReadTask n s.core

/-! ## Writes -/

/-- The low `n` bits of a word, 0 elsewhere. -/
def lowBits (n : Nat) (v : Word) : Word := .ofNat 64 (v.toNat % 2 ^ n)

/-- PLANEPWR after a write: the code 3 leaves a band unchanged (03_plane.md R90). -/
def planepwrNext (old : BitVec 16) (v : Word) : BitVec 16 :=
  .ofNat 16 ((List.range 8).foldl (fun acc b =>
    let code := v.toNat / 4 ^ b % 4
    acc + 4 ^ b * (if code = 3 then bandState old b else code)) 0)

/-- A band that is OFF keeps no contents, before the write or after it (R91). -/
def dropOffBands (pwr : BitVec 16) (plane : Sp Cell32) : Sp Cell32 :=
  plane.filter (fun p => bandState pwr (p.1 / 4096) != 0)

/-- A write of PLANEPWR (R90, R91). -/
def storePlanepwr (v : Word) (s : State) : State :=
  s.modConv (fun c =>
    let pwr := planepwrNext c.planepwr v
    { c with planepwr := pwr, plane := dropOffBands pwr (dropOffBands c.planepwr c.plane) })

/-- A write of LCNT: it reads and writes no rung (11_core_ladder.md R268). DESIGN CHOICE: log entry 71. -/
def storeLcnt (v : Word) (s : State) : State :=
  rewritten (s.modLad (fun l => { l with lcnt := v }))

/-- A write of LCARRY; the chain that it leaves pending takes its tile from the carry slot (R268, R275).
DEDUCED: log entry 34. Where it clears ERR, the repair of the granule that stopped the chain is at its end.
DESIGN CHOICE: log entry 71. -/
def storeLcarry (v : Word) (s : State) : State :=
  let t := if v.getLsbD 7 then s else spareGranule none s
  rewritten (t.modLad (fun l => { l with err := v.getLsbD 7, act := v.getLsbD 6, lvl := v.setWidth 5, tile := none }))

/-- VL as a write stores it: its field, and 8,192 at most (03_plane.md R67); the reserved bits are ignored
(00_scope.md R5). -/
def vlNext (v : Word) : BitVec 14 := if v.toNat % 2 ^ 14 ≤ 8192 then v.setWidth 14 else 8192

/-- GSEL as a write stores it: the bits of slots out of the group and of the own slot are 0 (14_cluster.md R331), in the
whole mask under the new BASE, also where CRSET or CRCLR marks bits of BASE only. DESIGN CHOICE: log entry 77. -/
def gselNext (gslot v : Word) : BitVec 24 :=
  let n := v.toNat
  let slot := gslot.toNat % 128
  let size := gslot.toNat / 2 ^ 8 % 256
  let base := n % 128
  let mask := (List.range 8).foldl (fun acc t =>
    acc + bitAt (v.getLsbD (8 + t) && decide (base + t < size) && base + t != slot) t) 0
  .ofNat 24 (bitAt (v.getLsbD 23) 23 + 2 ^ 16 * (n / 2 ^ 16 % 32) + 2 ^ 8 * mask + base)

/-- A write of GSEL. -/
def storeGsel (v : Word) (s : State) : State :=
  s.modGang (fun g => { g with gsel := gselNext s.core.task.gslot v })

/-- A translation that a write of TLBINV names (09_core_memory.md R234). -/
def tlbMatches (v : Word) (t : TlbEntry) : Bool :=
  let va := v.toNat / 2 ^ 16 % 2 ^ 41 * 2 ^ 16
  (v.getLsbD 62 || t.asid == v.setWidth 16) && (v.getLsbD 63 || va / 2 ^ t.bits * 2 ^ t.bits == t.base)

/-- The translations that it leaves. -/
def tlbKeep (v : Word) (l : List TlbEntry) : List TlbEntry := l.filter (fun t => !tlbMatches v t)

/-- The micro-TLBs of a core. -/
def Core.invalidate (v : Word) (c : Core) : Core := { c with tlbS := tlbKeep v c.tlbS, tlbV := tlbKeep v c.tlbV }

/-- An outstanding access of a processor was translated by an entry that a write of TLBINV removes, from a TLB or from a
walker. -/
def tlbUsed (v : Word) (c : Steer) : Bool := c.outs.any (fun a => tlbMatches v a.via)

/-- A frozen scope holds a translation that a write of TLBINV names: the write reaches it when the scope thaws
(18_package.md R390). -/
def tlbFrozen (v : Word) (s : State) : Bool :=
  let named := fun (l : List TlbEntry) => l.any (tlbMatches v)
  (s.coreId :: s.cores.map (·.1)).any (fun n =>
      s.frozenAt (clusterOf n) && (named (s.coreAt n).tlbS || named (s.coreAt n).tlbV))
    || (List.range 24).any (fun l => s.frozenAt l && named (s.clusterAt l).tlb)
    || s.pkg.contexts.any (fun p => p.1 / 2 ^ 28 == 1 && (s.dieAt (p.1 / 2 ^ 16 % 256)).frozen && named p.2.tlb)

/-- A write of TLBINV waits for the accesses in flight that the entries it removes have translated (R234), and for frozen
scopes. -/
def tlbinvWaits (v : Word) (s : State) : Bool :=
  (s.coreId :: s.cores.map (·.1)).any (fun n => tlbUsed v (s.coreAt n).steer)
    || (List.range 24).any (fun l => tlbUsed v (s.clusterAt l).ctl) || tlbFrozen v s

/-- A write of TLBINV: the matching translations leave every TLB of the package, and its engines' contexts. -/
def storeTlbinv (v : Word) (s : State) : State :=
  { s with
    pkg := { s.pkg with contexts := s.pkg.contexts.map (fun p => (p.1, { p.2 with tlb := tlbKeep v p.2.tlb })) }
    core := s.core.invalidate v
    cores := s.cores.map (fun p => (p.1, p.2.invalidate v))
    cluster := { s.cluster with tlb := tlbKeep v s.cluster.tlb }
    clusters := s.clusters.map (fun p => (p.1, { p.2 with tlb := tlbKeep v p.2.tlb })) }

/-- HEAD of a queue with no attached launch advances by min(n, TAIL - HEAD) (14_cluster.md R317). -/
def FeedQueue.advance (n : BitVec 32) (f : FeedQueue) : FeedQueue :=
  if f.attached.isSome then f
  else { f with head := f.head + (if n.toNat ≤ (f.tail - f.head).toNat then n else f.tail - f.head) }

/-- A write of FQADV. -/
def storeFqadv (v : Word) (s : State) : State :=
  s.modCluster (·.modFeed (v.toNat / 2 ^ 32 % 16) (FeedQueue.advance (v.setWidth 32)))

/-- A launch context of the cluster has a live entry. -/
def launchLive (s : State) (n : Nat) : Bool :=
  s.cluster.entries.any (fun p => p.2.kind != .proxy && p.2.ctx == n)

/-- A write of CLRESET: the contexts marked that have no live entry are reset (14_cluster.md R303). -/
def storeClreset (v : Word) (s : State) : State :=
  (List.range 16).foldl (fun t n =>
    if v.getLsbD n && !launchLive s n then t.modContext (ctxKey (launchHandle s.clusterId n)) (fun _ => .reset) else t) s

/-- A write of VTYPE: TYPE keeps its value for a code of 14 or 15 (03_plane.md R66). -/
def vtypeNext (old : BitVec 8) (v : Word) : BitVec 8 :=
  if v.toNat % 16 < 14 then v.setWidth 8 else .ofNat 8 (v.toNat / 16 % 16 * 16 + old.toNat % 16)

/-- A write of MSIZE: each size is stored as the smaller of the value and its bound (10_core_matrix.md R254). -/
def msizeNext (v : Word) : BitVec 26 :=
  let n := v.toNat
  .ofNat 26 (2 ^ 16 * min (n / 2 ^ 16 % 2 ^ 10) 512 + 2 ^ 8 * min (n / 2 ^ 8 % 2 ^ 7) 64 + min (n % 2 ^ 7) 64)

/-- A write of STATUS: its RW fields (R194). -/
def storeStatus (v : Word) (c : Steer) : Steer :=
  { c with bksup := v.getLsbD 7, cbksup := v.getLsbD 6, tpend := v.getLsbD 4, pmode := v.getLsbD 1 }

/-- A breakpoint register: OFF and EN. -/
def bkptNext (v : Word) : BitVec 32 := v.setWidth 32 &&& 0xFFFFFFFD

/-- An offset register: bits 31:2. -/
def offNext (v : Word) : BitVec 32 := v.setWidth 32 &&& 0xFFFFFFFC

/-- A write of LTRC: when tracing is disabled the open frame is written (05_convoy.md R145). -/
def storeLtrc (v : Word) (s : State) : State :=
  let s1 := if v.getLsbD 8 then s else closeFrame s.coreId s
  s1.modTrace (fun t => { t with ltrc := v.setWidth 10 &&& 0x33F })

/-- The value that a register takes from a write that has the value `v` in the written fields; `marks` are the bits a
write-one-to-clear field clears. Read-only registers ignore it. VSTART.LK takes any value, and a ladder member begins
there. DEDUCED: log entries 25 and 74. -/
def csrStore (n : Nat) (v marks : Word) (s : State) : State :=
  match n with
  | 0x010 => s.modConv (fun c => { c with vtype := vtypeNext c.vtype v })
  | 0x011 => s.modConv (fun c => { c with vl := vlNext v })
  | 0x012 => s.modConv (fun c => { c with vmt := v.setWidth 2 })
  | 0x013 => storePlanepwr v s
  | 0x014 => s.modConv (fun c => { c with vctl := v.setWidth 8 })
  | 0x015 => s.modConv (fun c => { c with vflags := v.setWidth 8 })
  | 0x016 => s.modConv (fun c => { c with
      startLk := (v >>> 32).setWidth 13, startDone := (v >>> 16).setWidth 4, startK := v.setWidth 14 })
  | 0x017 => s.modConv (fun c => { c with vispos := v })
  | 0x018 => s.modConv (fun c => { c with vskew := v.setWidth 4 })
  | 0x028 => s.modCur (storeStatus v)
  | 0x029 => s.modCur (fun c => { c with causeStrm := v.getLsbD 63, causeCode := v.setWidth 8 })
  | 0x02A => s.modCur (fun c => { c with tval := v })
  | 0x02B => s.modCur (fun c => { c with epc := offNext v })
  | 0x02C => s.modCur (fun c => { c with tvec := offNext v })
  | 0x02D => s.modCur (fun c => { c with htbase := v.setWidth 57 })
  | 0x02E => s.modCur (fun c => { c with htlen := v.setWidth 32 })
  | 0x02F => s.modCur (fun c => { c with sscr := v })
  | 0x030 => s.modCur (fun c => { c with sbkpt := spPut 0 c.sbkpt 0 (bkptNext v) })
  | 0x031 => s.modCur (fun c => { c with sbkpt := spPut 0 c.sbkpt 1 (bkptNext v) })
  | 0x032 => s.modCur (fun c => { c with sbkpt := spPut 0 c.sbkpt 2 (bkptNext v) })
  | 0x033 => s.modCur (fun c => { c with sbkpt := spPut 0 c.sbkpt 3 (bkptNext v) })
  | 0x034 => s.modCur (fun c => { c with sdbg := v.setWidth 2 })
  | 0x038 => s.modConv (fun c => { c with cbkpt := spPut 0 c.cbkpt 0 (bkptNext v) })
  | 0x039 => s.modConv (fun c => { c with cbkpt := spPut 0 c.cbkpt 1 (bkptNext v) })
  | 0x03A => s.modConv (fun c => { c with cbkpt := spPut 0 c.cbkpt 2 (bkptNext v) })
  | 0x03B => s.modConv (fun c => { c with cbkpt := spPut 0 c.cbkpt 3 (bkptNext v) })
  | 0x03C => s.modConv (fun c => { c with cdbg := v.getLsbD 0 })
  | 0x040 => storeLtrc v s
  | 0x041 => s.modTrace (fun t => { t with ltrbase := v.setWidth 32 &&& 0xFFFFF000 })
  | 0x042 => s.modTrace (fun t => { t with n := v.setWidth 32 })
  | 0x048 => s.modCur (fun c => { c with ptroot := v &&& 0x1FFFFFFFFE0FFFF })
  | 0x049 => s.modCur (fun c => { c with mfinfo := v.setWidth 8 })
  | 0x04A => storeTlbinv v s
  | 0x051 => s.modMat (fun m => { m with msize := msizeNext v })
  | 0x052 => s.modMat (fun m => { m with mrowp := v })
  | 0x053 => s.modMat (fun m => { m with mcolp := v })
  | 0x054 => s.modMat (fun m => { m with mxscl := v &&& 0xFFFFFFFF000000FF })
  | 0x061 => storeLcnt v s
  | 0x062 => storeLcarry v s
  | 0x071 => storeGsel v s
  | 0x073 => s.modGang (fun g => { g with gstat := g.gstat &&& ~~~(marks.setWidth 9) })
  | 0x076 => storeFqadv v s
  | 0x078 => s.modCluster (fun c => { c with chtbase := v.setWidth 57 })
  | 0x079 => s.modCluster (fun c => { c with chtlen := v.setWidth 32 })
  | 0x07A => s.modCluster (fun c => { c with chentry := offNext v })
  | 0x07B => s.modCluster (fun c => { c with cparkBase := v.setWidth 57 &&& 0x1FFFFFFFFFF0000, cparkN := v.setWidth 7 })
  | 0x07E => storeClreset v s
  | _ => s

/-! ## The control-register words (R178 to R180) -/

/-- The three ways of writing. -/
inductive CsrOp where
  | put
  | set
  | clr
  deriving DecidableEq, Repr, Inhabited

/-- A write-only register. -/
def csrWriteOnly (n : Nat) : Bool := n == 0x04A || n == 0x076 || n == 0x07E

/-- The value in the written fields, from the old value and the operand. -/
def CsrOp.merge : CsrOp → Word → Word → Word
  | .put, _, x => x
  | .set, old, x => old ||| x
  | .clr, old, x => old &&& ~~~x

/-- A write of a register by a word: on a write-only register CRSET acts as CRPUT and CRCLR writes nothing, and CRCLR
leaves a write-one-to-clear field as it is. A write of GSEL tests its mask again, whichever bits are marked.
DESIGN CHOICE: log entry 77. -/
def csrApply (op : CsrOp) (n : Nat) (x : Word) (s : State) : State :=
  if csrWriteOnly n then (if op = .clr then s else csrStore n x x s)
  else csrStore n (op.merge (csrRead n s) x) (if op = .clr then 0 else x) s

/-- The numbers that only supervisor mode may access (R179, R234). DEDUCED: log entry 26. -/
def csrSupervisor (n : Nat) : Bool :=
  (decide (0x016 ≤ n) && decide (n ≤ 0x018)) || (decide (0x028 ≤ n) && decide (n ≤ 0x02F))
    || (decide (0x030 ≤ n) && decide (n ≤ 0x034)) || (decide (0x038 ≤ n) && decide (n ≤ 0x03C))
    || (decide (0x040 ≤ n) && decide (n ≤ 0x042)) || n == 0x04A

/-- The fields of a register open to task mode that only supervisor mode may change (R180, R234, R268).
DEDUCED: log entry 26. -/
def csrGuarded (n : Nat) : Word :=
  if n = 0x048 then 0x1FFFFFFFFE0FFFF else if n = 0x049 then 0xE0 else if n = 0x062 then 0xDF else 0

/-- The registers that are accessed under R68 (R180). -/
def csrOrdered (n : Nat) : Bool :=
  (decide (0x010 ≤ n) && decide (n ≤ 0x018)) || (decide (0x050 ≤ n) && decide (n ≤ 0x054))
    || (decide (0x060 ≤ n) && decide (n ≤ 0x062)) || n == 0x071 || n == 0x073

/-- bq is empty and no convoy is in flight (03_plane.md R68), and none is about to issue: the last block has completed, or
its next convoy waits for an interlock (15_prog_trio.md has an access under R68 wait until its block has completed).
DEDUCED: log entry 15. -/
def Core.quiet (c : Core) : Bool :=
  c.q.bq.isEmpty && c.conv.flight.isNone && c.conv.parked.isEmpty
    && (c.conv.formed || (c.conv.forming.isEmpty && c.conv.st == .idle))

/-- What an access under R68 waits for; a handler runs with the convoy stream halted. DEDUCED: log entry 15. -/
def orderedReady (s : State) : Bool := s.core.quiet || s.core.steer.chalt

/-- The access must wait (R68, R180, 11_core_ladder.md R268). -/
def csrWaits (n : Nat) (s : State) : Bool :=
  csrOrdered n && (!orderedReady s || (decide (0x060 ≤ n) && decide (n ≤ 0x062) && s.core.chainRuns))

/-- CRGET. -/
def execCrget (d : BitVec 5) (c : BitVec 12) (s : State) : Result :=
  let n := c.toNat
  if csrSupervisor n && !s.cur.mode then steerFault .privilege ((encode (.crget d c)).setWidth 64) s
  else if csrWaits n s then .next (stall s)
  else retire d (csrRead n s) (if n = 0x008 then s.clockRead else if n = 0x009 then s.tickUp else s)

/-- A word that writes a register. -/
def csrWriteWord (op : CsrOp) (word : IWord) (a : BitVec 5) (c : BitVec 12) (s : State) : Result :=
  let n := c.toNat
  let x := readReg a s
  let changed := (csrRead n s ^^^ op.merge (csrRead n s) x) &&& csrGuarded n
  if csrSupervisor n && !s.cur.mode then steerFault .privilege (word.setWidth 64) s
  else if csrWaits n s then .next (stall s)
  else if changed ≠ 0 && !s.cur.mode then steerFault .privilege (word.setWidth 64) s
  else if n = 0x04A ∧ op ≠ .clr ∧ tlbinvWaits x s = true then .next (stall s)
  else .next (advance (csrApply op n x s))

/-- CRPUT. -/
def execCrput (a : BitVec 5) (c : BitVec 12) (s : State) : Result := csrWriteWord .put (encode (.crput a c)) a c s
/-- CRSET. -/
def execCrset (a : BitVec 5) (c : BitVec 12) (s : State) : Result := csrWriteWord .set (encode (.crset a c)) a c s
/-- CRCLR. -/
def execCrclr (a : BitVec 5) (c : BitVec 12) (s : State) : Result := csrWriteWord .clr (encode (.crclr a c)) a c s

/-! ## The writes that have rows of their own

Each is the write of a register by the stream that moves, under the conditions that hold for its words. -/

/-- The write cannot come about: the mode does not permit it, or the access waits (R68, R180, R234, R268). -/
def csrHeld (n : Nat) (v : Word) (s : State) : Bool :=
  let guarded := (csrRead n s ^^^ v) &&& csrGuarded n != 0
  ((csrSupervisor n || guarded) && !s.cur.mode) || csrWaits n s || (n == 0x04A && tlbinvWaits v s)

/-- The value is stored under the fields' access codes, when the write can come about. -/
def csrEvent (n : Nat) (v : Word) (s : State) : Result := .next (if csrHeld n v s then s else csrApply .put n v s)

/-- PLANEPWR_WRITE. -/
def execPlanepwrWrite (v : BitVec 64) (s : State) : Result := csrEvent 0x013 v s
/-- LCNT_WRITE. -/
def execLcntWrite (v : BitVec 64) (s : State) : Result := csrEvent 0x061 v s
/-- LCARRY_WRITE. -/
def execLcarryWrite (v : BitVec 64) (s : State) : Result := csrEvent 0x062 v s
/-- GSEL_WRITE. -/
def execGselWrite (v : BitVec 64) (s : State) : Result := csrEvent 0x071 v s
/-- TLBINV. -/
def execTlbinv (v : BitVec 64) (s : State) : Result := csrEvent 0x04A v s
/-- FQADV. -/
def execFqadv (v : BitVec 64) (s : State) : Result := csrEvent 0x076 v s
/-- CLRESET. -/
def execClreset (v : BitVec 64) (s : State) : Result := csrEvent 0x07E v s
/-- CSR_WRITE. -/
def execCsrWrite (c : BitVec 12) (v : BitVec 64) (s : State) : Result := csrEvent c.toNat v s

end Sys2Proof.Machine
end

