-- ==== Sys2Proof/Machine/Fetch.lean ====
section
/-! DEFINITION. Fetching a word of text (08_core_steering.md R168, 05_convoy.md R135, 02_encoding.md R39). -/

namespace Sys2Proof.Machine

/-- The text that a stream fetches from: its GLOB base and its length. -/
structure Text where
  base : Nat
  len : Nat
  deriving DecidableEq, Repr, Inhabited

/-- The text of the agent that moves: of the control core, the convoy text, or the steering or handler text. -/
def State.text (s : State) : Text :=
  match s.agent with
  | .control => ⟨s.cluster.ctlBase.toNat, s.cluster.ctlLen.toNat⟩
  | .convoy => ⟨s.core.task.cbase.toNat, s.core.task.clen.toNat⟩
  | _ =>
    if s.core.steer.mode then ⟨s.core.steer.htbase.toNat, s.core.steer.htlen.toNat⟩
    else ⟨s.core.task.stbase.toNat, s.core.task.stlen.toNat⟩

/-- A fetch reads four bytes as a load does. -/
def fetchWant : Want := ⟨4, false, false, false, false⟩

/-- The word at an offset of the text; none when it cannot be fetched (R39, priority 1). DESIGN CHOICE: log entry 4. -/
def fetchWord (off : BitVec 32) (s : State) : Option IWord :=
  let t := s.text
  if t.len ≤ off.toNat then none
  else match resolve s 3 (.ofNat 64 (t.base + off.toNat)) fetchWant with
    | .error _ => none
    | .ok loc => if locPoisoned s loc 4 then none else some (.ofNat 32 (readLoc s loc 4))

end Sys2Proof.Machine
end

