-- ==== Sys2Proof/Machine/Steering.lean ====
section
/-! DEFINITION. The steering words of the queues, of traps, of the end of a task, of timelines, barriers, arms and feed
queues (08_core_steering.md R183 to R198; 09_core_memory.md R237; 14_cluster.md R294, R316 to R324). -/

namespace Sys2Proof.Machine

/-! ## The queues (R181 to R185, 14_cluster.md R294) -/

/-- The operands of BPUSH that raise QUEUE-ARG. -/
def blockFaults (x y : Word) : Bool := decide (2 ^ 32 ≤ x.toNat ∨ x.toNat % 4 ≠ 0 ∨ 2 ^ 32 ≤ y.toNat)

/-- BPUSH: it releases the stream's accesses to the block (09_core_memory.md R244). -/
def execBpush (a b : BitVec 5) (s : State) : Result :=
  let x := readReg a s
  let y := readReg b s
  if blockFaults x y then steerFault .queueArg x s
  else if 16 ≤ s.core.q.bq.length then .next (stall s)
  else match releaseGate s with
    | some r => r
    | none => .next (advance (s.modQ (fun q => { q with bq := q.bq ++ [⟨x.setWidth 32, y.setWidth 32⟩] })))

/-- DPUSH: it releases the stream's accesses to the convoy that pops (09_core_memory.md R244). -/
def execDpush (a : BitVec 5) (s : State) : Result :=
  if 32 ≤ s.core.q.dq.length then .next (stall s)
  else match releaseGate s with
    | some r => r
    | none => .next (advance (s.modQ (fun q => { q with dq := q.dq ++ [readReg a s] })))

/-- RPOP. -/
def execRpop (d : BitVec 5) (s : State) : Result :=
  match s.core.q.rq with
  | [] => .next (stall s)
  | v :: l => retire d v (s.modQ (fun q => { q with rq := l }))

/-- The head of eq is popped; an event that waited for room enters. -/
def popEvent (s : State) : State := s.modQ (fun q => { q with eq := q.eq.tail }.settle)

/-- EPOP. -/
def execEpop (d : BitVec 5) (s : State) : Result :=
  match s.core.q.eq with
  | [] => .next (stall s)
  | v :: _ => retire d v (popEvent s)

/-- EPOP.TRY. -/
def execEpopTry (d : BitVec 5) (s : State) : Result :=
  match s.core.q.eq with
  | [] => retire d 0 s
  | v :: _ => retire d v (popEvent s)

/-- The head word of cq is popped; a message that waited for room enters. -/
def popMessage (s : State) : State := cqSettle s.clusterId (s.modCluster (fun c => { c with cq := c.cq.tail }))

/-- EPOP.MSG. -/
def execEpopMsg (d : BitVec 5) (s : State) : Result :=
  match s.cluster.cq with
  | [] => .next (stall s)
  | v :: _ => retire d v (popMessage s)

/-- EPOP.MSG.TRY. -/
def execEpopMsgTry (d : BitVec 5) (s : State) : Result :=
  match s.cluster.cq with
  | [] => retire d 0 s
  | v :: _ => retire d v (popMessage s)

/-! ## Traps and returns (R197, R198) -/

/-- HCALL. -/
def execHcall (s : State) : Result := steerTrapNext .hcall 0 s

/-- A recorded trap is taken afresh (R197, R208): in supervisor mode it is a double trap. DEDUCED: log entry 13. -/
def retakeTrap (s : State) : State :=
  let c := s.cur
  let double : DoubleTrap := ⟨causeWord c, c.tval, c.epc⟩
  match s.agent with
  | .control =>
    if c.mode then haltControl double s
    else s.modCluster (fun k => { k with ctl := { enterHandler c with chalt := false } })
  | _ => s.modCore (fun k => { k with
      steer := if c.mode then { c with dead := some double } else enterHandler c
      conv := haltConvoy k.conv })

/-- HRET. DEDUCED: log entry 13. -/
def execHret (s : State) : Result :=
  if s.cur.mode then
    let s1 := trapReturn s
    .next (if s1.cur.tpend then retakeTrap s1 else s1)
  else steerFault .privilege ((encode .hret).setWidth 64) s

/-- NAP: it may end at any time, with no effect. DEDUCED: log entry 12. -/
def execNap (s : State) : Result := .next (advance s)

/-- BRK under BRKH: the core holds the state of the trap and stops before the handler (R166, R198).
DEDUCED: log entry 10. -/
def brkStop (t : Trap) (s : State) : State :=
  let stop := fun (c : Steer) => { enterHandler (recordTrap t c) with stopped := true }
  match s.agent with
  | .control => s.modCluster (fun c => { c with ctl := { stop c.ctl with chalt := false } })
  | _ => s.modCore (fun c => { c with steer := stop c.steer, conv := haltConvoy c.conv })

/-- BRK. DEDUCED: log entry 10. -/
def execBrk (i : BitVec 15) (s : State) : Result :=
  if s.cur.sdbg.getLsbD 1 then
    if s.agent ≠ .control ∧ s.inFlight then .next (stall s)
    else .next (brkStop ⟨.brk, false, zext64 i, s.cur.pc + 4⟩ (s.modCur (fun c => { c with bksup := false })))
  else steerTrapNext .brk (zext64 i) s

/-! ## The end of a task (R190 to R192) -/

/-- The completion word after an END. -/
def completionNext (w : Word) (flags : BitVec 8) (aborted : Bool) : Word :=
  let n := w.toNat
  let count := (n % 2 ^ 40 + 1) % 2 ^ 40
  .ofNat 64 (n / 2 ^ 40 * 2 ^ 40 + count) ||| (flags.setWidth 64 <<< 48) ||| (if aborted then 2 ^ 56 else 0)

/-- No block waits or runs and no convoy is in flight (R191). -/
def Core.drained (c : Core) : Bool :=
  c.q.bq.isEmpty && c.conv.st == .idle && c.conv.flight.isNone && c.conv.parked.isEmpty && c.conv.forming.isEmpty

/-- What END waits for in the mode it runs in, besides its accesses (R191, R192). DEDUCED: log entry 58. -/
def endDrained (s : State) : Bool := s.cur.mode || (s.core.drained && !s.core.chainRuns)

/-- The update of the completion word, with which the task ends. -/
def completeTask (s : State) : Result :=
  let addr := s.core.task.cwaddr
  let aborted := s.core.steer.mode
  match resolve s 3 addr atomicWant with
  | .error f => steerMemFault f atomicWant 3 addr s
  | .ok loc =>
    if locPoisoned s loc 8 || remoteFails s loc then steerMemFault ⟨.memData, 7⟩ atomicWant 3 addr s.tickUp
    else
      let w := completionNext (.ofNat 64 (readLoc s loc 8)) s.core.conv.vflags aborted
      .next (endTaskOn s.coreId aborted (leaveShares (writeLoc loc 8 w.toNat s.tickUp)))

/-- MEM-DATA at END for a discarded store of the convoy stream (19_fabric.md R401). -/
def convoyGate (s : State) : Option Result :=
  s.core.conv.failedStore.map (fun va =>
    steerMemFault ⟨.memData, 7⟩ (elemWant 8 true false) 3 va (s.modConv (fun c => { c with failedStore := none })))

/-- END. DEDUCED: log entry 58. -/
def execEndTask (s : State) : Result :=
  if endDrained s = false then .next (stall s)
  else match (releaseGate s).or (convoyGate s) with
    | some r => r
    | none => completeTask s

/-! ## Timelines (09_core_memory.md R237) -/

/-- TL-CTX: its TVAL is the handle. DEDUCED: log entry 57. -/
def contextFault (h : Word) (s : State) : Result := steerFault .tlCtx h s

/-- TLWAIT. -/
def execTlwait (d a b : BitVec 5) (t : BitVec 6) (s : State) : Result :=
  let h := readReg a s
  if handleOk h = false then contextFault h s
  else
    let c := s.context (ctxKey h)
    if (c.settled (readReg b s)).isSome || limitPassed t s then retire d c.count s else .next (stall s)

/-- TLREAD of COUNT. -/
def execTlreadCount (d a : BitVec 5) (s : State) : Result :=
  let h := readReg a s
  if handleOk h = false then contextFault h s else retire d (s.context (ctxKey h)).count s

/-- TLREAD of the status word. -/
def execTlreadStatus (d a : BitVec 5) (s : State) : Result :=
  let h := readReg a s
  if handleOk h = false then contextFault h s else retire d (s.context (ctxKey h)).status s

/-! ## Barriers (14_cluster.md R319 to R321) -/

/-- The hardware barrier that a number names: absolute on a control core, relative to BARWIN on a task core; none out of
range. -/
def barrierOf (x : Word) (s : State) : Option Nat :=
  let win := s.core.task.barwin.toNat
  if 32 ≤ x.toNat then none
  else match s.agent with
    | .control => some x.toNat
    | _ => if win / 2 ^ 8 % 64 ≤ x.toNat then none else some ((win % 32 + x.toNat) % 32)

/-- BARV. -/
def execBarv (d a b : BitVec 5) (s : State) : Result :=
  match barrierOf (readReg a s) s with
  | none => steerFault .barRange (readReg a s) s
  | some n =>
    match releaseGate s with
    | some r => r
    | none =>
      let old := spGet 0 s.cluster.barriers n
      retire d old (s.modCluster (fun c => { c with barriers := spPut 0 c.barriers n (old + readReg b s) }))

/-- BARW. -/
def execBarw (d a b : BitVec 5) (t : BitVec 6) (s : State) : Result :=
  match barrierOf (readReg a s) s with
  | none => steerFault .barRange (readReg a s) s
  | some n =>
    let x := spGet 0 s.cluster.barriers n
    if (readReg b s).toNat ≤ x.toNat ∨ limitPassed t s then retire d x s else .next (stall s)

/-! ## Arms (14_cluster.md R324) -/

/-- The arm form raises GANG-ARM. -/
def armFaults (x y : Word) (s : State) : Bool :=
  let size := s.core.task.gslot.toNat / 2 ^ 8 % 256
  decide (size ≤ x.toNat) || decide (x.toNat = s.slot) || s.core.gang.armed
    || y.toNat != y.toNat % 4 + y.toNat / 2 ^ 8 % 32 * 2 ^ 8
    || decide (s.core.task.barwin.toNat / 2 ^ 8 % 64 ≤ y.toNat / 2 ^ 8 % 32)

/-- What convoys write from now on is noted for the share that the arm is for (R328); what the shares that stand have noted
stays. -/
def notePlane (s : State) : State :=
  let l := if s.core.gang.shares.isEmpty then [] else s.core.conv.wrote.getD []
  (s.modConv (fun c => { c with wrote := some l })).modGang (fun g => { g with armMark := l.length })

/-- GARM: the arm names the issuer's slot, this core's slab and its barrier. -/
def execGarm (a b : BitVec 5) (s : State) : Result :=
  let x := readReg a s
  let y := readReg b s
  if orderedReady s = false then .next (stall s)
  else if armFaults x y s then steerFault .gangArm x s
  else .next (advance (notePlane (s.modGang (fun g => { g with
    armIslot := x.setWidth 7, armSlab := y.setWidth 2, armBar := (y >>> 8).setWidth 5
    armFault := false, armed := true }))))

/-- GARM.OFF. -/
def execGarmOff (d : BitVec 5) (s : State) : Result :=
  if orderedReady s = false then .next (stall s)
  else retire d (boolWord s.core.gang.armed) (disarmPlane (s.modGang (fun g => { g with armed := false })))

/-! ## Feed queues (14_cluster.md R316, R317) -/

/-- The configure form raises FQ-ARG. DEDUCED: log entry 47. -/
def feedFaults (x y : Word) (f : FeedQueue) : Bool :=
  let base := x.toNat % 2 ^ 25
  let cap := x.toNat / 2 ^ 32 % 2 ^ 16
  let vlfeed := y.toNat % 2 ^ 16
  f.attached.isSome || (decide (cap ≠ 0)
    && (decide (25493504 < base + 4 * cap) || vlfeed == 0 || decide (cap < vlfeed)
      || decide (x.toNat ≠ base + cap * 2 ^ 32) || decide (2 ^ 17 ≤ y.toNat) || decide (base % 4 ≠ 0)))

/-- FQSET: it waits for the crossings of entries already appended. -/
def execFqset (a b : BitVec 5) (q : BitVec 4) (s : State) : Result :=
  let x := readReg a s
  let y := readReg b s
  if feedFaults x y (s.cluster.feed q.toNat) then steerFault .fqArg x s
  else if (s.cluster.feed q.toNat).written ≠ [] then .next (stall s)
  else .next (advance (s.modCluster (·.modFeed q.toNat (fun _ => { FeedQueue.reset with
    base := x.setWidth 25, cap := (x >>> 32).setWidth 16, vlfeed := y.setWidth 16, even := y.getLsbD 16 }))))

/-- FQSET.RD. -/
def execFqsetRd (d : BitVec 5) (q : BitVec 4) (s : State) : Result :=
  let f := s.cluster.feed q.toNat
  retire d (.ofNat 64 (f.head.toNat * 2 ^ 32 + f.tail.toNat)) s

/-- FQSET.ADV. -/
def execFqsetAdv (a : BitVec 5) (q : BitVec 4) (s : State) : Result :=
  let n : BitVec 32 := (readReg a s).setWidth 32
  .next (advance (s.modCluster (·.modFeed q.toNat (FeedQueue.advance n))))

end Sys2Proof.Machine
end

