-- ==== Sys2Proof/Machine/Launch.lean ====
section
/-! DEFINITION. The launch words (14_cluster.md R295 to R301) and the issue of engine commands (16_die.md R341 to R344,
R353, R361; 19_fabric.md R402, R403). -/

namespace Sys2Proof.Machine

/-! ## Launch blocks (R295, R296) -/

/-- A field of the 128 bytes of a block: offset and size in bytes. -/
def blockField (n off size : Nat) : Nat := n / 2 ^ (8 * off) % 2 ^ (8 * size)

/-- The block in 128 bytes, the first lowest. -/
def parseBlock (n : Nat) : LaunchBlock :=
  { stbase := .ofNat 64 (blockField n 0x00 8)
    cbase := .ofNat 64 (blockField n 0x08 8)
    dbase := .ofNat 64 (blockField n 0x10 8)
    cwaddr := .ofNat 64 (blockField n 0x18 8)
    widlayout := .ofNat 64 (blockField n 0x20 8)
    widmax := .ofNat 64 (blockField n 0x28 8)
    deph := .ofNat 64 (blockField n 0x30 8)
    depv := .ofNat 64 (blockField n 0x38 8)
    ptroot := .ofNat 64 (blockField n 0x40 8)
    entry := .ofNat 32 (blockField n 0x48 4)
    stlen := .ofNat 32 (blockField n 0x4C 4)
    clen := .ofNat 32 (blockField n 0x50 4)
    power := .ofNat 16 (blockField n 0x54 2)
    frame := .ofNat 16 (blockField n 0x56 2)
    prio := .ofNat 8 (blockField n 0x58 1)
    nbar := .ofNat 8 (blockField n 0x59 1)
    flags := .ofNat 8 (blockField n 0x5A 1)
    fq := .ofNat 8 (blockField n 0x5B 1)
    cmask := .ofNat 8 (blockField n 0x5C 1) }

/-- Code 0x01: the widths, the extents and the task total (01_levels.md R17, R18). -/
def LaunchBlock.shapeBad (b : LaunchBlock) : Bool :=
  let sum := b.widths.foldl (· + ·) 0
  decide (64 < sum) || decide (2 ^ sum ≤ b.widmax.toNat) || decide (2 ^ 40 ≤ b.total)

/-- Code 0x02: the levels. -/
def LaunchBlock.levelsBad (b : LaunchBlock) : Bool :=
  b.glv == 7 || b.bsc == 7 || decide (b.glv < b.bsc) || (b.clv != 7 && decide (b.clv < b.glv))

/-- Code 0x03: the gang and its barriers. -/
def LaunchBlock.gangBad (b : LaunchBlock) : Bool :=
  decide (96 < b.gang) || decide (32 < b.nbar.toNat * (b.gang / b.levelSize b.bsc))

/-- Code 0x04: reserved fields and ranges; `rest` is the 35 bytes from offset 0x5D. -/
def LaunchBlock.fieldsBad (b : LaunchBlock) (rest : Nat) : Bool :=
  decide (2 ^ 51 ≤ b.widlayout.toNat) || decide (4 ≤ b.flags.toNat) || decide (16 ≤ b.cmask.toNat) || rest != 0
    || decide (3 < b.prio.toNat) || decide (32 < b.nbar.toNat) || decide (512 < b.frame.toNat)
    || (if b.feed then decide (15 < b.fq.toNat) else b.fq != 0)

/-- Code 0x05: the entry and the alignments. -/
def LaunchBlock.entryBad (b : LaunchBlock) (addr : Word) : Bool :=
  decide (b.stlen.toNat ≤ b.entry.toNat) || b.entry.toNat % 4 != 0 || b.cwaddr.toNat % 8 != 0 || addr.toNat % 64 != 0

/-- A live stream-in entry with no release pending. -/
def streamLive (c : Cluster) (i : Nat) : Bool :=
  match c.entry? i with
  | some e => e.kind == .streamIn && !e.releasing
  | none => false

/-- The bytes of sb that name streams. -/
def streamBytes (x : Word) : List Nat := (List.range 4).map (fun t => x.toNat / 2 ^ (8 * t) % 256)

/-- The entries that sb names. -/
def streamList (x : Word) : List Nat := ((streamBytes x).filter (fun y => decide (128 ≤ y))).map (· % 64)

/-- Code 0x07: the streams. -/
def streamsBad (x : Word) (c : Cluster) : Bool :=
  decide (2 ^ 32 ≤ x.toNat)
    || (streamBytes x).any (fun y => if 128 ≤ y then y / 64 % 2 == 1 || !streamLive c (y % 64) else y != 0)

/-- Code 0x08: the feed. -/
def LaunchBlock.feedBad (b : LaunchBlock) (c : Cluster) : Bool :=
  let f := c.feed b.fq.toNat
  b.feed && (f.cap == 0 || f.tail != 0 || f.attached.isSome || b.glv != 0 || b.bsc != 0
    || (b.widths.drop 1).any (· != 0) || b.cmask != 0)

/-- The lowest code of the conditions broken; 0 when the block and the streams are valid. -/
def launchCode (b : LaunchBlock) (rest : Nat) (addr x : Word) (c : Cluster) : Nat :=
  if b.shapeBad then 1
  else if b.levelsBad then 2
  else if b.gangBad then 3
  else if b.fieldsBad rest then 4
  else if b.entryBad addr then 5
  else if b.deph ≠ 0 ∧ handleOk b.deph = false then 6
  else if streamsBad x c then 7
  else if b.feedBad c then 8
  else 0

/-! ## STRIN, STROUT and LAUNCH (R297 to R301) -/

/-- What a stream or launch word comes to: the code of an error; no room in the scoreboard; or an entry that has been
made, its index and its number (R301). -/
inductive Made where
  | error (code : Nat)
  | full
  | entry (i num : Nat) (s : State)

/-- The result of an error. -/
def launchError (code : Nat) : Word := .ofNat 64 (2 ^ 63 + code)

/-- The result of a success: the entry's index and its number. -/
def launchResult (i num : Nat) : Word := .ofNat 64 (i + 2 ^ 16 * (num % 2 ^ 47))

/-- The end of a stream or launch word: its result in the register; without a free entry it waits (R301). -/
def Made.retire (d : BitVec 5) (s : State) : Made → Result
  | .error code => Machine.retire d (launchError code) s
  | .full => .next (stall s)
  | .entry i num t => Machine.retire d (launchResult i num) t

/-- An entry with nothing set but its kind. -/
def Entry.fresh (k : EntryKind) (st : EntryState) (ctx num : Nat) : Entry :=
  { kind := k, st := st, ctx := ctx, num := num, age := 0, block := .zero, streams := [], ptroot := 0, super := false
    direct := false, deadline := 0, promoted := false, src := 0, dst := 0, len := 0, target := 0, releasing := false, err := 0, ended := 0, abandoned := 0
    aborted := false, next := 0, upTo := 0, handed := 0, home := (0, 0), triggered := 0, fedEnded := []
    overdue := false }

/-- The deadline of a command that issues now (19_fabric.md R398). -/
def State.deadline (s : State) : Word := s.now + .ofNat 64 (1000 * s.fab.offh.toNat)

/-- An entry is created at the lowest free index with its context's next number. -/
def createEntry (ctx : Nat) (e : Nat → Entry) (also : Nat → State → State) (s : State) : Made :=
  match s.cluster.freeIndex with
  | none => .full
  | some i =>
    let key := ctxKey (launchHandle s.clusterId ctx)
    let num := (s.context key).next
    let age := s.pkg.serials + 1
    let s1 := ((s.modContext key (fun c => { c with next := c.next + 1 })).modPkg (fun p => { p with
      serials := age })).modCluster (fun c => (c.addEntry i { e num with age := age }).refresh)
    .entry i num (also i s1)

/-- Lengths and addresses of a stream copy that break the rules of R297. -/
def copyArgsBad (x n : Word) : Bool := x.toNat % 64 != 0 || n.toNat % 64 != 0 || n == 0 || decide (2 ^ 32 ≤ n.toNat)

/-- A stream-in entry. -/
def makeStreamIn (dst src n : Word) (ctx : Nat) (s : State) : Made :=
  if copyArgsBad dst n || src.toNat % 64 != 0 then .error 5
  else createEntry ctx (fun num => { Entry.fresh .streamIn .ready ctx num with
      ptroot := s.cur.ptroot, super := s.cur.mode, direct := s.cluster.dispatch.isSome
      src := src, dst := dst, len := n.toNat, deadline := s.deadline }) (fun _ t => t.clockRead) s

/-- A stream-out entry. DEDUCED: log entry 55. -/
def makeStreamOut (dst name n : Word) (ctx : Nat) (s : State) : Made :=
  let i := name.toNat % 64
  if n ≠ 0 ∧ copyArgsBad dst n then .error 5
  else if 64 ≤ name.toNat ∨ streamLive s.cluster i = false then .error 7
  else createEntry ctx (fun num => { Entry.fresh .streamOut .waiting ctx num with
      ptroot := s.cur.ptroot, super := s.cur.mode, direct := s.cluster.dispatch.isSome
      dst := dst, len := n.toNat, target := i, deadline := s.deadline, src := ((s.cluster.entry? i).map (·.dst)).getD 0 })
    (fun _ t => (t.modCluster (·.modEntry i (fun e => { e with releasing := true }))).clockRead) s

/-- STRIN. -/
def execStrin (d a b : BitVec 5) (x : BitVec 4) (c : BitVec 5) (s : State) : Result :=
  (makeStreamIn (readReg a s) (readReg b s) (readReg c s) x.toNat s).retire d s

/-- STROUT. -/
def execStrout (d a b : BitVec 5) (x : BitVec 4) (c : BitVec 5) (s : State) : Result :=
  (makeStreamOut (readReg a s) (readReg b s) (readReg c s) x.toNat s).retire d s

/-- The bytes of a launch block, from the last down: a number, or the first address that faults and its fault. -/
def readBlock (s : State) (addr : Word) : Nat → Except (Word × MemFault) Nat
  | 0 => .ok 0
  | k + 1 =>
    match readBlock s addr k with
    | .error e => .error e
    | .ok n =>
      let a := addr + .ofNat 64 k
      match resolve s 3 a (loadWant 1) with
      | .error f => .error (a, f)
      | .ok loc =>
        if locPoisoned s loc 1 || remoteFails s loc then .error (a, ⟨.memData, 7⟩)
        else .ok (n + 2 ^ (8 * k) * readLoc s loc 1)

/-- An earlier access of the stream has still to reach a line that holds a byte of the block (09_core_memory.md R240). -/
def blockHeld (s : State) (addr : Word) : Bool :=
  (List.range 128).any (fun k => match resolve s 3 (addr + .ofNat 64 k) (loadWant 1) with
    | .ok loc => lineHeld s loc || deviceHeld s 3 (addr + .ofNat 64 k)
    | .error _ => false)

/-- The kernel entry of a block. -/
def kernelEntry (b : LaunchBlock) (x : Word) (ctx num : Nat) : Entry :=
  { Entry.fresh .kernel .waiting ctx num with
    block := b, streams := streamList x, upTo := if b.feed then 0 else b.groups }

/-- A kernel entry, and its attachment to a feed queue. -/
def makeKernel (blk : LaunchBlock) (x : Word) (ctx : Nat) (s : State) : Made :=
  createEntry ctx (kernelEntry blk x ctx)
    (fun i t => if blk.feed then t.modCluster (·.modFeed blk.fq.toNat (fun f => { f with attached := some i })) else t) s

/-- LAUNCH on a control core. -/
def execLaunch (d a b : BitVec 5) (x : BitVec 4) (s : State) : Result :=
  let addr := readReg a s
  if blockHeld s addr then .next (stall s)
  else match readBlock s addr 128 with
  | .error (va, f) => steerMemFault f (loadWant 1) 3 va s.tickUp
  | .ok n =>
    let blk := parseBlock n
    let code := launchCode blk (n / 2 ^ (8 * 0x5D)) addr (readReg b s) s.cluster
    if code ≠ 0 then retire d (launchError code) s.tickUp
    else match releaseGate s with
      | some r => r
      | none => (makeKernel blk (readReg b s) x.toNat s.tickUp).retire d s.tickUp

/-- LAUNCH on a task core: a message to the cluster's cq, with f5 and the values of sa, sb and sc (R293, R300). -/
def execLaunchRequest (d a b : BitVec 5) (x : BitVec 5) (c : BitVec 5) (s : State) : Result :=
  match releaseGate s with
  | some r => r
  | none =>
    if s.cluster.cqPosts ≠ [] ∨ 64 < s.cluster.cq.length + 4 then .next (stall s)
    else
      let w0 : Word := .ofNat 64 (0x10 * 2 ^ 56 + x.toNat * 2 ^ 48 + s.coreId % 96)
      retire d 0 (cqPost s.clusterId [w0, readReg a s, readReg b s, readReg c s] s)

/-! ## Issue of engine commands -/

/-- The access of a command word to its descriptor. -/
def descWant : Want := ⟨8, false, false, false, false⟩

/-- An unfinished collective of the package has a tag (19_fabric.md R407). -/
def tagUsed (s : State) (tag : Nat) : Bool :=
  s.pkg.contexts.any (fun p => p.1 / 2 ^ 28 == 3 && p.2.cmds.any (fun c => blockField c.desc 0x28 8 == tag))

/-- A command word: the checks of R343 in order, the wait for room in the context (R342), the read of the descriptor,
and the command with the context's next number. DEDUCED: log entry 57. -/
def engineIssue (cls : Nat) (op : CmdOp) (d a b : BitVec 5) (s : State) : Result :=
  let h := readReg a s
  let off := readReg b s
  if handleOk h = false ∨ handleClass h ≠ cls then contextFault h s
  else if off.toNat % 64 ≠ 0 then steerMemFault ⟨.memAlign, 7⟩ descWant 0 off s
  else if 262144 < off.toNat + 64 then steerMemFault ⟨.memRange, 7⟩ descWant 0 off s
  else if poisoned s (spaceKey s 0 off.toNat) 64 then steerMemFault ⟨.memData, 7⟩ descWant 0 off s
  else match releaseGate s with
    | some r => r
    | none =>
      let c := s.context (ctxKey h)
      if 16 ≤ c.cmds.length then .next (stall s)
      else
        let cmd : Cmd :=
          { op := op, num := c.next, desc := readMem s (spaceKey s 0 off.toNat) 64
            ptroot := s.cur.ptroot, super := s.cur.mode
            task := if s.agent = .control then none else some s.core.task.serial
            deadline := s.deadline, promoted := false
            since := (c.cmds.map (·.num)).headD c.next
            clash := cls == 3 && tagUsed s (blockField (readMem s (spaceKey s 0 off.toNat) 64) 0x28 8)
            move := none }
        retire d (.ofNat 64 c.next)
          ((s.modContext (ctxKey h) (fun c => { c with next := c.next + 1, cmds := c.cmds ++ [cmd] })).clockRead)

/-- A reset word: it waits until every command of the context has finished (R353; 19_fabric.md R403). -/
def engineReset (cls : Nat) (d a : BitVec 5) (s : State) : Result :=
  let h := readReg a s
  if handleOk h = false ∨ handleClass h ≠ cls then contextFault h s
  else
    let c := s.context (ctxKey h)
    if c.cmds ≠ [] then .next (stall s) else retire d c.count (s.modContext (ctxKey h) (fun _ => .reset))

/-- COPY. -/
def execCopy (d a b : BitVec 5) (s : State) : Result := engineIssue 1 .copy d a b s
/-- COPY.RST. -/
def execCopyRst (d a : BitVec 5) (s : State) : Result := engineReset 1 d a s
/-- COPY2. -/
def execCopy2 (d a b : BitVec 5) (s : State) : Result := engineIssue 1 .copy2 d a b s
/-- FILL. -/
def execFill (d a b : BitVec 5) (s : State) : Result := engineIssue 1 .fill d a b s
/-- SLABMOV. -/
def execSlabmov (d a b : BitVec 5) (s : State) : Result := engineIssue 1 .slabmov d a b s
/-- MDEC. -/
def execMdec (d a b : BitVec 5) (s : State) : Result := engineIssue 2 .mdec d a b s
/-- MRSZ. -/
def execMrsz (d a b : BitVec 5) (s : State) : Result := engineIssue 2 .mrsz d a b s
/-- MDEC.RST. -/
def execMdecRst (d a : BitVec 5) (s : State) : Result := engineReset 2 d a s
/-- CRED. -/
def execCred (d a b : BitVec 5) (s : State) : Result := engineIssue 3 .cred d a b s
/-- CBCAST. -/
def execCbcast (d a b : BitVec 5) (s : State) : Result := engineIssue 3 .cbcast d a b s
/-- CRED.RST. -/
def execCredRst (d a : BitVec 5) (s : State) : Result := engineReset 3 d a s

end Sys2Proof.Machine
end

