-- ==== Sys2Proof/Machine/Engines.lean ====
section
/-! DEFINITION. The copy engines (16_die.md R341 to R354), key-value slab moves (R356, R359), the media front end (R361
to R364) and the collective engines (19_fabric.md R402 to R407). A command is performed whole, in number order on its
context. -/

namespace Sys2Proof.Machine

/-! ## An engine's accesses (R344) -/

/-- What an access of a command comes to: done with a value, or an error code. -/
abbrev EngResult (α : Type) := Except (BitVec 8) α

/-- A command as it is performed. -/
structure Running extends Cmd where
  /-- The context whose TLB translates for it, if one does. -/
  key : Option Nat
  /-- Its GLOB addresses are the physical ones: a copy for the shipped dispatcher. -/
  direct : Bool
  /-- A command numbered below it has failed: what it writes is unspecified (09_core_memory.md R236). -/
  loose : Bool
  /-- Bytes that it may read as they were before commands still unfinished at its issue wrote them (R349). -/
  olds : List (Nat × Byte)
  /-- The counter of free values when it starts. -/
  tick : Nat

/-- A command that reads and writes what the machine holds. -/
def Cmd.plain (cmd : Cmd) (key : Option Nat) : Running :=
  { toCmd := cmd, key := key, direct := false, loose := false, olds := [], tick := 0 }

/-- The translation of a GLOB address that the TLB of a context holds. -/
def contextTlb (s : State) (key : Option Nat) (ptroot : Word) (va : Nat) : Option TlbEntry :=
  key.bind (fun k => tlbFind (s.context k).tlb (.ofNat 16 ptroot.toNat) va)

/-- The translation of a GLOB address for a command: its context's TLB holds it, or the tables give it. -/
def Running.translate (cmd : Running) (s : State) (va : Nat) : Walked :=
  match contextTlb s cmd.key cmd.ptroot va with
  | some t => .leaf t.entry t.bits
  | none => tableWalk s cmd.ptroot va

/-- A translation enters the TLB of a context, which holds 32. DESIGN CHOICE: log entry 33. -/
def fillTlb (key : Nat) (ptroot : Word) (va : Nat) (s : State) : State :=
  match contextTlb s (some key) ptroot va with
  | some _ => s
  | none =>
    match tableWalk s ptroot va with
    | .fault _ => s
    | .leaf e bits => s.modContext key (fun c => { c with
        tlb := (⟨.ofNat 16 ptroot.toNat, va / 2 ^ bits * 2 ^ bits, bits, e⟩ :: c.tlb).take 32 })

/-- Bytes of memory: a copy for the shipped dispatcher reaches no register block. -/
def PaLoc.bytes : PaLoc → Option PaLoc
  | .mem key remote => some (.mem key remote)
  | _ => none

/-- Where a page of a leaf entry leads for an engine: a register block through a page of its own only (18_package.md R370;
19_fabric.md R394). DESIGN CHOICE: log entry 72. -/
def PaLoc.engine (entry : Nat) (loc : PaLoc) : Option PaLoc :=
  if loc = .bad ∨ (registerFault loc entry).isSome then none else some loc

/-- Where an address in a space leads for a command of an engine on a die; none when it faults. SPAD names a cluster of
the die. -/
def engineLoc (s : State) (cmd : Running) (die clu : Nat) (space : Nat) (addr : Word) (size : Nat) (write : Bool) :
    Option PaLoc :=
  let a := addr.toNat
  match space with
  | 1 => if a + size ≤ 25493504 then some (.mem (spadKey (4 * die + clu) a) false) else none
  | 2 =>
    if a + size ≤ 0xC000000 ∧ (a < 0x6000000 ∨ cmd.super) then some (.mem (dieKey die a) false) else none
  | 3 =>
    if 2 ^ 57 ≤ a then none
    else if cmd.direct then (paLoc s a).bytes
    else match cmd.translate s a with
      | .fault _ => none
      | .leaf e bits =>
        let en := e.toNat
        let loc := paLoc s (en / 2 ^ 16 % 2 ^ 41 * 2 ^ 16 / 2 ^ bits * 2 ^ bits + a % 2 ^ bits)
        if (write ∧ en / 4 % 2 = 0) ∨ (en / 16 % 2 = 1 ∧ cmd.super = false) then none else loc.engine en
  | _ => none

/-- A byte that a command reads. DESIGN CHOICE: log entry 41. -/
def Running.byte (cmd : Running) (s : State) (key : Nat) : Nat :=
  let l := (cmd.olds.filter (fun p => decide (p.1 = key))).map (·.2)
  ((l ++ [readByte s key]).getD (Config.whichByte cmd.tick key % (l.length + 1)) 0).toNat

/-- The bytes that a command reads at a place; the timebase as it was last read. DESIGN CHOICE: log entry 72. -/
def Running.value (cmd : Running) (s : State) (loc : PaLoc) (size : Nat) : Nat :=
  match loc with
  | .pkgReg 0x30 => if size = 8 then s.time % 2 ^ 64 else 0
  | .mem key _ =>
    if cmd.olds.isEmpty then readLoc s loc size
    else (List.range size).foldl (fun acc i => acc + 2 ^ (8 * i) * cmd.byte s (key + i)) 0
  | _ => readLoc s loc size

/-- A read of a command. -/
def engineRead (cmd : Running) (die clu space : Nat) (addr : Word) (size : Nat) (s : State) : EngResult Nat :=
  match engineLoc s cmd die clu space addr size false with
  | none => .error 2
  | some loc => if locPoisoned s loc size || remoteFails s loc then .error 4 else .ok (cmd.value s loc size)

/-- A write of a command. -/
def engineWrite (cmd : Running) (die clu space : Nat) (addr : Word) (size v : Nat) (s : State) : EngResult State :=
  match engineLoc s cmd die clu space addr size true with
  | none => .error 3
  | some loc =>
    if locStorePoisoned s loc size || remoteFails s loc then .error 4
    else .ok (writeLoc loc size (if cmd.loose then Config.freeNat s.tick % 256 ^ size else v) s).tickUp

/-- What a command has done, and its error code, 0 for success. -/
structure Performed where
  s : State
  err : BitVec 8

/-- The next action of a command, unless it has failed. -/
def Performed.andThen (p : Performed) (f : State → EngResult State) : Performed :=
  if p.err ≠ 0 then p
  else match f p.s with
    | .ok s => ⟨s, 0⟩
    | .error e => ⟨p.s, e⟩

/-! ## Copy descriptors (R345, R346) -/

/-- A copy descriptor. -/
structure CopyDesc where
  src : Nat
  dst : Nat
  spcS : Nat
  spcD : Nat
  cluS : Nat
  cluD : Nat
  /-- The upper halves of SPC and CLU, bit 7 of FLAGS and the last word: reserved. -/
  reserved : Nat
  trans : Bool
  noPad : Bool
  chain : Bool
  check : Bool
  swzS : Bool
  swzD : Bool
  depp : Bool
  esz : Nat
  n0 : Nat
  n1 : Nat
  padv : Nat
  sstr : Int
  dstr : Int
  padl : Nat
  padr : Nat
  padt : Nat
  padb : Nat
  crcx : Nat
  deriving DecidableEq, Repr, Inhabited

/-- The descriptor in 64 bytes. -/
def copyDesc (n : Nat) : CopyDesc :=
  let f := blockField n 0x12 1
  { src := blockField n 0x00 8, dst := blockField n 0x08 8
    spcS := blockField n 0x10 1 % 4, spcD := blockField n 0x10 1 / 4 % 4
    cluS := blockField n 0x11 1 % 4, cluD := blockField n 0x11 1 / 4 % 4
    reserved := blockField n 0x10 1 / 16 + blockField n 0x11 1 / 16 + f / 128 + blockField n 0x3C 4
    trans := f % 2 == 1, noPad := f / 2 % 2 == 1, chain := f / 4 % 2 == 1, check := f / 8 % 2 == 1
    swzS := f / 16 % 2 == 1, swzD := f / 32 % 2 == 1, depp := f / 64 % 2 == 1
    esz := blockField n 0x13 1, n0 := blockField n 0x14 4, n1 := blockField n 0x18 4, padv := blockField n 0x1C 4
    sstr := (BitVec.ofNat 64 (blockField n 0x20 8)).toInt, dstr := (BitVec.ofNat 64 (blockField n 0x28 8)).toInt
    padl := blockField n 0x30 2, padr := blockField n 0x32 2, padt := blockField n 0x34 2, padb := blockField n 0x36 2
    crcx := blockField n 0x38 4 }

/-- No pads. -/
def CopyDesc.noPads (d : CopyDesc) : Bool := d.padl == 0 && d.padr == 0 && d.padt == 0 && d.padb == 0

/-- The rows of the source: one for COPY. -/
def CopyDesc.srcRows (op : CmdOp) (d : CopyDesc) : Nat := if op = .copy then 1 else d.n1

/-- swz of R347. -/
def swz (on : Bool) (row b : Nat) : Nat := if on then b ^^^ (row % 8 * 16) else b

/-- The address of a source element. -/
def CopyDesc.srcAddr (d : CopyDesc) (sr sc : Nat) : Word :=
  .ofInt 64 ((d.src : Int) + sr * d.sstr + swz d.swzS sr (sc * 2 ^ d.esz))

/-- The image: rows and columns. -/
def CopyDesc.image (op : CmdOp) (d : CopyDesc) : Nat × Nat :=
  if d.trans then (d.n0, d.srcRows op) else (d.srcRows op, d.n0)

/-- The destination: rows and columns. -/
def CopyDesc.size (op : CmdOp) (d : CopyDesc) : Nat × Nat :=
  (d.padt + (d.image op).1 + d.padb, d.padl + (d.image op).2 + d.padr)

/-- The address of a destination cell. -/
def CopyDesc.dstAddr (d : CopyDesc) (r c : Nat) : Word :=
  .ofInt 64 ((d.dst : Int) + r * d.dstr + swz d.swzD r (c * 2 ^ d.esz))

/-- The source element of a destination cell; none for a pad. -/
def CopyDesc.source (op : CmdOp) (d : CopyDesc) (r c : Nat) : Option (Nat × Nat) :=
  if op = .fill then none
  else if d.padt ≤ r ∧ r < d.padt + (d.image op).1 ∧ d.padl ≤ c ∧ c < d.padl + (d.image op).2 then
    let i := r - d.padt
    let j := c - d.padl
    some (if d.trans then (j, i) else (i, j))
  else none

/-- The destination cells in destination order. -/
def CopyDesc.cells (op : CmdOp) (d : CopyDesc) : List (Nat × Nat) :=
  (List.range (d.size op).1).flatMap (fun r => (List.range (d.size op).2).map (fun c => (r, c)))

/-- The source elements in source order. DEDUCED: log entry 42. -/
def CopyDesc.sources (op : CmdOp) (d : CopyDesc) : List (Nat × Nat) :=
  if op = .fill then [] else
    (List.range (d.srcRows op)).flatMap (fun r => (List.range d.n0).map (fun c => (r, c)))

/-- Every address is aligned to the element size. -/
def CopyDesc.aligned (op : CmdOp) (d : CopyDesc) : Bool :=
  (d.cells op).all (fun p => (d.dstAddr p.1 p.2).toNat % 2 ^ d.esz == 0)
    && (d.sources op).all (fun p => (d.srcAddr p.1 p.2).toNat % 2 ^ d.esz == 0)

/-- The rows that a swizzled side walks are multiples of 128 bytes and start at multiples of 128. -/
def swzRows (on : Bool) (base : Nat) (pitch : Int) (rows bytes : Nat) : Bool :=
  !on || (bytes % 128 == 0 && (List.range rows).all (fun r => ((base : Int) + r * pitch) % 128 == 0))

/-- A space and its cluster field: no TCM, and a cluster only for SPAD. -/
def spaceOk (space clu : Nat) : Bool := space != 0 && (space == 1 || clu == 0)

/-- A valid copy descriptor for a word (R346). -/
def CopyDesc.valid (op : CmdOp) (d : CopyDesc) : Bool :=
  let common := d.reserved == 0 && spaceOk d.spcD d.cluD && decide (1 ≤ d.n0)
  match op with
  | .copy =>
    common && spaceOk d.spcS d.cluS && d.esz == 0 && d.n1 == 0 && !d.trans && !d.noPad && !d.swzS && !d.swzD
      && d.padv == 0 && d.sstr == 0 && d.dstr == 0 && d.noPads
  | .fill =>
    common && decide (d.esz ≤ 3) && decide (1 ≤ d.n1) && d.src == 0 && d.spcS == 0 && d.cluS == 0 && !d.trans
      && !d.noPad && !d.chain && !d.check && !d.swzS && d.sstr == 0 && d.noPads && d.crcx == 0
      && d.aligned .fill && swzRows d.swzD d.dst d.dstr (d.size .fill).1 ((d.size .fill).2 * 2 ^ d.esz)
  | _ =>
    common && decide (d.esz ≤ 3) && spaceOk d.spcS d.cluS && decide (1 ≤ d.n1) && d.aligned .copy2
      && swzRows d.swzS d.src d.sstr d.n1 (d.n0 * 2 ^ d.esz)
      && swzRows d.swzD d.dst d.dstr (d.size .copy2).1 ((d.size .copy2).2 * 2 ^ d.esz)

/-! ## COPY, COPY2 and FILL (R347, R348) -/

/-- CRC-32C over the bits of one byte. -/
def crcBits : Nat → BitVec 32 → BitVec 32
  | 0, c => c
  | n + 1, c => crcBits n ((c >>> 1) ^^^ (if c.getLsbD 0 then 0x82F63B78 else 0))

/-- CRC-32C of one more byte. -/
def crcByte (c : BitVec 32) (b : Nat) : BitVec 32 := crcBits 8 (c ^^^ .ofNat 32 (b % 256))

/-- CRC-32C of the bytes of an element, the lowest first. -/
def crcElem (size v : Nat) (c : BitVec 32) : BitVec 32 :=
  (List.range size).foldl (fun c i => crcByte c (v / 256 ^ i)) c

/-- A destination cell that the copy writes. -/
def CopyDesc.writes (op : CmdOp) (d : CopyDesc) (rc : Nat × Nat) : Bool := !d.noPad || (d.source op rc.1 rc.2).isSome

/-- The places that a copy reads and those that it writes share a byte: the destination is then unspecified. -/
def copyOverlaps (s : State) (cmd : Running) (die : Nat) (d : CopyDesc) : Bool :=
  let n := 2 ^ d.esz
  let at' := fun (clu space : Nat) (a : Word) (w : Bool) => engineLoc s cmd die clu space a n w
  (d.sources cmd.op).any (fun p => ((d.cells cmd.op).filter (d.writes cmd.op)).any (fun q =>
    match at' d.cluS d.spcS (d.srcAddr p.1 p.2) false, at' d.cluD d.spcD (d.dstAddr q.1 q.2) true with
    | some (.mem k _), some (.mem m _) => decide (k < m + n) && decide (m < k + n)
    | _, _ => false))

/-- One cell of the destination. -/
def copyCell (cmd : Running) (die : Nat) (d : CopyDesc) (free : Bool) (p : Performed) (rc : Nat × Nat) : Performed :=
  let n := 2 ^ d.esz
  let put := fun (v : Nat) (s : State) => engineWrite cmd die d.cluD d.spcD (d.dstAddr rc.1 rc.2) n
    (if free then (Config.freeWord s.tick).toNat else v) s
  match d.source cmd.op rc.1 rc.2 with
  | some (sr, sc) => p.andThen (fun s =>
      match engineRead cmd die d.cluS d.spcS (d.srcAddr sr sc) n s with
      | .error e => .error e
      | .ok v => put v s)
  | none => if d.noPad then p else p.andThen (put (d.padv % 2 ^ (8 * n)))

/-- The CRC over the source as the command found it. DEDUCED: log entry 42. -/
def copyCrc (s : State) (cmd : Running) (die : Nat) (d : CopyDesc) (crcr : BitVec 32) : BitVec 32 :=
  (d.sources cmd.op).foldl (fun c p =>
    match engineLoc s cmd die d.cluS d.spcS (d.srcAddr p.1 p.2) (2 ^ d.esz) false with
    | some loc => crcElem (2 ^ d.esz) (cmd.value s loc (2 ^ d.esz)) c
    | none => c) (if d.chain then crcr else 0xFFFFFFFF)

/-- A copy command, with the value that CRCR takes. DESIGN CHOICE: log entry 41. -/
def performCopy (cmd : Running) (die : Nat) (crcr : BitVec 32) (s : State) : Performed × BitVec 32 :=
  let d := copyDesc cmd.desc
  let lost : BitVec 32 := if cmd.op = .fill then crcr else (Config.freeWord s.tick).setWidth 32
  if d.valid cmd.op = false then (⟨s.tickUp, 1⟩, lost)
  else
    let p := (d.cells cmd.op).foldl (copyCell cmd die d (copyOverlaps s cmd die d)) ⟨s.tickUp, 0⟩
    if p.err ≠ 0 then (p, lost)
    else if cmd.op = .fill then (p, crcr)
    else
      let crc := copyCrc s cmd die d crcr
      (⟨p.s, if d.check && (crc ^^^ 0xFFFFFFFF).toNat != d.crcx then 5 else 0⟩, crc)

/-! ## SLABMOV (R359, R360) -/

/-- Copy bytes one by one. -/
def engineCopyBytes (cmd : Running) (src dst : Nat) (n : Nat) (p : Performed) : Performed :=
  (List.range n).foldl (fun p i => p.andThen (fun s =>
    match engineRead cmd 0 0 3 (.ofNat 64 (src + i)) 1 s with
    | .error e => .error e
    | .ok v => engineWrite cmd 0 0 3 (.ofNat 64 (dst + i)) 1 v s)) p

/-- The 32 bytes of a slab entry. -/
def slabBytes (base log2p tsz flags wmark res nbase : Nat) : Nat :=
  base + log2p * 2 ^ 64 + tsz * 2 ^ 72 + flags * 2 ^ 80 + wmark * 2 ^ 96 + res * 2 ^ 128 + nbase * 2 ^ 192

/-- What one action of a command comes to: it goes on from there, or it has finished with an error code or 0. -/
inductive Action where
  | goes (s : State) (move : Nat × Nat × Bool)
  | ends (p : Performed)

/-- ENTRY and NEW of a slab-move descriptor. -/
def moveEntry (cmd : Cmd) : Word := .ofNat 64 (blockField cmd.desc 0 8)
def moveNew (cmd : Cmd) : Nat := blockField cmd.desc 8 8

/-- The place of the slab entry, by which its move is known. -/
def moveKey (cmd : Running) (s : State) : Nat :=
  match engineLoc s cmd 0 0 3 (moveEntry cmd.toCmd) 32 true with
  | some (.mem key _) => key
  | _ => 0

/-- A write of the whole entry. -/
def putEntry (cmd : Running) (bytes : Nat) (s : State) : EngResult State :=
  engineWrite cmd 0 0 3 (moveEntry cmd.toCmd) 32 bytes s

/-- RES as the entry holds it: software may write it while the move runs (R356). -/
def entryRes (cmd : Running) (e : SlabEntry) (s : State) : Nat :=
  match engineLoc s cmd 0 0 3 (moveEntry cmd.toCmd) 32 true with
  | some (.mem key _) => readMem s (key + 16) 8
  | _ => e.res

/-- The entry of a slab that is being moved. -/
def movingEntry (cmd : Running) (e : SlabEntry) (wmark : Nat) (lock : Bool) (s : State) : Nat :=
  slabBytes e.base e.log2p e.tsz (if lock then 3 else 1) wmark (entryRes cmd e s) (moveNew cmd.toCmd)

/-- The bytes of a chunk: the first, and how many. -/
def chunkRange (e : SlabEntry) (c : Nat) : Nat × Nat :=
  let lo := c * 64 * 2 ^ e.tsz
  (lo, min ((c + 1) * 64 * 2 ^ e.tsz) (2 ^ (e.log2p + 16)) - lo)

/-- The chunks of the old slab. -/
def chunkCount (e : SlabEntry) : Nat := max 1 (2 ^ (e.log2p + 10) / 2 ^ e.tsz)

/-- Another agent has written a byte of the chunk, in the old slab or in the new one, since the move began. -/
def chunkTouched (cmd : Running) (e : SlabEntry) (c : Nat) (s : State) : Bool :=
  let (lo, n) := chunkRange e c
  let wrote := watched s (moveKey cmd s)
  wrote != [] && (List.range n).any (fun i =>
    [e.base + lo + i, moveNew cmd.toCmd + lo + i].any (fun a =>
      match engineLoc s cmd 0 0 3 (.ofNat 64 a) 1 false with
      | some (.mem key _) => wrote.contains key
      | _ => false))

/-- A chunk is copied. One that another agent has written while the move stands is unspecified at NEW (R360): a command
writes values left free as it does after a failed one. DESIGN CHOICE: log entry 41. -/
def copyChunk (cmd : Running) (e : SlabEntry) (c : Nat) (s : State) : Performed :=
  let (lo, n) := chunkRange e c
  engineCopyBytes { cmd with loose := cmd.loose || chunkTouched cmd e c s } (e.base + lo) (moveNew cmd.toCmd + lo) n ⟨s, 0⟩

/-- What has been done goes on to the next chunk, or has failed. -/
def Performed.goesOn (p : Performed) (move : Nat × Nat × Bool) : Action := if p.err = 0 then .goes p.s move else .ends p

/-- LOCK is cleared where a copy has failed. -/
def unlockEntry (cmd : Running) (e : SlabEntry) (c : Nat) (p : Performed) : Performed :=
  match putEntry cmd (movingEntry cmd e c false p.s) p.s with
  | .ok t => ⟨t, p.err⟩
  | .error _ => p

/-- The next action of a slab move: the LOCK of its next chunk, the copy of the locked one with its WMARK, or the last
write of the entry (R359). -/
def moveSlab (cmd : Running) (e : SlabEntry) (n c : Nat) (locked : Bool) (s : State) : Action :=
  let key := moveKey cmd s
  let put := fun (bytes : State → Nat) (p : Performed) =>
    p.andThen (fun t => (putEntry cmd (bytes t) t).map (ownWrites key s))
  if chunkCount e ≤ c then
    let p := put (fun _ => slabBytes (moveNew cmd.toCmd) (e.log2p + 1) e.tsz 0 0 (2 ^ 2 ^ (e.log2p + 1) - 1) 0) ⟨s, 0⟩
    .ends (if p.err = 0 then ⟨endWatch key p.s, 0⟩ else p)
  else if locked = false then (put (movingEntry cmd e c true) ⟨s, 0⟩).goesOn (n, c, true)
  else
    let q := copyChunk cmd e c s
    if q.err ≠ 0 then .ends ⟨ownWrites key s (unlockEntry cmd e c q).s, q.err⟩
    else (put (movingEntry cmd e (c + 1) false) ⟨ownWrites key s q.s, 0⟩).goesOn (n, c + 1, false)

/-- The first action: the entry is read, refused or taken; a move that is not resumed writes it. -/
def startSlabmov (cmd : Running) (s : State) : Action :=
  if (moveEntry cmd.toCmd).toNat % 32 ≠ 0 ∨ moveNew cmd.toCmd % 65536 ≠ 0 ∨ cmd.desc / 2 ^ 128 ≠ 0 then .ends ⟨s, 1⟩
  else match engineRead cmd 0 0 3 (moveEntry cmd.toCmd) 32 s with
    | .error e => .ends ⟨s.tickUp, e⟩
    | .ok n =>
      let e := slabEntry n
      let key := moveKey cmd s
      if e.bad ∨ e.log2p = 6 ∨ e.res % 2 ^ 2 ^ e.log2p ≠ 2 ^ 2 ^ e.log2p - 1 ∨ (e.mov ∧ e.nbase ≠ moveNew cmd.toCmd) then
        .ends ⟨s.tickUp, 6⟩
      else if e.mov then
        .goes (if watching s key then s else beginWatch key none s).tickUp (n, e.wmark, false)
      else
        let p := (⟨s.tickUp, 0⟩ : Performed).andThen (putEntry cmd (movingEntry cmd e 0 false s))
        Performed.goesOn { p with s := if p.err = 0 then beginWatch key none p.s else p.s } (n, 0, false)

/-- The next action of a SLABMOV. -/
def performSlabmov (cmd : Running) (s : State) : Action :=
  match cmd.move with
  | none => startSlabmov cmd s
  | some (n, c, locked) => moveSlab cmd (slabEntry n) n c locked s

/-! ## Decode and resize (R362 to R364) -/

/-- A media descriptor. -/
structure MediaDesc where
  inp : Nat
  inlen : Nat
  codec : Nat
  nout : Nat
  iw : Nat
  out : Nat
  opitch : Nat
  oplane : Nat
  oframe : Nat
  cx : Nat
  cy : Nat
  cw : Nat
  ch : Nat
  ow : Nat
  oh : Nat
  fmt : Nat
  idepth : Nat
  ih : Nat
  resaddr : Nat
  deriving DecidableEq, Repr, Inhabited

/-- The descriptor in 64 bytes. -/
def mediaDesc (n : Nat) : MediaDesc :=
  { inp := blockField n 0x00 8, inlen := blockField n 0x08 4, codec := blockField n 0x0C 1
    nout := blockField n 0x0D 1, iw := blockField n 0x0E 2, out := blockField n 0x10 8
    opitch := blockField n 0x18 4, oplane := blockField n 0x1C 4, oframe := blockField n 0x20 8
    cx := blockField n 0x28 2, cy := blockField n 0x2A 2, cw := blockField n 0x2C 2, ch := blockField n 0x2E 2
    ow := blockField n 0x30 2, oh := blockField n 0x32 2, fmt := blockField n 0x34 1
    idepth := blockField n 0x35 1, ih := blockField n 0x36 2, resaddr := blockField n 0x38 8 }

/-- COLOR. -/
def MediaDesc.color (d : MediaDesc) : Nat := d.fmt / 2 % 4
/-- The bytes of an output element. -/
def MediaDesc.elem (d : MediaDesc) : Nat := if d.fmt % 2 = 0 then 2 else 1
/-- FILTER 1, bilinear. -/
def MediaDesc.bilinear (d : MediaDesc) : Bool := d.fmt / 8 % 2 == 1

/-- FILTER 0 resizes by one whole factor from 1 to 8. -/
def MediaDesc.boxFactor (d : MediaDesc) : Option Nat :=
  (List.range 8).findSome? (fun k => if d.cw = (k + 1) * d.ow ∧ d.ch = (k + 1) * d.oh then some (k + 1) else none)

/-- The conditions of R362 that do not depend on the frame. DEDUCED: log entry 43. -/
def MediaDesc.valid (resize : Bool) (d : MediaDesc) : Bool :=
  decide (d.fmt < 16) && decide (d.color < 3) && d.resaddr % 16 == 0
    && decide (1 ≤ d.ow) && decide (d.ow ≤ 8192) && decide (1 ≤ d.oh) && decide (d.oh ≤ 8192)
    && d.cx % 2 == 0 && d.cy % 2 == 0 && d.cw % 2 == 0 && d.ch % 2 == 0 && d.cw != 0 && d.ch != 0
    && d.out % d.elem == 0 && d.opitch % d.elem == 0 && d.oplane % d.elem == 0 && d.oframe % d.elem == 0
    && (d.bilinear || d.boxFactor.isSome)
    && (if resize then
          d.codec == 0 && d.nout == 1 && d.oframe == 0 && (d.idepth == 8 || d.idepth == 10)
            && decide (64 ≤ d.iw) && decide (d.iw ≤ 8192) && d.iw % 2 == 0
            && decide (64 ≤ d.ih) && decide (d.ih ≤ 4320) && d.ih % 2 == 0
        else
          (d.codec == 1 || d.codec == 2) && decide (1 ≤ d.nout) && decide (d.nout ≤ 64)
            && d.iw == 0 && d.idepth == 0 && d.ih == 0)

/-- The crop lies in a frame. DEDUCED: log entry 43. -/
def MediaDesc.cropFits (d : MediaDesc) (w h : Nat) : Bool := decide (d.cx + d.cw ≤ w) && decide (d.cy + d.ch ≤ h)

/-- A sample of a plane as a real in [0, 1], its position clamped to the plane: beyond the outermost chroma samples the
outermost one stands. DESIGN CHOICE: log entry 81. -/
def sampleAt (l : List Nat) (w h depth : Nat) (x y : Int) : Rat :=
  let i := (min (max x 0) (w - 1)).toNat
  let j := (min (max y 0) (h - 1)).toNat
  (l.getD (j * w + i) 0 % 2 ^ depth : Nat) / (2 ^ depth - 1 : Nat)

/-- Bilinear interpolation of a grid at a real position. -/
def bilinearAt (g : Int → Int → Rat) (x y : Rat) : Rat :=
  let i := x.floor
  let j := y.floor
  let u := x - i
  let v := y - j
  (g i j * (1 - u) + g (i + 1) j * u) * (1 - v) + (g i (j + 1) * (1 - u) + g (i + 1) (j + 1) * u) * v

/-- A real clamped to [0, 1]. -/
def clampUnit (x : Rat) : Rat := if x < 0 then 0 else if 1 < x then 1 else x

/-- Luma and the two chromas of a frame at a luma position (steps 1 and 2). PRESUMED: log entry 44. -/
def yccAt (f : Config.Frame) (x y : Int) : Rat × Rat × Rat :=
  let u : Rat := ((x : Rat) - (f.siteX : Rat) / 2) / 2
  let v : Rat := ((y : Rat) - (f.siteY : Rat) / 2) / 2
  let chroma := fun l => bilinearAt (sampleAt l ((f.w + 1) / 2) ((f.h + 1) / 2) f.depth) u v
  (sampleAt f.luma f.w f.h f.depth x y, chroma f.cb, chroma f.cr)

/-- The planes of COLOR at a luma position; COLOR 1 applies the BT.709 matrix to limited-range input (step 3).
PRESUMED: log entry 44. -/
def planesAt (f : Config.Frame) (color : Nat) (x y : Int) : List Rat :=
  let (a, b, c) := yccAt f x y
  match color with
  | 0 => [a, b, c]
  | 1 =>
    let m : Rat := (2 ^ f.depth - 1 : Nat)
    let k : Rat := (2 ^ (f.depth - 8) : Nat)
    let yy := (a * m - 16 * k) / (219 * k)
    let pb := (b * m - 128 * k) / (224 * k)
    let pr := (c * m - 128 * k) / (224 * k)
    let r := yy + 2 * (1 - 2126 / 10000) * pr
    let bl := yy + 2 * (1 - 722 / 10000) * pb
    let g := (yy - (2126 / 10000) * r - (722 / 10000) * bl) / (7152 / 10000)
    [clampUnit r, clampUnit g, clampUnit bl]
  | _ => [a]

/-- Plane c at a luma position. -/
def planeAt (f : Config.Frame) (color c : Nat) (x y : Int) : Rat := (planesAt f color x y).getD c 0

/-- A sum of reals. -/
def ratSum (l : List Rat) : Rat := l.foldl (· + ·) 0

/-- The crop resized, at an output position (step 4). -/
def resizedAt (d : MediaDesc) (f : Config.Frame) (c x y : Nat) : Rat :=
  if d.bilinear then
    let edge := fun (i j : Int) => planeAt f d.color c (min (max i d.cx) (d.cx + d.cw - 1 : Nat))
      (min (max j d.cy) (d.cy + d.ch - 1 : Nat))
    bilinearAt edge (((x : Rat) + 1 / 2) * d.cw / d.ow - 1 / 2 + d.cx) (((y : Rat) + 1 / 2) * d.ch / d.oh - 1 / 2 + d.cy)
  else
    let k := d.boxFactor.getD 1
    ratSum ((List.range k).flatMap (fun j => (List.range k).map (fun i =>
      planeAt f d.color c ((d.cx + k * x + i : Nat) : Int) ((d.cy + k * y + j : Nat) : Int)))) / ((k * k : Nat) : Rat)

/-- A real in [0, 1] rounded once to BF16 or E4M3 (step 5). -/
def roundReal (bf : Bool) (x : Rat) : Nat :=
  (fDiv ⟨if bf then bf16 else e4m3, rmNearest, false⟩ (.fin false x.num.toNat 0) (.fin false x.den 0)).1

/-- The output elements of a frame: address offset and bits. -/
def frameElems (d : MediaDesc) (f : Config.Frame) : List (Nat × Nat) :=
  (List.range (if d.color = 2 then 1 else 3)).flatMap (fun c =>
    (List.range d.oh).flatMap (fun y => (List.range d.ow).map (fun x =>
      (c * d.oplane + y * d.opitch + x * d.elem, roundReal (d.fmt % 2 == 0) (resizedAt d f c x y)))))

/-- Write a frame. -/
def writeFrame (cmd : Running) (d : MediaDesc) (n : Nat) (f : Config.Frame) (p : Performed) : Performed :=
  (frameElems d f).foldl (fun p e => p.andThen
    (engineWrite cmd 0 0 3 (.ofNat 64 (d.out + n * d.oframe + e.1)) d.elem e.2)) p

/-- Write the frames in output order. -/
def writeFrames (cmd : Running) (d : MediaDesc) : Nat → List Config.Frame → Performed → Performed
  | _, [], p => p
  | n, f :: l, p => writeFrames cmd d (n + 1) l (writeFrame cmd d n f p)

/-- Write the result words. -/
def writeResult (cmd : Running) (d : MediaDesc) (frames used : Nat) (p : Performed) : Performed :=
  if d.resaddr = 0 then p
  else (p.andThen (engineWrite cmd 0 0 3 (.ofNat 64 d.resaddr) 8 frames)).andThen
    (engineWrite cmd 0 0 3 (.ofNat 64 (d.resaddr + 8)) 8 used)

/-- Bytes from an address upward. -/
def engineBytes (cmd : Running) (addr n : Nat) (s : State) : EngResult (List Byte) :=
  (List.range n).foldr (fun i acc => do
    let l ← acc
    let v ← engineRead cmd 0 0 3 (.ofNat 64 (addr + i)) 1 s
    return .ofNat 8 v :: l) (.ok [])

/-- A frame that lies in the limits of R363. -/
def frameFits (f : Config.Frame) : Bool :=
  decide (64 ≤ f.w) && decide (f.w ≤ 8192) && decide (64 ≤ f.h) && decide (f.h ≤ 4320) && (f.depth == 8 || f.depth == 10)

/-- What a bitstream gives a context: the error code, the frames that come before it, at most those that are wanted, and
the bytes consumed. A context that holds no stream takes one only from its beginning (R363). -/
def decodeStream (decoder : Nat) (d : MediaDesc) (bytes : List Byte) : BitVec 8 × List Config.Frame × Nat × Nat :=
  if decoder = 0 ∧ Config.startsStream d.codec bytes = false then (0x12, [], 0, 0)
  else
    let r := Config.decodeVideo decoder d.codec d.nout bytes
    let frames := r.frames.take d.nout
    let good := frames.takeWhile frameFits
    let err : BitVec 8 :=
      if good.length < frames.length then 0x11
      else if d.nout ≤ good.length then 0
      else if r.broken then 0x10
      else if r.beyond then 0x11
      else 0
    (err, good, min r.used bytes.length, r.state + 1)

/-- MDEC, with the decoder state that it leaves. DESIGN CHOICE: log entry 45. -/
def performMdec (cmd : Running) (decoder : Nat) (s : State) : Performed × Nat :=
  let d := mediaDesc cmd.desc
  if d.valid false = false then (⟨s, 1⟩, decoder)
  else match engineBytes cmd d.inp d.inlen s with
    | .error e => (⟨s.tickUp, e⟩, decoder)
    | .ok bytes =>
      let (err, frames, used, after) := decodeStream decoder d bytes
      if frames.any (fun f => !d.cropFits f.w f.h) then (⟨s.tickUp, 1⟩, decoder)
      else
        let p := writeFrames cmd d 0 frames ⟨s.tickUp, 0⟩
        if p.err ≠ 0 then (p, after)
        else if err ≠ 0 then (⟨p.s, err⟩, after)
        else (writeResult cmd d frames.length used p, after)

/-- A plane of the input of MRSZ, row by row, each sample byte by byte. -/
def readPlane (cmd : Running) (base pitch w h depth : Nat) (s : State) : EngResult (List Nat) :=
  (List.range (w * h)).foldr (fun i acc => do
    let l ← acc
    let size := if depth = 8 then 1 else 2
    let at' := base + i / w * pitch + i % w * size
    let lo ← engineRead cmd 0 0 3 (.ofNat 64 at') 1 s
    let hi ← if size = 1 then .ok 0 else engineRead cmd 0 0 3 (.ofNat 64 (at' + 1)) 1 s
    return (lo + 2 ^ 8 * hi) % 2 ^ depth :: l) (.ok [])

/-- The frame that MRSZ reads, left-sited; with an odd INLEN the pitch of its chroma planes is INLEN / 2 rounded down.
DESIGN CHOICE: log entry 81. -/
def readFrame (cmd : Running) (d : MediaDesc) (s : State) : EngResult Config.Frame := do
  let cb := d.inp + d.inlen * d.ih
  let pitch := d.inlen / 2
  let luma ← readPlane cmd d.inp d.inlen d.iw d.ih d.idepth s
  let b ← readPlane cmd cb pitch (d.iw / 2) (d.ih / 2) d.idepth s
  let r ← readPlane cmd (cb + pitch * (d.ih / 2)) pitch (d.iw / 2) (d.ih / 2) d.idepth s
  return { w := d.iw, h := d.ih, depth := d.idepth, siteX := 0, siteY := 1, luma := luma, cb := b, cr := r }

/-- MRSZ. -/
def performMrsz (cmd : Running) (s : State) : Performed :=
  let d := mediaDesc cmd.desc
  if d.valid true = false ∨ d.cropFits d.iw d.ih = false then ⟨s, 1⟩
  else match readFrame cmd d s with
    | .error e => ⟨s.tickUp, e⟩
    | .ok f => writeResult cmd d 1 0 (writeFrame cmd d 0 f ⟨s.tickUp, 0⟩)

/-! ## Finishing a command -/

/-- The event of a failed command (R352; 19_fabric.md R406). -/
def commandEvent (key num : Nat) (err : BitVec 8) : Word :=
  let cls := key / 2 ^ 28
  .ofNat 64 ((if cls = 3 then 5 else 3) * 2 ^ 56 + err.toNat * 2 ^ 48 + cls % 16 * 2 ^ 44
    + key / 2 ^ 16 % 8 * 2 ^ 41 + key / 2 ^ 8 % 16 * 2 ^ 37 + key % 8 * 2 ^ 34 + num % 2 ^ 32)

/-- A command of a context finishes with an error code or 0: COUNT, FAILED and ERR follow, and a failure is posted to the
task that issued it. -/
def finishCommand (key : Nat) (cmd : Cmd) (err : BitVec 8) (s : State) : State :=
  let s1 := s.modContext key (Context.finish cmd.num err)
  match cmd.task with
  | some t => if err = 0 then s1 else postTask t (commandEvent key cmd.num err) s1
  | none => s1

/-- The die of a context. -/
def keyDie (key : Nat) : Nat := key / 2 ^ 16 % 256

/-- The command reads nothing before every write of the lower-numbered ones (R349). -/
def Cmd.depp (cmd : Cmd) : Bool :=
  match cmd.op with
  | .copy | .copy2 | .fill => (copyDesc cmd.desc).depp
  | _ => false

/-- A command of a copy or media context as it is performed. DESIGN CHOICE: log entry 41. -/
def Cmd.start (key : Nat) (cmd : Cmd) (s : State) : Running :=
  let c := s.context key
  { toCmd := cmd, key := some key, direct := false, loose := c.failed, tick := s.tick
    olds := if cmd.depp then [] else (c.undo.filter (fun u => decide (cmd.since ≤ u.1))).map (·.2) }

/-- The bytes that differ between two states, as the first has them. -/
def changedBytes (s t : State) : List (Nat × Byte) :=
  ((s.mem ++ t.mem).filter (fun p => readByte s p.1 != readByte t p.1)).map (fun p => (p.1, readByte s p.1))

/-- A command's context keeps the bytes that it overwrote while a command stands behind it (R349). -/
def keepUndo (key num : Nat) (s t : State) : State :=
  t.modContext key (fun c =>
    if c.cmds.length ≤ 1 then c
    else { c with undo := c.undo ++ (changedBytes s t).map (fun p => (num, p.1, p.2)) })

/-- The GLOB addresses that a command's descriptor names. -/
def Cmd.bases (cmd : Cmd) : List Nat :=
  let field := fun (off : Nat) => blockField cmd.desc off 8
  match cmd.op with
  | .copy | .copy2 | .fill =>
    let d := copyDesc cmd.desc
    (if d.spcS = 3 then [d.src] else []) ++ (if d.spcD = 3 then [d.dst] else [])
  | .slabmov => [field 0, field 8]
  | .mdec | .mrsz => [field 0x00, field 0x10, field 0x38]
  | .cred | .cbcast => [field 0x00, field 0x08, field 0x10]

/-- The walks of a command's pages, whose translations its context keeps (R344). -/
def walkPages (key : Nat) (cmd : Cmd) (s : State) : State :=
  (cmd.bases.filter (fun a => decide (a < 2 ^ 57))).foldl (fun t a => fillTlb key cmd.ptroot a t) s

/-- The head command of a context changed. -/
def modHead (f : Cmd → Cmd) (c : Context) : Context :=
  match c.cmds with
  | [] => c
  | m :: l => { c with cmds := f m :: l }

/-- The head command of a copy or media context is performed and finishes; a SLABMOV takes its next action.
DESIGN CHOICE: log entry 41. -/
def performHead (key : Nat) (cmd : Cmd) (s0 : State) : State :=
  let s := (walkPages key cmd s0).clockRead
  let c := s.context key
  let r := cmd.start key s
  match cmd.op with
  | .copy | .copy2 | .fill =>
    let (p, crc) := performCopy r (keyDie key) c.crcr s
    finishCommand key cmd p.err (keepUndo key cmd.num s (p.s.modContext key (fun c => { c with crcr := crc })))
  | .slabmov =>
    match performSlabmov r s with
    | .ends p => finishCommand key cmd p.err (keepUndo key cmd.num s p.s)
    | .goes t m => keepUndo key cmd.num s (t.modContext key (modHead (fun x => { x with move := some m })))
  | .mdec =>
    let (p, dec) := performMdec r c.decoder s
    finishCommand key cmd p.err (keepUndo key cmd.num s (p.s.modContext key (fun c => { c with decoder := dec })))
  | .mrsz =>
    let p := performMrsz r s
    finishCommand key cmd p.err (keepUndo key cmd.num s p.s)
  | _ => s

/-! ## Collectives (19_fabric.md R404 to R407) -/

/-- A collective descriptor. -/
structure CollDesc where
  src : Nat
  dst : Nat
  group : Nat
  count : Nat
  type : Nat
  op : Nat
  nmem : Nat
  rank : Nat
  root : Nat
  all : Bool
  reserved : Nat
  tag : Nat
  deriving DecidableEq, Repr, Inhabited

/-- The descriptor in 64 bytes. -/
def collDesc (n : Nat) : CollDesc :=
  { src := blockField n 0x00 8, dst := blockField n 0x08 8, group := blockField n 0x10 8
    count := blockField n 0x18 4, type := blockField n 0x1C 1, op := blockField n 0x1D 1
    nmem := blockField n 0x1E 2, rank := blockField n 0x20 2, root := blockField n 0x22 2
    all := blockField n 0x24 1 % 2 == 1
    reserved := blockField n 0x24 1 / 2 + blockField n 0x25 3 + blockField n 0x30 16, tag := blockField n 0x28 8 }

/-- The bytes of an element. -/
def CollDesc.elem (d : CollDesc) : Nat := ewOf d.type / 8

/-- The member needs SRC. -/
def CollDesc.needsSrc (op : CmdOp) (d : CollDesc) : Bool := op == .cred || d.rank == d.root
/-- The member needs DST. -/
def CollDesc.needsDst (op : CmdOp) (d : CollDesc) : Bool := op == .cbcast || d.all || d.rank == d.root

/-- An address of a member: aligned and not 0 where it needs it, 0 elsewhere. -/
def collAddrOk (need : Bool) (addr elem : Nat) : Bool := if need then addr != 0 && addr % elem == 0 else addr == 0

/-- A valid descriptor, but for its group. -/
def CollDesc.valid (op : CmdOp) (d : CollDesc) : Bool :=
  let bytes := d.count * d.elem
  d.reserved == 0 && d.tag != 0 && decide (1 ≤ d.count) && decide (d.count ≤ 2 ^ 28)
    && [0, 1, 2, 8, 9, 12, 13].contains d.type && (if op = .cred then decide (d.op ≤ 2) else d.op == 0)
    && decide (2 ≤ d.nmem) && decide (d.nmem ≤ 2048) && decide (d.rank < d.nmem) && decide (d.root < d.nmem)
    && collAddrOk (d.needsSrc op) d.src d.elem && collAddrOk (d.needsDst op) d.dst d.elem && d.group % 2 == 0
    && (d.src == d.dst || !(d.needsSrc op && d.needsDst op) || decide (d.src + bytes ≤ d.dst)
      || decide (d.dst + bytes ≤ d.src))

/-- Words of a size read from an address upward. -/
def engineWords (cmd : Running) (addr size n : Nat) (s : State) : EngResult (List Nat) :=
  (List.range n).foldr (fun i acc => do
    let l ← acc
    let v ← engineRead cmd 0 0 3 (.ofNat 64 (addr + i * size)) size s
    return v :: l) (.ok [])

/-- The entries of a group are distinct, in the domain, and name this package at its rank. -/
def groupOk (s : State) (d : CollDesc) (g : List Nat) : Bool :=
  decide g.Nodup && g.all (fun p => decide (p ≤ s.dmax)) && g.getD d.rank 0x10000 == s.pkgNumber

/-- OP on two elements: of the type, or of FP32 for a floating-point sum (R405). -/
def collOp (d : CollDesc) (r x : Nat) : Nat :=
  let rne := fun f => (⟨f, rmNearest, false⟩ : Rnd)
  if isI d.type then
    let t := intTyOf d.type
    match d.op with
    | 0 => (r + x) % 2 ^ t.width
    | 1 => if t.value r < t.value x then x else r
    | _ => if t.value x < t.value r then x else r
  else if d.op = 0 then (fAdd (rne fp32) (fp32.decode r) (fp32.decode x)).1
  else
    let f := fmtOf d.type
    (fMinMax f (d.op == 1) (f.decode r) (f.decode x) r x).1

/-- An element as OP takes it: widened to FP32 for a floating-point sum. -/
def collWiden (d : CollDesc) (x : Nat) : Nat :=
  if isF d.type && d.op == 0 then (roundTo fp32 rmNearest false ((fmtOf d.type).decode x)).1 else x

/-- The result of OP as it is delivered: rounded into the type after a floating-point sum. -/
def collNarrow (d : CollDesc) (r : Nat) : Nat :=
  if isF d.type && d.op == 0 then (roundTo (fmtOf d.type) rmNearest false (fp32.decode r)).1 else r

/-- Element i of rank m: this member's own, or what another member brings. -/
def collElem (d : CollDesc) (tick : Nat) (own : List Nat) (m i : Nat) : Nat :=
  if m = d.rank then own.getD i 0 else (Config.memberElement tick m i).toNat % 2 ^ ewOf d.type

/-- Element i of the result. -/
def collResult (op : CmdOp) (d : CollDesc) (tick : Nat) (own : List Nat) (i : Nat) : Nat :=
  if op = .cbcast then collElem d tick own d.root i
  else collNarrow d ((List.range (d.nmem - 1)).foldl
    (fun r m => collOp d r (collWiden d (collElem d tick own (m + 1) i))) (collWiden d (collElem d tick own 0 i)))

/-- The elements of the result are written to DST. -/
def collDeliver (cmd : Running) (d : CollDesc) (value : Nat → Nat) (s : State) : Performed :=
  (List.range d.count).foldl (fun p i => p.andThen
    (engineWrite cmd 0 0 3 (.ofNat 64 (d.dst + i * d.elem)) d.elem (value i))) ⟨s, 0⟩

/-- The checks of a collective at this member: an error code, or none. -/
def collFault (key : Nat) (cmd : Cmd) (s : State) : Option (BitVec 8) :=
  let d := collDesc cmd.desc
  if d.valid cmd.op = false then some 1
  else match engineWords (cmd.plain key) d.group 2 d.nmem s with
    | .error e => some e
    | .ok g => if groupOk s d g = false then some 1 else if cmd.clash then some 7 else none

/-- Every member has issued the tag: the parameters are compared, and the collective runs.
DESIGN CHOICE: log entry 46. -/
def performCollective (key : Nat) (cmd : Cmd) (s0 : State) : State :=
  let s := walkPages key cmd s0
  let d := collDesc cmd.desc
  match collFault key cmd s with
  | some e => finishCommand key cmd e s.tickUp
  | none =>
    if Config.freeBool s.tick then finishCommand key cmd 7 s.tickUp
    else
      match (if d.needsSrc cmd.op then engineWords (cmd.plain key) d.src d.elem d.count s else .ok []) with
      | .error e => finishCommand key cmd e s.tickUp
      | .ok own =>
        if d.needsDst cmd.op then
          let p := collDeliver { cmd.plain key with loose := (s.context key).failed } d (collResult cmd.op d s.tick own) s.tickUp
          finishCommand key cmd p.err p.s
        else finishCommand key cmd 0 s.tickUp

/-! ## The events of the engines -/

/-- The head command of a context, by its key. -/
def headCommand (s : State) (key : Nat) : Option Cmd := (s.context key).cmds.head?

/-- The clocks of a cluster stand. -/
def clusterStopped (s : State) (l : Nat) : Bool := (s.clusterAt l).frozen || (s.dieAt (l / 4)).frozen

/-- The command waits for a frozen scope to thaw (18_package.md R390): its engine's die, or a cluster whose scratchpad it
names. -/
def commandHeld (key : Nat) (cmd : Cmd) (s : State) : Bool :=
  let die := keyDie key
  let d := copyDesc cmd.desc
  s.pkg.frozen || s.pkg.cutOff || s.pkg.unpowered || (key / 2 ^ 28 == 1 && ((s.dieAt die).frozen || match cmd.op with
    | .copy | .copy2 | .fill =>
      (d.spcS == 1 && clusterStopped s (4 * die + d.cluS)) || (d.spcD == 1 && clusterStopped s (4 * die + d.cluD))
    | _ => false))

/-- A head command of an engine that performs it by itself, or a collective that fails at its own member. -/
def advanceHead (key : Nat) (cmd : Cmd) (s : State) : State :=
  match cmd.op with
  | .cred | .cbcast =>
    match collFault key cmd s with
    | some e => finishCommand key cmd e s.tickUp
    | none => s
  | _ => performHead key cmd s

/-- TIMELINE_ADVANCE: the head command of a context completes; a SLABMOV goes on by one entry write or chunk. -/
def execTimelineAdvance (h : Nat) (s : State) : Result :=
  match headCommand s h with
  | some cmd => .next (if commandHeld h cmd s then s else advanceHead h cmd s)
  | none => .next s

/-- The codes with which a command may fail in the middle of its work (R351; 19_fabric.md R406). A bad descriptor, a crop
that leaves the frame and a CRC that does not match show as the command is performed (R346, R348, R362, R404). -/
def CmdOp.codes : CmdOp → List (BitVec 8)
  | .copy | .copy2 => [2, 3, 4]
  | .fill => [3, 4]
  | .slabmov => [2, 3, 4]
  | .mdec => [2, 3, 4, 0x10, 0x11, 0x12]
  | .mrsz => [2, 3, 4]
  | .cred | .cbcast => [2, 3, 4, 7, 8, 9]

/-- What a failure leaves behind: an unspecified CRC of a copy (R348), an unlocked entry of a move (R359), and
unspecified elements of a collective whose member is unreachable (19_fabric.md R406). -/
def failureLeaves (key : Nat) (cmd : Cmd) (err : BitVec 8) (s : State) : State :=
  match cmd.op, cmd.move with
  | .copy, _ | .copy2, _ => s.modContext key (fun c => { c with crcr := (Config.freeWord s.tick).setWidth 32 })
  | .slabmov, some (n, c, true) =>
    let r := cmd.start key s
    ownWrites (moveKey r s) s (unlockEntry r (slabEntry n) c ⟨s, err⟩).s
  | .cred, _ | .cbcast, _ =>
    let d := collDesc cmd.desc
    if err = 8 ∧ d.needsDst cmd.op then
      (collDeliver (cmd.plain key) d (fun i => (Config.freeWord (s.tick + i)).toNat) s.tickUp).s else s
  | _, _ => s

/-- COMMAND_FAILED: the head command of a context fails with a code. -/
def execCommandFailed (h : Nat) (err : BitVec 8) (s : State) : Result :=
  match headCommand s h with
  | some cmd =>
    .next (if cmd.op.codes.contains err then finishCommand h cmd err (failureLeaves h cmd err s).tickUp else s)
  | none => .next s

/-- A head command that is a collective. -/
def headCollective (s : State) (h : Nat) : Option Cmd :=
  (headCommand s h).filter (fun c => c.op == .cred || c.op == .cbcast)

/-- COLLECTIVE_MATCH. -/
def execCollectiveMatch (h : Nat) (s : State) : Result :=
  match headCollective s h with
  | some cmd => .next (performCollective h cmd s)
  | none => .next s

/-- COLLECTIVE_TIMEOUT: ERR 0x09, unless the command fails by itself with a code of its own. -/
def execCollectiveTimeout (h : Nat) (s : State) : Result :=
  match headCollective s h with
  | some cmd => .next (finishCommand h cmd ((collFault h cmd s).getD 9) s.tickUp)
  | none => .next s

/-- MEMBER_UNREACHABLE: the elements of DST are unspecified. -/
def execMemberUnreachable (h : Nat) (s : State) : Result :=
  match headCollective s h with
  | some cmd =>
    .next (if (collFault h cmd s).isSome then s else finishCommand h cmd 8 (failureLeaves h cmd 8 s).tickUp)
  | none => .next s

/-- An unfinished copy or media command whose deadline has come competes as a collective does (19_fabric.md R398). -/
def promote (now : Word) (c : Cmd) : Cmd :=
  if c.op ≠ .cred ∧ c.op ≠ .cbcast ∧ c.deadline.toNat ≤ now.toNat then { c with promoted := true } else c

/-- So does a stream copy. -/
def promoteEntry (now : Word) (e : Entry) : Entry :=
  if e.isStream && e.st != .done && decide (e.deadline.toNat ≤ now.toNat) then { e with promoted := true } else e

/-- OFFLOAD_PROMOTION: it changes timing only (R398). -/
def execOffloadPromotion (s : State) : Result :=
  let now := s.now
  let each := fun (c : Cluster) => { c with entries := c.entries.map (fun (p : Nat × Entry) => (p.1, promoteEntry now p.2)) }
  let s1 := { s with cluster := each s.cluster, clusters := s.clusters.map (fun (p : Nat × Cluster) => (p.1, each p.2)) }
  .next (State.clockRead (s1.modPkg (fun p => { p with
    contexts := p.contexts.map (fun q => (q.1, { q.2 with cmds := q.2.cmds.map (promote now) })) })))

end Sys2Proof.Machine
end

