-- ==== Sys2Proof/Machine/Scheduler.lean ====
section
/-! DEFINITION. The scheduler of a cluster (14_cluster.md R297 to R318): the readiness of entries, the stream pump,
Fantail, shares, parking, pre-emption for priority, feed crossings and reports; and the saving and restoring of a task's
context (08_core_steering.md R207 to R209). -/

namespace Sys2Proof.Machine

/-! ## Readiness (R304) -/

/-- Every named stream is in place (1), some named stream has failed (0), or neither. -/
def streamsState (c : Cluster) (l : List Nat) : Option Bool :=
  let es := l.map c.entry?
  if es.any (fun e => match e with | some x => x.err != 0 | none => false) then some false
  else if es.all (fun e => match e with | some x => x.st == .done | none => true) then some true
  else none

/-- A waiting kernel entry becomes READY, or is DONE and failed. -/
def kernelReady (l i : Nat) (e : Entry) (s : State) : State :=
  let streams := streamsState (s.clusterAt l) e.streams
  let dep := if e.block.deph = 0 then some true else (s.context (ctxKey e.block.deph)).settled e.block.depv
  if streams = some false ∨ dep = some false then entryDone l i 3 s
  else if streams = some true ∧ dep = some true then s.modClusterAt l (·.modEntry i (fun e => { e with st := .ready }))
  else s

/-- ENTRY_READY. -/
def execEntryReady (e : Nat) (s : State) : Result :=
  match s.cluster.entry? e with
  | some x => .next (if x.kind = .kernel ∧ x.st = .waiting then kernelReady s.clusterId e x s else s)
  | none => .next s

/-! ## The stream pump (R297, R298) -/

/-- The accesses of a stream copy are those of its creator. DEDUCED: log entry 55. Once an entry of its context has failed,
what the entries above it write is unspecified (09_core_memory.md R236). DESIGN CHOICE: log entry 41. -/
def pumpCmd (e : Entry) (failed : Bool) : Running :=
  { ({ op := .copy, num := 0, desc := 0, ptroot := e.ptroot, super := e.super, task := none, deadline := e.deadline
       promoted := e.promoted, since := 0, clash := false, move := none } : Cmd).plain none with direct := e.direct, loose := failed }

/-- A stream copy, with ERR 0x04 on any failure. -/
def pumpCopy (e : Entry) (s : State) : Performed :=
  let p := engineCopyBytes (pumpCmd e ((s.context (entryCtx s.clusterId e)).failedBelow e.num)) e.src.toNat e.dst.toNat e.len ⟨s, 0⟩
  { p with err := if p.err = 0 then 0 else 4 }

/-- STREAM_PUMP_TRANSFER: the pump completes the stream-in entry that it has in hand. -/
def execStreamPumpTransfer (e : Nat) (s : State) : Result :=
  match s.cluster.entry? e with
  | some x =>
    if x.kind = .streamIn ∧ x.st = .running then
      let p := pumpCopy x s
      .next (entryDone s.clusterId e p.err p.s)
    else .next s
  | none => .next s

/-- STREAM_OUT_COPY: the stream-out entry that the pump has in hand is copied, and both entries are freed. -/
def execStreamOutCopy (e : Nat) (s : State) : Result :=
  match s.cluster.entry? e with
  | some x =>
    if x.kind = .streamOut ∧ x.st = .running then
      let p := if x.len = 0 then ⟨s, 0⟩ else pumpCopy x s
      .next (entryDone s.clusterId e p.err p.s)
    else .next s
  | none => .next s

/-! ## Fantail (R308 to R313) -/

/-- CLHOLD of a cluster (18_package.md R388). -/
def clusterHeld (s : State) (l : Nat) : Bool := s.pkg.clhold.getLsbD l

/-- The free cores of a cluster that an entry may take, in rising order. DESIGN CHOICE: log entry 37. -/
def freeCores (s : State) (l i : Nat) : List Nat :=
  ((List.range 96).map (fun n => 96 * l + n)).filter (fun c =>
    (s.coreAt c).run == .free && (s.clusterAt l).reserved.all (fun p => p.1 != c || p.2 == i))

/-- The free cores of a cluster. -/
def countFree (s : State) (l : Nat) : Nat :=
  ((List.range 96).filter (fun n => (s.coreAt (96 * l + n)).run == .free)).length

/-- An entry whose groups Fantail places. -/
def Entry.places (e : Entry) : Bool := e.kind == .proxy || (e.kind == .kernel && e.block.cmask == 0)

/-- The saved groups of an entry, in the order of enumeration. -/
def savedGroups (c : Cluster) (i : Nat) : List PlacedGroup :=
  (c.groups.filter (fun g => g.entry == i && g.isSaved)).foldl (fun l g =>
    l.filter (fun h => decide (h.index < g.index)) ++ [g] ++ l.filter (fun h => decide (g.index ≤ h.index))) []

/-- The entry has a placeable group. -/
def placeable (c : Cluster) (i : Nat) (e : Entry) : Bool :=
  e.places && (e.st == .ready || e.st == .issuing || e.st == .running)
    && (!(savedGroups c i).isEmpty || decide (e.next < e.upTo))

/-- The barriers that are allotted. -/
def barriersUsed (c : Cluster) : List Nat :=
  c.groups.flatMap (fun g => (g.bars.filterMap id).flatMap (fun b => (List.range g.nbar).map (b + ·)))

/-- NBAR consecutive barriers for each of k barrier groups. DESIGN CHOICE: log entry 37. -/
def allotBars (nbar : Nat) : Nat → List Nat → Option (List (Option Nat))
  | 0, _ => some []
  | k + 1, used =>
    if nbar = 0 then (allotBars nbar k used).map (none :: ·)
    else match (List.range (33 - nbar)).find? (fun b => (List.range nbar).all (fun j => !used.contains (b + j))) with
      | none => none
      | some b => (allotBars nbar k (used ++ (List.range nbar).map (b + ·))).map (some b :: ·)

/-- The power condition of R308 for a number of tasks. -/
def powerFits (s : State) (l n : Nat) (e : Entry) : Bool :=
  e.overdue || decide (n * e.block.power.toNat + clusterUse s l ≤ (s.clusterAt l).grant.toNat)

/-- The task of a slot as the stream controller loads it (R313). -/
def newTask (b : LaunchBlock) (handle : Word) (serial index slot : Nat) (bar : Option Nat) : Task :=
  { serial := serial
    wid := b.widOf (index * b.gang + slot)
    widmax := b.widmax
    widlayout := lowBits 51 b.widlayout
    dbase := b.dbase
    cbase := b.cbase
    stbase := b.stbase
    stlen := b.stlen
    clen := b.clen
    cwaddr := b.cwaddr
    gslot := .ofNat 64 (b.gang * 2 ^ 8 + slot)
    barwin := .ofNat 64 (b.nbar.toNat * 2 ^ 8 + bar.getD 0)
    lhandle := handle }

/-- A task as it is placed on a core. -/
def GangTask.placed (core : Nat) (wid : Word) (serial : Nat) : GangTask :=
  { core := core, wid := wid, serial := serial, place := .running, failedStore := none }

/-- A group goes onto its cores; its entry goes on, and its reservations are over. -/
def installGroup (l i : Nat) (e : Entry) (cores : List Nat) (bars : List (Option Nat)) (s : State) : State :=
  let b := e.block
  let c := s.clusterAt l
  let perBar := b.levelSize b.bsc
  let (hl, hi) := homeOf l i c
  let serial := fun slot => s.pkg.serials + 1 + slot
  let slots := (List.range cores.length).zip cores
  let g : PlacedGroup :=
    { entry := i, index := e.next, order := c.stamp, bars := bars, nbar := b.nbar.toNat, perBar := perBar
      power := b.power.toNat, overdue := e.overdue
      tasks := slots.map (fun p => GangTask.placed p.2 (b.widOf (e.next * b.gang + p.1)) (serial p.1)) }
  let s1 := slots.foldl (fun t p => t.modCoreAt p.2 (fun k => k.issue c b
    (newTask b (launchHandle hl e.ctx) (serial p.1) e.next p.1 (bars.getD (p.1 / perBar) none)) e.overdue)) s
  let zeroed := bars.foldl (fun m b0 => match b0 with
    | some x => (List.range b.nbar.toNat).foldl (fun m j => spPut 0 m (x + j) 0) m
    | none => m) c.barriers
  let s2 := s1.modClusterAt l (fun c => { c with
    groups := c.groups ++ [g], stamp := c.stamp + 1, barriers := zeroed
    reserved := c.reserved.filter (fun p => p.2 != i) }.modEntry i (fun e => { e with
      next := e.next + 1, st := .issuing, overdue := false }))
  let s3 := (s2.modPkg (fun p => { p with serials := p.serials + cores.length })).modClusterAt hl (·.modEntry hi (fun h =>
    if h.st = .ready ∧ h.age = e.age then { h with st := .issuing } else h))
  refreshEntries l s3

/-- The lowest unplaced group of an entry is placed, when it fits. -/
def placeNew (l i : Nat) (e : Entry) (s : State) : Option State :=
  let b := e.block
  let cores := (freeCores s l i).take b.gang
  if cores.length < b.gang ∨ powerFits s l b.gang e = false then none
  else (allotBars b.nbar.toNat (b.gang / b.levelSize b.bsc) (barriersUsed (s.clusterAt l))).map
    (fun bars => installGroup l i e cores bars s)

/-- An image in a parking slot comes back into a core's save slot and TCM (R312); a byte whose address does not translate
stays as it is there. DESIGN CHOICE: log entry 91. -/
def unparkImage (l slot core : Nat) (s : State) : State :=
  (List.range 0x80000).foldl (fun t off =>
    let dst := if off < 0x40000 then slotKey core + off else tcmKey core (off - 0x40000)
    match parkKey s l slot off with
    | some k => writeByte dst (readByte s k) t
    | none => t) s

/-- A core's save slot and TCM are copied to a parking slot, but for the bytes whose address there does not translate.
DESIGN CHOICE: log entry 91. -/
def parkImage (l slot core : Nat) (s : State) : State :=
  (List.range 0x80000).foldl (fun t off =>
    let src := if off < 0x40000 then slotKey core + off else tcmKey core (off - 0x40000)
    match parkKey s l slot off with
    | some k => writeByte k (readByte s src) t
    | none => t) s

/-- A core is to restore a task, at the rate of its cluster, or of a group that was overdue (R310; 18_package.md R378). -/
def startRestore (core serial : Nat) (overdue : Bool) (s : State) : State :=
  let half := (s.clusterAt (clusterOf core)).half || overdue
  s.modCoreAt core (fun c => { c with
    run := .restoring, half := half, halfNext := half
    task := { c.task with serial := serial } })

/-- One task of a saved group returns: to the core that saved it, or, parked, to the next free core. -/
def restoreTask (l : Nat) (overdue : Bool) (p : State × List Nat × List GangTask) (t : GangTask) :
    State × List Nat × List GangTask :=
  let (s, cores, done) := p
  match t.place with
  | .saved => (startRestore t.core t.serial overdue s, cores, done ++ [{ t with place := .running }])
  | .parked j =>
    match cores with
    | c :: rest => (startRestore c t.serial overdue (unparkImage l j c s), rest, done ++ [{ t with core := c, place := .running }])
    | [] => (s, [], done ++ [t])
  | _ => (s, cores, done ++ [t])

/-- A saved group is placed again, when it fits: its barriers stay allotted. -/
def placeSaved (l i : Nat) (e : Entry) (g : PlacedGroup) (s : State) : Option State :=
  let parked := (g.tasks.filter GangTask.isParked).length
  let live := (g.tasks.filter GangTask.live).length
  let cores := freeCores s l i
  let held := g.tasks.any (fun t =>
    decide (t.place = .saved) && (s.clusterAt l).reserved.any (fun p => p.1 == t.core && p.2 != i))
  if cores.length < parked ∨ held ∨ powerFits s l live e = false then none
  else
    let (s1, _, tasks) := g.tasks.foldl (restoreTask l (g.overdue || e.overdue)) (s, cores, [])
    some (refreshEntries l (s1.modClusterAt l (fun c => { c with
      groups := c.groups.map (fun (h : PlacedGroup) => if h.order = g.order then
        { h with tasks := tasks, order := c.stamp, overdue := h.overdue || e.overdue } else h)
      stamp := c.stamp + 1
      reserved := c.reserved.filter (fun p => p.2 != i) }.modEntry i (fun e => { e with overdue := false }))))

/-- An entry's next group is placed, when it fits: its saved groups first (R309). A share whose home is frozen waits for its
thaw (18_package.md R390). -/
def placeNext (l i : Nat) (e : Entry) (s : State) : Option State :=
  if e.kind = .proxy ∧ clusterStopped s e.home.1 = true then none
  else match savedGroups (s.clusterAt l) i with
  | g :: _ => placeSaved l i e g s
  | [] => placeNew l i e s

/-- The candidates, in Fantail's order. -/
def candidates (c : Cluster) : List (Nat × Entry) :=
  let l := c.entries.filter (fun p => placeable c p.1 p.2)
  [3, 2, 1, 0].flatMap (fun k => l.filter (fun p => p.2.block.prio.toNat == k))

/-- The oldest overdue entry that waits. DEDUCED: log entry 39. -/
def overdueFirst (c : Cluster) : Option (Nat × Entry) :=
  c.entries.find? (fun p => p.2.overdue && placeable c p.1 p.2)

/-- One group is placed: the first candidate's that fits; while an overdue entry waits, only its own.
DEDUCED: log entry 39. -/
def fantailStep (l : Nat) (s : State) : Option State :=
  if clusterHeld s l then none
  else match overdueFirst (s.clusterAt l) with
    | some p => placeNext l p.1 p.2 s
    | none => (candidates (s.clusterAt l)).findSome? (fun p => placeNext l p.1 p.2 s)

/-- Groups are placed until none fits. -/
def fantailLoop (l : Nat) : Nat → State → State
  | 0, s => s
  | n + 1, s =>
    match fantailStep l s with
    | some t => fantailLoop l n t
    | none => s

/-! ## Shares (R314) -/

/-- A cluster can take the next share of an entry. -/
def shareTaker (s : State) (l i k : Nat) : Bool :=
  let c := s.clusterAt k
  !c.error && !clusterStopped s k && c.freeIndex.isSome
    && !c.entries.any (fun p => p.2.kind == .proxy && p.2.home == (l, i) && homeHolds s k p.1
      && decide (p.2.next < p.2.upTo))

/-- The cluster of CMASK with the most free cores, the lowest on a tie. -/
def shareCluster (s : State) (l i : Nat) (e : Entry) : Option Nat :=
  let ks := ((List.range 4).filter (fun k => e.block.cmask.getLsbD k)).map (fun k => l / 4 * 4 + k)
  (ks.filter (shareTaker s l i)).foldl (fun best k =>
    match best with
    | none => some k
    | some b => if countFree s b < countFree s k then some k else some b) none

/-- The next share of an entry goes to a cluster, which holds a proxy entry for it. DEDUCED: log entry 40. -/
def handShare (l i : Nat) (s : State) : Option State :=
  match (s.clusterAt l).entry? i with
  | none => none
  | some e =>
    if e.kind ≠ .kernel ∨ e.block.cmask = 0 ∨ (e.st ≠ .ready ∧ e.st ≠ .issuing) ∨ e.upTo ≤ e.next then none
    else
      (shareCluster s l i e).bind (fun k => (s.clusterAt k).freeIndex.map (fun j =>
        let n := min (e.next + e.block.shareGroups) e.upTo
        let proxy : Entry := { Entry.fresh .proxy .ready e.ctx 0 with
          age := e.age, block := e.block, home := (l, i), next := e.next, upTo := n }
        refreshHome l i ((s.modClusterAt k (·.addEntry j proxy)).modClusterAt l
          (·.modEntry i (fun e => { e with next := n, handed := n })))))

/-- Shares of an entry are handed out as long as a cluster can take one. -/
def handShares (l i : Nat) : Nat → State → State
  | 0, s => s
  | n + 1, s =>
    match handShare l i s with
    | some t => handShares l i n t
    | none => s

/-! ## Parking and pre-emption for priority (R311, R312) -/

/-- The parking slots that are free. -/
def freeSlots (c : Cluster) : List Nat :=
  let used := c.groups.flatMap (fun g => g.tasks.filterMap (fun t =>
    match t.place with | .parked j => some j | _ => none))
  (List.range c.cparkN.toNat).filter (fun j => !used.contains j)

/-- A saved task on a reserved core is parked, and the core is let go. DEDUCED: log entry 38. -/
def parkCore (l core : Nat) (s : State) : State :=
  if (s.coreAt core).run ≠ .saved then s
  else match freeSlots (s.clusterAt l) with
    | [] => s
    | j :: _ =>
      let serial := (s.coreAt core).task.serial
      releaseCore core ((parkImage l j core s).placeTask l serial (.parked j))

/-- Reservations for an entry that has no placeable group any more are over. -/
def dropReserved (c : Cluster) : Cluster :=
  { c with reserved := c.reserved.filter (fun p => match c.entry? p.2 with
      | some e => placeable c p.2 e
      | none => false) }

/-- The saved tasks on reserved cores are parked. DEDUCED: log entry 38. -/
def parkReserved (l : Nat) (s : State) : State :=
  let s1 := s.modClusterAt l dropReserved
  (s1.clusterAt l).reserved.foldl (fun t p => parkCore l p.1 t) s1

/-- A saved task stands on a reserved core, and can be parked. -/
def parkDue (l : Nat) (s : State) : Bool :=
  let c := dropReserved (s.clusterAt l)
  !(freeSlots c).isEmpty && c.reserved.any (fun p => (s.coreAt p.1).run == .saved)

/-- FANTAIL_RUN. -/
def execFantailRun (s : State) : Result :=
  let l := s.clusterId
  let s1 := (s.cluster.entries.map (·.1)).foldl (fun t i => handShares l i 4 t) s
  .next (fantailLoop l 256 (parkReserved l s1))

/-- OVERDUE: an entry that holds a placeable group. -/
def execOverdue (e : Nat) (s : State) : Result :=
  match s.cluster.entry? e with
  | some x =>
    if placeable s.cluster e x ∧ clusterHeld s s.clusterId = false then
      .next (s.modCluster (·.modEntry e (fun x => { x with overdue := true })))
    else .next s
  | none => .next s

/-- A group all of whose live tasks run. -/
def PlacedGroup.runs (g : PlacedGroup) : Bool :=
  g.tasks.all (fun t => !t.live || decide (t.place = .running))

/-- The cores that the live tasks of a group hold. -/
def PlacedGroup.cores (g : PlacedGroup) : List Nat := (g.tasks.filter GangTask.live).map (·.core)

/-- A group that no entry has chosen yet: none of its cores is reserved. -/
def PlacedGroup.free (c : Cluster) (g : PlacedGroup) : Bool :=
  g.runs && !g.cores.any (fun k => c.reserved.any (fun p => p.1 == k))

/-- The running groups of classes below p that stand free, lowest class first and most recently placed first. -/
def lowerGroups (c : Cluster) (p : Nat) : List PlacedGroup :=
  (List.range p).flatMap (fun k =>
    (c.groups.filter (fun g => g.free c &&
      (match c.entry? g.entry with | some e => e.block.prio.toNat == k | none => false))).foldl (fun l g =>
        l.filter (fun h => decide (g.order < h.order)) ++ [g] ++ l.filter (fun h => decide (h.order ≤ g.order))) [])

/-- The reserved cores whose tasks have still to be parked: slots are promised to them. -/
def slotsPromised (s : State) (c : Cluster) : Nat :=
  (c.reserved.filter (fun p => (s.coreAt p.1).run != .free && (s.coreAt p.1).run != .clearing)).length

/-- Groups chosen until a number of cores is reached. -/
def chooseGroups : List PlacedGroup → Nat → List PlacedGroup
  | [], _ => []
  | g :: l, need => if need = 0 then [] else g :: chooseGroups l (need - g.cores.length)

/-- The cores that are reserved for an entry and not free yet. -/
def reservedAhead (s : State) (l i : Nat) : Nat :=
  ((s.clusterAt l).reserved.filter (fun p => p.2 == i && (s.coreAt p.1).run != .free)).length

/-- The cores that the next group of an entry lacks, beside the free ones and those reserved for it. -/
def coresLacked (s : State) (l i : Nat) (e : Entry) : Nat :=
  let free := (freeCores s l i).length + reservedAhead s l i
  match savedGroups (s.clusterAt l) i with
  | g :: _ => (g.tasks.filter GangTask.isParked).length - free
  | [] => e.block.gang - free

/-- The tasks that the next group of an entry counts for power. -/
def nextSize (c : Cluster) (i : Nat) (e : Entry) : Nat :=
  match savedGroups c i with
  | g :: _ => (g.tasks.filter GangTask.live).length
  | [] => e.block.gang

/-- PRIORITY_PREEMPTION: groups of lower classes are pre-empted for a PREEMPT entry, and their cores are reserved. -/
def execPriorityPreemption (e : Nat) (s : State) : Result :=
  let l := s.clusterId
  let c := s.cluster
  match c.entry? e with
  | none => .next s
  | some x =>
    let lack := coresLacked s l e x
    let gs := chooseGroups (lowerGroups c x.block.prio.toNat) lack
    let cores := gs.flatMap PlacedGroup.cores
    if x.block.preempt = false ∨ clusterHeld s l ∨ placeable c e x = false ∨ lack = 0
        ∨ powerFits s l (nextSize c e x) x = false ∨ cores.length < lack ∨ (freeSlots c).length < slotsPromised s c + cores.length then
      .next s
    else
      .next ((gs.foldl (fun t g => requestGroup g t) s).modCluster (fun c => { c with
        reserved := c.reserved ++ cores.map (fun k => (k, e)) }))

/-! ## Feed crossings and reports (06_issue.md R156; 14_cluster.md R305, R318) -/

/-- A crossing triggers the next task of the attached feed launch. DEDUCED: log entry 40. -/
def triggerTask (e : Entry) : Entry :=
  if e.triggered < e.block.total then { e with triggered := e.triggered + 1, upTo := e.upTo + 1 } else e

/-- FEED_CROSSING: the oldest multiple of VLFEED that the entries of a queue have reached is crossed; its event goes to
the task that wrote the entry below it (08_core_steering.md R209). -/
def execFeedCrossing (q : BitVec 4) (s : State) : Result :=
  let n := q.toNat
  let f := s.cluster.feed n
  match f.written with
  | [] => .next s
  | task :: rest =>
    let pos := (f.crossings + 1) * f.vlfeed.toNat % 2 ^ 32
    let ev : Word := .ofNat 64 (2 * 2 ^ 56 + n * 2 ^ 48 + pos)
    let s1 := if f.even then postTask task ev s else s
    .next (s1.modClusterAt s.clusterId (fun c =>
      let c1 := c.modFeed n (fun f => { f with crossings := f.crossings + 1, written := rest })
      match f.attached with
      | some i => (c1.modEntry i triggerTask).refresh
      | none => c1))

/-- The first position of a rising run from n. -/
def runFrom (l : List Nat) : Nat → Nat → Nat
  | 0, n => n
  | k + 1, n => if l.contains n then runFrom l k (n + 1) else n

/-- A report of a feed launch: when every task below it has ended too, HEAD moves past their batches. -/
def feedReport (i : Nat) (e : Entry) (task : Nat) (c : Cluster) : Cluster :=
  let done := e.ended - e.fedEnded.length
  let all := e.fedEnded ++ [task]
  let n := runFrom all all.length done
  let c1 := c.modEntry i (fun e => { e with fedEnded := all.filter (fun t => decide (n ≤ t)) })
  c1.modFeed e.block.fq.toNat (fun f =>
    if f.attached = some i ∧ done < n then { f with head := .ofNat 32 (n * f.vlfeed.toNat) } else f)

/-- END_REPORT: the home counts the oldest report. -/
def execEndReport (s : State) : Result :=
  match s.cluster.reports with
  | [] => .next s
  | r :: rest =>
    let s1 := s.modCluster (fun c => { c with reports := rest })
    match s1.cluster.entry? r.entry with
    | none => .next s1
    | some e =>
      let s2 := if e.block.feed then s1.modCluster (feedReport r.entry e r.task) else s1
      let s3 := s2.modCluster (·.modEntry r.entry (fun e => { e with
        ended := e.ended + 1, aborted := e.aborted || r.aborted }))
      .next (kernelCount s.clusterId r.entry s3)

/-- TASK_ABANDON: after a double trap of the core in focus; the shares that its task takes part in end (R327). -/
def execTaskAbandon (s : State) : Result :=
  match s.core.steer.dead with
  | some d =>
    .next (if s.core.run = .running ∨ s.core.run = .halted then abandonTask s.coreId d (leaveShares s) else s)
  | none => .next s

/-- TCM_CLEAR. -/
def execTcmClear (s : State) : Result :=
  if s.core.run = .clearing then
    .next ((clearMem (tcmKey s.coreId 0) (2 ^ 18) s).modCore (fun c => { c with run := .free }))
  else .next s

/-! ## Saving a context (08_core_steering.md R207, R208) -/

/-- The control registers that are task context (R207; R234, R254, R268; 14_cluster.md R331). -/
def contextCsrs : List Nat :=
  [0x000, 0x001, 0x002, 0x003, 0x004, 0x005, 0x006, 0x007, 0x00B, 0x010, 0x011, 0x012, 0x013, 0x014, 0x015, 0x016,
    0x017, 0x020, 0x021, 0x022, 0x023, 0x028, 0x029, 0x02A, 0x02B, 0x02F, 0x048, 0x049, 0x050, 0x051, 0x052, 0x053,
    0x054, 0x060, 0x061, 0x062, 0x070, 0x071, 0x072, 0x073, 0x074]

/-- Write a list of 64-bit words. -/
def writeWords (key : Nat) : List Word → State → State
  | [], s => s
  | w :: l, s => writeWords (key + 8) l (writeMem key 8 w.toNat s)

/-- The code of the convoy stream's state (R187). DEDUCED: log entry 16. -/
def convStateCode (c : ConvState) : Nat :=
  match c with
  | .idle => 0
  | .run => 1
  | .halted => 2

/-- The cells of the bands that are not OFF. -/
def savePlane (key : Nat) (c : Conv) (s : State) : State :=
  let s1 := ((List.range 8).filter (fun b => bandState c.planepwr b != 0)).foldl
    (fun t b => clearMem (key + 16384 * b) 16384 t) s
  (dropOffBands c.planepwr c.plane).foldl (fun t p => writeMem (key + 4 * p.1) 4 p.2.toNat t) s1

/-- The slabs, while the matrix unit is enabled. -/
def saveSlabs (key : Nat) (m : Matrix) (s : State) : State :=
  if m.en then m.acc.foldl (fun t p => writeMem (key + 0x20000 + 4 * p.1) 4 p.2.toNat t) (clearMem (key + 0x20000) 65536 s)
  else s

/-- The masks: m0 reads as all ones. -/
def saveMasks (key : Nat) (c : Conv) (s : State) : State :=
  let s1 := (List.range 1024).foldl (fun t i => writeByte (key + 0x30000 + i) 0xFF t) (clearMem (key + 0x30000) 8192 s)
  c.masks.foldl (fun t p =>
    let k := key + 0x30000 + p.1 / 8
    if p.2 then writeByte k (readByte t k ||| .ofNat 8 (2 ^ (p.1 % 8))) t else t) s1

/-- The queues and their counts. -/
def saveQueues (key : Nat) (c : Core) (s : State) : State :=
  let s1 := writeWords (key + 0x32200) (c.q.bq.map (fun b => .ofNat 64 (b.addr.toNat + 2 ^ 32 * b.trips.toNat))) s
  let s2 := writeWords (key + 0x32480) c.q.eq (writeWords (key + 0x32380) c.q.rq (writeWords (key + 0x32280) c.q.dq s1))
  writeMem (key + 0x32640) 5 (c.q.bq.length + 2 ^ 8 * c.q.dq.length + 2 ^ 16 * c.q.rq.length + 2 ^ 24 * c.q.eq.length
    + 2 ^ 32 * convStateCode c.conv.st) s2

/-- The context of the core in focus is written to its save slot. DEDUCED: log entry 14. -/
def saveContext (s : State) : State :=
  let t := { s with agent := .steer }
  let c := s.core
  let key := slotKey s.coreId
  let s1 := saveMasks key c.conv (saveSlabs key c.mat (savePlane key c.conv t))
  let s2 := writeWords (key + 0x32000) ((List.range 64).map (spGet 0 c.conv.table)) s1
  let s3 := writeWords (key + 0x32500) (c.steer.pc.setWidth 64 :: (List.range 31).map (fun i => spGet 0 c.steer.regs (i + 1)))
    (saveQueues key c s2)
  let s4 := writeWords (key + 0x32600) ((List.range 8).map (spGet 0 c.conv.k)) s3
  { contextCsrs.foldl (fun u n => writeMem (key + 0x32680 + 8 * n) 8 (csrRead n t).toNat u) s4 with agent := s.agent }

/-- The core keeps nothing of a saved task but its number; its TCM stays. -/
def Core.afterSave (c : Core) : Core :=
  { c.clear with run := .saved, task := { Task.reset with serial := c.task.serial } }

/-- A running chain stands at a merge boundary (11_core_ladder.md R273). -/
def atMergeBoundary (l : Ladder) : Bool := !(l.act && !l.err && l.lvl == 0 && l.tile.isSome)

/-- The halted core can be saved: its accesses are complete, its chain stands at a merge boundary, and the shares of its
own and of the products that it issued have ended (R208; 14_cluster.md R327). -/
def saveReady (s : State) : Bool :=
  s.core.run == .halted && s.core.steer.dead.isNone && s.core.steer.outs.isEmpty && s.core.conv.parked.isEmpty
    && atMergeBoundary s.core.lad && s.core.gang.shares.all (·.ended) && !multicastPending s

/-- The events that wait for room pass to the saved task (R209; 16_die.md R358). -/
def handOverPosts (serial : Nat) (posts : List Word) (c : Cluster) : Cluster :=
  { c with eqPosts := c.eqPosts ++ posts.map (fun ev => (serial, ev)) }

/-- What the stream controller keeps of a saved task beside its image. DESIGN CHOICE: log entry 54. -/
def GangTask.keep (k : Core) (t : GangTask) : GangTask :=
  { t with failedStore := k.steer.failedStore, convStore := k.conv.failedStore, trapDue := k.conv.trapDue, fault := k.lad.fault
           wild := k.lad.wild, wrote := k.conv.wrote.map (fun l => l.take (l.length - k.gang.armMark)) }

/-- The record of a saved task. -/
def keepTask (serial : Nat) (k : Core) (c : Cluster) : Cluster :=
  { c with groups := c.groups.map (fun g => { g with tasks := g.tasks.map (fun t =>
      if t.serial = serial then t.keep k else t) }) }

/-- CONTEXT_SAVE. -/
def execContextSave (s : State) : Result :=
  if saveReady s = false then .next s
  else
    let serial := s.core.task.serial
    let posts := s.core.q.posts
    let s1 := (saveContext s).modCore Core.afterSave
    let s2 := s1.modCluster (fun c => handOverShares serial s.core.gang.shares (keepTask serial s.core (handOverPosts serial posts c)))
    .next ((s2.placeTask s.clusterId serial .saved).modPkg (fun p => { p with
      preqTasks := p.preqTasks.filter (fun t => t != serial) }))

/-! ## Restoring a context (R208) -/

/-- Words of memory from a key upward. -/
def readWords (s : State) (key n : Nat) : List Word := (List.range n).map (fun i => readMem64 s (key + 8 * i))

/-- A sparse map from the values at keys 0 to n - 1. -/
def spOf {α : Type} [DecidableEq α] (dflt : α) (n : Nat) (f : Nat → α) : Sp α :=
  (List.range n).foldl (fun m i => spPut dflt m i (f i)) []

/-- The plane of a saved context; a band that was OFF holds nothing. -/
def loadPlane (s : State) (key : Nat) (pwr : BitVec 16) : Sp Cell32 :=
  spOf 0 32768 (fun i => if bandState pwr (i / 4096) = 0 then 0 else .ofNat 32 (readMem s (key + 4 * i) 4))

/-- The masks of a saved context. -/
def loadMasks (s : State) (key : Nat) : Sp Bool :=
  spOf false 65536 (fun i => decide (8192 ≤ i) && (readByte s (key + 0x30000 + i / 8)).getLsbD (i % 8))

/-- The state of a code. -/
def convStateOf (n : Nat) : ConvState :=
  match n with
  | 0 => .idle
  | 1 => .run
  | _ => .halted

/-- A descriptor as restore takes it: one that fails R73 as OFF. -/
def loadDesc (w : Word) : Word := if descValid w then w else 0

/-- The convoy stream of a saved context. DEDUCED: log entry 14. -/
def loadConv (s : State) (key : Nat) (kept : GangTask) (old : Conv) : Conv :=
  let csr := fun n => readMem64 s (key + 0x32680 + 8 * n)
  let pwr := planepwrNext 0 (csr 0x013)
  { Conv.reset with
    vtype := vtypeNext 0 (csr 0x010), vl := vlNext (csr 0x011)
    vmt := (csr 0x012).setWidth 2, vctl := (csr 0x014).setWidth 8, vflags := (csr 0x015).setWidth 8
    startK := (csr 0x016).setWidth 14, startDone := (csr 0x016 >>> 16).setWidth 4
    startLk := (csr 0x016 >>> 32).setWidth 13, vispos := csr 0x017
    cpc := offNext (csr 0x020), cblk := offNext (csr 0x021), lc := (csr 0x022).setWidth 32
    cmem := (csr 0x023).setWidth 2, st := convStateOf ((readByte s (key + 0x32644)).toNat)
    k := spOf 0 8 (fun i => readMem64 s (key + 0x32600 + 8 * i)), masks := loadMasks s key
    table := spOf 0 64 (fun i => loadDesc (readMem64 s (key + 0x32000 + 8 * i)))
    plane := loadPlane s key pwr, planepwr := pwr, trapDue := kept.trapDue
    failedStore := kept.convStore, wrote := kept.wrote
    vskew := old.vskew, cbkpt := old.cbkpt, cdbg := old.cdbg }

/-- The steering state of a saved context. -/
def loadSteer (s : State) (key : Nat) (kept : GangTask) (old : Steer) : Steer :=
  let csr := fun n => readMem64 s (key + 0x32680 + 8 * n)
  let status := csr 0x028
  { Steer.reset with
    pc := (readMem64 s (key + 0x32500)).setWidth 32
    regs := (List.range 31).foldl (fun m i => spPut 0 m (i + 1) (readMem64 s (key + 0x32508 + 8 * i))) []
    mode := status.getLsbD 0, pmode := status.getLsbD 1, chalt := status.getLsbD 3, tpend := status.getLsbD 4
    cbksup := status.getLsbD 6, bksup := status.getLsbD 7
    causeStrm := (csr 0x029).getLsbD 63, causeCode := (csr 0x029).setWidth 8, tval := csr 0x02A
    epc := offNext (csr 0x02B), sscr := csr 0x02F, ptroot := csr 0x048 &&& 0x1FFFFFFFFE0FFFF
    mfinfo := (csr 0x049).setWidth 8, failedStore := kept.failedStore
    attached := old.attached
    tvec := old.tvec, htbase := old.htbase, htlen := old.htlen, sbkpt := old.sbkpt, sdbg := old.sdbg }

/-- The matrix unit of a saved context. -/
def loadMatrix (s : State) (key : Nat) : Matrix :=
  let csr := fun n => readMem64 s (key + 0x32680 + 8 * n)
  let en := (csr 0x050).getLsbD 0
  { en := en, msize := msizeNext (csr 0x051), mrowp := csr 0x052, mcolp := csr 0x053
    mxscl := csr 0x054 &&& 0xFFFFFFFF000000FF
    acc := if en then spOf 0 16384 (fun i => .ofNat 32 (readMem s (key + 0x20000 + 4 * i) 4)) else [] }

/-- The ladder of a saved context: a pending chain takes its tile from the carry slot (11_core_ladder.md R273). -/
def loadLadder (s : State) (key : Nat) (kept : GangTask) : Ladder :=
  let csr := fun n => readMem64 s (key + 0x32680 + 8 * n)
  { Ladder.reset with
    lcfgr := csr 0x060 &&& 0x3F1F7F7F01FFFFFF, lcnt := csr 0x061, fault := kept.fault, wild := kept.wild
    err := (csr 0x062).getLsbD 7, act := (csr 0x062).getLsbD 6, lvl := (csr 0x062).setWidth 5 }

/-- The gang registers of a saved context. -/
def loadGang (s : State) (key : Nat) : Gang :=
  let csr := fun n => readMem64 s (key + 0x32680 + 8 * n)
  let a := csr 0x072
  { gsel := (csr 0x071).setWidth 24 &&& 0x9FFF7F, armCause := (a >>> 24).setWidth 8, armIslot := (a >>> 16).setWidth 7
    armBar := (a >>> 8).setWidth 5, armSlab := (a >>> 4).setWidth 2, armFault := a.getLsbD 1, armed := a.getLsbD 0
    gstat := (csr 0x073).setWidth 9, armMark := 0, shares := [] }

/-- The identity of a saved task. -/
def loadTask (s : State) (key serial : Nat) (handle : Word) : Task :=
  let csr := fun n => readMem64 s (key + 0x32680 + 8 * n)
  { serial := serial, wid := csr 0x000, widmax := csr 0x001, widlayout := lowBits 51 (csr 0x002), dbase := csr 0x003
    cbase := csr 0x004, stbase := csr 0x005, stlen := (csr 0x006).setWidth 32, clen := (csr 0x00B).setWidth 32
    cwaddr := csr 0x007, gslot := csr 0x070 &&& 0xFF7F, barwin := csr 0x074 &&& 0x3F1F, lhandle := handle }

/-- The queues of a saved context, with the events that waited for room. -/
def loadQueues (s : State) (key : Nat) (posts : List Word) : Queues :=
  let count := fun i bound => min (readByte s (key + 0x32640 + i)).toNat bound
  Queues.settle
    { bq := (readWords s (key + 0x32200) (count 0 16)).map (fun (w : Word) => ⟨w.setWidth 32, (w >>> 32).setWidth 32⟩)
      dq := readWords s (key + 0x32280) (count 1 32)
      rq := readWords s (key + 0x32380) (count 2 32)
      eq := readWords s (key + 0x32480) (count 3 16)
      posts := posts }

/-- The lowest table entry that restore takes as OFF because it is invalid. -/
def badDesc (s : State) (key : Nat) : Option Nat :=
  (List.range 64).find? (fun i => !descValid (readMem64 s (key + 0x32000 + 8 * i)))

/-- The core in focus takes the context in its save slot. -/
def loadContext (handle : Word) (kept : GangTask) (posts : List Word) (s : State) : State :=
  let key := slotKey s.coreId
  s.modCore (fun c => { c with
    run := .running
    steer := loadSteer s key kept c.steer
    task := loadTask s key c.task.serial handle
    q := loadQueues s key posts
    conv := loadConv s key kept c.conv
    mat := loadMatrix s key
    lad := loadLadder s key kept
    gang := loadGang s key })

/-- The launch handle of the task on a core. -/
def taskHandle (s : State) : Word :=
  match s.taskOf s.coreId with
  | none => 0
  | some (g, _) =>
    launchHandle (homeOf s.clusterId g.entry s.cluster).1 (((s.cluster.entry? g.entry).map (·.ctx)).getD 0)

/-- A restore error is reported to the control core (14_cluster.md R293). -/
def reportRestore (key : Nat) (s : State) : State :=
  match badDesc s key with
  | none => s
  | some i =>
    cqPost s.clusterId [.ofNat 64 (0x12 * 2 ^ 56 + s.coreId % 96), s.core.task.wid, .ofNat 64 i, 0] s

/-- What is kept of the task on the core in focus beside its image. -/
def keptTask (s : State) : GangTask :=
  ((s.taskOf s.coreId).bind (fun p => p.1.tasks[p.2]?)).getD
    (GangTask.placed s.coreId 0 s.core.task.serial)

/-- A restored core takes its recorded trap; under a request it halts with the trap still recorded (R208, R210). -/
def resumeRestored (s : State) : State :=
  if s.core.steer.tpend = false then s
  else if s.core.preq then s.modCore (fun c => { c with run := .halted })
  else retakeTrap s

/-- CONTEXT_RESTORE: the context is loaded; a recorded trap is taken, or the task resumes. -/
def execContextRestore (s : State) : Result :=
  if s.core.run ≠ .restoring then .next s
  else
    let serial := s.core.task.serial
    let posts := (s.cluster.eqPosts.filter (fun p => p.1 == serial)).map (·.2)
    let s1 := (loadContext (taskHandle s) (keptTask s) posts s).modCluster (fun c => { c with
      eqPosts := c.eqPosts.filter (fun p => p.1 != serial) })
    let s2 := { reportRestore (slotKey s.coreId) s1 with agent := .steer }
    .next { resumeRestored s2 with agent := s.agent }

end Sys2Proof.Machine
end

