-- ==== Sys2Proof/Machine/DebugState.lean ====
section
/-! DEFINITION. The elements of state as the debug port writes them (18_package.md R391): one setter for each structure,
by the model's own numbers for its fields (log entry 48). -/

namespace Sys2Proof.Machine

/-! ## Registers, queues and tables -/

/-- A list with an element replaced, or one more; at 32 its length is cut. -/
def setAt {α : Type} (cap n : Nat) (v : α) (len : Nat) (l : List α) : List α :=
  if n = 32 then l.take len else if n < l.length then l.set n v else if n = l.length ∧ n < cap then l ++ [v] else l

/-- A queue of a core with an element written. -/
def queueSet (q n : Nat) (v : Word) (x : Queues) : Queues :=
  match q with
  | 0 => { x with bq := setAt 16 n ⟨v.setWidth 32, (v >>> 32).setWidth 32⟩ v.toNat x.bq }
  | 1 => { x with dq := setAt 32 n v v.toNat x.dq }
  | 2 => { x with rq := setAt 32 n v v.toNat x.rq }
  | _ => { x with eq := setAt 16 n v v.toNat x.eq }

/-- A field of a scoreboard entry written. -/
def entrySet (f : Nat) (v : Word) (e : Entry) : Entry :=
  match f with
  | 0 => { e with st := match v.toNat with | 0 => .waiting | 1 => .ready | 2 => .issuing | 3 => .running | _ => .done }
  | 1 => { e with num := v.toNat }
  | 2 => { e with ended := v.toNat }
  | 3 => { e with abandoned := v.toNat }
  | 4 => { e with aborted := v.getLsbD 0 }
  | 5 => { e with next := v.toNat }
  | 6 => { e with upTo := v.toNat }
  | 7 => { e with err := v.setWidth 8 }
  | 8 => { e with src := v }
  | 9 => { e with dst := v }
  | 10 => { e with len := v.toNat }
  | 11 => { e with ptroot := v }
  | 12 => { e with triggered := v.toNat }
  | 13 => { e with target := v.toNat % 64 }
  | 14 => { e with releasing := v.getLsbD 0 }
  | 15 => { e with overdue := v.getLsbD 0 }
  | 16 => { e with kind := match v.toNat with | 0 => .kernel | 1 => .streamIn | 2 => .streamOut | _ => .proxy }
  | 17 => { e with ctx := v.toNat }
  | 18 => { e with age := v.toNat }
  | 19 => { e with super := v.getLsbD 0, direct := v.getLsbD 1, promoted := v.getLsbD 2 }
  | 20 => { e with deadline := v }
  | 21 => { e with handed := v.toNat }
  | 22 => { e with home := (v.toNat / 64, v.toNat % 64) }
  | 23 => { e with streams := setAt 64 (v.toNat / 64) (v.toNat % 64) (v.toNat % 64) e.streams }
  | 24 => { e with fedEnded := setAt 64 (v.toNat / 2 ^ 32) (v.toNat % 2 ^ 32) (v.toNat % 2 ^ 32) e.fedEnded }
  | _ => e

/-- A field of a launch block written; its reserved bits are ignored (00_scope.md R5; 01_levels.md R23). -/
def blockSet (f : Nat) (v : Word) (b : LaunchBlock) : LaunchBlock :=
  match f with
  | 0 => { b with stbase := v }
  | 1 => { b with cbase := v }
  | 2 => { b with dbase := v }
  | 3 => { b with cwaddr := v }
  | 4 => { b with widlayout := lowBits 51 v }
  | 5 => { b with widmax := v }
  | 6 => { b with deph := v }
  | 7 => { b with depv := v }
  | 8 => { b with ptroot := v }
  | 9 => { b with entry := offNext v }
  | 10 => { b with stlen := v.setWidth 32 }
  | 11 => { b with clen := v.setWidth 32 }
  | 12 => { b with power := v.setWidth 16 }
  | 13 => { b with frame := v.setWidth 16 }
  | 14 => { b with prio := (lowBits 2 v).setWidth 8 }
  | 15 => { b with nbar := v.setWidth 8 }
  | 16 => { b with flags := (lowBits 2 v).setWidth 8 }
  | 17 => { b with fq := (lowBits 4 v).setWidth 8 }
  | 18 => { b with cmask := (lowBits 4 v).setWidth 8 }
  | _ => b

/-- An element of a list changed, or one more. -/
def changeAt {α : Type} (n : Nat) (new : α) (f : α → α) (l : List α) : List α :=
  if n < l.length then l.set n (f (l.getD n new)) else if n = l.length then l ++ [f new] else l

/-- A field of an entry of a TLB written; field 4 takes the entry out. -/
def tlbSet (n f : Nat) (v : Word) (l : List TlbEntry) : List TlbEntry :=
  let change := fun (g : TlbEntry → TlbEntry) => changeAt n ⟨0, 0, 14, 0⟩ g l
  match f with
  | 0 => change (fun e => { e with asid := v.setWidth 16 })
  | 1 => change (fun e => { e with base := v.toNat })
  | 2 => change (fun e => { e with bits := v.toNat })
  | 3 => change (fun e => { e with entry := v })
  | _ => l.eraseIdx n

/-- A byte of the open frame, or a field of it, written. -/
def frameSet (n f : Nat) (v : Word) (t : Trace) : Trace :=
  match f with
  | 0 => { t with frame := changeAt n 0 (fun _ => v.setWidth 8) t.frame }
  | 1 => { t with frame := t.frame.take v.toNat }
  | 2 => { t with ts := v }
  | 3 => { t with last := v }
  | 4 => { t with seq := v.setWidth 16 }
  | 5 => { t with lost := v.setWidth 32 }
  | 6 => { t with frameLost := v.setWidth 32 }
  | 7 => { t with count := v.toNat }
  | 8 => { t with lastKey := v.toNat }
  | 9 => { t with ptr := v.setWidth 32 }
  | _ => t

/-- A cell of a chain's tile written; at 2^15, that the unit holds one. -/
def tileSet (n : Nat) (v : Word) (t : Option (Sp (BitVec 32))) : Option (Sp (BitVec 32)) :=
  if n = 2 ^ 15 then (if v = 0 then none else some (t.getD [])) else t.map (fun x => spPut 0 x n (v.setWidth 32))

/-- A word of a number written. -/
def setWord (i : Nat) (v : Word) (n : Nat) : Nat := n + 2 ^ (64 * i) * v.toNat - 2 ^ (64 * i) * (n / 2 ^ (64 * i) % 2 ^ 64)

/-- The operation of a command by a number. -/
def cmdOpOf (n : Nat) : CmdOp :=
  match n with
  | 0 => .copy | 1 => .copy2 | 2 => .fill | 3 => .slabmov | 4 => .mdec | 5 => .mrsz | 6 => .cred | _ => .cbcast

/-- A field of an unfinished command written: a word of its descriptor, of the entry of a slab move, or another. -/
def commandSet (f : Nat) (v : Word) (c : Cmd) : Cmd :=
  if f < 8 then { c with desc := setWord f v c.desc }
  else
    let m := c.move.getD (0, 0, false)
    if f < 12 then { c with move := some (setWord (f - 8) v m.1, m.2) }
    else match f with
    | 12 => { c with move := if v = 0 then none else some (m.1, v.toNat / 2, v.getLsbD 0) }
    | 13 => { c with op := cmdOpOf v.toNat }
    | 14 => { c with num := v.toNat }
    | 15 => { c with ptroot := v }
    | 16 => { c with super := v.getLsbD 0, promoted := v.getLsbD 1, clash := v.getLsbD 2 }
    | 17 => { c with task := if v = 0 then none else some (v.toNat - 1) }
    | 18 => { c with deadline := v }
    | 19 => { c with since := v.toNat }
    | _ => c

/-- A command with nothing in it, for one that is put at the end. -/
def Cmd.blank : Cmd :=
  { op := .copy, num := 0, desc := 0, ptroot := 0, super := false, task := none, deadline := 0, promoted := false, since := 0
    clash := false, move := none }

/-- A field of an unfinished command of a list written; field 31 takes the command out. -/
def commandsSet (n f : Nat) (v : Word) (l : List Cmd) : List Cmd :=
  if f = 31 then l.eraseIdx n else changeAt n .blank (commandSet f v) l

/-- A field of a feed queue written. -/
def feedSet (f : Nat) (v : Word) (x : FeedQueue) : FeedQueue :=
  match f with
  | 0 => { x with base := v.setWidth 25 }
  | 1 => { x with cap := v.setWidth 16 }
  | 2 => { x with vlfeed := v.setWidth 16 }
  | 3 => { x with even := v.getLsbD 0 }
  | 4 => { x with head := v.setWidth 32 }
  | 5 => { x with tail := v.setWidth 32 }
  | 6 => { x with crossings := v.toNat }
  | 7 => { x with attached := if v = 0 then none else some (v.toNat - 1) }
  | 8 => { x with partialCount := v.toNat }
  | 9 => { x with written := x.written.take v.toNat }
  | 10 => { x with written := x.written ++ [v.toNat] }
  | _ => x

/-- A field of a context written. -/
def contextSet (f : Nat) (v : Word) (c : Context) : Context :=
  match f with
  | 0 => { c with count := v }
  | 1 => { c with failed := v.getLsbD 63, err := (v >>> 48).setWidth 8 }
  | 2 => { c with next := v.toNat }
  | 3 => { c with crcr := v.setWidth 32 }
  | 4 => { c with decoder := v.toNat }
  | 5 => { c with finished := setAt 4096 (v.toNat / 2 ^ 40) (v.toNat / 2 ^ 8 % 2 ^ 32, v.setWidth 8) 0 c.finished }
  | _ => c

/-! ## Elements that no word and no event of software writes -/

/-- An element of a list replaced, or one more; at 65,535 its length is cut. -/
def listSet {α : Type} (m : Nat) (v : α) (len : Nat) (l : List α) : List α :=
  if m = 65535 then l.take len else changeAt m v (fun _ => v) l

/-- A value that may be absent: at 0 it is absent, at 1 the one written. -/
def optionSet {α : Type} (m : Nat) (v : α) : Option α := if m = 0 then none else some v

/-- What a core is doing, by a number. -/
def coreRunOf (n : Nat) : CoreRun :=
  match n with
  | 0 => .free | 1 => .running | 2 => .clearing | 3 => .halted | 4 => .saved | _ => .restoring

/-- The cause with a code; the first one when there is none. -/
def causeOf (code : BitVec 8) : Cause :=
  ([Cause.fetch, .illegalWord, .illegalStream, .privilege, .convoyForm, .convoyStructure, .convoyAlias, .shapeOff,
    .shapeType, .shapeLength, .planeGated, .shapeDef, .arithNV, .arithDZ, .arithOF, .arithUF, .arithSAT, .arithIDX,
    .arithNX, .issueLane, .feedOff, .dcollDesc, .memAlign, .memRange, .memProt, .memXlate, .memData, .memAttr, .memSpace,
    .tlCtx, .matOff, .matView, .ladCfg, .ladOff, .ladRange, .ladMem, .queueDeadlock, .queueArg, .hcall, .brk, .sbreak,
    .sstep, .cbreak, .cstep, .barRange, .gangArm, .fqArg].find? (fun c => c.code == code)).getD .fetch

/-- The field of a trap that is due; field 0 takes it away. -/
def dueSet (m : Nat) (v : Word) (d : Option Due) : Option Due :=
  let x := d.getD ⟨.fetch, 0, none⟩
  match m with
  | 0 => none
  | 1 => some { x with cause := causeOf (v.setWidth 8) }
  | 2 => some { x with tval := v }
  | _ => some { x with mf := if v = 0 then none else some ((v - 1).setWidth 8) }

/-- The fields that software cannot write of a processor: STATUS.MODE and CHALT, by the register's number. -/
def rawSteer (n : Nat) (v : Word) (c : Steer) : Steer :=
  if n = 0x028 then { c with mode := v.getLsbD 0, chalt := v.getLsbD 3 } else c

/-- The fields of a core's registers that software cannot write; the lengths in QSTAT are its queues'. -/
def rawCsr (n : Nat) (v : Word) (k : Core) : Core :=
  let t := k.task
  let c := k.conv
  match n with
  | 0x000 => { k with task := { t with wid := v } }
  | 0x001 => { k with task := { t with widmax := v } }
  | 0x002 => { k with task := { t with widlayout := lowBits 51 v } }
  | 0x003 => { k with task := { t with dbase := v } }
  | 0x004 => { k with task := { t with cbase := v } }
  | 0x005 => { k with task := { t with stbase := v } }
  | 0x006 => { k with task := { t with stlen := v.setWidth 32 } }
  | 0x007 => { k with task := { t with cwaddr := v } }
  | 0x00A => { k with conv := { c with st := convStateOf (v.toNat / 2 ^ 30 % 4) } }
  | 0x00B => { k with task := { t with clen := v.setWidth 32 } }
  | 0x020 => { k with conv := { c with cpc := offNext v } }
  | 0x021 => { k with conv := { c with cblk := offNext v } }
  | 0x022 => { k with conv := { c with lc := v.setWidth 32 } }
  | 0x023 => { k with conv := { c with cmem := v.setWidth 2 } }
  | 0x028 => { k with steer := rawSteer n v k.steer }
  | 0x042 => { k with trace := { k.trace with ptr := (v >>> 32).setWidth 32 } }
  | 0x050 => { k with mat := { k.mat with en := v.getLsbD 0 } }
  | 0x060 => { k with lad := { k.lad with lcfgr := v &&& 0x3F1F7F7F01FFFFFF } }
  | 0x070 => { k with task := { t with gslot := v &&& 0xFF7F } }
  | 0x072 =>
    { k with gang := { k.gang with
        armCause := (v >>> 24).setWidth 8, armIslot := (v >>> 16).setWidth 7, armBar := (v >>> 8).setWidth 5
        armSlab := (v >>> 4).setWidth 2, armFault := v.getLsbD 1, armed := v.getLsbD 0 } }
  | 0x073 => { k with gang := { k.gang with gstat := v.setWidth 9 } }
  | 0x074 => { k with task := { t with barwin := v &&& 0x3F1F } }
  | 0x075 => { k with task := { t with lhandle := v } }
  | _ => k

/-- What a processor holds beside its registers. -/
def steerSet (f m : Nat) (v : Word) (c : Steer) : Steer :=
  let d := c.dead.getD ⟨0, 0, 0⟩
  match f with
  | 0 => { c with failedStore := optionSet m v }
  | 1 => { c with expired := v.getLsbD 0, stepped := v.getLsbD 1, stopped := v.getLsbD 2 }
  | _ => { c with dead := match m with
      | 0 => none
      | 1 => some { d with cause := v }
      | 2 => some { d with tval := v }
      | _ => some { d with epc := v.setWidth 32 } }

/-- What a core holds beside its registers, queues and tables. -/
def coreSet (f m : Nat) (v : Word) (k : Core) : Core :=
  let c := k.conv
  match f with
  | 0 => { k with run := coreRunOf v.toNat }
  | 1 => { k with half := v.getLsbD 0, halfNext := v.getLsbD 1, preq := v.getLsbD 2 }
  | 2 | 3 | 4 => { k with steer := steerSet (f - 2) m v k.steer }
  | 5 => { k with conv := { c with failedStore := optionSet m v } }
  | 6 => { k with conv := { c with trapDue := dueSet m v c.trapDue } }
  | 7 => { k with conv := { c with expired := v.getLsbD 0, missEntry := if m = 0 then c.missEntry else v } }
  | 8 => { k with conv := { c with stored := listSet m v.toNat v.toNat c.stored } }
  | 9 => { k with conv := { c with missed := listSet m v.toNat v.toNat c.missed } }
  | 10 => { k with q := { k.q with posts := listSet m v v.toNat k.q.posts } }
  | 11 => { k with lad := { k.lad with fault := v.setWidth 25 } }
  | 12 => { k with conv := { c with block := if m = 0 then none else some ⟨v.toNat, (c.block.map (·.codes)).getD []⟩ } }
  | 13 => { k with conv := { c with block := c.block.map (fun b => { b with
      codes := listSet m (v.toNat / 2 ^ 32, v.toNat / 2 ^ 8 % 2 ^ 24, v.setWidth 8) v.toNat b.codes }) } }
  | _ => { k with conv := { c with forming := match readVector (v.setWidth 32) with
      | some i => listSet m i v.toNat c.forming
      | none => if m = 65535 then c.forming.take v.toNat else c.forming } }

/-- An access with nothing in it, for one that is put at the end. -/
def OutAcc.blank : OutAcc :=
  { kind := .load, rd := 0, key := 0, size := 8, data := 0, expect := 0, va := 0, pc := 0, device := false, via := ⟨0, 0, 14, 0⟩
    performed := false, value := 0 }

/-- A field of an outstanding access. -/
def outSet (f : Nat) (v : Word) (a : OutAcc) : OutAcc :=
  match f with
  | 0 => { a with kind := match v.toNat with
      | 0 => .load | 1 => .store | 2 => .cas | n => .amo (.ofNat 3 (n - 3)) }
  | 1 => { a with rd := v.setWidth 5 }
  | 2 => { a with key := v.toNat }
  | 3 => { a with size := v.toNat % 16 }
  | 4 => { a with data := v }
  | 5 => { a with expect := v }
  | 6 => { a with va := v }
  | 7 => { a with pc := offNext v }
  | 8 => { a with device := v.getLsbD 0, performed := v.getLsbD 1 }
  | 9 => { a with value := v }
  | 10 => { a with via := { a.via with asid := v.setWidth 16 } }
  | 11 => { a with via := { a.via with base := v.toNat } }
  | 12 => { a with via := { a.via with bits := v.toNat } }
  | 13 => { a with via := { a.via with entry := v } }
  | _ => a

/-- An element of a list with a field written; field 31 takes it out. -/
def elementSet {α : Type} (n f : Nat) (blank : α) (set : α → α) (l : List α) : List α :=
  if f = 31 then l.eraseIdx n else changeAt n blank set l

/-- A share with nothing in it. -/
def Share.blank : Share :=
  { issuer := 0, issuerTask := 0, issuerSlot := 0, pos := 0, a := 0, slab := 0, bar := none, vtype := 0, msize := 0, mrowp := 0
    mcolp := 0, b := [], head := 0, mark := 0, ended := false, events := [] }

/-- A field of a share of a ganged product; an element of its B is field 11. -/
def shareSet (f m : Nat) (v : Word) (h : Share) : Share :=
  match f with
  | 0 => { h with issuer := v.toNat }
  | 1 => { h with issuerTask := v.toNat }
  | 2 => { h with issuerSlot := v.setWidth 7 }
  | 3 => { h with pos := v.toNat }
  | 4 => { h with a := v.setWidth 6 }
  | 5 => { h with slab := v.setWidth 2 }
  | 6 => { h with bar := optionSet m (v.setWidth 5) }
  | 7 => { h with vtype := v.setWidth 8 }
  | 8 => { h with msize := msizeNext v }
  | 9 => { h with mrowp := v }
  | 10 => { h with mcolp := v }
  | 11 => { h with b := spPut 0 h.b m v.toNat }
  | 12 => { h with head := offNext v }
  | 13 => { h with ended := v.getLsbD 0 }
  | 14 => { h with events := listSet m v v.toNat h.events }
  | _ => h

/-- A convoy in flight with nothing in it. -/
def Flight.blank : Flight :=
  { words := [], next := 0, capp := 0, lk := 0, mid := none, done := 0, kout := [], rqout := [] }

/-- A field of the convoy in flight; field 31 takes it away. -/
def flightSet (f m : Nat) (v : Word) (x : Option Flight) : Option Flight :=
  let y := x.getD .blank
  match f with
  | 0 => some { y with next := v.toNat }
  | 1 => some { y with capp := v.toNat }
  | 2 => some { y with lk := v.toNat }
  | 3 => some { y with mid := optionSet m v.toNat }
  | 4 => some { y with done := v.setWidth 4 }
  | 5 => some { y with kout := if m = 65535 then y.kout.take v.toNat else changeAt m (0, 0) (fun p => (v.toNat % 8, p.2)) y.kout }
  | 6 => some { y with kout := changeAt m (0, 0) (fun p => (p.1, v)) y.kout }
  | 7 => some { y with rqout := listSet m v v.toNat y.rqout }
  | 8 => some { y with words := match readVector (v.setWidth 32) with
      | some i => listSet m i v.toNat y.words
      | none => if m = 65535 then y.words.take v.toNat else y.words }
  | 9 => some { y with latched := if m = 65535 then y.latched.take v.toNat else changeAt m (0, []) (fun _ => (v.toNat, [])) y.latched }
  | 10 => some { y with latched := changeAt m (0, []) (fun p => (p.1, p.2 ++ [v.toNat])) y.latched }
  | _ => none

/-- A field of a convoy that waits to retire. -/
def parkedSet (f m : Nat) (v : Word) (x : Parked) : Parked :=
  match f with
  | 0 => { x with event := v }
  | 1 => { x with kout := if m = 65535 then x.kout.take v.toNat else changeAt m (0, 0) (fun p => (v.toNat % 8, p.2)) x.kout }
  | 2 => { x with kout := changeAt m (0, 0) (fun p => (p.1, v)) x.kout }
  | 3 => { x with rqout := listSet m v v.toNat x.rqout }
  | _ => x

/-- A task with nothing in it, and a field of a task of a placed group. -/
def GangTask.blank : GangTask := { core := 0, wid := 0, serial := 0, place := .ended, failedStore := none }

def gangTaskSet (f m : Nat) (v : Word) (t : GangTask) : GangTask :=
  match f with
  | 0 => { t with core := v.toNat }
  | 1 => { t with wid := v }
  | 2 => { t with serial := v.toNat }
  | 3 => { t with place := match m with
      | 0 => .running | 1 => .saved | 2 => .parked v.toNat | 3 => .ended | _ => .abandoned (v.setWidth 8) }
  | 4 => { t with failedStore := optionSet m v }
  | 5 => { t with convStore := optionSet m v }
  | 6 => { t with trapDue := dueSet m v t.trapDue }
  | 7 => { t with fault := v.setWidth 25 }
  | _ => t

/-- A group with nothing in it, and a field of a placed group. -/
def PlacedGroup.blank : PlacedGroup :=
  { entry := 0, index := 0, order := 0, bars := [], nbar := 0, perBar := 0, power := 0, overdue := false, tasks := [] }

def groupSet (f m : Nat) (v : Word) (g : PlacedGroup) : PlacedGroup :=
  match f with
  | 0 => { g with entry := v.toNat }
  | 1 => { g with index := v.toNat }
  | 2 => { g with order := v.toNat }
  | 3 => { g with bars := listSet m (if v = 0 then none else some (v.toNat - 1)) v.toNat g.bars }
  | 4 => { g with nbar := v.toNat }
  | 5 => { g with perBar := v.toNat }
  | 6 => { g with power := v.toNat }
  | 7 => { g with overdue := v.getLsbD 0 }
  | _ => g

/-- A word of a message of a list of messages; at 65,535 the list is cut. -/
def messageSet (m : Nat) (v : Word) (l : List (List Word)) : List (List Word) :=
  if m = 65535 then l.take v.toNat else changeAt (m / 4) [] (changeAt (m % 4) 0 (fun _ => v)) l

/-- A field of where the shipped dispatcher stands. -/
def dispatchSet (m : Nat) (v : Word) (d : Option Dispatch) : Option Dispatch :=
  let x := d.getD .reset
  match m with
  | 0 => none
  | 1 => some { x with ring := v }
  | 2 => some { x with stage := v.toNat }
  | 3 => some { x with code := v.setWidth 8 }
  | 4 => some { x with number := v.toNat }
  | 5 => some { x with made := x.made.take v.toNat }
  | _ => some { x with made := listSet (m - 6) v.toNat 0 x.made }

/-- What a cluster holds beside its registers and tables. -/
def clusterSet (f m : Nat) (v : Word) (c : Cluster) : Cluster :=
  match f with
  | 0 => { c with grant := v.setWidth 32 }
  | 1 => { c with half := v.getLsbD 0, error := v.getLsbD 1 }
  | 2 => { c with cq := listSet m v v.toNat c.cq }
  | 3 => { c with cqPosts := messageSet m v c.cqPosts }
  | 4 => { c with log := messageSet m v c.log }
  | 5 => { c with reports := listSet m ⟨v.toNat % 64, v.toNat / 64 % 2 ^ 32, v.getLsbD 63⟩ v.toNat c.reports }
  | 6 => { c with lost := listSet m (v.toNat % 64, v.toNat / 64) v.toNat c.lost }
  | 7 => { c with eqPosts := if m = 65535 then c.eqPosts.take v.toNat else changeAt m (0, 0) (fun p => (v.toNat, p.2)) c.eqPosts }
  | 8 => { c with eqPosts := changeAt m (0, 0) (fun p => (p.1, v)) c.eqPosts }
  | 9 => { c with arrivals := if m = 65535 then c.arrivals.take v.toNat
      else changeAt m ⟨0, 0, 0, []⟩ (fun a => { a with task := v.toNat }) c.arrivals }
  | 10 => { c with arrivals := changeAt m ⟨0, 0, 0, []⟩ (fun a => { a with issuer := v.toNat }) c.arrivals }
  | 11 => { c with arrivals := changeAt m ⟨0, 0, 0, []⟩ (fun a => { a with bar := v.setWidth 5 }) c.arrivals }
  | 12 => { c with arrivals := changeAt (m / 256) ⟨0, 0, 0, []⟩ (fun a => { a with
      events := if m % 256 = 255 then a.events.take v.toNat else changeAt (m % 256) v (fun _ => v) a.events }) c.arrivals }
  | 13 => { c with reserved := listSet m (v.toNat % 2 ^ 32, v.toNat / 2 ^ 32) v.toNat c.reserved }
  | 14 => { c with dispatch := dispatchSet m v c.dispatch }
  | 15 => { c with ctlBase := v }
  | 16 => { c with ctlLen := v.setWidth 32 }
  | 17 | 18 | 19 => { c with ctl := steerSet (f - 17) m v c.ctl }
  | _ => c

/-- What a die holds beside its engines. -/
def dieSet (f m : Nat) (v : Word) (d : Die) : Die :=
  match f with
  | 0 => { d with grant := v.setWidth 16 }
  | 1 => { d with pending := optionSet m (v.setWidth 16) }
  | 2 => { d with missed := v.toNat }
  | 3 => { d with hot := v.getLsbD 0 }
  | 4 => { d with corrected := listSet m v.toNat v.toNat d.corrected }
  | _ => d

end Sys2Proof.Machine
end

