-- ==== Sys2Proof/Machine/Fabric.lean ====
section
/-! DEFINITION. The links of the package (19_fabric.md R395 to R397): flits and their CRC, what a sender keeps for replay,
what a receiver accepts, replays, retraining and ports that go down. -/

namespace Sys2Proof.Machine

/-! ## Flits (R395) -/

/-- HDR of a flit. -/
def Flit.header (f : Flit) : Nat :=
  f.seq.toNat + f.ack.toNat * 2 ^ 12 + (if f.nak then 2 ^ 24 else 0) + f.tc.toNat * 2 ^ 25 + f.route.toNat * 2 ^ 28

/-- The bytes that the CRC covers, the first lowest. -/
def Flit.body (f : Flit) : Nat := f.header + 2 ^ 64 * f.payload.toNat

/-- CRC-64 of ECMA-182, most significant bit first, over the bits of one byte. DEDUCED: log entry 74. -/
def crc64Bits : Nat → BitVec 64 → BitVec 64
  | 0, c => c
  | n + 1, c => crc64Bits n ((c <<< 1) ^^^ (if c.getLsbD 63 then 0x42F0E1EBA9EA3693 else 0))

/-- The CRC of one more byte. -/
def crc64Byte (c : BitVec 64) (b : Nat) : BitVec 64 := crc64Bits 8 (c ^^^ BitVec.ofNat 64 (b % 256 * 2 ^ 56))

/-- The CRC of n bytes of a number, the lowest first. -/
def crc64 (n v : Nat) : BitVec 64 := (List.range n).foldl (fun c i => crc64Byte c (v / 256 ^ i)) 0

/-- The 256 bytes of a flit, as it is sent. -/
def Flit.bits (f : Flit) : Nat := f.body + 2 ^ 1984 * (crc64 248 f.body).toNat

/-- The flit in 256 bytes. -/
def flitOf (n : Nat) : Flit :=
  { seq := .ofNat 12 n, ack := .ofNat 12 (n / 2 ^ 12), nak := n / 2 ^ 24 % 2 == 1, tc := .ofNat 3 (n / 2 ^ 25)
    route := .ofNat 36 (n / 2 ^ 28), payload := .ofNat 1920 (n / 2 ^ 64) }

/-- 256 bytes pass the receiver's check. -/
def flitChecks (n : Nat) : Bool := crc64 248 (n % 2 ^ 1984) == .ofNat 64 (n / 2 ^ 1984)

/-! ## Sending -/

/-- The port is up, at full or at reduced width. -/
def Port.isUp (p : Port) : Bool := decide (2 ≤ p.state.toNat)

/-- The replays counted are of a flit that the other end has still to acknowledge; of another none has been made (R396). -/
def Port.settleReplays (p : Port) : Port :=
  if (p.held.drop p.acked).any (fun f => f.seq == p.replayed) then p else { p with replays := 0 }

/-- A port sends a flit under its next number: it acknowledges the flits received in order, or refuses one, and the last
512 flits are kept for replay (R396). -/
def Port.send (tc : BitVec 3) (route : BitVec 36) (payload : BitVec 1920) (p : Port) : Port :=
  let f : Flit :=
    { seq := p.next, ack := p.refused.getD (p.expected - 1), nak := p.refused.isSome, tc := tc, route := route
      payload := payload }
  ({ p with
    next := p.next + 1, held := (p.held ++ [f]).drop (p.held.length + 1 - 512)
    acked := p.acked - (p.held.length + 1 - 512), refused := none } : Port).settleReplays

/-- The other end acknowledges, in order, the flits held before one of a number, and that one too when `itself` is set. -/
def Port.acknowledge (seq : BitVec 12) (itself : Bool) (p : Port) : Port :=
  match p.held.findIdx? (fun f => f.seq == seq) with
  | some i => ({ p with acked := max p.acked (if itself then i + 1 else i) } : Port).settleReplays
  | none => p

/-- A port that is up sends a flit whose contents the spec leaves open. -/
def Port.sendFree (tc : BitVec 3) (tick : Nat) (p : Port) : Port :=
  if p.isUp then p.send tc (.ofNat 36 (Config.freeNat tick)) (.ofNat 1920 (Config.freeNat (tick + 1))) else p

/-- Flits are sent again under the port's own numbers. -/
def Port.resend (l : List Flit) (p : Port) : Port := l.foldl (fun q f => q.send f.tc f.route f.payload) p

/-- The flits held from a number on: none when it is not held. -/
def Port.heldFrom (seq : BitVec 12) (p : Port) : List Flit := p.held.dropWhile (fun f => f.seq != seq)

/-- REPLAY counts the flits sent again, saturating (R394). -/
def Port.count (n : Nat) (p : Port) : Port := { p with replay := .ofNat 32 (min (2 ^ 32 - 1) (p.replay.toNat + n)) }

/-! ## Receiving (R396) -/

/-- 256 bytes arrive at a port that is up: a flit that fails its CRC is refused, and those after it are dropped until it
arrives again; the one expected is delivered and acknowledged, and what its ACK names is; no flit is delivered twice or out
of order. -/
def Port.receive (bits tick : Nat) (p : Port) : Port :=
  if p.isUp = false then p
  else if flitChecks bits = false then
    if p.dropping ∧ (flitOf bits).seq ≠ p.expected then p
    else ({ p with dropping := true, refused := some p.expected } : Port).sendFree 0 tick
  else if (flitOf bits).seq = p.expected then
    let f := flitOf bits
    (({ p with expected := p.expected + 1, dropping := false } : Port).acknowledge f.ack (!f.nak)).sendFree 0 tick
  else p

/-- A NAK names a flit: those before it are acknowledged, and the sender replays from it, in order. -/
def Port.nak (seq : BitVec 12) (p : Port) : Port :=
  if p.isUp = false ∨ p.heldFrom seq = [] then p
  else
    let q := p.acknowledge seq false
    ({ q with replayed := seq, replays := if q.replayed = seq then q.replays + 1 else 1 } : Port).count
      (p.heldFrom seq).length

/-! ## Training (R396) -/

/-- The port has to train: it has replayed one flit 16 times in a row, or it is down. -/
def Port.trains (p : Port) : Bool := p.state == 0 || (p.isUp && decide (16 ≤ p.replays))

/-- Training begins. -/
def Port.startTraining (p : Port) : Port := { p with state := 1, width := 0 }

/-- Training ends: the flits held are sent again when the port comes up. -/
def Port.endTraining (tick n : Nat) (p : Port) : Port :=
  let q := trainPort tick n p
  if q.isUp then q.count q.held.length else q

/-- Another port that is up, which a port's traffic may take; the far end that it leads to is left open.
DESIGN CHOICE: log entry 50. -/
def otherPath (n : Nat) (s : State) : Option Nat := (List.range 18).find? (fun k => k != n && (s.port k).isUp)

/-- The flits held by a port that is down, but for those that the other end has acknowledged, go out on another path, if one
exists. -/
def movesTraffic (n : Nat) (s : State) : State :=
  let l := (s.port n).held.drop (s.port n).acked
  match otherPath n s with
  | some k => modPort k (Port.resend l) (modPort n (fun p => { p with held := [], acked := 0 }) s)
  | none => s

/-- A port goes down. -/
def portDown (n : Nat) (s : State) : State :=
  movesTraffic n (modPort n (fun p => { p with state := 0, width := 0, dropping := false, replays := 0, refused := none }) s)

end Sys2Proof.Machine
end

