-- ==== Sys2Proof/Machine/Events.lean ====
section
/-! DEFINITION. The events of a core, of the package and of the fabric that no instruction word brings about: the turns
of the convoy stream, traps of the hardware, debug stops and pre-emption (08_core_steering.md), the answers to accesses
(09_core_memory.md R216, R219, R230; 19_fabric.md R399 to R401), gangs (14_cluster.md R326, R327), the host's registers,
the mailbox, freeze, power and reset (18_package.md), and the links (19_fabric.md R396, R408). An event that cannot come
about in a state changes nothing. -/

namespace Sys2Proof.Machine

/-! ## The convoy stream (05_convoy.md R111, R117, R135) -/

/-- The core runs a task that is neither stopped nor in a double trap. -/
def Core.live (c : Core) : Bool := c.run == .running && c.steer.dead.isNone && !c.steer.stopped

/-- The convoy stream is not halted. -/
def Core.convoyLive (c : Core) : Bool := c.live && !c.steer.chalt && c.conv.st != .halted

/-- BLOCK_POP. -/
def execBlockPop (s : State) : Result := .next (if s.core.convoyLive && !s.inFlight then popBlock s else s)

/-- A chain that stopped on an uncorrectable granule stands (11_core_ladder.md R275). -/
def ladPending (s : State) : Bool := s.core.lad.act && s.core.lad.err

/-- CBREAK is due at CPC (05_convoy.md R141). -/
def convoyBreakDue (s : State) : Bool :=
  let c := s.core.conv
  c.st == .run && c.forming.isEmpty && !s.core.steer.cbksup
    && c.startK == 0 && c.startDone == 0 && c.startLk == 0 && c.vispos == 0
    && (List.range 4).any (fun n => spGet 0 c.cbkpt n == (c.cpc ||| 1))

/-- The next convoy waits until every earlier one has retired: for CBREAK, or for the CSTEP of one that waits to retire
(05_convoy.md R141; 16_die.md R358). DESIGN CHOICE: log entry 85. -/
def drains (s : State) : Bool := s.core.conv.parked != [] && (s.core.conv.cdbg || convoyBreakDue s)

/-- Something stands at the convoy boundary that goes before the next convoy: a trap that the steering stream owes, one of
its own, a stopped chain, or a pre-emption request (08_core_steering.md R201, R206; 11_core_ladder.md R275). -/
def boundaryHeld (s : State) : Bool :=
  s.core.steer.stepped || s.core.conv.trapDue.isSome || ladPending s || s.core.preq || drains s

/-- CONVOY_ISSUE: the whole convoy that waits to issue. -/
def execConvoyIssue (s : State) : Result :=
  if s.core.convoyLive && !s.inFlight && s.core.conv.formed && !boundaryHeld s then issueConvoy s.core.conv.forming s
  else .next s

/-- CONVOY_RETIRE: the convoy in flight goes as far as it can. -/
def execConvoyRetire (s : State) : Result := if s.core.live then runConvoy s else .next s

/-! ## Traps of the hardware -/

/-- LAD-MEM at the boundary. -/
def ladTrap (s : State) : State :=
  convoyTrap ⟨0, 0, 0, s.core.conv.vispos, .ladMem, s.core.lad.fault.setWidth 64, none⟩ s

/-- TRAP_ENTRY: a trap that stands at a boundary is taken; a stopped chain's is the one that stands by itself (R275). -/
def execTrapEntry (s : State) : Result :=
  .next (if s.core.convoyLive && !s.inFlight && ladPending s && !s.core.steer.stepped then ladTrap s else s)

/-- SBREAK is due at PC (R199). -/
def breakDue (s : State) : Bool :=
  let c := s.cur
  !c.mode && !c.bksup && (List.range 4).any (fun n => spGet 0 c.sbkpt n == (c.pc ||| 1))

/-- A word that bears an instruction: its bits under the mask that the encoding fixes. -/
def wordBears (w mask bits : IWord) : Bool := w &&& mask == bits

/-- A word of CRGET, CRPUT, CRSET or CRCLR. -/
def csrWord (w : IWord) : Bool :=
  wordBears w 0xE001F07F 0x00000038 || wordBears w 0xE0000FFF 0x40000038 || wordBears w 0xE0000FFF 0x80000038
    || wordBears w 0xE0000FFF 0xC0000038

/-- The queue code of the steering instruction that waits on the convoy stream (R188, 14_cluster.md R324). A word that
raises a fault does not wait. -/
def waitCode (w : IWord) (s : State) : Option Nat :=
  if wordBears w 0xFFC00FFF 0x20 && decide (16 ≤ s.core.q.bq.length)
      && !blockFaults (readReg (w.extractLsb' 12 5) s) (readReg (w.extractLsb' 17 5) s) then some 0
  else if wordBears w 0xFFFE0FFF 0x21 && decide (32 ≤ s.core.q.dq.length) then some 1
  else if wordBears w 0xFFFFF07F 0x22 && s.core.q.rq.isEmpty then some 2
  else if wordBears w 0xFFFFF07F 0x23 && s.core.q.eq.isEmpty then some 3
  else if w == 0x25 && !endDrained s then some 4
  else if (wordBears w 0xFFC00FFF 0x34 || wordBears w 0xFFFFF07F 0x10000034) && !orderedReady s then some 5
  else if csrWord w && !(csrSupervisor (csrField w) && !s.core.steer.mode) && csrWaits (csrField w) s then some 5
  else none

/-- A convoy waits to retire, for room in eq (16_die.md R358). -/
def parkWaits (s : State) : Bool := s.core.conv.parked != [] && decide (16 ≤ s.core.q.eq.length)

/-- The next convoy is held for want of dq entries or of room in rq (R115), or waits for one that waits to retire for
room in eq (16_die.md R358). -/
def heldByQueues (s : State) : Bool :=
  let slots := slotsOf s.core.conv.forming s.core.conv.startDone s
  s.core.conv.formed && !s.inFlight && slots.all (fun x => x.mem.settled && x.mem.ready)
    && (convoyFault (checkedSlots s.core.conv.forming s) s).isNone
    && (!queuesServe slots s || (parkedHolds s.core.conv.forming s && parkWaits s))

/-- The feed queue of a VCAPP. -/
def appendQueue (i : Instr) : Option Nat :=
  match i with
  | .vcapp q _ _ _ => some q.toNat
  | .vcappK q _ _ _ => some q.toNat
  | _ => none

/-- A VCAPP in flight waits on a full eq: the event of a crossing of its entries is posted and finds no room, and every
other member of its convoy has completed (06_issue.md R156, R157). DEDUCED: log entry 32. -/
def appendWaits (s : State) : Bool :=
  match s.core.conv.flight with
  | none => false
  | some f => decide (16 ≤ s.core.q.eq.length) && ((List.range f.words.length).zip f.words).all (fun p =>
      f.done.getLsbD p.1 || (match appendQueue p.2 with
        | some q => feedPosted q s
        | none => false))

/-- The convoy stream waits on the steering stream (R188). DEDUCED: log entry 32. -/
def convoyWaits (s : State) : Bool :=
  (s.core.conv.st == .idle && s.core.q.bq.isEmpty && !s.inFlight) || heldByQueues s || appendWaits s
    || (!s.inFlight && drains s && parkWaits s)

/-- The core is quiet (R188; 16_die.md R358). -/
def quietCore (s : State) : Bool :=
  (!s.inFlight || appendWaits s) && (s.core.conv.parked.isEmpty || parkWaits s) && !s.core.chainRuns && s.core.steer.outs.isEmpty
    && s.pkg.contexts.all (fun p => p.2.cmds.all (fun c => c.task != some s.core.task.serial))

/-- The steering stream executes the instruction at PC: no trap stands at its boundary (R199, R275). -/
def executes (s : State) : Bool :=
  !s.core.steer.stepped && !breakDue s && !ladPending s && !(s.core.convoyLive && s.core.conv.trapDue.isSome)

/-- The queue code of the deadlock that stands. DESIGN CHOICE: log entry 31. -/
def deadlock (s : State) : Option Nat :=
  let t := { s with agent := .steer }
  if s.core.convoyLive && !s.core.preq && convoyWaits t && quietCore t && executes t then
    (fetchWord s.core.steer.pc t).bind (fun w => waitCode w t)
  else none

/-- QUEUE_DEADLOCK: a VCAPP that waits stops at its element. -/
def execQueueDeadlock (s : State) : Result :=
  match deadlock s with
  | none => .next s
  | some n =>
    let u := { s with agent := .steer }
    match (if u.inFlight then stopFlight u else some u) with
    | none => .next s
    | some t =>
    .next { takeTrap ⟨.queueDeadlock, false, .ofNat 64 n, t.core.steer.pc⟩
      (t.modSteer (fun c => { c with bksup := false })) with agent := s.agent }

/-! ## Debug stops and pre-emption (R193, R204) -/

/-- DEBUG_STOP: at an instruction boundary with the convoy stream at its own. DEDUCED: log entry 35. -/
def execDebugStop (s : State) : Result :=
  match s.agent with
  | .control => .next (s.modCluster (fun c => { c with ctl := { c.ctl with stopped := true, expired := false } }))
  | _ =>
    if s.inFlight ∨ s.core.run ≠ .running then .next s
    else .next (s.modCore (fun c => { c with
      steer := { c.steer with stopped := true, chalt := true, expired := false }, conv := haltConvoy c.conv }))

/-! ## The end of a task (R190, R191) -/

/-- COMPLETION_WORD_UPDATE: the END at PC, once it has drained; no trap and no request stands at its boundary (R210). -/
def execCompletionWordUpdate (s : State) : Result :=
  let t := { s with agent := .steer }
  if s.core.live && !s.core.preq && executes t
      && decide (fetchWord s.core.steer.pc t = some (encode .endTask)) then execEndTask t
  else .next s

/-- PREEMPTION_REQUEST: for the core in focus and, with it, its gang. -/
def execPreemptionRequest (s : State) : Result := .next (requestCore s.coreId s)

/-! ## The answers to accesses -/

/-- An access is no longer outstanding. -/
def dropAccess (n : Nat) (s : State) : State := s.modCur (fun c => { c with outs := c.outs.eraseIdx n })

/-- LOAD_DATA_ARRIVAL: the value of a load or an atomic that its home has performed. -/
def execLoadDataArrival (n : Nat) (s : State) : Result :=
  match s.cur.outs[n]? with
  | some a => .next (if a.performed && a.kind != .store then writeReg a.rd a.value (dropAccess n s) else s)
  | none => .next s

/-- STORE_ACKNOWLEDGED: a store that its home has performed; an atomic is acknowledged by its value. -/
def execStoreAcknowledged (n : Nat) (s : State) : Result :=
  match s.cur.outs[n]? with
  | some a =>
    .next (if a.performed = false then s
      else match a.kind with
        | .load => s
        | .store => dropAccess n s
        | _ => writeReg a.rd a.value (dropAccess n s))
  | none => .next s

/-- What an access asks for. -/
def OutAcc.want (a : OutAcc) : Want :=
  match a.kind with
  | .load => loadWant a.size
  | .store => storeWant a.size
  | _ => atomicWant

/-- An access raises MEM-DATA, with EPC at its own instruction, once no convoy is in flight (09_core_memory.md R229; R401);
that instruction has not retired, and no SSTEP of it or of a later one stands. DEDUCED: log entries 30 and 35. -/
def trapAccess (n : Nat) (a : OutAcc) (s : State) : State :=
  if s.agent ≠ .control ∧ s.inFlight then s
  else takeTrap ⟨.memData, false, a.va, a.pc⟩
    ((dropAccess n s).modCur (fun c => { c with bksup := false, stepped := false, mfinfo := mfinfoOf 7 a.want 3 }))

/-- The value that an access stores, if it stores one. -/
def OutAcc.stores (a : OutAcc) (old : Word) : Option Word :=
  match a.kind with
  | .load => none
  | .store => some a.data
  | .amo op => some (amoOp op old a.data)
  | .cas => if old = a.expect then some a.data else none

/-- The access as its home performs it. -/
def performAccess (n : Nat) (a : OutAcc) (s : State) : State :=
  let old : Word := .ofNat 64 (readMem s a.key a.size)
  let s1 := s.modCur (fun c => { c with outs := c.outs.set n { a with performed := true, value := old } })
  match a.stores old with
  | some v => storeMem a.key a.size v.toNat s1
  | none => s1

/-- An earlier access to the same 64-byte line is still to be performed (R400), or, for one of a device page, any earlier
access (09_core_memory.md R231). -/
def lineBusy (n : Nat) (a : OutAcc) (s : State) : Bool :=
  (s.cur.outs.take n).any (fun b => !b.performed && (a.device || b.key / 64 == a.key / 64))

/-- A remote access that gets no answer fails: a load or an atomic raises MEM-DATA, its home having performed it or not; a
store is discarded and recorded, and its home may have performed it before (R401). DEDUCED: log entry 30. -/
def failAccess (n : Nat) (a : OutAcc) (s : State) : State :=
  match a.kind with
  | .store =>
    let t := if !a.performed && Config.freeBool s.tick && !lineBusy n a s then storeMem a.key a.size a.data.toNat s else s
    ((dropAccess n t).modCur (fun c => { c with failedStore := some (c.failedStore.getD a.va) })).tickUp
  | _ => trapAccess n a s

/-- The home of an access finds its data uncorrectable (09_core_memory.md R229). -/
def accessPoisoned (a : OutAcc) (s : State) : Bool :=
  if a.kind = .store then storePoisoned s a.key a.size else poisoned s a.key a.size

/-- REMOTE_ACCESS: the home performs the access. -/
def execRemoteAccess (n : Nat) (s : State) : Result :=
  match s.cur.outs[n]? with
  | some a =>
    .next (if a.performed || lineBusy n a s then s
      else if accessPoisoned a s then trapAccess n a s else performAccess n a s)
  | none => .next s

/-- The limit of an outstanding access may pass: of stores the oldest unanswered one's first, as the limit of each began in
order. -/
def mayTimeOut (n : Nat) (a : OutAcc) (s : State) : Bool :=
  a.kind != .store || (s.cur.outs.take n).all (fun b => b.kind != .store)

/-- REMOTE_ACCESS_TIMEOUT: of an access that its home has not performed, or whose answer has not come.
DEDUCED: log entry 30. -/
def execRemoteAccessTimeout (n : Nat) (s : State) : Result :=
  match s.cur.outs[n]? with
  | some a => .next (if mayTimeOut n a s then failAccess n a s else s)
  | none => .next s

/-- VECTOR_ELEMENT_ARRIVAL: the elements of a convoy's accesses arrive in its own run, so the convoy in flight goes on. -/
def execVectorElementArrival (s : State) : Result := if s.core.live then runConvoy s else .next s

/-- TABLE_WALK: a translation found enters the TLB of the agent and the cluster's; a fault is raised by the access. -/
def execTableWalk (va : BitVec 57) (vec : Bool) (s : State) : Result :=
  let asid : BitVec 16 := .ofNat 16 s.cur.ptroot.toNat
  match tableWalk s s.cur.ptroot va.toNat with
  | .fault _ => .next s
  | .leaf e bits =>
    let t : TlbEntry := ⟨asid, va.toNat / 2 ^ bits * 2 ^ bits, bits, e⟩
    let s1 := s.modCluster (fun c => { c with tlb := (t :: c.tlb).take 8192 })
    .next (match s.agent with
      | .control => s1
      | _ => s1.modCore (fun c =>
        if vec then { c with tlbV := (t :: c.tlbV).take 64 } else { c with tlbS := (t :: c.tlbS).take 16 }))

/-! ## Waits (06_issue.md R159, R161) -/

/-- The words of the convoy in flight. -/
def flightWords (s : State) : List Instr :=
  match s.core.conv.flight with
  | none => []
  | some f => f.words

/-- The VWAIT in flight watches a line, by the number of the line among 64-byte lines of keys. -/
def watches (line : Nat) (s : State) : Bool :=
  match flightWords s with
  | [.vwait _ a _ _ m] =>
    (List.range s.vl).any (fun i => maskBit m.toNat i s
      && match resolve s s.core.conv.vmt (.ofNat 64 (elemGet (shapeAt a.toNat s) 64 i s)) ⟨8, false, false, true, true⟩ with
        | .ok (.mem key _) => key / 64 == line
        | _ => false)
  | _ => false

/-- MONITORED_LINE_WRITE: the VWAIT that watches the line tests its buoys again; a steering wait does so at every turn.
DEDUCED: log entry 64. -/
def execMonitoredLineWrite (line : Nat) (s : State) : Result :=
  if s.core.live && watches line s then runConvoy s else .next s

/-- A word that waits with a limit, the limit not 0 or 63. -/
def limitedWait (w : IWord) : Bool :=
  let n := w.toNat
  [segsWaitw, segsTlwait, segsBarw].any (fun sg => match segsMatch sg n with
    | some xs => xs.getLastD 0 != 0 && xs.getLastD 0 != 63
    | none => false)

/-- A VWAIT is in flight. -/
def waitInFlight (s : State) : Bool :=
  match flightWords s with
  | [.vwait _ _ _ _ _] => true
  | _ => false

/-- WAIT_LIMIT_EXPIRY: of the wait of the agent that moves. DESIGN CHOICE: log entry 6. -/
def execWaitLimitExpiry (s : State) : Result :=
  match s.agent with
  | .convoy =>
    if s.core.live && waitInFlight s then runConvoy (s.modConv (fun c => { c with expired := true })) else .next s
  | _ =>
    match fetchWord s.cur.pc s with
    | some w => .next (if limitedWait w then s.modCur (fun c => { c with expired := true }) else s)
    | none => .next s

/-- SPURIOUS_WAKE: a VWAIT tests its buoys again; a WAITW does at its next turn, and a NAP has ended. -/
def execSpuriousWake (s : State) : Result := if s.core.live && waitInFlight s then runConvoy s else .next s

/-! ## The ladder and the gang -/

/-- The chain has a stage to run: under a pre-emption request it finishes the one in progress (11_core_ladder.md R273). -/
def chainMoves (c : Core) : Bool := if c.preq || c.run == .halted then !atMergeBoundary c.lad else c.chainRuns

/-- CARRY_CHAIN: the next stage. One that stops on an uncorrectable granule once the core has begun to halt for a request
records no trap: ERR is saved, and LAD-MEM comes at the first boundary after the restore (R273; 08_core_steering.md R210).
DESIGN CHOICE: log entry 88. -/
def execCarryChain (s : State) : Result := .next (if chainMoves s.core then chainNext s else s)

/-- GMMA_MULTICAST. -/
def execGmmaMulticast (s : State) : Result := .next (multicastArrives s)

/-- GMMA_SHARE_COMPLETION. -/
def execGmmaShareCompletion (s : State) : Result := .next (shareCompletes s)

/-! ## The host's registers (18_package.md R371, R374, R388, R390) -/

/-- CLUSTER_RESET: a write of CLRST. -/
def execClusterReset (v : BitVec 64) (s : State) : Result := .next (resetClusters (v.setWidth 24) s)

/-- HOST_PREEMPTION_REQUEST: a write of PREQ with GO. -/
def execHostPreemptionRequest (v : BitVec 64) (s : State) : Result := .next (writePreq (v ||| 2 ^ 63) s)

/-- PREQ_COMPLETE. -/
def execPreqComplete (s : State) : Result := .next (preqFinish s)

/-- CLHOLD_WRITE. -/
def execClholdWrite (v : BitVec 64) (s : State) : Result := .next (writeClhold v s)

/-- PLIMIT_WRITE. -/
def execPlimitWrite (v : BitVec 64) (s : State) : Result := .next (writePlimit v s)

/-- FREEZE: a write of FRZ with GO. -/
def execFreeze (v : BitVec 64) (s : State) : Result := .next (writeFrz ((v ||| 2 ^ 63) &&& ~~~(2 ^ 62)) s)

/-- THAW: a write of FRZ with THAW. -/
def execThaw (v : BitVec 64) (s : State) : Result := .next (writeFrz ((v ||| 2 ^ 62) &&& ~~~(2 ^ 63)) s)

/-- FREEZE_SIGNAL: ignored while the debug port is disabled; the scope stands as in FRZ. DEDUCED: log entry 49. -/
def execFreezeSignal (v : BitVec 64) (s : State) : Result :=
  let n := v.toNat
  .next (if s.pkg.debugEn then freezeScope (n / 2 ^ 8 % 4) (n / 2 ^ 5 % 8) (n % 4) s else s)

/-! ## The debug port (R391) -/

/-- What an address of the debug port names: bytes of memory, or a state element of a core. The numbers are the
model's own: the spec gives none. -/
inductive DebugPlace where
  | mem (key : Nat)
  /-- A control register of a core's steering stream. -/
  | csr (core n : Nat)
  /-- s1 to s31, or PC at 0. -/
  | reg (core n : Nat)
  | scalar (core n : Nat)
  | desc (core n : Nat)
  | cell (core n : Nat)
  | slab (core n : Nat)
  | mask (core n : Nat)
  /-- A control register, or PC and s1 to s31, of the control core of a core's cluster. -/
  | ctlCsr (core n : Nat)
  | ctlReg (core n : Nat)
  /-- The stop of a task core, or of a control core: a write lets it go on. -/
  | run (core : Nat)
  | ctlRun (core : Nat)
  /-- A debugger's attachment to a task core, or to a control core. -/
  | attach (core : Nat)
  | ctlAttach (core : Nat)
  /-- An entry of bq, dq, rq or eq, by the queue's number; at 32, its length. -/
  | queue (core q n : Nat)
  /-- A barrier, a word of cq, a field of a scoreboard entry, or one of a feed queue, of a core's cluster. -/
  | barrier (core n : Nat)
  | message (core n : Nat)
  | entry (core i f : Nat)
  | feed (core q f : Nat)
  /-- A field of the launch block of a scoreboard entry. -/
  | block (core i f : Nat)
  /-- A field of an entry of a core's scalar TLB, of its vector TLB, or of its cluster's. -/
  | tlbScalar (core n f : Nat)
  | tlbVector (core n f : Nat)
  | tlbCluster (core n f : Nat)
  /-- A cell of the tile of the carry chain; at 2^15, that the unit holds one. -/
  | tile (core n : Nat)
  /-- A byte of the open trace frame, or a field of it. -/
  | frame (core n f : Nat)
  /-- A field of an engine's or a launch context, of an unfinished command of it, or of an entry of its TLB. -/
  | context (key f : Nat)
  | command (key n f : Nat)
  | tlbContext (key n f : Nat)
  /-- A field, and an element of it, of what a core holds beside these, of an access of it or of its control core, of a share
  of a ganged product, of the convoy in flight, and of one that waits to retire. -/
  | state (core f m : Nat)
  | out (core n f : Nat)
  | ctlOut (core n f : Nat)
  | share (core n f m : Nat)
  | flight (core f m : Nat)
  | parked (core n f m : Nat)
  /-- A field of a placed group of a core's cluster, of a task of it, of what the cluster holds beside these, and of its die. -/
  | group (core n f m : Nat)
  | gangTask (core n f m : Nat)
  | cluster (core f m : Nat)
  | die (core f m : Nat)
  /-- A register of the package, which stands in no cluster and no die: it is read alone. -/
  | package (off : Nat)
  deriving DecidableEq, Repr, Inhabited

/-- The place of an address: below 2^80 a key of memory, and above it the element's kind, core, number and field.
DESIGN CHOICE: log entry 48. -/
def debugPlace (addr : Nat) : DebugPlace :=
  if addr < 2 ^ 80 then .mem addr
  else
    let n := addr % 2 ^ 16
    let f := addr / 2 ^ 40 % 2 ^ 5
    let ctx := addr / 2 ^ 11 % 16 * 2 ^ 28 + addr / 2 ^ 8 % 8 * 2 ^ 16 + addr / 2 ^ 4 % 16 * 2 ^ 8 + addr % 16
    let core := addr / 2 ^ 16 % 2 ^ 12
    let m := addr / 2 ^ 48 % 2 ^ 16
    match addr / 2 ^ 28 % 2 ^ 6 with
    | 0 => .csr core n
    | 1 => .reg core (n % 32)
    | 2 => .scalar core (n % 8)
    | 3 => .desc core (n % 64)
    | 4 => .cell core (n % 2 ^ 15)
    | 5 => .slab core (n % 2 ^ 14)
    | 6 => .ctlCsr core n
    | 7 => .ctlReg core (n % 32)
    | 8 => .run core
    | 9 => .ctlRun core
    | 16 => .attach core
    | 17 => .ctlAttach core
    | 18 => .queue core (n / 64 % 4) (n % 64)
    | 19 => .barrier core (n % 32)
    | 20 => .message core (n % 64)
    | 21 => .entry core (n % 64) f
    | 22 => .feed core (n / 16 % 16) (n % 16)
    | 23 => .context ctx f
    | 10 => .block core (n % 64) f
    | 11 => .tlbScalar core n f
    | 12 => .tlbVector core n f
    | 13 => .tlbCluster core n f
    | 14 => .tile core n
    | 15 => .frame core n f
    | 24 => .command ctx (addr / 2 ^ 16 % 2 ^ 12) f
    | 25 => .tlbContext ctx (addr / 2 ^ 16 % 2 ^ 12) f
    | 32 => .state core f m
    | 33 => .out core n f
    | 34 => .ctlOut core n f
    | 35 => .share core n f m
    | 36 => .flight core f m
    | 37 => .parked core n f m
    | 38 => .group core n f m
    | 39 => .gangTask core n f m
    | 40 => .cluster core f m
    | 41 => .die core f m
    | 42 => .package n
    | _ => .mask core n

/-- The core in whose cluster and die a place lies. -/
def DebugPlace.core : DebugPlace → Nat
  | .mem key =>
    if key < 2 ^ 60 then 2304
    else if key < 2 ^ 61 then (key - 2 ^ 60) / 2 ^ 18
    else if key < 2 ^ 62 then (key - 2 ^ 61) / 2 ^ 18 * 96
    else if key < 2 ^ 63 then (key - 2 ^ 62) / 2 ^ 25 * 96
    else (key - 2 ^ 63) / 2 ^ 28 * 384
  | .csr c _ | .reg c _ | .scalar c _ | .desc c _ | .cell c _ | .slab c _ | .mask c _ | .ctlCsr c _ | .ctlReg c _
  | .run c | .ctlRun c | .attach c | .ctlAttach c | .queue c _ _ | .barrier c _ | .message c _ | .entry c _ _ | .feed c _ _ | .block c _ _
  | .tlbScalar c _ _ | .tlbVector c _ _ | .tlbCluster c _ _ | .tile c _ | .frame c _ _ | .state c _ _ | .out c _ _
  | .ctlOut c _ _ | .share c _ _ _ | .flight c _ _ | .parked c _ _ _ | .group c _ _ _ | .gangTask c _ _ _
  | .cluster c _ _ | .die c _ _ => c
  | .package _ => 2304
  | .context key _ | .command key _ _ | .tlbContext key _ _ =>
    let die := key / 2 ^ 16 % 256
    if key / 2 ^ 28 = 1 then 384 * die else if key / 2 ^ 28 = 4 then 384 * die + 96 * (key / 2 ^ 8 % 256) else 2304

/-- The place belongs to a die as a whole. -/
def DebugPlace.ofDie : DebugPlace → Bool
  | .mem key => decide (2 ^ 63 ≤ key)
  | .context key _ | .command key _ _ | .tlbContext key _ _ => key / 2 ^ 28 == 1
  | .die .. => true
  | _ => false

/-- The registers, and the stop, of a core that a debug stop or a BRK has stopped: they are written without a freeze
(07_prog_alias.md R166, R391). -/
def stoppedPlace (p : DebugPlace) (s : State) : Bool :=
  match p with
  | .csr c _ | .reg c _ | .run c => (s.coreAt c).steer.stopped
  | .ctlCsr c _ | .ctlReg c _ | .ctlRun c => (s.clusterAt (clusterOf c)).ctl.stopped
  | .attach _ | .ctlAttach _ => true
  | _ => false

/-- The place lies in a scope that a cluster or a die freeze has stopped. -/
def frozenPlace (p : DebugPlace) (s : State) : Bool :=
  (s.dieAt (dieOf p.core)).frozen || (!p.ofDie && (s.clusterAt (clusterOf p.core)).frozen)

/-- The place lies in a frozen scope, or belongs to a core that is stopped, and the package is not frozen.
DESIGN CHOICE: log entry 48. -/
def debugWritable (p : DebugPlace) (s : State) : Bool :=
  !s.pkg.frozen && decide (p.core < 2304) && (frozenPlace p s || stoppedPlace p s)

/-- A stopped processor goes on: where it stopped or, as `ondb` resumes it after a trap, with the return from that trap
(R166). The convoy stream of a core in task mode resumes (R138). DESIGN CHOICE: log entry 48. -/
def resumeStopped (ret : Bool) (s : State) : State :=
  if s.cur.stopped = false then s
  else
    let t := s.modCur (fun c => { c with stopped := false })
    if ret && t.cur.mode then
      let u := trapReturn t
      if u.cur.tpend then retakeTrap u else u
    else if t.agent = .control ∨ t.cur.mode = true then t
    else t.modCore (fun c => { c with
      steer := { c.steer with chalt := false }
      conv := if c.steer.chalt then { c.conv with st := convRunState c.conv } else c.conv })

/-- A write of the debug port. A register table takes valid descriptors only (03_plane.md R76). In a frozen scope it
writes the fields of a register that software cannot, and of a stopped core it writes as software does (R391, R166). -/
def debugWrite (p : DebugPlace) (v : Word) (s : State) : State :=
  let at' := fun (c : Nat) (f : Core → Core) => s.modCoreAt c f
  let cl' := fun (c : Nat) (f : Cluster → Cluster) => s.modClusterAt (clusterOf c) f
  let raw := frozenPlace p s
  let as' := fun (c : Nat) (a : Agent) (f : State → State) =>
    { f { s.focus c with agent := a } with agent := s.agent }.focus s.coreId
  let reg := fun (n : Nat) (c : Steer) =>
    if n = 0 then { c with pc := offNext v } else { c with regs := spPut 0 c.regs n v }
  match p with
  | .mem key => storeMem key 8 v.toNat s
  | .csr c n => (as' c .steer (csrStore n v v)).modCoreAt c (fun k => if raw then rawCsr n v k else k)
  | .reg c n => as' c .steer (fun t => t.modCur (reg n))
  | .ctlCsr c n => (as' c .control (csrStore n v v)).modClusterAt (clusterOf c) (fun k =>
      if raw then { k with ctl := rawSteer n v k.ctl } else k)
  | .ctlReg c n => as' c .control (fun t => t.modCur (reg n))
  | .run c => as' c .steer (resumeStopped (v.getLsbD 0))
  | .ctlRun c => as' c .control (resumeStopped (v.getLsbD 0))
  | .scalar c n => at' c (fun k => { k with conv := { k.conv with k := spPut 0 k.conv.k n v } })
  | .desc c n => if descValid v then at' c (fun k => { k with conv := { k.conv with table := spPut 0 k.conv.table n v } }) else s
  | .cell c n => at' c (fun k => { k with conv := { k.conv with plane := spPut 0 k.conv.plane n (v.setWidth 32) } })
  | .slab c n => at' c (fun k => { k with mat := { k.mat with acc := spPut 0 k.mat.acc n (v.setWidth 32) } })
  | .mask c n => at' c (fun k =>
      let m := if 8192 ≤ n then spPut false k.conv.masks n (v.getLsbD 0) else k.conv.masks
      { k with conv := { k.conv with masks := m } })
  | .attach c => at' c (fun k => { k with steer := { k.steer with attached := v.getLsbD 0 } })
  | .ctlAttach c => s.modClusterAt (clusterOf c) (fun k => { k with ctl := { k.ctl with attached := v.getLsbD 0 } })
  | .queue c q n => at' c (fun k => { k with q := queueSet q n v k.q })
  | .barrier c n => s.modClusterAt (clusterOf c) (fun k => { k with barriers := spPut 0 k.barriers n v })
  | .message c n => s.modClusterAt (clusterOf c) (fun k => { k with cq := k.cq.set n v })
  | .entry c i f => s.modClusterAt (clusterOf c) (·.modEntry i (entrySet f v))
  | .feed c q f => s.modClusterAt (clusterOf c) (·.modFeed q (feedSet f v))
  | .block c i f => s.modClusterAt (clusterOf c) (·.modEntry i (fun e => { e with block := blockSet f v e.block }))
  | .tlbScalar c n f => at' c (fun k => { k with tlbS := tlbSet n f v k.tlbS })
  | .tlbVector c n f => at' c (fun k => { k with tlbV := tlbSet n f v k.tlbV })
  | .tlbCluster c n f => s.modClusterAt (clusterOf c) (fun k => { k with tlb := tlbSet n f v k.tlb })
  | .tile c n => at' c (fun k => { k with lad := { k.lad with tile := tileSet n v k.lad.tile } })
  | .frame c n f => at' c (fun k => { k with trace := frameSet n f v k.trace })
  | .context key f => s.modContext key (contextSet f v)
  | .command key n f => s.modContext key (fun c => { c with cmds := commandsSet n f v c.cmds })
  | .tlbContext key n f => s.modContext key (fun c => { c with tlb := tlbSet n f v c.tlb })
  | .state c f m => at' c (coreSet f m v)
  | .out c n f => at' c (fun k => { k with steer := { k.steer with outs := elementSet n f .blank (outSet f v) k.steer.outs } })
  | .ctlOut c n f => cl' c (fun k => { k with ctl := { k.ctl with outs := elementSet n f .blank (outSet f v) k.ctl.outs } })
  | .share c n f m => at' c (fun k => { k with gang := { k.gang with
      shares := elementSet n f .blank (shareSet f m v) k.gang.shares } })
  | .flight c f m => at' c (fun k => { k with conv := { k.conv with flight := flightSet f m v k.conv.flight } })
  | .parked c n f m => at' c (fun k => { k with conv := { k.conv with
      parked := elementSet n f ⟨0, [], []⟩ (parkedSet f m v) k.conv.parked } })
  | .group c n f m => cl' c (fun k => { k with groups := elementSet n f .blank (groupSet f m v) k.groups })
  | .gangTask c n f m => cl' c (fun k => { k with groups := k.groups.mapIdx (fun i g =>
      if i = n / 128 then { g with tasks := elementSet (n % 128) f .blank (gangTaskSet f m v) g.tasks } else g) })
  | .cluster c f m => cl' c (clusterSet f m v)
  | .die c f m => s.modDieAt (dieOf c) (dieSet f m v)
  | .package _ => s

/-- What a write of a place that the convoy in flight has latched comes to, by the numbering of `Flight.late`; VSTART and
VISPOS, which its end sets, keep nothing of theirs (03_plane.md R76; 05_convoy.md R115, R138; 10_core_matrix.md R260). DESIGN CHOICE: log entry 48. -/
def lateWrites (p : DebugPlace) (v : Word) (c : Conv) : Option (List (Nat × Word)) :=
  match p with
  | .scalar _ n => some [(n, v)]
  | .desc _ n => some (if descValid v then [(64 + n, v)] else [])
  | .csr _ n =>
    if n = 0x010 then some [(8, (vtypeNext c.vtype v).setWidth 64)]
    else if n = 0x011 then some [(9, (vlNext v).setWidth 64)]
    else if n = 0x012 then some [(10, v)]
    else if n = 0x014 then some [(11, v)]
    else if n = 0x051 then some [(12, (msizeNext v).setWidth 64)]
    else if n = 0x052 then some [(13, v)]
    else if n = 0x053 then some [(14, v)]
    else if n = 0x054 then some [(15, v &&& 0xFFFFFFFF000000FF)]
    else if n = 0x016 ∨ n = 0x017 then some []
    else none
  | _ => none

/-- A write of the debug port; of what the convoy in flight has latched, when that convoy is no longer in flight. -/
def debugStore (p : DebugPlace) (v : Word) (s : State) : State :=
  let c := (s.coreAt p.core).conv
  match c.flight, lateWrites p v c with
  | some _, some l => s.modCoreAt p.core (fun k => { k with conv := { k.conv with
      flight := k.conv.flight.map (fun f => { f with late := f.late ++ l }) } })
  | _, _ => debugWrite p v s

/-- DEBUG_PORT_ACCESS: a read changes nothing; a write is accepted in a frozen cluster or die, and of a stopped core. -/
def execDebugPortAccess (write : Bool) (addr : Nat) (v : BitVec 64) (s : State) : Result :=
  let p := debugPlace addr
  .next (if s.pkg.debugEn && write && debugWritable p s then debugStore p v s else s)

/-! ## The mailbox (R382) and package reset (R386) -/

/-- ATTEST. -/
def execAttest (s : State) : Result := .next (mbPost 1 0 mbAttest s)
/-- RECOVER. -/
def execRecover (v : BitVec 64) (s : State) : Result := .next (mbPost 2 (v.setWidth 32) (mbRecover (v.toNat % 2 ^ 32)) s)
/-- COMMIT_SVN. -/
def execCommitSvn (s : State) : Result := .next (mbPost 3 0 mbCommitSvn s)
/-- CERT. -/
def execCert (s : State) : Result := .next (mbPost 4 0 mbCert s)
/-- CLLOG. -/
def execCllog (v : BitVec 64) (s : State) : Result := .next (mbPost 5 (v.setWidth 32) (mbCllog (v.toNat % 2 ^ 32)) s)
/-- DBGEN. -/
def execDbgen (v : BitVec 64) (s : State) : Result := .next (mbPost 6 (v.setWidth 32) (mbDbgen (v.toNat % 2 ^ 32)) s)
/-- UNKNOWN_COMMAND. -/
def execUnknownCommand (c : BitVec 8) (s : State) : Result := .next (mbPost c 0 (mbRun c.toNat 0) s)

/-- PACKAGE_RESET: the reset, and the ROM's boot from flash, which starts the firmware. -/
def execPackageReset (s : State) : Result := .next (bootFrom (flashKey 0) (resetPackage s))

/-- POWER_LOSS: everything stops until the next reset; an image that RECOVER was writing may be left failing verification
(R385). -/
def execPowerLoss (s : State) : Result :=
  let torn : BitVec 4 := .ofNat 4 (1 + (Config.freeWord s.tick).toNat % 5)
  .next (s.modPkg (fun p => { p with
    cutOff := true
    unpowered := true
    flashFail := if inRecovery s && Config.freeBool s.tick then torn else p.flashFail })).tickUp

/-! ## Power and scrubbing (R340, R376 to R380) -/

/-- GRANT_CYCLE. -/
def execGrantCycle (s : State) : Result := .next (if s.pkg.frozen || s.pkg.unpowered then s else grantCycle s)
/-- GRANT_DELIVERY. -/
def execGrantDelivery (d : Nat) (s : State) : Result := .next (deliverGrant d s)
/-- MISSED_GRANTS. -/
def execMissedGrants (d : Nat) (s : State) : Result := .next (missGrant d s)
/-- THERMAL_THROTTLE. -/
def execThermalThrottle (d : Nat) (s : State) : Result :=
  .next (if d < 6 then s.modDieAt d (fun x => { x with hot := true }) else s)
/-- THERMAL_CUTOFF. -/
def execThermalCutoff (s : State) : Result := .next (signalMsix 0 (s.modPkg (fun p => { p with cutOff := true })))
/-- DIE_STORE_SCRUB: the corrected words are written back. -/
def execDieStoreScrub (d : Nat) (s : State) : Result :=
  .next (if d < 6 then s.modDieAt d (fun x => { x with corrected := [] }) else s)
/-- HBM_SCRUB. -/
def execHbmScrub (s : State) : Result := .next (s.modPkg (fun p => { p with corrected := [] }))

/-! ## Links (19_fabric.md R394 to R396) and time (R408) -/

/-- The 256 bytes that arrive: a flit of a number, with contents that the spec leaves open, whole or with a bit of its CRC
turned over. DESIGN CHOICE: log entry 50. -/
def arriving (seq : BitVec 12) (whole : Bool) (tick : Nat) : Nat :=
  let f : Flit :=
    { seq := seq, ack := .ofNat 12 (Config.freeNat tick), nak := false, tc := .ofNat 3 (Config.freeNat (tick + 1))
      route := .ofNat 36 (Config.freeNat (tick + 2)), payload := .ofNat 1920 (Config.freeNat (tick + 3)) }
  if whole then f.bits else f.body + 2 ^ 1984 * (crc64 248 f.body ^^^ 1).toNat

/-- FLIT_RECEIVE: 256 bytes arrive and are checked; the flit in order is delivered and acknowledged, and a NAK is sent for
one that fails its CRC. -/
def execFlitReceive (port : Nat) (seq : BitVec 16) (crcOk : Bool) (s : State) : Result :=
  .next { modPort port (Port.receive (arriving (seq.setWidth 12) crcOk s.tick) (s.tick + 4)) s with tick := s.tick + 6 }

/-- NAK_REPLAY: the sender replays from the flit that the NAK names, in order. -/
def execNakReplay (port : Nat) (seq : BitVec 16) (s : State) : Result := .next (modPort port (Port.nak (seq.setWidth 12)) s)

/-- PORT_RETRAIN: after 16 replays of one flit, or from down, training begins; a port in training comes up at 8 lanes or,
when a lane fails, at 4, and sends again what it held; or it cannot train and is down. -/
def execPortRetrain (port : Nat) (s : State) : Result :=
  if (s.port port).state = 1 then
    let t := { modPort port (Port.endTraining s.tick port) s with tick := s.tick + port + 1 }
    .next (if (t.port port).isUp then t else portDown port t)
  else .next (modPort port (fun p => if p.trains then p.startTraining else p) s)

/-- PORT_DOWN. -/
def execPortDown (port : Nat) (s : State) : Result := .next (portDown port s)

/-- Every port that is up sends a time message of class 0 (R397, R408). -/
def sendTime (s : State) : State :=
  { modPorts (fun n p => p.sendFree 0 (s.tick + 2 * n)) s with tick := s.tick + 36 }

/-- TIME_MESSAGE: every port sends one, and those received bring the offset measured and how many other packages of the domain are masters. With one master in all the
tick rate is corrected by at most 100 ppm; the timebase itself never steps. DESIGN CHOICE: log entry 50. -/
def execTimeMessage (v : BitVec 64) (s : State) : Result :=
  let masters := v.toNat / 2 ^ 32 + (if s.fab.master then 1 else 0)
  .next ((sendTime s).modFab (fun f =>
    if masters = 1 then { f with
      ofs := if f.master then 0 else v.setWidth 32
      rate := if f.master then 0 else ((Config.freeWord s.tick).toNat % 201 : Nat) - 100 }
    else { f with ofs := 0, rate := 0 })).tickUp

/-! ## The host's accesses (18_package.md R368, R369) -/

/-- What a host access of 8 bytes reaches. -/
inductive HostPlace where
  /-- The spread view of HBM, at an offset. -/
  | hbm (off : Nat)
  /-- A line of host memory. -/
  | line (key : Nat)
  /-- The package register block, BAR 0. -/
  | register (off : Nat)
  /-- The recovery window, BAR 2. -/
  | window (off : Nat)
  /-- The base or the size of an HDM decoder. -/
  | decoder (n : Nat)
  | none
  deriving DecidableEq, Repr, Inhabited

/-- The HBM offset of a host physical address, through the two HDM decoders: the first maps HBM from 0, and the second maps
what follows the first's. DESIGN CHOICE: log entry 82. -/
def hdmOffset (hdm : Sp Word) (hpa : Nat) : Option Nat :=
  let base := fun (d : Nat) => (spGet 0 hdm (2 * d)).toNat
  let size := fun (d : Nat) => (spGet 0 hdm (2 * d + 1)).toNat
  if base 0 ≤ hpa ∧ hpa < base 0 + size 0 then some (hpa - base 0)
  else if base 1 ≤ hpa ∧ hpa < base 1 + size 1 then some (size 0 + (hpa - base 1))
  else none

/-- The place that the address of a host access names, by a numbering of the model's. DESIGN CHOICE: log entry 66. -/
def hostPlace (s : State) (addr : Nat) : HostPlace :=
  if addr + 8 ≤ 0xC000000000 then .hbm addr
  else if 2 ^ 56 ≤ addr ∧ addr < 2 ^ 56 + 2 ^ 52 then .line addr
  else if 2 ^ 57 ≤ addr ∧ addr < 2 ^ 58 then
    match hdmOffset s.pkg.hdm (addr - 2 ^ 57) with
    | some off => if off + 8 ≤ 0xC000000000 then .hbm off else .none
    | Option.none => .none
  else if 2 ^ 58 ≤ addr ∧ addr < 2 ^ 58 + 0x10000 ∧ addr % 8 = 0 then .register (addr - 2 ^ 58)
  else if 2 ^ 59 ≤ addr ∧ addr + 8 ≤ 2 ^ 59 + 0x1000000 then .window (addr - 2 ^ 59)
  else if 2 ^ 60 ≤ addr ∧ addr < 2 ^ 60 + 32 ∧ addr % 8 = 0 then .decoder ((addr - 2 ^ 60) / 8)
  else .none

/-- A host store. The recovery window takes it in RECOVERY (R385). -/
def hostStore (p : HostPlace) (v : Word) (s : State) : State :=
  match p with
  | .hbm off => storeMem (0xFFF * 2 ^ 42 + off) 8 v.toNat s
  | .line key => storeMem key 8 v.toNat s
  | .register off => pkgWrite off v s
  | .window off => if inRecovery s then storeMem (recoveryKey off) 8 v.toNat s else s
  | .decoder n => s.modPkg (fun p => { p with hdm := spPut 0 p.hdm n v })
  | .none => s

/-- What a host access reaches in a frozen package: the registers to read, and the mailbox's to write (18_package.md R382,
R390). DESIGN CHOICE: log entry 66. -/
def HostPlace.inFreeze (write : Bool) (p : HostPlace) : Bool :=
  match p with
  | .register off => !write || off == 0x40 || off == 0x48
  | _ => false

/-- CXL_MEM_ACCESS: a host access of 8 bytes; a read may read the timebase. A waiter that monitors a line tests its buoys
again at its next turn. DESIGN CHOICE: log entry 66. -/
def execCxlMemAccess (write : Bool) (addr : Nat) (v : BitVec 64) (s : State) : Result :=
  let p := hostPlace s addr
  .next (if (s.pkg.frozen && !p.inFreeze write) || s.pkg.unpowered then s
    else if write then hostStore p v s
    else match p with
      | .register off => s.afterRead (.pkgReg off)
      | _ => s)

end Sys2Proof.Machine
end

