-- ==== Sys2Proof/Machine/VectorExec.lean ====
section
/-! DEFINITION. The meanings of the vector words: each joins the convoy that forms at CPC, as the member that
Machine/Members.lean makes of it. -/

namespace Sys2Proof.Machine

/-- VFADD (R122). -/
def execVfadd (d a b : BitVec 6) (m : BitVec 3) (c : BitVec 1) (s : State) : Result :=
  vectorWord (.vfadd d a b m c) s
/-- VFSUB (R122). -/
def execVfsub (d a b : BitVec 6) (m : BitVec 3) (c : BitVec 1) (s : State) : Result :=
  vectorWord (.vfsub d a b m c) s
/-- VFMUL (R122). -/
def execVfmul (d a b : BitVec 6) (m : BitVec 3) (c : BitVec 1) (s : State) : Result :=
  vectorWord (.vfmul d a b m c) s
/-- VFMIN (R122). -/
def execVfmin (d a b : BitVec 6) (m : BitVec 3) (c : BitVec 1) (s : State) : Result :=
  vectorWord (.vfmin d a b m c) s
/-- VFMAX (R122). -/
def execVfmax (d a b : BitVec 6) (m : BitVec 3) (c : BitVec 1) (s : State) : Result :=
  vectorWord (.vfmax d a b m c) s
/-- VFDIV (R122). -/
def execVfdiv (d a b : BitVec 6) (m : BitVec 3) (c : BitVec 1) (s : State) : Result :=
  vectorWord (.vfdiv d a b m c) s
/-- VFADD_K (R122). -/
def execVfaddK (d a : BitVec 6) (x : BitVec 1) (k m : BitVec 3) (c : BitVec 1) (s : State) : Result :=
  vectorWord (.vfaddK d a x k m c) s
/-- VFSUB_K (R122). -/
def execVfsubK (d a : BitVec 6) (x : BitVec 1) (k m : BitVec 3) (c : BitVec 1) (s : State) : Result :=
  vectorWord (.vfsubK d a x k m c) s
/-- VFMUL_K (R122). -/
def execVfmulK (d a : BitVec 6) (x : BitVec 1) (k m : BitVec 3) (c : BitVec 1) (s : State) : Result :=
  vectorWord (.vfmulK d a x k m c) s
/-- VFMIN_K (R122). -/
def execVfminK (d a : BitVec 6) (x : BitVec 1) (k m : BitVec 3) (c : BitVec 1) (s : State) : Result :=
  vectorWord (.vfminK d a x k m c) s
/-- VFMAX_K (R122). -/
def execVfmaxK (d a : BitVec 6) (x : BitVec 1) (k m : BitVec 3) (c : BitVec 1) (s : State) : Result :=
  vectorWord (.vfmaxK d a x k m c) s
/-- VFDIV_K (R122). -/
def execVfdivK (d a : BitVec 6) (x : BitVec 1) (k m : BitVec 3) (c : BitVec 1) (s : State) : Result :=
  vectorWord (.vfdivK d a x k m c) s
/-- VFNEG (R122). -/
def execVfneg (d a : BitVec 6) (m : BitVec 3) (c : BitVec 1) (s : State) : Result :=
  vectorWord (.vfneg d a m c) s
/-- VFABS (R122). -/
def execVfabs (d a : BitVec 6) (m : BitVec 3) (c : BitVec 1) (s : State) : Result :=
  vectorWord (.vfabs d a m c) s
/-- VFCPYS (R122). -/
def execVfcpys (d a b : BitVec 6) (m : BitVec 3) (c : BitVec 1) (s : State) : Result :=
  vectorWord (.vfcpys d a b m c) s
/-- VFCPYSN (R122). -/
def execVfcpysn (d a b : BitVec 6) (m : BitVec 3) (c : BitVec 1) (s : State) : Result :=
  vectorWord (.vfcpysn d a b m c) s
/-- VFKIND (R122). -/
def execVfkind (d a : BitVec 6) (m : BitVec 3) (c : BitVec 1) (s : State) : Result :=
  vectorWord (.vfkind d a m c) s
/-- VFMA (R122). -/
def execVfma (d a b : BitVec 6) (m : BitVec 3) (c : BitVec 1) (s : State) : Result :=
  vectorWord (.vfma d a b m c) s
/-- VFNMA (R122). -/
def execVfnma (d a b : BitVec 6) (m : BitVec 3) (c : BitVec 1) (s : State) : Result :=
  vectorWord (.vfnma d a b m c) s
/-- VFMS (R122). -/
def execVfms (d a b : BitVec 6) (m : BitVec 3) (c : BitVec 1) (s : State) : Result :=
  vectorWord (.vfms d a b m c) s
/-- VFNMS (R122). -/
def execVfnms (d a b : BitVec 6) (m : BitVec 3) (c : BitVec 1) (s : State) : Result :=
  vectorWord (.vfnms d a b m c) s
/-- VFMA_K (R122). -/
def execVfmaK (d a : BitVec 6) (k m : BitVec 3) (c : BitVec 1) (s : State) : Result :=
  vectorWord (.vfmaK d a k m c) s
/-- VFNMA_K (R122). -/
def execVfnmaK (d a : BitVec 6) (k m : BitVec 3) (c : BitVec 1) (s : State) : Result :=
  vectorWord (.vfnmaK d a k m c) s
/-- VFMS_K (R122). -/
def execVfmsK (d a : BitVec 6) (k m : BitVec 3) (c : BitVec 1) (s : State) : Result :=
  vectorWord (.vfmsK d a k m c) s
/-- VFNMS_K (R122). -/
def execVfnmsK (d a : BitVec 6) (k m : BitVec 3) (c : BitVec 1) (s : State) : Result :=
  vectorWord (.vfnmsK d a k m c) s
/-- VFSQRT (R123). -/
def execVfsqrt (d a : BitVec 6) (m : BitVec 3) (c : BitVec 1) (s : State) : Result :=
  vectorWord (.vfsqrt d a m c) s
/-- VFRSQRT (R123). -/
def execVfrsqrt (d a : BitVec 6) (m : BitVec 3) (c : BitVec 1) (s : State) : Result :=
  vectorWord (.vfrsqrt d a m c) s
/-- VFRCP (R123). -/
def execVfrcp (d a : BitVec 6) (m : BitVec 3) (c : BitVec 1) (s : State) : Result :=
  vectorWord (.vfrcp d a m c) s
/-- VFEXP2 (R123). -/
def execVfexp2 (d a : BitVec 6) (m : BitVec 3) (c : BitVec 1) (s : State) : Result :=
  vectorWord (.vfexp2 d a m c) s
/-- VFLOG2 (R123). -/
def execVflog2 (d a : BitVec 6) (m : BitVec 3) (c : BitVec 1) (s : State) : Result :=
  vectorWord (.vflog2 d a m c) s
/-- VFSINPI (R123). -/
def execVfsinpi (d a : BitVec 6) (m : BitVec 3) (c : BitVec 1) (s : State) : Result :=
  vectorWord (.vfsinpi d a m c) s
/-- VFTANH (R123). -/
def execVftanh (d a : BitVec 6) (m : BitVec 3) (c : BitVec 1) (s : State) : Result :=
  vectorWord (.vftanh d a m c) s
/-- VFSIGM (R123). -/
def execVfsigm (d a : BitVec 6) (m : BitVec 3) (c : BitVec 1) (s : State) : Result :=
  vectorWord (.vfsigm d a m c) s
/-- VADD (R124). -/
def execVadd (d a b : BitVec 6) (m : BitVec 3) (c : BitVec 1) (s : State) : Result :=
  vectorWord (.vadd d a b m c) s
/-- VSUB (R124). -/
def execVsub (d a b : BitVec 6) (m : BitVec 3) (c : BitVec 1) (s : State) : Result :=
  vectorWord (.vsub d a b m c) s
/-- VMUL (R124). -/
def execVmul (d a b : BitVec 6) (m : BitVec 3) (c : BitVec 1) (s : State) : Result :=
  vectorWord (.vmul d a b m c) s
/-- VMIN (R124). -/
def execVmin (d a b : BitVec 6) (m : BitVec 3) (c : BitVec 1) (s : State) : Result :=
  vectorWord (.vmin d a b m c) s
/-- VMAX (R124). -/
def execVmax (d a b : BitVec 6) (m : BitVec 3) (c : BitVec 1) (s : State) : Result :=
  vectorWord (.vmax d a b m c) s
/-- VDIV (R124). -/
def execVdiv (d a b : BitVec 6) (m : BitVec 3) (c : BitVec 1) (s : State) : Result :=
  vectorWord (.vdiv d a b m c) s
/-- VREM (R124). -/
def execVrem (d a b : BitVec 6) (m : BitVec 3) (c : BitVec 1) (s : State) : Result :=
  vectorWord (.vrem d a b m c) s
/-- VADD_K (R124). -/
def execVaddK (d a : BitVec 6) (x : BitVec 1) (k m : BitVec 3) (c : BitVec 1) (s : State) : Result :=
  vectorWord (.vaddK d a x k m c) s
/-- VSUB_K (R124). -/
def execVsubK (d a : BitVec 6) (x : BitVec 1) (k m : BitVec 3) (c : BitVec 1) (s : State) : Result :=
  vectorWord (.vsubK d a x k m c) s
/-- VMUL_K (R124). -/
def execVmulK (d a : BitVec 6) (x : BitVec 1) (k m : BitVec 3) (c : BitVec 1) (s : State) : Result :=
  vectorWord (.vmulK d a x k m c) s
/-- VMIN_K (R124). -/
def execVminK (d a : BitVec 6) (x : BitVec 1) (k m : BitVec 3) (c : BitVec 1) (s : State) : Result :=
  vectorWord (.vminK d a x k m c) s
/-- VMAX_K (R124). -/
def execVmaxK (d a : BitVec 6) (x : BitVec 1) (k m : BitVec 3) (c : BitVec 1) (s : State) : Result :=
  vectorWord (.vmaxK d a x k m c) s
/-- VDIV_K (R124). -/
def execVdivK (d a : BitVec 6) (x : BitVec 1) (k m : BitVec 3) (c : BitVec 1) (s : State) : Result :=
  vectorWord (.vdivK d a x k m c) s
/-- VREM_K (R124). -/
def execVremK (d a : BitVec 6) (x : BitVec 1) (k m : BitVec 3) (c : BitVec 1) (s : State) : Result :=
  vectorWord (.vremK d a x k m c) s
/-- VADDI (R124). -/
def execVaddi (d : BitVec 6) (i : BitVec 12) (m : BitVec 3) (c : BitVec 1) (s : State) : Result :=
  vectorWord (.vaddi d i m c) s
/-- VRSUBI (R124). -/
def execVrsubi (d : BitVec 6) (i : BitVec 12) (m : BitVec 3) (c : BitVec 1) (s : State) : Result :=
  vectorWord (.vrsubi d i m c) s
/-- VMULI (R124). -/
def execVmuli (d : BitVec 6) (i : BitVec 12) (m : BitVec 3) (c : BitVec 1) (s : State) : Result :=
  vectorWord (.vmuli d i m c) s
/-- VMINI (R124). -/
def execVmini (d : BitVec 6) (i : BitVec 12) (m : BitVec 3) (c : BitVec 1) (s : State) : Result :=
  vectorWord (.vmini d i m c) s
/-- VMAXI (R124). -/
def execVmaxi (d : BitVec 6) (i : BitVec 12) (m : BitVec 3) (c : BitVec 1) (s : State) : Result :=
  vectorWord (.vmaxi d i m c) s
/-- VAND (R125). -/
def execVand (d a b : BitVec 6) (m : BitVec 3) (c : BitVec 1) (s : State) : Result :=
  vectorWord (.vand d a b m c) s
/-- VOR (R125). -/
def execVor (d a b : BitVec 6) (m : BitVec 3) (c : BitVec 1) (s : State) : Result :=
  vectorWord (.vor d a b m c) s
/-- VXOR (R125). -/
def execVxor (d a b : BitVec 6) (m : BitVec 3) (c : BitVec 1) (s : State) : Result :=
  vectorWord (.vxor d a b m c) s
/-- VANDN (R125). -/
def execVandn (d a b : BitVec 6) (m : BitVec 3) (c : BitVec 1) (s : State) : Result :=
  vectorWord (.vandn d a b m c) s
/-- VSLL (R125). -/
def execVsll (d a b : BitVec 6) (m : BitVec 3) (c : BitVec 1) (s : State) : Result :=
  vectorWord (.vsll d a b m c) s
/-- VSRL (R125). -/
def execVsrl (d a b : BitVec 6) (m : BitVec 3) (c : BitVec 1) (s : State) : Result :=
  vectorWord (.vsrl d a b m c) s
/-- VSRA (R125). -/
def execVsra (d a b : BitVec 6) (m : BitVec 3) (c : BitVec 1) (s : State) : Result :=
  vectorWord (.vsra d a b m c) s
/-- VMOV (R125). -/
def execVmov (d a : BitVec 6) (m : BitVec 3) (c : BitVec 1) (s : State) : Result :=
  vectorWord (.vmov d a m c) s
/-- VANDI (R125). -/
def execVandi (d : BitVec 6) (i : BitVec 12) (m : BitVec 3) (c : BitVec 1) (s : State) : Result :=
  vectorWord (.vandi d i m c) s
/-- VORI (R125). -/
def execVori (d : BitVec 6) (i : BitVec 12) (m : BitVec 3) (c : BitVec 1) (s : State) : Result :=
  vectorWord (.vori d i m c) s
/-- VXORI (R125). -/
def execVxori (d : BitVec 6) (i : BitVec 12) (m : BitVec 3) (c : BitVec 1) (s : State) : Result :=
  vectorWord (.vxori d i m c) s
/-- VLI (R125). -/
def execVli (d : BitVec 6) (i : BitVec 12) (m : BitVec 3) (c : BitVec 1) (s : State) : Result :=
  vectorWord (.vli d i m c) s
/-- VSLLI (R125). -/
def execVslli (d i : BitVec 6) (m : BitVec 3) (c : BitVec 1) (s : State) : Result :=
  vectorWord (.vslli d i m c) s
/-- VSRLI (R125). -/
def execVsrli (d i : BitVec 6) (m : BitVec 3) (c : BitVec 1) (s : State) : Result :=
  vectorWord (.vsrli d i m c) s
/-- VSRAI (R125). -/
def execVsrai (d i : BitVec 6) (m : BitVec 3) (c : BitVec 1) (s : State) : Result :=
  vectorWord (.vsrai d i m c) s
/-- VSADD (R124). -/
def execVsadd (d a b : BitVec 6) (m : BitVec 3) (c : BitVec 1) (s : State) : Result :=
  vectorWord (.vsadd d a b m c) s
/-- VSSUB (R124). -/
def execVssub (d a b : BitVec 6) (m : BitVec 3) (c : BitVec 1) (s : State) : Result :=
  vectorWord (.vssub d a b m c) s
/-- VMULH (R124). -/
def execVmulh (d a b : BitVec 6) (m : BitVec 3) (c : BitVec 1) (s : State) : Result :=
  vectorWord (.vmulh d a b m c) s
/-- VAVG (R124). -/
def execVavg (d a b : BitVec 6) (m : BitVec 3) (c : BitVec 1) (s : State) : Result :=
  vectorWord (.vavg d a b m c) s
/-- VCEQ (R126). -/
def execVceq (d : BitVec 3) (a b : BitVec 6) (m : BitVec 3) (c : BitVec 1) (s : State) : Result :=
  vectorWord (.vceq d a b m c) s
/-- VCNE (R126). -/
def execVcne (d : BitVec 3) (a b : BitVec 6) (m : BitVec 3) (c : BitVec 1) (s : State) : Result :=
  vectorWord (.vcne d a b m c) s
/-- VCLT (R126). -/
def execVclt (d : BitVec 3) (a b : BitVec 6) (m : BitVec 3) (c : BitVec 1) (s : State) : Result :=
  vectorWord (.vclt d a b m c) s
/-- VCLE (R126). -/
def execVcle (d : BitVec 3) (a b : BitVec 6) (m : BitVec 3) (c : BitVec 1) (s : State) : Result :=
  vectorWord (.vcle d a b m c) s
/-- VCGT (R126). -/
def execVcgt (d : BitVec 3) (a b : BitVec 6) (m : BitVec 3) (c : BitVec 1) (s : State) : Result :=
  vectorWord (.vcgt d a b m c) s
/-- VCGE (R126). -/
def execVcge (d : BitVec 3) (a b : BitVec 6) (m : BitVec 3) (c : BitVec 1) (s : State) : Result :=
  vectorWord (.vcge d a b m c) s
/-- VCUN (R126). -/
def execVcun (d : BitVec 3) (a b : BitVec 6) (m : BitVec 3) (c : BitVec 1) (s : State) : Result :=
  vectorWord (.vcun d a b m c) s
/-- VCEQ_K (R126). -/
def execVceqK (d : BitVec 3) (a : BitVec 6) (k m : BitVec 3) (c : BitVec 1) (s : State) : Result :=
  vectorWord (.vceqK d a k m c) s
/-- VCNE_K (R126). -/
def execVcneK (d : BitVec 3) (a : BitVec 6) (k m : BitVec 3) (c : BitVec 1) (s : State) : Result :=
  vectorWord (.vcneK d a k m c) s
/-- VCLT_K (R126). -/
def execVcltK (d : BitVec 3) (a : BitVec 6) (k m : BitVec 3) (c : BitVec 1) (s : State) : Result :=
  vectorWord (.vcltK d a k m c) s
/-- VCLE_K (R126). -/
def execVcleK (d : BitVec 3) (a : BitVec 6) (k m : BitVec 3) (c : BitVec 1) (s : State) : Result :=
  vectorWord (.vcleK d a k m c) s
/-- VCGT_K (R126). -/
def execVcgtK (d : BitVec 3) (a : BitVec 6) (k m : BitVec 3) (c : BitVec 1) (s : State) : Result :=
  vectorWord (.vcgtK d a k m c) s
/-- VCGE_K (R126). -/
def execVcgeK (d : BitVec 3) (a : BitVec 6) (k m : BitVec 3) (c : BitVec 1) (s : State) : Result :=
  vectorWord (.vcgeK d a k m c) s
/-- VCUN_K (R126). -/
def execVcunK (d : BitVec 3) (a : BitVec 6) (k m : BitVec 3) (c : BitVec 1) (s : State) : Result :=
  vectorWord (.vcunK d a k m c) s
/-- VMAND (R127). -/
def execVmand (d a b m : BitVec 3) (c : BitVec 1) (s : State) : Result :=
  vectorWord (.vmand d a b m c) s
/-- VMOR (R127). -/
def execVmor (d a b m : BitVec 3) (c : BitVec 1) (s : State) : Result :=
  vectorWord (.vmor d a b m c) s
/-- VMXOR (R127). -/
def execVmxor (d a b m : BitVec 3) (c : BitVec 1) (s : State) : Result :=
  vectorWord (.vmxor d a b m c) s
/-- VMANDN (R127). -/
def execVmandn (d a b m : BitVec 3) (c : BitVec 1) (s : State) : Result :=
  vectorWord (.vmandn d a b m c) s
/-- VMNOT (R127). -/
def execVmnot (d a m : BitVec 3) (c : BitVec 1) (s : State) : Result :=
  vectorWord (.vmnot d a m c) s
/-- VMSET (R127). -/
def execVmset (d m : BitVec 3) (c : BitVec 1) (s : State) : Result :=
  vectorWord (.vmset d m c) s
/-- VMCLR (R127). -/
def execVmclr (d m : BitVec 3) (c : BitVec 1) (s : State) : Result :=
  vectorWord (.vmclr d m c) s
/-- VSEL (R128). -/
def execVsel (d a b : BitVec 6) (m : BitVec 3) (c : BitVec 1) (s : State) : Result :=
  vectorWord (.vsel d a b m c) s
/-- VSELZ (R128). -/
def execVselz (d a : BitVec 6) (m : BitVec 3) (c : BitVec 1) (s : State) : Result :=
  vectorWord (.vselz d a m c) s
/-- VCVT (R129). -/
def execVcvt (d a : BitVec 6) (t : BitVec 4) (m : BitVec 3) (c : BitVec 1) (s : State) : Result :=
  vectorWord (.vcvt d a t m c) s
/-- VQNT (R130). -/
def execVqnt (d a : BitVec 6) (t : BitVec 4) (m : BitVec 3) (c : BitVec 1) (s : State) : Result :=
  vectorWord (.vqnt d a t m c) s
/-- VDQNT (R130). -/
def execVdqnt (d a : BitVec 6) (t : BitVec 4) (m : BitVec 3) (c : BitVec 1) (s : State) : Result :=
  vectorWord (.vdqnt d a t m c) s
/-- VGATH (R131). -/
def execVgath (d a b : BitVec 6) (m : BitVec 3) (c : BitVec 1) (s : State) : Result :=
  vectorWord (.vgath d a b m c) s
/-- VHEAD (R131). -/
def execVhead (d a b : BitVec 6) (m : BitVec 3) (c : BitVec 1) (s : State) : Result :=
  vectorWord (.vhead d a b m c) s
/-- VTAIL (R131). -/
def execVtail (d a b : BitVec 6) (m : BitVec 3) (c : BitVec 1) (s : State) : Result :=
  vectorWord (.vtail d a b m c) s
/-- VBCAST (R131). -/
def execVbcast (d a : BitVec 6) (m : BitVec 3) (c : BitVec 1) (s : State) : Result :=
  vectorWord (.vbcast d a m c) s
/-- VFREDSUM (R132). -/
def execVfredsum (d a : BitVec 6) (m : BitVec 3) (c : BitVec 1) (s : State) : Result :=
  vectorWord (.vfredsum d a m c) s
/-- VFREDSUMW (R132). -/
def execVfredsumw (d a : BitVec 6) (m : BitVec 3) (c : BitVec 1) (s : State) : Result :=
  vectorWord (.vfredsumw d a m c) s
/-- VFREDMAX (R132). -/
def execVfredmax (d a : BitVec 6) (m : BitVec 3) (c : BitVec 1) (s : State) : Result :=
  vectorWord (.vfredmax d a m c) s
/-- VFREDMIN (R132). -/
def execVfredmin (d a : BitVec 6) (m : BitVec 3) (c : BitVec 1) (s : State) : Result :=
  vectorWord (.vfredmin d a m c) s
/-- VREDSUM (R132). -/
def execVredsum (d a : BitVec 6) (m : BitVec 3) (c : BitVec 1) (s : State) : Result :=
  vectorWord (.vredsum d a m c) s
/-- VREDMAX (R132). -/
def execVredmax (d a : BitVec 6) (m : BitVec 3) (c : BitVec 1) (s : State) : Result :=
  vectorWord (.vredmax d a m c) s
/-- VREDMIN (R132). -/
def execVredmin (d a : BitVec 6) (m : BitVec 3) (c : BitVec 1) (s : State) : Result :=
  vectorWord (.vredmin d a m c) s
/-- VRAISE (R131). -/
def execVraise (d a : BitVec 6) (k m : BitVec 3) (c : BitVec 1) (s : State) : Result :=
  vectorWord (.vraise d a k m c) s
/-- VLOWER (R131). -/
def execVlower (d a : BitVec 6) (k m : BitVec 3) (c : BitVec 1) (s : State) : Result :=
  vectorWord (.vlower d a k m c) s
/-- VBCASTK (R131). -/
def execVbcastk (d : BitVec 6) (k m : BitVec 3) (c : BitVec 1) (s : State) : Result :=
  vectorWord (.vbcastk d k m c) s
/-- VLD (R221). -/
def execVld (d : BitVec 6) (i : BitVec 9) (k m : BitVec 3) (r c : BitVec 1) (s : State) : Result :=
  vectorWord (.vld d i k m r c) s
/-- VST (R221). -/
def execVst (d : BitVec 6) (i : BitVec 9) (k m : BitVec 3) (r c : BitVec 1) (s : State) : Result :=
  vectorWord (.vst d i k m r c) s
/-- VLD2 (R221). -/
def execVld2 (d : BitVec 6) (i : BitVec 9) (k m : BitVec 3) (r c : BitVec 1) (s : State) : Result :=
  vectorWord (.vld2 d i k m r c) s
/-- VST2 (R221). -/
def execVst2 (d : BitVec 6) (i : BitVec 9) (k m : BitVec 3) (r c : BitVec 1) (s : State) : Result :=
  vectorWord (.vst2 d i k m r c) s
/-- VLDX (R221). -/
def execVldx (d a : BitVec 6) (x k m : BitVec 3) (r c : BitVec 1) (s : State) : Result :=
  vectorWord (.vldx d a x k m r c) s
/-- VSTX (R221). -/
def execVstx (d a : BitVec 6) (x k m : BitVec 3) (r c : BitVec 1) (s : State) : Result :=
  vectorWord (.vstx d a x k m r c) s
/-- VLDSLAB (R357). -/
def execVldslab (d a : BitVec 6) (t k m : BitVec 3) (c : BitVec 1) (s : State) : Result :=
  vectorWord (.vldslab d a t k m c) s
/-- VDEF (R77). -/
def execVdef (d : BitVec 6) (k : BitVec 3) (s : State) : Result :=
  vectorWord (.vdef d k) s
/-- VTLD (R78). -/
def execVtld (k : BitVec 3) (s : State) : Result :=
  vectorWord (.vtld k) s
/-- VTST (R79). -/
def execVtst (k : BitVec 3) (s : State) : Result :=
  vectorWord (.vtst k) s
/-- VSETT (R69). -/
def execVsett (i : BitVec 8) (s : State) : Result :=
  vectorWord (.vsett i) s
/-- VLEN (R70). -/
def execVlen (k : BitVec 3) (s : State) : Result :=
  vectorWord (.vlen k) s
/-- VLEN_SHAPE (R70). -/
def execVlenShape (a : BitVec 6) (k : BitVec 3) (s : State) : Result :=
  vectorWord (.vlenShape a k) s
/-- VSETMT (R71). -/
def execVsetmt (k : BitVec 3) (s : State) : Result :=
  vectorWord (.vsetmt k) s
/-- VSETMT_IMM (R71). -/
def execVsetmtImm (p : BitVec 2) (s : State) : Result :=
  vectorWord (.vsetmtImm p) s
/-- MMA (R256). -/
def execMma (n : BitVec 2) (a b : BitVec 6) (c : BitVec 1) (s : State) : Result :=
  vectorWord (.mma n a b c) s
/-- MMAS (R257). -/
def execMmas (n : BitVec 2) (a b : BitVec 6) (c : BitVec 1) (s : State) : Result :=
  vectorWord (.mmas n a b c) s
/-- MEN (R250). -/
def execMen (c : BitVec 1) (s : State) : Result :=
  vectorWord (.men c) s
/-- MDIS (R251). -/
def execMdis (c : BitVec 1) (s : State) : Result :=
  vectorWord (.mdis c) s
/-- MZERO (R252). -/
def execMzero (n : BitVec 2) (c : BitVec 1) (s : State) : Result :=
  vectorWord (.mzero n c) s
/-- MSHAPE (R253). -/
def execMshape (k : BitVec 3) (c : BitVec 1) (s : State) : Result :=
  vectorWord (.mshape k c) s
/-- MSCL (R255). -/
def execMscl (k : BitVec 3) (c : BitVec 1) (s : State) : Result :=
  vectorWord (.mscl k c) s
/-- MEXT_ROW (R260). -/
def execMextRow (d : BitVec 6) (n : BitVec 2) (p : BitVec 6) (m : BitVec 3) (c : BitVec 1) (s : State) : Result :=
  vectorWord (.mextRow d n p m c) s
/-- MEXT_COL (R260). -/
def execMextCol (d : BitVec 6) (n : BitVec 2) (p : BitVec 6) (m : BitVec 3) (c : BitVec 1) (s : State) : Result :=
  vectorWord (.mextCol d n p m c) s
/-- MEXT_RECT (R260). -/
def execMextRect (d : BitVec 6) (n : BitVec 2) (m : BitVec 3) (c : BitVec 1) (s : State) : Result :=
  vectorWord (.mextRect d n m c) s
/-- MINS_ROW (R260). -/
def execMinsRow (d : BitVec 6) (n : BitVec 2) (p : BitVec 6) (m : BitVec 3) (c : BitVec 1) (s : State) : Result :=
  vectorWord (.minsRow d n p m c) s
/-- MINS_COL (R260). -/
def execMinsCol (d : BitVec 6) (n : BitVec 2) (p : BitVec 6) (m : BitVec 3) (c : BitVec 1) (s : State) : Result :=
  vectorWord (.minsCol d n p m c) s
/-- MINS_RECT (R260). -/
def execMinsRect (d : BitVec 6) (n : BitVec 2) (m : BitVec 3) (c : BitVec 1) (s : State) : Result :=
  vectorWord (.minsRect d n m c) s
/-- LSTEP (R270). -/
def execLstep (n : BitVec 2) (c : BitVec 1) (s : State) : Result :=
  vectorWord (.lstep n c) s
/-- LBLEND (R280). -/
def execLblend (d : BitVec 6) (c : BitVec 1) (s : State) : Result :=
  vectorWord (.lblend d c) s
/-- LRUNG_LD (R281). -/
def execLrungLd (d l : BitVec 6) (c : BitVec 1) (s : State) : Result :=
  vectorWord (.lrungLd d l c) s
/-- LRUNG_ST (R281). -/
def execLrungSt (d l : BitVec 6) (c : BitVec 1) (s : State) : Result :=
  vectorWord (.lrungSt d l c) s
/-- LRUNG_LD_K (R281). -/
def execLrungLdK (d : BitVec 6) (k : BitVec 3) (c : BitVec 1) (s : State) : Result :=
  vectorWord (.lrungLdK d k c) s
/-- LRUNG_ST_K (R281). -/
def execLrungStK (d : BitVec 6) (k : BitVec 3) (c : BitVec 1) (s : State) : Result :=
  vectorWord (.lrungStK d k c) s
/-- LCFG (R277). -/
def execLcfg (k : BitVec 3) (c : BitVec 1) (s : State) : Result :=
  vectorWord (.lcfg k c) s
/-- LSTAT_CNT (R279). -/
def execLstatCnt (k : BitVec 3) (c : BitVec 1) (s : State) : Result :=
  vectorWord (.lstatCnt k c) s
/-- LSTAT_CARRY (R279). -/
def execLstatCarry (k : BitVec 3) (c : BitVec 1) (s : State) : Result :=
  vectorWord (.lstatCarry k c) s
/-- LRESET (R278). -/
def execLreset (c : BitVec 1) (s : State) : Result :=
  vectorWord (.lreset c) s
/-- VISSUE (R148). -/
def execVissue (d : BitVec 3) (a : BitVec 6) (m : BitVec 3) (s : State) : Result :=
  vectorWord (.vissue d a m) s
/-- VCAPP (R155). -/
def execVcapp (q : BitVec 4) (a : BitVec 6) (m : BitVec 3) (c : BitVec 1) (s : State) : Result :=
  vectorWord (.vcapp q a m c) s
/-- VCAPP_K (R155). -/
def execVcappK (q : BitVec 4) (k m : BitVec 3) (c : BitVec 1) (s : State) : Result :=
  vectorWord (.vcappK q k m c) s
/-- VWAIT (R159). -/
def execVwait (d a : BitVec 6) (e : BitVec 2) (k m : BitVec 3) (s : State) : Result :=
  vectorWord (.vwait d a e k m) s
/-- GMMA (R325). -/
def execGmma (n : BitVec 2) (a b : BitVec 6) (c : BitVec 1) (s : State) : Result :=
  vectorWord (.gmma n a b c) s
/-- VBEND (R135). -/
def execVbend (s : State) : Result :=
  vectorWord .vbend s
/-- VKADD (R133). -/
def execVkadd (d : BitVec 3) (i : BitVec 9) (k : BitVec 3) (c : BitVec 1) (s : State) : Result :=
  vectorWord (.vkadd d i k c) s
/-- VKADD_K (R133). -/
def execVkaddK (d t k : BitVec 3) (c : BitVec 1) (s : State) : Result :=
  vectorWord (.vkaddK d t k c) s
/-- VKPOP (R133). -/
def execVkpop (d : BitVec 3) (c : BitVec 1) (s : State) : Result :=
  vectorWord (.vkpop d c) s
/-- VKGET (R133). -/
def execVkget (d : BitVec 3) (a : BitVec 6) (c : BitVec 1) (s : State) : Result :=
  vectorWord (.vkget d a c) s
/-- VKPUSH (R134). -/
def execVkpush (k : BitVec 3) (c : BitVec 1) (s : State) : Result :=
  vectorWord (.vkpush k c) s
/-- VMPUSH_COUNT (R134). -/
def execVmpushCount (a : BitVec 3) (c : BitVec 1) (s : State) : Result :=
  vectorWord (.vmpushCount a c) s
/-- VMPUSH_FIRST (R134). -/
def execVmpushFirst (a : BitVec 3) (c : BitVec 1) (s : State) : Result :=
  vectorWord (.vmpushFirst a c) s

end Sys2Proof.Machine
end

