-- ==== Sys2Proof/Machine/Dispatch.lean ====
section
/-! DEFINITION. The dispatcher: the meaning of each constructor of Instr. -/

namespace Sys2Proof.Machine

/-- One step of an instruction or an event on the parts of the machine in focus. -/
def exec (i : Instr) (s : State) : Host.Outcome State Fault Refusal :=
  match i with
  | .vfadd d a b m c => Sys2Proof.Machine.execVfadd d a b m c s
  | .vfsub d a b m c => Sys2Proof.Machine.execVfsub d a b m c s
  | .vfmul d a b m c => Sys2Proof.Machine.execVfmul d a b m c s
  | .vfmin d a b m c => Sys2Proof.Machine.execVfmin d a b m c s
  | .vfmax d a b m c => Sys2Proof.Machine.execVfmax d a b m c s
  | .vfdiv d a b m c => Sys2Proof.Machine.execVfdiv d a b m c s
  | .vfaddK d a x k m c => Sys2Proof.Machine.execVfaddK d a x k m c s
  | .vfsubK d a x k m c => Sys2Proof.Machine.execVfsubK d a x k m c s
  | .vfmulK d a x k m c => Sys2Proof.Machine.execVfmulK d a x k m c s
  | .vfminK d a x k m c => Sys2Proof.Machine.execVfminK d a x k m c s
  | .vfmaxK d a x k m c => Sys2Proof.Machine.execVfmaxK d a x k m c s
  | .vfdivK d a x k m c => Sys2Proof.Machine.execVfdivK d a x k m c s
  | .vfneg d a m c => Sys2Proof.Machine.execVfneg d a m c s
  | .vfabs d a m c => Sys2Proof.Machine.execVfabs d a m c s
  | .vfcpys d a b m c => Sys2Proof.Machine.execVfcpys d a b m c s
  | .vfcpysn d a b m c => Sys2Proof.Machine.execVfcpysn d a b m c s
  | .vfkind d a m c => Sys2Proof.Machine.execVfkind d a m c s
  | .vfma d a b m c => Sys2Proof.Machine.execVfma d a b m c s
  | .vfnma d a b m c => Sys2Proof.Machine.execVfnma d a b m c s
  | .vfms d a b m c => Sys2Proof.Machine.execVfms d a b m c s
  | .vfnms d a b m c => Sys2Proof.Machine.execVfnms d a b m c s
  | .vfmaK d a k m c => Sys2Proof.Machine.execVfmaK d a k m c s
  | .vfnmaK d a k m c => Sys2Proof.Machine.execVfnmaK d a k m c s
  | .vfmsK d a k m c => Sys2Proof.Machine.execVfmsK d a k m c s
  | .vfnmsK d a k m c => Sys2Proof.Machine.execVfnmsK d a k m c s
  | .vfsqrt d a m c => Sys2Proof.Machine.execVfsqrt d a m c s
  | .vfrsqrt d a m c => Sys2Proof.Machine.execVfrsqrt d a m c s
  | .vfrcp d a m c => Sys2Proof.Machine.execVfrcp d a m c s
  | .vfexp2 d a m c => Sys2Proof.Machine.execVfexp2 d a m c s
  | .vflog2 d a m c => Sys2Proof.Machine.execVflog2 d a m c s
  | .vfsinpi d a m c => Sys2Proof.Machine.execVfsinpi d a m c s
  | .vftanh d a m c => Sys2Proof.Machine.execVftanh d a m c s
  | .vfsigm d a m c => Sys2Proof.Machine.execVfsigm d a m c s
  | .vadd d a b m c => Sys2Proof.Machine.execVadd d a b m c s
  | .vsub d a b m c => Sys2Proof.Machine.execVsub d a b m c s
  | .vmul d a b m c => Sys2Proof.Machine.execVmul d a b m c s
  | .vmin d a b m c => Sys2Proof.Machine.execVmin d a b m c s
  | .vmax d a b m c => Sys2Proof.Machine.execVmax d a b m c s
  | .vdiv d a b m c => Sys2Proof.Machine.execVdiv d a b m c s
  | .vrem d a b m c => Sys2Proof.Machine.execVrem d a b m c s
  | .vaddK d a x k m c => Sys2Proof.Machine.execVaddK d a x k m c s
  | .vsubK d a x k m c => Sys2Proof.Machine.execVsubK d a x k m c s
  | .vmulK d a x k m c => Sys2Proof.Machine.execVmulK d a x k m c s
  | .vminK d a x k m c => Sys2Proof.Machine.execVminK d a x k m c s
  | .vmaxK d a x k m c => Sys2Proof.Machine.execVmaxK d a x k m c s
  | .vdivK d a x k m c => Sys2Proof.Machine.execVdivK d a x k m c s
  | .vremK d a x k m c => Sys2Proof.Machine.execVremK d a x k m c s
  | .vaddi d j m c => Sys2Proof.Machine.execVaddi d j m c s
  | .vrsubi d j m c => Sys2Proof.Machine.execVrsubi d j m c s
  | .vmuli d j m c => Sys2Proof.Machine.execVmuli d j m c s
  | .vmini d j m c => Sys2Proof.Machine.execVmini d j m c s
  | .vmaxi d j m c => Sys2Proof.Machine.execVmaxi d j m c s
  | .vand d a b m c => Sys2Proof.Machine.execVand d a b m c s
  | .vor d a b m c => Sys2Proof.Machine.execVor d a b m c s
  | .vxor d a b m c => Sys2Proof.Machine.execVxor d a b m c s
  | .vandn d a b m c => Sys2Proof.Machine.execVandn d a b m c s
  | .vsll d a b m c => Sys2Proof.Machine.execVsll d a b m c s
  | .vsrl d a b m c => Sys2Proof.Machine.execVsrl d a b m c s
  | .vsra d a b m c => Sys2Proof.Machine.execVsra d a b m c s
  | .vmov d a m c => Sys2Proof.Machine.execVmov d a m c s
  | .vandi d j m c => Sys2Proof.Machine.execVandi d j m c s
  | .vori d j m c => Sys2Proof.Machine.execVori d j m c s
  | .vxori d j m c => Sys2Proof.Machine.execVxori d j m c s
  | .vli d j m c => Sys2Proof.Machine.execVli d j m c s
  | .vslli d j m c => Sys2Proof.Machine.execVslli d j m c s
  | .vsrli d j m c => Sys2Proof.Machine.execVsrli d j m c s
  | .vsrai d j m c => Sys2Proof.Machine.execVsrai d j m c s
  | .vsadd d a b m c => Sys2Proof.Machine.execVsadd d a b m c s
  | .vssub d a b m c => Sys2Proof.Machine.execVssub d a b m c s
  | .vmulh d a b m c => Sys2Proof.Machine.execVmulh d a b m c s
  | .vavg d a b m c => Sys2Proof.Machine.execVavg d a b m c s
  | .vceq d a b m c => Sys2Proof.Machine.execVceq d a b m c s
  | .vcne d a b m c => Sys2Proof.Machine.execVcne d a b m c s
  | .vclt d a b m c => Sys2Proof.Machine.execVclt d a b m c s
  | .vcle d a b m c => Sys2Proof.Machine.execVcle d a b m c s
  | .vcgt d a b m c => Sys2Proof.Machine.execVcgt d a b m c s
  | .vcge d a b m c => Sys2Proof.Machine.execVcge d a b m c s
  | .vcun d a b m c => Sys2Proof.Machine.execVcun d a b m c s
  | .vceqK d a k m c => Sys2Proof.Machine.execVceqK d a k m c s
  | .vcneK d a k m c => Sys2Proof.Machine.execVcneK d a k m c s
  | .vcltK d a k m c => Sys2Proof.Machine.execVcltK d a k m c s
  | .vcleK d a k m c => Sys2Proof.Machine.execVcleK d a k m c s
  | .vcgtK d a k m c => Sys2Proof.Machine.execVcgtK d a k m c s
  | .vcgeK d a k m c => Sys2Proof.Machine.execVcgeK d a k m c s
  | .vcunK d a k m c => Sys2Proof.Machine.execVcunK d a k m c s
  | .vmand d a b m c => Sys2Proof.Machine.execVmand d a b m c s
  | .vmor d a b m c => Sys2Proof.Machine.execVmor d a b m c s
  | .vmxor d a b m c => Sys2Proof.Machine.execVmxor d a b m c s
  | .vmandn d a b m c => Sys2Proof.Machine.execVmandn d a b m c s
  | .vmnot d a m c => Sys2Proof.Machine.execVmnot d a m c s
  | .vmset d m c => Sys2Proof.Machine.execVmset d m c s
  | .vmclr d m c => Sys2Proof.Machine.execVmclr d m c s
  | .vsel d a b m c => Sys2Proof.Machine.execVsel d a b m c s
  | .vselz d a m c => Sys2Proof.Machine.execVselz d a m c s
  | .vcvt d a t m c => Sys2Proof.Machine.execVcvt d a t m c s
  | .vqnt d a t m c => Sys2Proof.Machine.execVqnt d a t m c s
  | .vdqnt d a t m c => Sys2Proof.Machine.execVdqnt d a t m c s
  | .vgath d a b m c => Sys2Proof.Machine.execVgath d a b m c s
  | .vhead d a b m c => Sys2Proof.Machine.execVhead d a b m c s
  | .vtail d a b m c => Sys2Proof.Machine.execVtail d a b m c s
  | .vbcast d a m c => Sys2Proof.Machine.execVbcast d a m c s
  | .vfredsum d a m c => Sys2Proof.Machine.execVfredsum d a m c s
  | .vfredsumw d a m c => Sys2Proof.Machine.execVfredsumw d a m c s
  | .vfredmax d a m c => Sys2Proof.Machine.execVfredmax d a m c s
  | .vfredmin d a m c => Sys2Proof.Machine.execVfredmin d a m c s
  | .vredsum d a m c => Sys2Proof.Machine.execVredsum d a m c s
  | .vredmax d a m c => Sys2Proof.Machine.execVredmax d a m c s
  | .vredmin d a m c => Sys2Proof.Machine.execVredmin d a m c s
  | .vraise d a k m c => Sys2Proof.Machine.execVraise d a k m c s
  | .vlower d a k m c => Sys2Proof.Machine.execVlower d a k m c s
  | .vbcastk d k m c => Sys2Proof.Machine.execVbcastk d k m c s
  | .vld d j k m r c => Sys2Proof.Machine.execVld d j k m r c s
  | .vst d j k m r c => Sys2Proof.Machine.execVst d j k m r c s
  | .vld2 d j k m r c => Sys2Proof.Machine.execVld2 d j k m r c s
  | .vst2 d j k m r c => Sys2Proof.Machine.execVst2 d j k m r c s
  | .vldx d a x k m r c => Sys2Proof.Machine.execVldx d a x k m r c s
  | .vstx d a x k m r c => Sys2Proof.Machine.execVstx d a x k m r c s
  | .vldslab d a t k m c => Sys2Proof.Machine.execVldslab d a t k m c s
  | .vdef d k => Sys2Proof.Machine.execVdef d k s
  | .vtld k => Sys2Proof.Machine.execVtld k s
  | .vtst k => Sys2Proof.Machine.execVtst k s
  | .vsett j => Sys2Proof.Machine.execVsett j s
  | .vlen k => Sys2Proof.Machine.execVlen k s
  | .vlenShape a k => Sys2Proof.Machine.execVlenShape a k s
  | .vsetmt k => Sys2Proof.Machine.execVsetmt k s
  | .vsetmtImm p => Sys2Proof.Machine.execVsetmtImm p s
  | .mma n a b c => Sys2Proof.Machine.execMma n a b c s
  | .mmas n a b c => Sys2Proof.Machine.execMmas n a b c s
  | .men c => Sys2Proof.Machine.execMen c s
  | .mdis c => Sys2Proof.Machine.execMdis c s
  | .mzero n c => Sys2Proof.Machine.execMzero n c s
  | .mshape k c => Sys2Proof.Machine.execMshape k c s
  | .mscl k c => Sys2Proof.Machine.execMscl k c s
  | .mextRow d n p m c => Sys2Proof.Machine.execMextRow d n p m c s
  | .mextCol d n p m c => Sys2Proof.Machine.execMextCol d n p m c s
  | .mextRect d n m c => Sys2Proof.Machine.execMextRect d n m c s
  | .minsRow d n p m c => Sys2Proof.Machine.execMinsRow d n p m c s
  | .minsCol d n p m c => Sys2Proof.Machine.execMinsCol d n p m c s
  | .minsRect d n m c => Sys2Proof.Machine.execMinsRect d n m c s
  | .lstep n c => Sys2Proof.Machine.execLstep n c s
  | .lblend d c => Sys2Proof.Machine.execLblend d c s
  | .lrungLd d l c => Sys2Proof.Machine.execLrungLd d l c s
  | .lrungSt d l c => Sys2Proof.Machine.execLrungSt d l c s
  | .lrungLdK d k c => Sys2Proof.Machine.execLrungLdK d k c s
  | .lrungStK d k c => Sys2Proof.Machine.execLrungStK d k c s
  | .lcfg k c => Sys2Proof.Machine.execLcfg k c s
  | .lstatCnt k c => Sys2Proof.Machine.execLstatCnt k c s
  | .lstatCarry k c => Sys2Proof.Machine.execLstatCarry k c s
  | .lreset c => Sys2Proof.Machine.execLreset c s
  | .vissue d a m => Sys2Proof.Machine.execVissue d a m s
  | .vcapp q a m c => Sys2Proof.Machine.execVcapp q a m c s
  | .vcappK q k m c => Sys2Proof.Machine.execVcappK q k m c s
  | .vwait d a e k m => Sys2Proof.Machine.execVwait d a e k m s
  | .gmma n a b c => Sys2Proof.Machine.execGmma n a b c s
  | .vbend => Sys2Proof.Machine.execVbend s
  | .vkadd d j k c => Sys2Proof.Machine.execVkadd d j k c s
  | .vkaddK d t k c => Sys2Proof.Machine.execVkaddK d t k c s
  | .vkpop d c => Sys2Proof.Machine.execVkpop d c s
  | .vkget d a c => Sys2Proof.Machine.execVkget d a c s
  | .vkpush k c => Sys2Proof.Machine.execVkpush k c s
  | .vmpushCount a c => Sys2Proof.Machine.execVmpushCount a c s
  | .vmpushFirst a c => Sys2Proof.Machine.execVmpushFirst a c s
  | .blockPop => Sys2Proof.Machine.execBlockPop s
  | .convoyIssue => Sys2Proof.Machine.execConvoyIssue s
  | .convoyRetire => Sys2Proof.Machine.execConvoyRetire s
  | .trapEntry => Sys2Proof.Machine.execTrapEntry s
  | .queueDeadlock => Sys2Proof.Machine.execQueueDeadlock s
  | .debugStop => Sys2Proof.Machine.execDebugStop s
  | .preemptionRequest => Sys2Proof.Machine.execPreemptionRequest s
  | .contextSave => Sys2Proof.Machine.execContextSave s
  | .contextRestore => Sys2Proof.Machine.execContextRestore s
  | .completionWordUpdate => Sys2Proof.Machine.execCompletionWordUpdate s
  | .endReport => Sys2Proof.Machine.execEndReport s
  | .taskAbandon => Sys2Proof.Machine.execTaskAbandon s
  | .loadDataArrival n => Sys2Proof.Machine.execLoadDataArrival n s
  | .storeAcknowledged n => Sys2Proof.Machine.execStoreAcknowledged n s
  | .vectorElementArrival => Sys2Proof.Machine.execVectorElementArrival s
  | .tableWalk va vec => Sys2Proof.Machine.execTableWalk va vec s
  | .monitoredLineWrite line => Sys2Proof.Machine.execMonitoredLineWrite line s
  | .waitLimitExpiry => Sys2Proof.Machine.execWaitLimitExpiry s
  | .timelineAdvance h => Sys2Proof.Machine.execTimelineAdvance h s
  | .commandFailed h err => Sys2Proof.Machine.execCommandFailed h err s
  | .carryChain => Sys2Proof.Machine.execCarryChain s
  | .entryReady e => Sys2Proof.Machine.execEntryReady e s
  | .fantailRun => Sys2Proof.Machine.execFantailRun s
  | .overdue e => Sys2Proof.Machine.execOverdue e s
  | .priorityPreemption e => Sys2Proof.Machine.execPriorityPreemption e s
  | .streamPumpTransfer e => Sys2Proof.Machine.execStreamPumpTransfer e s
  | .streamOutCopy e => Sys2Proof.Machine.execStreamOutCopy e s
  | .tcmClear => Sys2Proof.Machine.execTcmClear s
  | .feedCrossing q => Sys2Proof.Machine.execFeedCrossing q s
  | .gmmaMulticast => Sys2Proof.Machine.execGmmaMulticast s
  | .gmmaShareCompletion => Sys2Proof.Machine.execGmmaShareCompletion s
  | .planepwrWrite v => Sys2Proof.Machine.execPlanepwrWrite v s
  | .lcntWrite v => Sys2Proof.Machine.execLcntWrite v s
  | .lcarryWrite v => Sys2Proof.Machine.execLcarryWrite v s
  | .gselWrite v => Sys2Proof.Machine.execGselWrite v s
  | .tlbinv v => Sys2Proof.Machine.execTlbinv v s
  | .fqadv v => Sys2Proof.Machine.execFqadv v s
  | .clreset v => Sys2Proof.Machine.execClreset v s
  | .csrWrite c v => Sys2Proof.Machine.execCsrWrite c v s
  | .clusterReset v => Sys2Proof.Machine.execClusterReset v s
  | .hostPreemptionRequest v => Sys2Proof.Machine.execHostPreemptionRequest v s
  | .preqComplete => Sys2Proof.Machine.execPreqComplete s
  | .clholdWrite v => Sys2Proof.Machine.execClholdWrite v s
  | .plimitWrite v => Sys2Proof.Machine.execPlimitWrite v s
  | .freeze v => Sys2Proof.Machine.execFreeze v s
  | .thaw v => Sys2Proof.Machine.execThaw v s
  | .freezeSignal v => Sys2Proof.Machine.execFreezeSignal v s
  | .debugPortAccess write addr v => Sys2Proof.Machine.execDebugPortAccess write addr v s
  | .attest => Sys2Proof.Machine.execAttest s
  | .recover v => Sys2Proof.Machine.execRecover v s
  | .commitSvn => Sys2Proof.Machine.execCommitSvn s
  | .cert => Sys2Proof.Machine.execCert s
  | .cllog v => Sys2Proof.Machine.execCllog v s
  | .dbgen v => Sys2Proof.Machine.execDbgen v s
  | .packageReset => Sys2Proof.Machine.execPackageReset s
  | .grantCycle => Sys2Proof.Machine.execGrantCycle s
  | .grantDelivery d => Sys2Proof.Machine.execGrantDelivery d s
  | .missedGrants d => Sys2Proof.Machine.execMissedGrants d s
  | .thermalThrottle d => Sys2Proof.Machine.execThermalThrottle d s
  | .thermalCutoff => Sys2Proof.Machine.execThermalCutoff s
  | .dieStoreScrub d => Sys2Proof.Machine.execDieStoreScrub d s
  | .hbmScrub => Sys2Proof.Machine.execHbmScrub s
  | .flitReceive port seq crcOk => Sys2Proof.Machine.execFlitReceive port seq crcOk s
  | .nakReplay port seq => Sys2Proof.Machine.execNakReplay port seq s
  | .portRetrain port => Sys2Proof.Machine.execPortRetrain port s
  | .portDown port => Sys2Proof.Machine.execPortDown port s
  | .offloadPromotion => Sys2Proof.Machine.execOffloadPromotion s
  | .remoteAccess n => Sys2Proof.Machine.execRemoteAccess n s
  | .remoteAccessTimeout n => Sys2Proof.Machine.execRemoteAccessTimeout n s
  | .collectiveMatch h => Sys2Proof.Machine.execCollectiveMatch h s
  | .collectiveTimeout h => Sys2Proof.Machine.execCollectiveTimeout h s
  | .memberUnreachable h => Sys2Proof.Machine.execMemberUnreachable h s
  | .timeMessage v => Sys2Proof.Machine.execTimeMessage v s
  | .powerLoss => Sys2Proof.Machine.execPowerLoss s
  | .unknownCommand c => Sys2Proof.Machine.execUnknownCommand c s
  | .cxlMemAccess write addr v => Sys2Proof.Machine.execCxlMemAccess write addr v s
  | .spuriousWake => Sys2Proof.Machine.execSpuriousWake s
  | .crget d c => Sys2Proof.Machine.execCrget d c s
  | .crput a c => Sys2Proof.Machine.execCrput a c s
  | .crset a c => Sys2Proof.Machine.execCrset a c s
  | .crclr a c => Sys2Proof.Machine.execCrclr a c s
  | .add d a b => Sys2Proof.Machine.execAdd d a b s
  | .sub d a b => Sys2Proof.Machine.execSub d a b s
  | .and d a b => Sys2Proof.Machine.execAnd d a b s
  | .or d a b => Sys2Proof.Machine.execOr d a b s
  | .xor d a b => Sys2Proof.Machine.execXor d a b s
  | .sll d a b => Sys2Proof.Machine.execSll d a b s
  | .srl d a b => Sys2Proof.Machine.execSrl d a b s
  | .sra d a b => Sys2Proof.Machine.execSra d a b s
  | .slt d a b => Sys2Proof.Machine.execSlt d a b s
  | .sltn d a b => Sys2Proof.Machine.execSltn d a b s
  | .mul d a b => Sys2Proof.Machine.execMul d a b s
  | .mulhs d a b => Sys2Proof.Machine.execMulhs d a b s
  | .mulhn d a b => Sys2Proof.Machine.execMulhn d a b s
  | .div d a b => Sys2Proof.Machine.execDiv d a b s
  | .divn d a b => Sys2Proof.Machine.execDivn d a b s
  | .rem d a b => Sys2Proof.Machine.execRem d a b s
  | .remn d a b => Sys2Proof.Machine.execRemn d a b s
  | .addi d a j => Sys2Proof.Machine.execAddi d a j s
  | .andi d a j => Sys2Proof.Machine.execAndi d a j s
  | .ori d a j => Sys2Proof.Machine.execOri d a j s
  | .xori d a j => Sys2Proof.Machine.execXori d a j s
  | .slli d a n => Sys2Proof.Machine.execSlli d a n s
  | .srli d a n => Sys2Proof.Machine.execSrli d a n s
  | .srai d a n => Sys2Proof.Machine.execSrai d a n s
  | .slti d a j => Sys2Proof.Machine.execSlti d a j s
  | .sltin d a j => Sys2Proof.Machine.execSltin d a j s
  | .lui d j => Sys2Proof.Machine.execLui d j s
  | .sext d a w => Sys2Proof.Machine.execSext d a w s
  | .zext d a w => Sys2Proof.Machine.execZext d a w s
  | .extr d a b w => Sys2Proof.Machine.execExtr d a b w s
  | .ins d a b w => Sys2Proof.Machine.execIns d a b w s
  | .clz d a => Sys2Proof.Machine.execClz d a s
  | .ctz d a => Sys2Proof.Machine.execCtz d a s
  | .popc d a => Sys2Proof.Machine.execPopc d a s
  | .ldb d a p j => Sys2Proof.Machine.execLdb d a p j s
  | .ldw d a p j => Sys2Proof.Machine.execLdw d a p j s
  | .ldd d a p j => Sys2Proof.Machine.execLdd d a p j s
  | .stb d a p j => Sys2Proof.Machine.execStb d a p j s
  | .stw d a p j => Sys2Proof.Machine.execStw d a p j s
  | .std d a p j => Sys2Proof.Machine.execStd d a p j s
  | .amoswap d a b e o p => Sys2Proof.Machine.execAmoswap d a b e o p s
  | .amoadd d a b e o p => Sys2Proof.Machine.execAmoadd d a b e o p s
  | .amoand d a b e o p => Sys2Proof.Machine.execAmoand d a b e o p s
  | .amoor d a b e o p => Sys2Proof.Machine.execAmoor d a b e o p s
  | .amoxor d a b e o p => Sys2Proof.Machine.execAmoxor d a b e o p s
  | .amomax d a b e o p => Sys2Proof.Machine.execAmomax d a b e o p s
  | .amomin d a b e o p => Sys2Proof.Machine.execAmomin d a b e o p s
  | .amomaxu d a b e o p => Sys2Proof.Machine.execAmomaxu d a b e o p s
  | .cas d a b e o p => Sys2Proof.Machine.execCas d a b e o p s
  | .fence e q p => Sys2Proof.Machine.execFence e q p s
  | .cjEq b a j => Sys2Proof.Machine.execCjEq b a j s
  | .cjNe b a j => Sys2Proof.Machine.execCjNe b a j s
  | .cjLt b a j => Sys2Proof.Machine.execCjLt b a j s
  | .cjGe b a j => Sys2Proof.Machine.execCjGe b a j s
  | .cjLtn b a j => Sys2Proof.Machine.execCjLtn b a j s
  | .cjGen b a j => Sys2Proof.Machine.execCjGen b a j s
  | .jal d j => Sys2Proof.Machine.execJal d j s
  | .jr d a => Sys2Proof.Machine.execJr d a s
  | .bpush a b => Sys2Proof.Machine.execBpush a b s
  | .dpush a => Sys2Proof.Machine.execDpush a s
  | .rpop d => Sys2Proof.Machine.execRpop d s
  | .epop d => Sys2Proof.Machine.execEpop d s
  | .epopTry d => Sys2Proof.Machine.execEpopTry d s
  | .epopMsg d => Sys2Proof.Machine.execEpopMsg d s
  | .epopMsgTry d => Sys2Proof.Machine.execEpopMsgTry d s
  | .waitw d a b p m t => Sys2Proof.Machine.execWaitw d a b p m t s
  | .endTask => Sys2Proof.Machine.execEndTask s
  | .dcoll d a b => Sys2Proof.Machine.execDcoll d a b s
  | .copy d a b => Sys2Proof.Machine.execCopy d a b s
  | .copyRst d a => Sys2Proof.Machine.execCopyRst d a s
  | .copy2 d a b => Sys2Proof.Machine.execCopy2 d a b s
  | .fill d a b => Sys2Proof.Machine.execFill d a b s
  | .slabmov d a b => Sys2Proof.Machine.execSlabmov d a b s
  | .mdec d a b => Sys2Proof.Machine.execMdec d a b s
  | .mrsz d a b => Sys2Proof.Machine.execMrsz d a b s
  | .mdecRst d a => Sys2Proof.Machine.execMdecRst d a s
  | .cred d a b => Sys2Proof.Machine.execCred d a b s
  | .cbcast d a b => Sys2Proof.Machine.execCbcast d a b s
  | .credRst d a => Sys2Proof.Machine.execCredRst d a s
  | .tlwait d a b t => Sys2Proof.Machine.execTlwait d a b t s
  | .tlreadCount d a => Sys2Proof.Machine.execTlreadCount d a s
  | .tlreadStatus d a => Sys2Proof.Machine.execTlreadStatus d a s
  | .strin d a b x c => Sys2Proof.Machine.execStrin d a b x c s
  | .strout d a b x c => Sys2Proof.Machine.execStrout d a b x c s
  | .launch d a b x => Sys2Proof.Machine.execLaunch d a b x s
  | .launchRequest d a b x c => Sys2Proof.Machine.execLaunchRequest d a b x c s
  | .barv d a b => Sys2Proof.Machine.execBarv d a b s
  | .barw d a b t => Sys2Proof.Machine.execBarw d a b t s
  | .garm a b => Sys2Proof.Machine.execGarm a b s
  | .garmOff d => Sys2Proof.Machine.execGarmOff d s
  | .fqset a b q => Sys2Proof.Machine.execFqset a b q s
  | .fqsetRd d q => Sys2Proof.Machine.execFqsetRd d q s
  | .fqsetAdv a q => Sys2Proof.Machine.execFqsetAdv a q s
  | .hcall => Sys2Proof.Machine.execHcall s
  | .hret => Sys2Proof.Machine.execHret s
  | .nap => Sys2Proof.Machine.execNap s
  | .brk j => Sys2Proof.Machine.execBrk j s

end Sys2Proof.Machine
end

