-- ==== Sys2Proof/Machine/Dispatcher.lean ====
section
/-! DEFINITION. The shipped dispatcher of a control core (18_package.md R372 to R374): its ring, the launch records, and
the messages of cq. The spec gives what it does and not its text, so it moves action by action. -/

namespace Sys2Proof.Machine

/-! ## What the dispatcher reads -/

/-- The firmware's tables map each physical address at the same GLOB address: where an address leads, or the fault.
DESIGN CHOICE: log entry 9. -/
def dispLoc (s : State) (addr n : Nat) : Except MemFault PaLoc :=
  match paLoc s addr with
  | .mem key remote =>
    if locPoisoned s (.mem key remote) n || remoteFails s (.mem key remote) then .error ⟨.memData, 7⟩ else .ok (.mem key remote)
  | _ => .error ⟨.memRange, 7⟩

/-- Bytes from an address upward, byte by byte: a number, or the address that faults and its fault. -/
def dispRead (s : State) (addr : Nat) : Nat → Except (Word × MemFault) Nat
  | 0 => .ok 0
  | k + 1 =>
    match dispRead s addr k with
    | .error e => .error e
    | .ok n =>
      match dispLoc s (addr + k) 1 with
      | .error f => .error (.ofNat 64 (addr + k), f)
      | .ok loc => .ok (n + 2 ^ (8 * k) * readLoc s loc 1)

/-- A store of the dispatcher. -/
def dispStore (addr n v : Nat) (s : State) : State :=
  match paLoc s addr with
  | .mem key remote => writeLoc (.mem key remote) n v s
  | _ => s

/-- An access of the dispatcher faults: its control core takes the trap, and runs on in a handler whose text the spec does
not give. DESIGN CHOICE: log entry 9. -/
def dispFault (e : Word × MemFault) (s : State) : Result :=
  match steerMemFault e.2 (loadWant 1) 3 e.1 s with
  | .next t => .next (t.modCluster (fun c => { c with dispatch := none }))
  | r => r

/-- The dispatcher changed. -/
def State.modDispatch (f : Dispatch → Dispatch) (s : State) : State :=
  s.modCluster (fun c => { c with dispatch := c.dispatch.map f })

/-! ## Launch records (R373) -/

/-- The address of record n of a ring of NSLOT records (R372). -/
def recordAddr (ring nslot n : Nat) : Nat := ring + 64 + 256 * (n % nslot)

/-- A launch record: its head of 128 bytes as a number, the first byte lowest. -/
structure Record where
  head : Nat
  deriving DecidableEq, Repr, Inhabited

def Record.magic (r : Record) : Nat := blockField r.head 0x00 4
def Record.version (r : Record) : Nat := blockField r.head 0x04 2
def Record.nstr (r : Record) : Nat := blockField r.head 0x06 1
def Record.ctx (r : Record) : Nat := blockField r.head 0x07 1
def Record.seq (r : Record) : Nat := blockField r.head 0x08 8
/-- STR[t]: destination, source and length. -/
def Record.str (r : Record) (t : Nat) : Word × Word × Word :=
  (.ofNat 64 (blockField r.head (0x20 + 24 * t) 8), .ofNat 64 (blockField r.head (0x28 + 24 * t) 8),
    .ofNat 64 (blockField r.head (0x30 + 24 * t) 4))

/-- The code of the dispatcher's own checks on record n; 0 when it passes them. -/
def Record.code (r : Record) (n : Nat) : BitVec 8 :=
  if r.magic ≠ 0x0D157A1C ∨ r.version ≠ 1 ∨ r.seq ≠ n then 0x20
  else if 4 < r.nstr ∨ 15 < r.ctx then 0x21
  else 0

/-- STATUS: DONE, the kernel entry's number and CODE. -/
def recordStatus (code : BitVec 8) (number : Nat) : Word :=
  .ofNat 64 (2 ^ 63 + (if code = 0 then number % 2 ^ 47 else 0) * 2 ^ 16 + code.toNat)

/-- The streams made, as sb of a LAUNCH names them (14_cluster.md R299). -/
def streamWord (made : List Nat) : Word :=
  .ofNat 64 ((((List.range 4).zip made).map (fun p => (128 + p.2 % 64) * 2 ^ (8 * p.1))).foldl (· + ·) 0)

/-! ## Its actions (R374) -/

/-- LAUNCH by the dispatcher: the block's 128 bytes, its checks, and the kernel entry. -/
def dispLaunch (addr : Nat) (streams : Word) (ctx : Nat) (s : State) : Except (Word × MemFault) Made :=
  match dispRead s addr 128 with
  | .error e => .error e
  | .ok n =>
    let blk := parseBlock n
    let code := launchCode blk (n / 2 ^ (8 * 0x5D)) (.ofNat 64 addr) streams s.cluster
    .ok (if code ≠ 0 then .error code else makeKernel blk streams ctx s.tickUp)

/-- A message of four words leaves cq. -/
def popWhole (s : State) : State := cqSettle s.clusterId (s.modCluster (fun c => { c with cq := c.cq.drop 4 }))

/-- A message popped between records: a launch request becomes a LAUNCH, and reports of abandoned tasks and restore errors
are kept for CLLOG and reported. DESIGN CHOICE: log entry 9. -/
def dispMessage (m : List Word) (s : State) : Result :=
  if msgKind m = 0x10 then
    let ctx := (m.headD 0).toNat / 2 ^ 48 % 32
    if 16 ≤ ctx then .next (popWhole s)
    else match dispLaunch (m.getD 1 0).toNat (m.getD 2 0) ctx s with
      | .error e => dispFault e (popWhole s.tickUp)
      | .ok (.error _) => .next (popWhole s.tickUp)
      | .ok .full => .next (stall s.tickUp)
      | .ok (.entry _ _ t) => .next (popWhole t)
  else .next (reportCluster s.clusterId ((popWhole s).modCluster (fun c => { c with log := c.log ++ [m] })))

/-- A stage is over: an error goes to the releases with its code, a full scoreboard waits, and an entry made goes on. -/
def dispMade (m : Made) (s : State) (go : Nat → Nat → State → State) : Result :=
  match m with
  | .error code => .next (s.modDispatch (fun d => { d with stage := 6, code := .ofNat 8 code }))
  | .full => .next (stall s)
  | .entry i num t => .next (go i num t)

/-- The next action on a record, from its head and its address. -/
def dispRecord (d : Dispatch) (addr n : Nat) (r : Record) (s : State) : Result :=
  match d.stage with
  | 0 => .next (s.modDispatch (fun d => { d with
      stage := if r.code n = 0 then 1 else 6, made := [], code := r.code n, number := 0 }))
  | 6 =>
    match d.made with
    | i :: rest =>
      match makeStreamOut 0 (.ofNat 64 i) 0 r.ctx s with
      | .full => .next (stall s)
      | .error _ => .next (s.modDispatch (fun d => { d with made := rest }))
      | .entry _ _ t => .next (t.modDispatch (fun d => { d with made := rest }))
    | [] => .next ((dispStore (addr + 0x10) 8 (recordStatus d.code d.number).toNat s).modDispatch (fun d => { d with stage := 7 }))
  | 7 => .next ((dispStore (d.ring.toNat + 8) 8 (n + 1) s).modDispatch (fun d => { d with stage := 0 }))
  | k + 1 =>
    if k < r.nstr then
      dispMade (makeStreamIn (r.str k).1 (r.str k).2.1 (r.str k).2.2 r.ctx s) s
        (fun i _ t => t.modDispatch (fun d => { d with stage := k + 2, made := d.made ++ [i] }))
    else match dispLaunch (addr + 0x80) (streamWord d.made) r.ctx s with
      | .error e => dispFault e s
      | .ok m => dispMade m s (fun _ num t => t.modDispatch (fun d => { d with stage := 6, number := num }))

/-- What a ring's header says: PROD, CONS and NSLOT. -/
def ringHeader (s : State) (ring : Nat) : Except (Word × MemFault) (Nat × Nat × Nat) :=
  match dispRead s ring 0x14 with
  | .error e => .error e
  | .ok n => .ok (blockField n 0 8, blockField n 8 8, blockField n 0x10 4)

/-- The next action of the dispatcher: between records a message of cq; then the record that CONS names, once PROD has
passed it. DESIGN CHOICE: log entry 9. -/
def dispatcherTurn (d : Dispatch) (s : State) : Result :=
  if d.stage = 0 ∧ s.cluster.cq ≠ [] then dispMessage (s.cluster.cq.take 4) s
  else if d.ring = 0 then .next (s.modDispatch (fun d => { d with ring := spGet 0 s.pkg.drbase s.clusterId }))
  else match ringHeader s d.ring.toNat with
    | .error e => dispFault e s.tickUp
    | .ok (prod, cons, nslot) =>
      if d.stage = 0 ∧ prod < cons + 1 then .next (stall s.tickUp)
      else
        let addr := recordAddr d.ring.toNat nslot cons
        match dispRead s addr 0x80 with
        | .error e => dispFault e s.tickUp
        | .ok head => dispRecord d addr cons ⟨head⟩ s.tickUp

end Sys2Proof.Machine
end

