-- ==== Sys2Proof/Machine/Turns.lean ====
section
/-! DEFINITION. What stands at a boundary before an instruction executes (08_core_steering.md R199, R201, R204, R210;
05_convoy.md R139, R141), what the steering stream waits for (09_core_memory.md R216), and the turns of a core's two
streams, of the control core and of the hardware around them. -/

namespace Sys2Proof.Machine

/-! ## What an instruction waits for -/

/-- The fields of a steering word that name registers: the position of each. -/
def regFields (op : Nat) : List Nat :=
  if op = 0x09 ∨ op = 0x1E then [7]
  else if op = 0x25 ∨ op = 0x39 ∨ op = 0x3A then []
  else if (0x02 ≤ op ∧ op ≤ 0x08) ∨ (0x10 ≤ op ∧ op ≤ 0x15) ∨ (0x18 ≤ op ∧ op ≤ 0x1D) ∨ op = 0x38 then [7, 12]
  else if op = 0x30 ∨ op = 0x31 then [7, 12, 17, 27]
  else [7, 12, 17]

/-- The registers that a steering word may read or write. -/
def wordRegs (w : IWord) : List Nat := (regFields (w.toNat % 128)).map (fun p => w.toNat / 2 ^ p % 32)

/-- The opcodes of the words that access memory: loads, stores, atomics, WAITW, DCOLL, and the words that read a
descriptor or a launch block. -/
def memoryOp (op : Nat) : Bool :=
  (decide (0x10 ≤ op) && decide (op ≤ 0x17)) || op == 0x24 || op == 0x26 || (decide (0x28 ≤ op) && decide (op ≤ 0x2D))
    || op == 0x32

/-- The instruction waits for an outstanding access: for the register of a load or an atomic, or for an atomic whose
acquire orders it (R216 to R219). -/
def holdWord (w : IWord) (s : State) : Bool :=
  s.cur.outs.any (fun a => a.kind != .store && (wordRegs w).contains a.rd.toNat && a.rd != 0)
    || (memoryOp (w.toNat % 128) && s.cur.outs.any (fun a => a.kind != .load && a.kind != .store))

/-- A supervisor-only word, or a supervisor-only control register's (R39, priority 5). -/
def privilegedWord (w : IWord) : Bool :=
  w == 0x00400039 || (w.toNat % 128 == 0x38 && csrSupervisor (csrField w))

/-! ## The boundary of a steering stream (R201) -/

/-- The clocks run and the processor that moves executes. -/
def processorRuns (s : State) : Bool :=
  !clocksStopped s && s.cur.dead.isNone && !s.cur.stopped
    && (if s.agent = .control then s.pkg.bootState == 2 else s.core.run == .running)

/-- A convoy is in flight beside the steering stream that moves. -/
def convoyBusy (s : State) : Bool := decide (s.agent ≠ .control) && s.inFlight

/-- The steering stream waits for the convoy in flight (R139). -/
def waitConvoy (s : State) : Result := .next (stall s)

/-- A pre-emption request is pending for the stream that moves. -/
def requested (s : State) : Bool := decide (s.agent ≠ .control) && s.core.preq

/-- LAD-MEM is due at the steering boundary: the convoy stream is idle (11_core_ladder.md R275). -/
def ladDue (s : State) : Bool :=
  decide (s.agent ≠ .control) && ladPending s && s.core.conv.st == .idle && !s.core.steer.chalt

/-- A trap of the convoy stream stands at the steering boundary (R201). -/
def convoyOwes (s : State) : Bool :=
  decide (s.agent ≠ .control) && s.core.convoyLive && !s.inFlight && s.core.conv.trapDue.isSome

/-- CBREAK: no member has any effect. -/
def convoyBreak (s : State) : State :=
  convoyTrap ⟨0, 0, 0, s.core.conv.vispos, .cbreak, 0, none⟩ (s.modSteer (fun c => { c with cbksup := true }))

/-- The trap that stands at the boundary of the convoy stream before its next convoy: one that an SSTEP has put off, the
CSTEP of a convoy that waited to retire, LAD-MEM, or, once every earlier convoy has retired, CBREAK. -/
def convoyDue (s : State) : Option State :=
  let c := s.core.conv
  if s.core.convoyLive = false ∨ s.inFlight then none
  else match c.trapDue with
    | some d => some (takeDue d s)
    | none =>
      if ladPending s then some (ladTrap s)
      else if convoyBreakDue s && c.parked.isEmpty then some (convoyBreak s)
      else none

/-- The core halts for a pre-emption request: the instruction at PC does not execute. A trap that stands at the convoy
boundary goes before it, and so does a convoy that waits to retire (R204, R210; 16_die.md R358). -/
def haltForRequest (s : State) : Result :=
  if s.inFlight || s.core.conv.parked != [] then waitConvoy s
  else match convoyDue s with
    | some t => .next t
    | none => .next (s.modCore (fun c => { c with
        run := .halted, steer := { c.steer with expired := false }, conv := { c.conv with forming := [] } }))

/-- The end of an instruction: when it has retired in task mode, BKSUP is cleared, and under SSTEP its trap is due.
DEDUCED: log entry 35. -/
def afterWord (mode : Bool) (s : State) : State :=
  let c := s.cur
  if mode || s.stalled || c.mode || c.dead.isSome || c.stopped || (decide (s.agent ≠ .control) && s.core.run != .running)
  then s
  else s.modCur (fun c => { c with bksup := false, stepped := c.sdbg.getLsbD 0 })

/-- The outcome with the end of the instruction. -/
def endWord (mode : Bool) (r : Result) : Result :=
  match r with
  | .next s => .next (afterWord mode s)
  | r => r

/-- An instruction that has been decoded at PC: a pending request goes before it, unless the word is one that task mode
may not execute; then it waits for outstanding accesses, and executes. -/
def steerWord (w : IWord) (run : State → Result) (s : State) : Result :=
  if requested s && !(privilegedWord w && !s.cur.mode) then haltForRequest s
  else if holdWord w s then .next (stall s)
  else endWord s.cur.mode (run s)

/-- A fault that stands at a boundary of the steering stream: it waits for the convoy in flight. -/
def boundaryFault (c : Cause) (tval : Word) (s : State) : Result :=
  if convoyBusy s then waitConvoy s else steerFault c tval s

/-- The cause of a decoding error. -/
def decodeCause (e : DecodeError) : Cause :=
  match e with
  | .illegalWord => .illegalWord
  | .illegalStream => .illegalStream
  | .convoyForm => .convoyForm

/-! ## The boundary of the convoy stream -/

/-- The offset of the next word of the convoy that forms. DESIGN CHOICE: log entry 7. -/
def convoyFetch (s : State) : BitVec 32 := s.core.conv.cpc + 4 * .ofNat 32 s.core.conv.forming.length

/-! ## A fetched word -/

/-- A word that is no instruction. -/
def badWord (e : DecodeError) (w : IWord) (s : State) : Result :=
  match s.agent with
  | .convoy => decodingFault s.core.conv.forming.length (decodeCause e) (w.setWidth 64) s
  | _ => boundaryFault (decodeCause e) (w.setWidth 64) s

/-- An instruction of the agent that moves. -/
def goodWord (w : IWord) (run : State → Result) (s : State) : Result :=
  match s.agent with
  | .convoy => run s
  | _ => steerWord w run s

/-- The processor that an agent's words are decoded for. -/
def State.proc (s : State) : Proc :=
  match s.agent with
  | .control => .control
  | .convoy => .convoy
  | _ => .task

/-- A fetched word is decoded and, when it is an instruction, executed. -/
noncomputable def runWord (w : IWord) (s : State) : Result :=
  match decode s.proc w with
  | .instr i => goodWord w (exec i) s
  | .bad e => badWord e w s

/-! ## Turns -/

/-- A turn of a steering stream or of a control core, with what runs a fetched word; SSTEP waits for the value of a remote
load or atomic, whose instruction has not retired before. DEDUCED: log entries 24 and 35. -/
def steerTurn (run : IWord → State → Result) (s : State) : Result :=
  let c := s.cur
  if processorRuns s = false then .next s
  else if c.stepped then
    if convoyBusy s || c.outs.any (fun a => a.kind != .store) then waitConvoy s
    else .next (takeTrap ⟨.sstep, false, 0, c.pc⟩ (s.modCur (fun c => { c with stepped := false })))
  else if convoyOwes s then (match s.core.conv.trapDue with
    | some d => .next (takeDue d s)
    | none => .next s)
  else if ladDue s then if convoyBusy s then waitConvoy s else .next (ladTrap s)
  else if breakDue s then
    if convoyBusy s then waitConvoy s
    else .next (takeTrap ⟨.sbreak, false, 0, c.pc⟩ (s.modCur (fun c => { c with bksup := true })))
  else match fetchWord c.pc s with
    | none => boundaryFault .fetch (c.pc.setWidth 64) s
    | some w => run w s

/-- The convoy in flight goes on; under a pre-emption request it stops where its members let it (R205). -/
def flightTurn (s : State) : Result :=
  if s.core.preq then
    match stopFlight s with
    | some t => .next t
    | none => runConvoy s
  else runConvoy s

/-- A turn of the convoy stream (R135): a convoy that waits to retire, the one in flight, the traps at its boundary, and
then the next convoy, unless an SSTEP, a pre-emption request or the retirement of every earlier convoy goes before it (R201,
R206; 05_convoy.md R141). -/
def convoyTurn (run : IWord → State → Result) (s : State) : Result :=
  let c := s.core.conv
  if clocksStopped s then .next s
  else if unparks s then .next (unpark s)
  else if s.core.convoyLive = false then .next s
  else if s.inFlight then flightTurn s
  else if s.core.steer.stepped then .next s
  else match convoyDue s with
  | some t => .next t
  | none =>
  if s.core.preq || drains s then .next s
  else if c.formed then issueConvoy c.forming s
  else if c.st = .idle then .next (popBlock s)
  else match fetchWord (convoyFetch s) s with
    | none => decodingFault c.forming.length .fetch ((convoyFetch s).setWidth 64) s
    | some w => run w s

/-- The next outstanding access of the processor that moves to go on: its number, and whether its home has performed it. -/
def nextAccess (s : State) : Option (Nat × Bool) :=
  match s.cur.outs.findIdx? (fun a => a.performed) with
  | some n => some (n, true)
  | none => if s.cur.outs = [] then none else some (0, false)

/-- The event that moves an outstanding access on; whether its answer is lost is left open. -/
def accessEvent (s : State) : Option Instr :=
  (nextAccess s).map (fun p =>
    match s.cur.outs[p.1]? with
    | none => .loadDataArrival p.1
    | some a =>
      if Config.freeBool s.tick && mayTimeOut p.1 a s then .remoteAccessTimeout p.1
      else if p.2 = false then .remoteAccess p.1
      else if a.kind = .store then .storeAcknowledged p.1
      else .loadDataArrival p.1)

/-- The events of the core in focus that can come about. DESIGN CHOICE: log entry 31. -/
def coreEvent (s : State) : Option Instr :=
  let c := s.core
  if c.run = .clearing then some .tcmClear
  else if c.run = .restoring then some .contextRestore
  else if (c.run == .running || c.run == .halted) && c.steer.dead.isSome then some .taskAbandon
  else if c.gang.shares.any (shareEnds s) then some .gmmaMulticast
  else if c.gang.shares.any (fun h => h.ended && eventsIn s h) then some .gmmaShareCompletion
  else if chainMoves c then some .carryChain
  else if saveReady s then some .contextSave
  else none

/-- A queue of the cluster in focus with a crossing that can come about. -/
def crossingQueue (s : State) : Option Nat := (List.range 16).find? (fun q => (s.cluster.feed q).written != [])

/-- The event of the stream entry that the pump has in hand. -/
def pumpEvent (c : Cluster) : Option Instr :=
  (c.entries.find? (fun p => p.2.isStream && p.2.st == .running)).map (fun p =>
    if p.2.kind = .streamIn then .streamPumpTransfer p.1 else .streamOutCopy p.1)

/-- A waiting kernel entry whose readiness is decided. -/
def settledEntry (s : State) : Option Nat :=
  (s.cluster.entries.find? (fun p =>
    let e := p.2
    e.kind == .kernel && e.st == .waiting
      && (let st := streamsState s.cluster e.streams
          let dep := if e.block.deph = 0 then some true else (s.context (ctxKey e.block.deph)).settled e.block.depv
          st == some false || dep == some false || (st == some true && dep == some true)))).map (·.1)

/-- The events of the cluster in focus that can come about. -/
def clusterEvent (s : State) : Option Instr :=
  let c := s.cluster
  if c.reports ≠ [] then some .endReport
  else if c.arrivals.any (arrivalDue s) then some .gmmaShareCompletion
  else match crossingQueue s with
  | some q => some (.feedCrossing (.ofNat 4 q))
  | none => match pumpEvent c with
  | some i => some i
  | none => match settledEntry s with
  | some i => some (.entryReady i)
  | none =>
    if (fantailStep s.clusterId s).isSome || parkDue s.clusterId s || c.entries.any (fun p => (handShare s.clusterId p.1 s).isSome) then
      some .fantailRun
    else none

/-- The events of the package that can come about. -/
def packageEvent (s : State) : Option Instr :=
  if s.pkg.preqBusy && s.pkg.preqTasks.all (preqSettled s) then some .preqComplete
  else match s.pkg.contexts.find? (fun p => match p.2.cmds with
      | c :: _ => !commandHeld p.1 c s
      | [] => false) with
    | some p => some (if p.1 / 2 ^ 28 = 3 then .collectiveMatch p.1 else .timelineAdvance p.1)
    | none => none

/-- What the hardware does in its turn: an event with the agent that it concerns. Whether the 256 quiet cycles of a
deadlock have passed is left open (08_core_steering.md R188). DESIGN CHOICE: log entry 31. -/
def hardwareEvent (s : State) : Option (Agent × Instr) :=
  let at' := fun (a : Agent) => { s with agent := a }
  if clocksStopped s then none
  else ((accessEvent (at' .steer)).map (fun i => (.steer, i))).or
    (((coreEvent s).map (fun i => (.steer, i))).or
      (((accessEvent (at' .control)).map (fun i => (.control, i))).or
        (((clusterEvent s).map (fun i => (.hardware, i))).or
          (((packageEvent s).map (fun i => (.hardware, i))).or
            (if (deadlock s).isSome && Config.freeBool s.tick then some (.steer, .queueDeadlock) else none)))))

/-- Whether the limits of the waits pass in a turn is left open: the events that end them.
DESIGN CHOICE: log entry 6. -/
def expireWaits (s : State) : Result :=
  if clocksStopped s || !Config.freeBool s.tick then .next s.tickUp
  else match exec .waitLimitExpiry { s.tickUp with agent := .convoy } with
    | .next s1 => match exec .waitLimitExpiry { s1 with agent := .steer } with
      | .next s2 => exec .waitLimitExpiry { s2 with agent := .control }
      | r => r
    | r => r

/-- The cores that have something to do, and the first core of every cluster. -/
def busyCores (s : State) : List Nat :=
  ((s.coreId, s.core) :: s.cores).filterMap (fun p => if p.2.run = .free then none else some p.1)
    ++ (List.range 24).map (96 * ·)

/-- The core that comes into focus next. -/
def nextCore (s : State) : Nat :=
  let l := busyCores s
  match l.filter (fun c => decide (s.coreId < c)) with
  | [] => l.foldl min 0
  | c :: rest => rest.foldl min c

/-- How far a turn of the convoy stream goes is left open: the pace of the core in focus (08_core_steering.md R205).
DESIGN CHOICE: log entry 36. -/
def setPace (s : State) : State :=
  (s.modCore (fun c => { c with
    pace := if Config.freeBool s.tick then some (Config.freeNat s.tick) else none })).tickUp

/-- The boot of the package in its steps (18_package.md R384): the ROM verifies the image, and the firmware starts. -/
def bootTurn (s : State) : Option State :=
  if s.pkg.unpowered then some s
  else if s.pkg.bootState = 0 then some (bootFrom (flashKey 0) s)
  else if s.pkg.bootState = 1 then some (startFirmware s)
  else none

/-- The turn of the hardware: the boot after reset; then an event, or the waits; then the next core is in focus. -/
def hardwareTurn (s : State) : Result :=
  let r : Result :=
    match bootTurn s with
    | some t => .next t
    | none => match hardwareEvent s with
      | some (a, i) => exec i { s with agent := a }
      | none => expireWaits (setPace s)
  match r with
  | .next t => .next (t.focus (nextCore t))
  | r => r

/-- The agent whose turn comes after an agent's. -/
def Agent.after : Agent → Agent
  | .steer => .convoy
  | .convoy => .control
  | .control => .hardware
  | .hardware => .steer

/-- A turn of the control core: of the shipped dispatcher, or of the text that it runs. -/
def controlTurn (run : IWord → State → Result) (s : State) : Result :=
  match s.cluster.dispatch with
  | some d => if processorRuns s then dispatcherTurn d s else .next s
  | none => steerTurn run s

/-- A turn of an agent, with what runs a fetched word. DESIGN CHOICE: log entry 1. -/
def turn (run : IWord → State → Result) (s : State) : Result :=
  match s.agent with
  | .steer => steerTurn run s
  | .control => controlTurn run s
  | .convoy => convoyTurn run s
  | .hardware => hardwareTurn s

/-- The outcome with the next agent; the rung areas that the turn has written against R285 hold any value. -/
def passTurn (a : Agent) (r : Result) : Result :=
  match r with
  | .next s => .next (breakAreas { s with agent := a })
  | r => r

/-- An event of a core or of a cluster, a write of its registers too: it stands still while that core's clocks do
(18_package.md R390). -/
def localEvent (i : Instr) : Bool :=
  match i with
  | .blockPop | .convoyIssue | .convoyRetire | .trapEntry | .queueDeadlock | .debugStop | .contextSave | .contextRestore
  | .completionWordUpdate | .endReport | .taskAbandon | .loadDataArrival _ | .storeAcknowledged _
  | .vectorElementArrival | .tableWalk .. | .monitoredLineWrite _ | .waitLimitExpiry | .carryChain | .entryReady _
  | .fantailRun | .overdue _ | .priorityPreemption _ | .streamPumpTransfer _ | .streamOutCopy _ | .tcmClear
  | .feedCrossing _ | .gmmaMulticast | .gmmaShareCompletion | .spuriousWake | .remoteAccess _ | .remoteAccessTimeout _
  | .preemptionRequest | .planepwrWrite _ | .lcntWrite _ | .lcarryWrite _ | .gselWrite _ | .tlbinv _ | .fqadv _ | .clreset _
  | .csrWrite _ _ => true
  | _ => false

/-- A die stands still. -/
def dieStopped (d : Nat) (s : State) : Bool := s.pkg.frozen || (s.dieAt d).frozen

/-- An event waits for a scope beside the focused core that is frozen: an engine's, a die's, the package's links and host
registers, and every scope of an event that reaches all of them (18_package.md R390). DESIGN CHOICE: log entry 83. -/
def eventHeld (i : Instr) (s : State) : Bool :=
  match i with
  | .timelineAdvance h | .commandFailed h _ | .collectiveMatch h | .collectiveTimeout h | .memberUnreachable h =>
    (headCommand s h).any (fun c => commandHeld h c s)
  | .grantDelivery d | .missedGrants d | .dieStoreScrub d => dieStopped d s
  | .hbmScrub | .flitReceive .. | .nakReplay .. | .portRetrain _ | .portDown _ | .timeMessage _ | .clusterReset _
  | .hostPreemptionRequest _ | .preqComplete | .clholdWrite _ | .plimitWrite _ | .freeze _ | .thaw _ | .freezeSignal _ =>
    s.pkg.frozen
  | .offloadPromotion => s.pkg.frozen || (List.range 24).any s.frozenAt
  | _ => false

/-- The event of a job comes about. -/
def eventTurn (i : Instr) (s : State) : Result :=
  if (localEvent i && clocksStopped s) || eventHeld i s then .next s else exec i s

/-- A job of the agenda, with what runs a fetched word. -/
def runJob (run : IWord → State → Result) (j : Job) (s : State) : Result :=
  let t := { s.focus j.unit with agent := j.agent, stalled := false }
  match j.event with
  | some i => passTurn s.agent (eventTurn i t)
  | none => passTurn j.agent.after (turn run t)

/-- One step, with what runs a fetched word: the next job of the agenda, or the turn of the agent.
DESIGN CHOICE: log entry 1. -/
def stepWith (run : IWord → State → Result) (s : State) : Result :=
  match s.agenda with
  | j :: rest => runJob run j { s with agenda := rest }
  | [] => runJob run ⟨s.coreId, s.agent, none⟩ s

end Sys2Proof.Machine
end

