-- ==== Sys2Proof/Machine/FastWords.lean ====
section
/-! DEFINITION. The fetch of a word as compiled code runs it. The compiler cannot build the constructors of the steering
words, so each of their rows stands here with its meaning in place of its instruction; fast_word_eq shows that a word
runs as decode and exec give it. Nothing else of the model rests on this file. -/

namespace Sys2Proof.Machine

/-- A row with the condition of well-formedness and the meaning that its operands give. -/
structure FastRow where
  segs : List Seg
  run : Proc → List Nat → Option (Bool × (State → Result))

/-- What the operands of a number give under one row. -/
def FastRow.read (f : FastRow) (p : Proc) (n : Nat) : Option (Bool × (State → Result)) :=
  (segsMatch f.segs n).bind (f.run p)

/-- A row and its compiled form agree. -/
def RowAgrees (r : Row) (f : FastRow) : Prop :=
  ∀ p n, (r.read n).map (fun i => (legalOn p i, exec (forProc p i))) = f.read p n

/-- Two lists of rows agree. -/
def RowsAgree : List Row → List FastRow → Prop
  | [], [] => True
  | r :: rs, f :: fs => RowAgrees r f ∧ RowsAgree rs fs
  | _, _ => False

/-- Agreement on the operands is agreement on the number. -/
theorem rowAgrees_of {sg : List Seg} {build : List Nat → Option Instr}
    {run : Proc → List Nat → Option (Bool × (State → Result))} (p : Proc) (n : Nat)
    (h : ∀ xs, (build xs).map (fun i => (legalOn p i, exec (forProc p i))) = run p xs) :
    ((Row.mk sg build).read n).map (fun i => (legalOn p i, exec (forProc p i))) = (FastRow.mk sg run).read p n := by
  simp only [Row.read, FastRow.read]
  cases segsMatch sg n with
  | none => rfl
  | some xs => exact h xs

/-- ADD (R170). -/
def fastAdd : FastRow :=
  .mk segsAdd (fun _ xs => match xs with
    | [d, a, b] => some (true,
      (fun s => Sys2Proof.Machine.execAdd (.ofNat 5 d) (.ofNat 5 a) (.ofNat 5 b) s))
    | _ => none)

theorem fastAdd_agrees : RowAgrees rowAdd fastAdd := fun p n =>
  rowAgrees_of p n fun xs => match xs with
  | [] => rfl
  | [_] => rfl
  | [_, _] => rfl
  | [_, _, _] => rfl
  | _ :: _ :: _ :: _ :: _ => rfl

/-- SUB (R170). -/
def fastSub : FastRow :=
  .mk segsSub (fun _ xs => match xs with
    | [d, a, b] => some (true,
      (fun s => Sys2Proof.Machine.execSub (.ofNat 5 d) (.ofNat 5 a) (.ofNat 5 b) s))
    | _ => none)

theorem fastSub_agrees : RowAgrees rowSub fastSub := fun p n =>
  rowAgrees_of p n fun xs => match xs with
  | [] => rfl
  | [_] => rfl
  | [_, _] => rfl
  | [_, _, _] => rfl
  | _ :: _ :: _ :: _ :: _ => rfl

/-- AND (R170). -/
def fastAnd : FastRow :=
  .mk segsAnd (fun _ xs => match xs with
    | [d, a, b] => some (true,
      (fun s => Sys2Proof.Machine.execAnd (.ofNat 5 d) (.ofNat 5 a) (.ofNat 5 b) s))
    | _ => none)

theorem fastAnd_agrees : RowAgrees rowAnd fastAnd := fun p n =>
  rowAgrees_of p n fun xs => match xs with
  | [] => rfl
  | [_] => rfl
  | [_, _] => rfl
  | [_, _, _] => rfl
  | _ :: _ :: _ :: _ :: _ => rfl

/-- OR (R170). -/
def fastOr : FastRow :=
  .mk segsOr (fun _ xs => match xs with
    | [d, a, b] => some (true,
      (fun s => Sys2Proof.Machine.execOr (.ofNat 5 d) (.ofNat 5 a) (.ofNat 5 b) s))
    | _ => none)

theorem fastOr_agrees : RowAgrees rowOr fastOr := fun p n =>
  rowAgrees_of p n fun xs => match xs with
  | [] => rfl
  | [_] => rfl
  | [_, _] => rfl
  | [_, _, _] => rfl
  | _ :: _ :: _ :: _ :: _ => rfl

/-- XOR (R170). -/
def fastXor : FastRow :=
  .mk segsXor (fun _ xs => match xs with
    | [d, a, b] => some (true,
      (fun s => Sys2Proof.Machine.execXor (.ofNat 5 d) (.ofNat 5 a) (.ofNat 5 b) s))
    | _ => none)

theorem fastXor_agrees : RowAgrees rowXor fastXor := fun p n =>
  rowAgrees_of p n fun xs => match xs with
  | [] => rfl
  | [_] => rfl
  | [_, _] => rfl
  | [_, _, _] => rfl
  | _ :: _ :: _ :: _ :: _ => rfl

/-- SLL (R170). -/
def fastSll : FastRow :=
  .mk segsSll (fun _ xs => match xs with
    | [d, a, b] => some (true,
      (fun s => Sys2Proof.Machine.execSll (.ofNat 5 d) (.ofNat 5 a) (.ofNat 5 b) s))
    | _ => none)

theorem fastSll_agrees : RowAgrees rowSll fastSll := fun p n =>
  rowAgrees_of p n fun xs => match xs with
  | [] => rfl
  | [_] => rfl
  | [_, _] => rfl
  | [_, _, _] => rfl
  | _ :: _ :: _ :: _ :: _ => rfl

/-- SRL (R170). -/
def fastSrl : FastRow :=
  .mk segsSrl (fun _ xs => match xs with
    | [d, a, b] => some (true,
      (fun s => Sys2Proof.Machine.execSrl (.ofNat 5 d) (.ofNat 5 a) (.ofNat 5 b) s))
    | _ => none)

theorem fastSrl_agrees : RowAgrees rowSrl fastSrl := fun p n =>
  rowAgrees_of p n fun xs => match xs with
  | [] => rfl
  | [_] => rfl
  | [_, _] => rfl
  | [_, _, _] => rfl
  | _ :: _ :: _ :: _ :: _ => rfl

/-- SRA (R170). -/
def fastSra : FastRow :=
  .mk segsSra (fun _ xs => match xs with
    | [d, a, b] => some (true,
      (fun s => Sys2Proof.Machine.execSra (.ofNat 5 d) (.ofNat 5 a) (.ofNat 5 b) s))
    | _ => none)

theorem fastSra_agrees : RowAgrees rowSra fastSra := fun p n =>
  rowAgrees_of p n fun xs => match xs with
  | [] => rfl
  | [_] => rfl
  | [_, _] => rfl
  | [_, _, _] => rfl
  | _ :: _ :: _ :: _ :: _ => rfl

/-- SLT (R170). -/
def fastSlt : FastRow :=
  .mk segsSlt (fun _ xs => match xs with
    | [d, a, b] => some (true,
      (fun s => Sys2Proof.Machine.execSlt (.ofNat 5 d) (.ofNat 5 a) (.ofNat 5 b) s))
    | _ => none)

theorem fastSlt_agrees : RowAgrees rowSlt fastSlt := fun p n =>
  rowAgrees_of p n fun xs => match xs with
  | [] => rfl
  | [_] => rfl
  | [_, _] => rfl
  | [_, _, _] => rfl
  | _ :: _ :: _ :: _ :: _ => rfl

/-- SLTN (R170). -/
def fastSltn : FastRow :=
  .mk segsSltn (fun _ xs => match xs with
    | [d, a, b] => some (true,
      (fun s => Sys2Proof.Machine.execSltn (.ofNat 5 d) (.ofNat 5 a) (.ofNat 5 b) s))
    | _ => none)

theorem fastSltn_agrees : RowAgrees rowSltn fastSltn := fun p n =>
  rowAgrees_of p n fun xs => match xs with
  | [] => rfl
  | [_] => rfl
  | [_, _] => rfl
  | [_, _, _] => rfl
  | _ :: _ :: _ :: _ :: _ => rfl

/-- MUL (R170). -/
def fastMul : FastRow :=
  .mk segsMul (fun _ xs => match xs with
    | [d, a, b] => some (true,
      (fun s => Sys2Proof.Machine.execMul (.ofNat 5 d) (.ofNat 5 a) (.ofNat 5 b) s))
    | _ => none)

theorem fastMul_agrees : RowAgrees rowMul fastMul := fun p n =>
  rowAgrees_of p n fun xs => match xs with
  | [] => rfl
  | [_] => rfl
  | [_, _] => rfl
  | [_, _, _] => rfl
  | _ :: _ :: _ :: _ :: _ => rfl

/-- MULHS (R170). -/
def fastMulhs : FastRow :=
  .mk segsMulhs (fun _ xs => match xs with
    | [d, a, b] => some (true,
      (fun s => Sys2Proof.Machine.execMulhs (.ofNat 5 d) (.ofNat 5 a) (.ofNat 5 b) s))
    | _ => none)

theorem fastMulhs_agrees : RowAgrees rowMulhs fastMulhs := fun p n =>
  rowAgrees_of p n fun xs => match xs with
  | [] => rfl
  | [_] => rfl
  | [_, _] => rfl
  | [_, _, _] => rfl
  | _ :: _ :: _ :: _ :: _ => rfl

/-- MULHN (R170). -/
def fastMulhn : FastRow :=
  .mk segsMulhn (fun _ xs => match xs with
    | [d, a, b] => some (true,
      (fun s => Sys2Proof.Machine.execMulhn (.ofNat 5 d) (.ofNat 5 a) (.ofNat 5 b) s))
    | _ => none)

theorem fastMulhn_agrees : RowAgrees rowMulhn fastMulhn := fun p n =>
  rowAgrees_of p n fun xs => match xs with
  | [] => rfl
  | [_] => rfl
  | [_, _] => rfl
  | [_, _, _] => rfl
  | _ :: _ :: _ :: _ :: _ => rfl

/-- DIV (R170). -/
def fastDiv : FastRow :=
  .mk segsDiv (fun _ xs => match xs with
    | [d, a, b] => some (true,
      (fun s => Sys2Proof.Machine.execDiv (.ofNat 5 d) (.ofNat 5 a) (.ofNat 5 b) s))
    | _ => none)

theorem fastDiv_agrees : RowAgrees rowDiv fastDiv := fun p n =>
  rowAgrees_of p n fun xs => match xs with
  | [] => rfl
  | [_] => rfl
  | [_, _] => rfl
  | [_, _, _] => rfl
  | _ :: _ :: _ :: _ :: _ => rfl

/-- DIVN (R170). -/
def fastDivn : FastRow :=
  .mk segsDivn (fun _ xs => match xs with
    | [d, a, b] => some (true,
      (fun s => Sys2Proof.Machine.execDivn (.ofNat 5 d) (.ofNat 5 a) (.ofNat 5 b) s))
    | _ => none)

theorem fastDivn_agrees : RowAgrees rowDivn fastDivn := fun p n =>
  rowAgrees_of p n fun xs => match xs with
  | [] => rfl
  | [_] => rfl
  | [_, _] => rfl
  | [_, _, _] => rfl
  | _ :: _ :: _ :: _ :: _ => rfl

/-- REM (R170). -/
def fastRem : FastRow :=
  .mk segsRem (fun _ xs => match xs with
    | [d, a, b] => some (true,
      (fun s => Sys2Proof.Machine.execRem (.ofNat 5 d) (.ofNat 5 a) (.ofNat 5 b) s))
    | _ => none)

theorem fastRem_agrees : RowAgrees rowRem fastRem := fun p n =>
  rowAgrees_of p n fun xs => match xs with
  | [] => rfl
  | [_] => rfl
  | [_, _] => rfl
  | [_, _, _] => rfl
  | _ :: _ :: _ :: _ :: _ => rfl

/-- REMN (R170). -/
def fastRemn : FastRow :=
  .mk segsRemn (fun _ xs => match xs with
    | [d, a, b] => some (true,
      (fun s => Sys2Proof.Machine.execRemn (.ofNat 5 d) (.ofNat 5 a) (.ofNat 5 b) s))
    | _ => none)

theorem fastRemn_agrees : RowAgrees rowRemn fastRemn := fun p n =>
  rowAgrees_of p n fun xs => match xs with
  | [] => rfl
  | [_] => rfl
  | [_, _] => rfl
  | [_, _, _] => rfl
  | _ :: _ :: _ :: _ :: _ => rfl

/-- ADDI (R171). -/
def fastAddi : FastRow :=
  .mk segsAddi (fun _ xs => match xs with
    | [d, a, i] => some (true,
      (fun s => Sys2Proof.Machine.execAddi (.ofNat 5 d) (.ofNat 5 a) (.ofNat 15 i) s))
    | _ => none)

theorem fastAddi_agrees : RowAgrees rowAddi fastAddi := fun p n =>
  rowAgrees_of p n fun xs => match xs with
  | [] => rfl
  | [_] => rfl
  | [_, _] => rfl
  | [_, _, _] => rfl
  | _ :: _ :: _ :: _ :: _ => rfl

/-- ANDI (R171). -/
def fastAndi : FastRow :=
  .mk segsAndi (fun _ xs => match xs with
    | [d, a, i] => some (true,
      (fun s => Sys2Proof.Machine.execAndi (.ofNat 5 d) (.ofNat 5 a) (.ofNat 15 i) s))
    | _ => none)

theorem fastAndi_agrees : RowAgrees rowAndi fastAndi := fun p n =>
  rowAgrees_of p n fun xs => match xs with
  | [] => rfl
  | [_] => rfl
  | [_, _] => rfl
  | [_, _, _] => rfl
  | _ :: _ :: _ :: _ :: _ => rfl

/-- ORI (R171). -/
def fastOri : FastRow :=
  .mk segsOri (fun _ xs => match xs with
    | [d, a, i] => some (true,
      (fun s => Sys2Proof.Machine.execOri (.ofNat 5 d) (.ofNat 5 a) (.ofNat 15 i) s))
    | _ => none)

theorem fastOri_agrees : RowAgrees rowOri fastOri := fun p n =>
  rowAgrees_of p n fun xs => match xs with
  | [] => rfl
  | [_] => rfl
  | [_, _] => rfl
  | [_, _, _] => rfl
  | _ :: _ :: _ :: _ :: _ => rfl

/-- XORI (R171). -/
def fastXori : FastRow :=
  .mk segsXori (fun _ xs => match xs with
    | [d, a, i] => some (true,
      (fun s => Sys2Proof.Machine.execXori (.ofNat 5 d) (.ofNat 5 a) (.ofNat 15 i) s))
    | _ => none)

theorem fastXori_agrees : RowAgrees rowXori fastXori := fun p n =>
  rowAgrees_of p n fun xs => match xs with
  | [] => rfl
  | [_] => rfl
  | [_, _] => rfl
  | [_, _, _] => rfl
  | _ :: _ :: _ :: _ :: _ => rfl

/-- SLLI (R172). -/
def fastSlli : FastRow :=
  .mk segsSlli (fun _ xs => match xs with
    | [d, a, n] => some (true,
      (fun s => Sys2Proof.Machine.execSlli (.ofNat 5 d) (.ofNat 5 a) (.ofNat 6 n) s))
    | _ => none)

theorem fastSlli_agrees : RowAgrees rowSlli fastSlli := fun p n =>
  rowAgrees_of p n fun xs => match xs with
  | [] => rfl
  | [_] => rfl
  | [_, _] => rfl
  | [_, _, _] => rfl
  | _ :: _ :: _ :: _ :: _ => rfl

/-- SRLI (R172). -/
def fastSrli : FastRow :=
  .mk segsSrli (fun _ xs => match xs with
    | [d, a, n] => some (true,
      (fun s => Sys2Proof.Machine.execSrli (.ofNat 5 d) (.ofNat 5 a) (.ofNat 6 n) s))
    | _ => none)

theorem fastSrli_agrees : RowAgrees rowSrli fastSrli := fun p n =>
  rowAgrees_of p n fun xs => match xs with
  | [] => rfl
  | [_] => rfl
  | [_, _] => rfl
  | [_, _, _] => rfl
  | _ :: _ :: _ :: _ :: _ => rfl

/-- SRAI (R172). -/
def fastSrai : FastRow :=
  .mk segsSrai (fun _ xs => match xs with
    | [d, a, n] => some (true,
      (fun s => Sys2Proof.Machine.execSrai (.ofNat 5 d) (.ofNat 5 a) (.ofNat 6 n) s))
    | _ => none)

theorem fastSrai_agrees : RowAgrees rowSrai fastSrai := fun p n =>
  rowAgrees_of p n fun xs => match xs with
  | [] => rfl
  | [_] => rfl
  | [_, _] => rfl
  | [_, _, _] => rfl
  | _ :: _ :: _ :: _ :: _ => rfl

/-- SLTI (R171). -/
def fastSlti : FastRow :=
  .mk segsSlti (fun _ xs => match xs with
    | [d, a, i] => some (true,
      (fun s => Sys2Proof.Machine.execSlti (.ofNat 5 d) (.ofNat 5 a) (.ofNat 15 i) s))
    | _ => none)

theorem fastSlti_agrees : RowAgrees rowSlti fastSlti := fun p n =>
  rowAgrees_of p n fun xs => match xs with
  | [] => rfl
  | [_] => rfl
  | [_, _] => rfl
  | [_, _, _] => rfl
  | _ :: _ :: _ :: _ :: _ => rfl

/-- SLTIN (R171). -/
def fastSltin : FastRow :=
  .mk segsSltin (fun _ xs => match xs with
    | [d, a, i] => some (true,
      (fun s => Sys2Proof.Machine.execSltin (.ofNat 5 d) (.ofNat 5 a) (.ofNat 15 i) s))
    | _ => none)

theorem fastSltin_agrees : RowAgrees rowSltin fastSltin := fun p n =>
  rowAgrees_of p n fun xs => match xs with
  | [] => rfl
  | [_] => rfl
  | [_, _] => rfl
  | [_, _, _] => rfl
  | _ :: _ :: _ :: _ :: _ => rfl

/-- LUI (R173). -/
def fastLui : FastRow :=
  .mk segsLui (fun _ xs => match xs with
    | [d, i] => some (true,
      (fun s => Sys2Proof.Machine.execLui (.ofNat 5 d) (.ofNat 20 i) s))
    | _ => none)

theorem fastLui_agrees : RowAgrees rowLui fastLui := fun p n =>
  rowAgrees_of p n fun xs => match xs with
  | [] => rfl
  | [_] => rfl
  | [_, _] => rfl
  | _ :: _ :: _ :: _ => rfl

/-- SEXT (R174). -/
def fastSext : FastRow :=
  .mk segsSext (fun _ xs => match xs with
    | [d, a, w] => some (true,
      (fun s => Sys2Proof.Machine.execSext (.ofNat 5 d) (.ofNat 5 a) (.ofNat 6 w) s))
    | _ => none)

theorem fastSext_agrees : RowAgrees rowSext fastSext := fun p n =>
  rowAgrees_of p n fun xs => match xs with
  | [] => rfl
  | [_] => rfl
  | [_, _] => rfl
  | [_, _, _] => rfl
  | _ :: _ :: _ :: _ :: _ => rfl

/-- ZEXT (R174). -/
def fastZext : FastRow :=
  .mk segsZext (fun _ xs => match xs with
    | [d, a, w] => some (true,
      (fun s => Sys2Proof.Machine.execZext (.ofNat 5 d) (.ofNat 5 a) (.ofNat 6 w) s))
    | _ => none)

theorem fastZext_agrees : RowAgrees rowZext fastZext := fun p n =>
  rowAgrees_of p n fun xs => match xs with
  | [] => rfl
  | [_] => rfl
  | [_, _] => rfl
  | [_, _, _] => rfl
  | _ :: _ :: _ :: _ :: _ => rfl

/-- EXTR (R174). -/
def fastExtr : FastRow :=
  .mk segsExtr (fun _ xs => match xs with
    | [d, a, b, w] => some (true,
      (fun s => Sys2Proof.Machine.execExtr (.ofNat 5 d) (.ofNat 5 a) (.ofNat 5 b) (.ofNat 6 w) s))
    | _ => none)

theorem fastExtr_agrees : RowAgrees rowExtr fastExtr := fun p n =>
  rowAgrees_of p n fun xs => match xs with
  | [] => rfl
  | [_] => rfl
  | [_, _] => rfl
  | [_, _, _] => rfl
  | [_, _, _, _] => rfl
  | _ :: _ :: _ :: _ :: _ :: _ => rfl

/-- INS (R174). -/
def fastIns : FastRow :=
  .mk segsIns (fun _ xs => match xs with
    | [d, a, b, w] => some (true,
      (fun s => Sys2Proof.Machine.execIns (.ofNat 5 d) (.ofNat 5 a) (.ofNat 5 b) (.ofNat 6 w) s))
    | _ => none)

theorem fastIns_agrees : RowAgrees rowIns fastIns := fun p n =>
  rowAgrees_of p n fun xs => match xs with
  | [] => rfl
  | [_] => rfl
  | [_, _] => rfl
  | [_, _, _] => rfl
  | [_, _, _, _] => rfl
  | _ :: _ :: _ :: _ :: _ :: _ => rfl

/-- CLZ (R174). -/
def fastClz : FastRow :=
  .mk segsClz (fun _ xs => match xs with
    | [d, a] => some (true,
      (fun s => Sys2Proof.Machine.execClz (.ofNat 5 d) (.ofNat 5 a) s))
    | _ => none)

theorem fastClz_agrees : RowAgrees rowClz fastClz := fun p n =>
  rowAgrees_of p n fun xs => match xs with
  | [] => rfl
  | [_] => rfl
  | [_, _] => rfl
  | _ :: _ :: _ :: _ => rfl

/-- CTZ (R174). -/
def fastCtz : FastRow :=
  .mk segsCtz (fun _ xs => match xs with
    | [d, a] => some (true,
      (fun s => Sys2Proof.Machine.execCtz (.ofNat 5 d) (.ofNat 5 a) s))
    | _ => none)

theorem fastCtz_agrees : RowAgrees rowCtz fastCtz := fun p n =>
  rowAgrees_of p n fun xs => match xs with
  | [] => rfl
  | [_] => rfl
  | [_, _] => rfl
  | _ :: _ :: _ :: _ => rfl

/-- POPC (R174). -/
def fastPopc : FastRow :=
  .mk segsPopc (fun _ xs => match xs with
    | [d, a] => some (true,
      (fun s => Sys2Proof.Machine.execPopc (.ofNat 5 d) (.ofNat 5 a) s))
    | _ => none)

theorem fastPopc_agrees : RowAgrees rowPopc fastPopc := fun p n =>
  rowAgrees_of p n fun xs => match xs with
  | [] => rfl
  | [_] => rfl
  | [_, _] => rfl
  | _ :: _ :: _ :: _ => rfl

/-- LDB (R215). -/
def fastLdb : FastRow :=
  .mk segsLdb (fun _ xs => match xs with
    | [d, a, p0, i] => some (true,
      (fun s => Sys2Proof.Machine.execLdb (.ofNat 5 d) (.ofNat 5 a) (.ofNat 2 p0) (.ofNat 13 i) s))
    | _ => none)

theorem fastLdb_agrees : RowAgrees rowLdb fastLdb := fun p n =>
  rowAgrees_of p n fun xs => match xs with
  | [] => rfl
  | [_] => rfl
  | [_, _] => rfl
  | [_, _, _] => rfl
  | [_, _, _, _] => rfl
  | _ :: _ :: _ :: _ :: _ :: _ => rfl

/-- LDW (R215). -/
def fastLdw : FastRow :=
  .mk segsLdw (fun _ xs => match xs with
    | [d, a, p0, i] => some (true,
      (fun s => Sys2Proof.Machine.execLdw (.ofNat 5 d) (.ofNat 5 a) (.ofNat 2 p0) (.ofNat 13 i) s))
    | _ => none)

theorem fastLdw_agrees : RowAgrees rowLdw fastLdw := fun p n =>
  rowAgrees_of p n fun xs => match xs with
  | [] => rfl
  | [_] => rfl
  | [_, _] => rfl
  | [_, _, _] => rfl
  | [_, _, _, _] => rfl
  | _ :: _ :: _ :: _ :: _ :: _ => rfl

/-- LDD (R215). -/
def fastLdd : FastRow :=
  .mk segsLdd (fun _ xs => match xs with
    | [d, a, p0, i] => some (true,
      (fun s => Sys2Proof.Machine.execLdd (.ofNat 5 d) (.ofNat 5 a) (.ofNat 2 p0) (.ofNat 13 i) s))
    | _ => none)

theorem fastLdd_agrees : RowAgrees rowLdd fastLdd := fun p n =>
  rowAgrees_of p n fun xs => match xs with
  | [] => rfl
  | [_] => rfl
  | [_, _] => rfl
  | [_, _, _] => rfl
  | [_, _, _, _] => rfl
  | _ :: _ :: _ :: _ :: _ :: _ => rfl

/-- STB (R215). -/
def fastStb : FastRow :=
  .mk segsStb (fun _ xs => match xs with
    | [d, a, p0, i] => some (true,
      (fun s => Sys2Proof.Machine.execStb (.ofNat 5 d) (.ofNat 5 a) (.ofNat 2 p0) (.ofNat 13 i) s))
    | _ => none)

theorem fastStb_agrees : RowAgrees rowStb fastStb := fun p n =>
  rowAgrees_of p n fun xs => match xs with
  | [] => rfl
  | [_] => rfl
  | [_, _] => rfl
  | [_, _, _] => rfl
  | [_, _, _, _] => rfl
  | _ :: _ :: _ :: _ :: _ :: _ => rfl

/-- STW (R215). -/
def fastStw : FastRow :=
  .mk segsStw (fun _ xs => match xs with
    | [d, a, p0, i] => some (true,
      (fun s => Sys2Proof.Machine.execStw (.ofNat 5 d) (.ofNat 5 a) (.ofNat 2 p0) (.ofNat 13 i) s))
    | _ => none)

theorem fastStw_agrees : RowAgrees rowStw fastStw := fun p n =>
  rowAgrees_of p n fun xs => match xs with
  | [] => rfl
  | [_] => rfl
  | [_, _] => rfl
  | [_, _, _] => rfl
  | [_, _, _, _] => rfl
  | _ :: _ :: _ :: _ :: _ :: _ => rfl

/-- STD (R215). -/
def fastStd : FastRow :=
  .mk segsStd (fun _ xs => match xs with
    | [d, a, p0, i] => some (true,
      (fun s => Sys2Proof.Machine.execStd (.ofNat 5 d) (.ofNat 5 a) (.ofNat 2 p0) (.ofNat 13 i) s))
    | _ => none)

theorem fastStd_agrees : RowAgrees rowStd fastStd := fun p n =>
  rowAgrees_of p n fun xs => match xs with
  | [] => rfl
  | [_] => rfl
  | [_, _] => rfl
  | [_, _, _] => rfl
  | [_, _, _, _] => rfl
  | _ :: _ :: _ :: _ :: _ :: _ => rfl

/-- AMOSWAP (R217). -/
def fastAmoswap : FastRow :=
  .mk segsAmoswap (fun _ xs => match xs with
    | [d, a, b, e, o, p0] => some (scopeOk (BitVec.ofNat 3 e),
      (fun s => Sys2Proof.Machine.execAmoswap (.ofNat 5 d) (.ofNat 5 a) (.ofNat 5 b) (.ofNat 3 e) (.ofNat 2 o) (.ofNat 2 p0) s))
    | _ => none)

theorem fastAmoswap_agrees : RowAgrees rowAmoswap fastAmoswap := fun p n =>
  rowAgrees_of p n fun xs => match xs with
  | [] => rfl
  | [_] => rfl
  | [_, _] => rfl
  | [_, _, _] => rfl
  | [_, _, _, _] => rfl
  | [_, _, _, _, _] => rfl
  | [_, _, _, _, _, _] => rfl
  | _ :: _ :: _ :: _ :: _ :: _ :: _ :: _ => rfl

/-- AMOADD (R217). -/
def fastAmoadd : FastRow :=
  .mk segsAmoadd (fun _ xs => match xs with
    | [d, a, b, e, o, p0] => some (scopeOk (BitVec.ofNat 3 e),
      (fun s => Sys2Proof.Machine.execAmoadd (.ofNat 5 d) (.ofNat 5 a) (.ofNat 5 b) (.ofNat 3 e) (.ofNat 2 o) (.ofNat 2 p0) s))
    | _ => none)

theorem fastAmoadd_agrees : RowAgrees rowAmoadd fastAmoadd := fun p n =>
  rowAgrees_of p n fun xs => match xs with
  | [] => rfl
  | [_] => rfl
  | [_, _] => rfl
  | [_, _, _] => rfl
  | [_, _, _, _] => rfl
  | [_, _, _, _, _] => rfl
  | [_, _, _, _, _, _] => rfl
  | _ :: _ :: _ :: _ :: _ :: _ :: _ :: _ => rfl

/-- AMOAND (R217). -/
def fastAmoand : FastRow :=
  .mk segsAmoand (fun _ xs => match xs with
    | [d, a, b, e, o, p0] => some (scopeOk (BitVec.ofNat 3 e),
      (fun s => Sys2Proof.Machine.execAmoand (.ofNat 5 d) (.ofNat 5 a) (.ofNat 5 b) (.ofNat 3 e) (.ofNat 2 o) (.ofNat 2 p0) s))
    | _ => none)

theorem fastAmoand_agrees : RowAgrees rowAmoand fastAmoand := fun p n =>
  rowAgrees_of p n fun xs => match xs with
  | [] => rfl
  | [_] => rfl
  | [_, _] => rfl
  | [_, _, _] => rfl
  | [_, _, _, _] => rfl
  | [_, _, _, _, _] => rfl
  | [_, _, _, _, _, _] => rfl
  | _ :: _ :: _ :: _ :: _ :: _ :: _ :: _ => rfl

/-- AMOOR (R217). -/
def fastAmoor : FastRow :=
  .mk segsAmoor (fun _ xs => match xs with
    | [d, a, b, e, o, p0] => some (scopeOk (BitVec.ofNat 3 e),
      (fun s => Sys2Proof.Machine.execAmoor (.ofNat 5 d) (.ofNat 5 a) (.ofNat 5 b) (.ofNat 3 e) (.ofNat 2 o) (.ofNat 2 p0) s))
    | _ => none)

theorem fastAmoor_agrees : RowAgrees rowAmoor fastAmoor := fun p n =>
  rowAgrees_of p n fun xs => match xs with
  | [] => rfl
  | [_] => rfl
  | [_, _] => rfl
  | [_, _, _] => rfl
  | [_, _, _, _] => rfl
  | [_, _, _, _, _] => rfl
  | [_, _, _, _, _, _] => rfl
  | _ :: _ :: _ :: _ :: _ :: _ :: _ :: _ => rfl

/-- AMOXOR (R217). -/
def fastAmoxor : FastRow :=
  .mk segsAmoxor (fun _ xs => match xs with
    | [d, a, b, e, o, p0] => some (scopeOk (BitVec.ofNat 3 e),
      (fun s => Sys2Proof.Machine.execAmoxor (.ofNat 5 d) (.ofNat 5 a) (.ofNat 5 b) (.ofNat 3 e) (.ofNat 2 o) (.ofNat 2 p0) s))
    | _ => none)

theorem fastAmoxor_agrees : RowAgrees rowAmoxor fastAmoxor := fun p n =>
  rowAgrees_of p n fun xs => match xs with
  | [] => rfl
  | [_] => rfl
  | [_, _] => rfl
  | [_, _, _] => rfl
  | [_, _, _, _] => rfl
  | [_, _, _, _, _] => rfl
  | [_, _, _, _, _, _] => rfl
  | _ :: _ :: _ :: _ :: _ :: _ :: _ :: _ => rfl

/-- AMOMAX (R217). -/
def fastAmomax : FastRow :=
  .mk segsAmomax (fun _ xs => match xs with
    | [d, a, b, e, o, p0] => some (scopeOk (BitVec.ofNat 3 e),
      (fun s => Sys2Proof.Machine.execAmomax (.ofNat 5 d) (.ofNat 5 a) (.ofNat 5 b) (.ofNat 3 e) (.ofNat 2 o) (.ofNat 2 p0) s))
    | _ => none)

theorem fastAmomax_agrees : RowAgrees rowAmomax fastAmomax := fun p n =>
  rowAgrees_of p n fun xs => match xs with
  | [] => rfl
  | [_] => rfl
  | [_, _] => rfl
  | [_, _, _] => rfl
  | [_, _, _, _] => rfl
  | [_, _, _, _, _] => rfl
  | [_, _, _, _, _, _] => rfl
  | _ :: _ :: _ :: _ :: _ :: _ :: _ :: _ => rfl

/-- AMOMIN (R217). -/
def fastAmomin : FastRow :=
  .mk segsAmomin (fun _ xs => match xs with
    | [d, a, b, e, o, p0] => some (scopeOk (BitVec.ofNat 3 e),
      (fun s => Sys2Proof.Machine.execAmomin (.ofNat 5 d) (.ofNat 5 a) (.ofNat 5 b) (.ofNat 3 e) (.ofNat 2 o) (.ofNat 2 p0) s))
    | _ => none)

theorem fastAmomin_agrees : RowAgrees rowAmomin fastAmomin := fun p n =>
  rowAgrees_of p n fun xs => match xs with
  | [] => rfl
  | [_] => rfl
  | [_, _] => rfl
  | [_, _, _] => rfl
  | [_, _, _, _] => rfl
  | [_, _, _, _, _] => rfl
  | [_, _, _, _, _, _] => rfl
  | _ :: _ :: _ :: _ :: _ :: _ :: _ :: _ => rfl

/-- AMOMAXU (R217). -/
def fastAmomaxu : FastRow :=
  .mk segsAmomaxu (fun _ xs => match xs with
    | [d, a, b, e, o, p0] => some (scopeOk (BitVec.ofNat 3 e),
      (fun s => Sys2Proof.Machine.execAmomaxu (.ofNat 5 d) (.ofNat 5 a) (.ofNat 5 b) (.ofNat 3 e) (.ofNat 2 o) (.ofNat 2 p0) s))
    | _ => none)

theorem fastAmomaxu_agrees : RowAgrees rowAmomaxu fastAmomaxu := fun p n =>
  rowAgrees_of p n fun xs => match xs with
  | [] => rfl
  | [_] => rfl
  | [_, _] => rfl
  | [_, _, _] => rfl
  | [_, _, _, _] => rfl
  | [_, _, _, _, _] => rfl
  | [_, _, _, _, _, _] => rfl
  | _ :: _ :: _ :: _ :: _ :: _ :: _ :: _ => rfl

/-- CAS (R218). -/
def fastCas : FastRow :=
  .mk segsCas (fun _ xs => match xs with
    | [d, a, b, e, o, p0] => some (scopeOk (BitVec.ofNat 3 e),
      (fun s => Sys2Proof.Machine.execCas (.ofNat 5 d) (.ofNat 5 a) (.ofNat 5 b) (.ofNat 3 e) (.ofNat 2 o) (.ofNat 2 p0) s))
    | _ => none)

theorem fastCas_agrees : RowAgrees rowCas fastCas := fun p n =>
  rowAgrees_of p n fun xs => match xs with
  | [] => rfl
  | [_] => rfl
  | [_, _] => rfl
  | [_, _, _] => rfl
  | [_, _, _, _] => rfl
  | [_, _, _, _, _] => rfl
  | [_, _, _, _, _, _] => rfl
  | _ :: _ :: _ :: _ :: _ :: _ :: _ :: _ => rfl

/-- FENCE (R219). -/
def fastFence : FastRow :=
  .mk segsFence (fun _ xs => match xs with
    | [e, q, s0] => some (scopeOk (BitVec.ofNat 3 e) && decide ((BitVec.ofNat 2 q) ≠ 0) && decide ((BitVec.ofNat 2 s0) ≠ 0),
      (fun s => Sys2Proof.Machine.execFence (.ofNat 3 e) (.ofNat 2 q) (.ofNat 2 s0) s))
    | _ => none)

theorem fastFence_agrees : RowAgrees rowFence fastFence := fun p n =>
  rowAgrees_of p n fun xs => match xs with
  | [] => rfl
  | [_] => rfl
  | [_, _] => rfl
  | [_, _, _] => rfl
  | _ :: _ :: _ :: _ :: _ => rfl

/-- CJ_EQ (R175). -/
def fastCjEq : FastRow :=
  .mk segsCjEq (fun _ xs => match xs with
    | [b, a, i] => some (true,
      (fun s => Sys2Proof.Machine.execCjEq (.ofNat 5 b) (.ofNat 5 a) (.ofNat 15 i) s))
    | _ => none)

theorem fastCjEq_agrees : RowAgrees rowCjEq fastCjEq := fun p n =>
  rowAgrees_of p n fun xs => match xs with
  | [] => rfl
  | [_] => rfl
  | [_, _] => rfl
  | [_, _, _] => rfl
  | _ :: _ :: _ :: _ :: _ => rfl

/-- CJ_NE (R175). -/
def fastCjNe : FastRow :=
  .mk segsCjNe (fun _ xs => match xs with
    | [b, a, i] => some (true,
      (fun s => Sys2Proof.Machine.execCjNe (.ofNat 5 b) (.ofNat 5 a) (.ofNat 15 i) s))
    | _ => none)

theorem fastCjNe_agrees : RowAgrees rowCjNe fastCjNe := fun p n =>
  rowAgrees_of p n fun xs => match xs with
  | [] => rfl
  | [_] => rfl
  | [_, _] => rfl
  | [_, _, _] => rfl
  | _ :: _ :: _ :: _ :: _ => rfl

/-- CJ_LT (R175). -/
def fastCjLt : FastRow :=
  .mk segsCjLt (fun _ xs => match xs with
    | [b, a, i] => some (true,
      (fun s => Sys2Proof.Machine.execCjLt (.ofNat 5 b) (.ofNat 5 a) (.ofNat 15 i) s))
    | _ => none)

theorem fastCjLt_agrees : RowAgrees rowCjLt fastCjLt := fun p n =>
  rowAgrees_of p n fun xs => match xs with
  | [] => rfl
  | [_] => rfl
  | [_, _] => rfl
  | [_, _, _] => rfl
  | _ :: _ :: _ :: _ :: _ => rfl

/-- CJ_GE (R175). -/
def fastCjGe : FastRow :=
  .mk segsCjGe (fun _ xs => match xs with
    | [b, a, i] => some (true,
      (fun s => Sys2Proof.Machine.execCjGe (.ofNat 5 b) (.ofNat 5 a) (.ofNat 15 i) s))
    | _ => none)

theorem fastCjGe_agrees : RowAgrees rowCjGe fastCjGe := fun p n =>
  rowAgrees_of p n fun xs => match xs with
  | [] => rfl
  | [_] => rfl
  | [_, _] => rfl
  | [_, _, _] => rfl
  | _ :: _ :: _ :: _ :: _ => rfl

/-- CJ_LTN (R175). -/
def fastCjLtn : FastRow :=
  .mk segsCjLtn (fun _ xs => match xs with
    | [b, a, i] => some (true,
      (fun s => Sys2Proof.Machine.execCjLtn (.ofNat 5 b) (.ofNat 5 a) (.ofNat 15 i) s))
    | _ => none)

theorem fastCjLtn_agrees : RowAgrees rowCjLtn fastCjLtn := fun p n =>
  rowAgrees_of p n fun xs => match xs with
  | [] => rfl
  | [_] => rfl
  | [_, _] => rfl
  | [_, _, _] => rfl
  | _ :: _ :: _ :: _ :: _ => rfl

/-- CJ_GEN (R175). -/
def fastCjGen : FastRow :=
  .mk segsCjGen (fun _ xs => match xs with
    | [b, a, i] => some (true,
      (fun s => Sys2Proof.Machine.execCjGen (.ofNat 5 b) (.ofNat 5 a) (.ofNat 15 i) s))
    | _ => none)

theorem fastCjGen_agrees : RowAgrees rowCjGen fastCjGen := fun p n =>
  rowAgrees_of p n fun xs => match xs with
  | [] => rfl
  | [_] => rfl
  | [_, _] => rfl
  | [_, _, _] => rfl
  | _ :: _ :: _ :: _ :: _ => rfl

/-- JAL (R176). -/
def fastJal : FastRow :=
  .mk segsJal (fun _ xs => match xs with
    | [d, i] => some (true,
      (fun s => Sys2Proof.Machine.execJal (.ofNat 5 d) (.ofNat 20 i) s))
    | _ => none)

theorem fastJal_agrees : RowAgrees rowJal fastJal := fun p n =>
  rowAgrees_of p n fun xs => match xs with
  | [] => rfl
  | [_] => rfl
  | [_, _] => rfl
  | _ :: _ :: _ :: _ => rfl

/-- JR (R177). -/
def fastJr : FastRow :=
  .mk segsJr (fun _ xs => match xs with
    | [d, a] => some (true,
      (fun s => Sys2Proof.Machine.execJr (.ofNat 5 d) (.ofNat 5 a) s))
    | _ => none)

theorem fastJr_agrees : RowAgrees rowJr fastJr := fun p n =>
  rowAgrees_of p n fun xs => match xs with
  | [] => rfl
  | [_] => rfl
  | [_, _] => rfl
  | _ :: _ :: _ :: _ => rfl

/-- BPUSH (R183). -/
def fastBpush : FastRow :=
  .mk segsBpush (fun _ xs => match xs with
    | [a, b] => some (true,
      (fun s => Sys2Proof.Machine.execBpush (.ofNat 5 a) (.ofNat 5 b) s))
    | _ => none)

theorem fastBpush_agrees : RowAgrees rowBpush fastBpush := fun p n =>
  rowAgrees_of p n fun xs => match xs with
  | [] => rfl
  | [_] => rfl
  | [_, _] => rfl
  | _ :: _ :: _ :: _ => rfl

/-- DPUSH (R184). -/
def fastDpush : FastRow :=
  .mk segsDpush (fun _ xs => match xs with
    | [a] => some (true,
      (fun s => Sys2Proof.Machine.execDpush (.ofNat 5 a) s))
    | _ => none)

theorem fastDpush_agrees : RowAgrees rowDpush fastDpush := fun p n =>
  rowAgrees_of p n fun xs => match xs with
  | [] => rfl
  | [_] => rfl
  | _ :: _ :: _ => rfl

/-- RPOP (R184). -/
def fastRpop : FastRow :=
  .mk segsRpop (fun _ xs => match xs with
    | [d] => some (true,
      (fun s => Sys2Proof.Machine.execRpop (.ofNat 5 d) s))
    | _ => none)

theorem fastRpop_agrees : RowAgrees rowRpop fastRpop := fun p n =>
  rowAgrees_of p n fun xs => match xs with
  | [] => rfl
  | [_] => rfl
  | _ :: _ :: _ => rfl

/-- EPOP (R185). -/
def fastEpop : FastRow :=
  .mk segsEpop (fun _ xs => match xs with
    | [d] => some (true,
      (fun s => Sys2Proof.Machine.execEpop (.ofNat 5 d) s))
    | _ => none)

theorem fastEpop_agrees : RowAgrees rowEpop fastEpop := fun p n =>
  rowAgrees_of p n fun xs => match xs with
  | [] => rfl
  | [_] => rfl
  | _ :: _ :: _ => rfl

/-- EPOP_TRY (R185). -/
def fastEpopTry : FastRow :=
  .mk segsEpopTry (fun _ xs => match xs with
    | [d] => some (true,
      (fun s => Sys2Proof.Machine.execEpopTry (.ofNat 5 d) s))
    | _ => none)

theorem fastEpopTry_agrees : RowAgrees rowEpopTry fastEpopTry := fun p n =>
  rowAgrees_of p n fun xs => match xs with
  | [] => rfl
  | [_] => rfl
  | _ :: _ :: _ => rfl

/-- EPOP_MSG (R294). -/
def fastEpopMsg : FastRow :=
  .mk segsEpopMsg (fun _ xs => match xs with
    | [d] => some (true,
      (fun s => Sys2Proof.Machine.execEpopMsg (.ofNat 5 d) s))
    | _ => none)

theorem fastEpopMsg_agrees : RowAgrees rowEpopMsg fastEpopMsg := fun p n =>
  rowAgrees_of p n fun xs => match xs with
  | [] => rfl
  | [_] => rfl
  | _ :: _ :: _ => rfl

/-- EPOP_MSG_TRY (R294). -/
def fastEpopMsgTry : FastRow :=
  .mk segsEpopMsgTry (fun _ xs => match xs with
    | [d] => some (true,
      (fun s => Sys2Proof.Machine.execEpopMsgTry (.ofNat 5 d) s))
    | _ => none)

theorem fastEpopMsgTry_agrees : RowAgrees rowEpopMsgTry fastEpopMsgTry := fun p n =>
  rowAgrees_of p n fun xs => match xs with
  | [] => rfl
  | [_] => rfl
  | _ :: _ :: _ => rfl

/-- WAITW (R161). -/
def fastWaitw : FastRow :=
  .mk segsWaitw (fun _ xs => match xs with
    | [d, a, b, p0, m, t] => some (decide ((BitVec.ofNat 2 m) ≠ 3),
      (fun s => Sys2Proof.Machine.execWaitw (.ofNat 5 d) (.ofNat 5 a) (.ofNat 5 b) (.ofNat 2 p0) (.ofNat 2 m) (.ofNat 6 t) s))
    | _ => none)

theorem fastWaitw_agrees : RowAgrees rowWaitw fastWaitw := fun p n =>
  rowAgrees_of p n fun xs => match xs with
  | [] => rfl
  | [_] => rfl
  | [_, _] => rfl
  | [_, _, _] => rfl
  | [_, _, _, _] => rfl
  | [_, _, _, _, _] => rfl
  | [_, _, _, _, _, _] => rfl
  | _ :: _ :: _ :: _ :: _ :: _ :: _ :: _ => rfl

/-- END (R191). -/
def fastEndTask : FastRow :=
  .mk segsEndTask (fun _ xs => match xs with
    | [] => some (true,
      (fun s => Sys2Proof.Machine.execEndTask s))
    | _ => none)

theorem fastEndTask_agrees : RowAgrees rowEndTask fastEndTask := fun p n =>
  rowAgrees_of p n fun xs => match xs with
  | [] => rfl
  | _ :: _ => rfl

/-- DCOLL (R164). -/
def fastDcoll : FastRow :=
  .mk segsDcoll (fun _ xs => match xs with
    | [d, a, b] => some (true,
      (fun s => Sys2Proof.Machine.execDcoll (.ofNat 5 d) (.ofNat 5 a) (.ofNat 5 b) s))
    | _ => none)

theorem fastDcoll_agrees : RowAgrees rowDcoll fastDcoll := fun p n =>
  rowAgrees_of p n fun xs => match xs with
  | [] => rfl
  | [_] => rfl
  | [_, _] => rfl
  | [_, _, _] => rfl
  | _ :: _ :: _ :: _ :: _ => rfl

/-- COPY (R347). -/
def fastCopy : FastRow :=
  .mk segsCopy (fun _ xs => match xs with
    | [d, a, b] => some (true,
      (fun s => Sys2Proof.Machine.execCopy (.ofNat 5 d) (.ofNat 5 a) (.ofNat 5 b) s))
    | _ => none)

theorem fastCopy_agrees : RowAgrees rowCopy fastCopy := fun p n =>
  rowAgrees_of p n fun xs => match xs with
  | [] => rfl
  | [_] => rfl
  | [_, _] => rfl
  | [_, _, _] => rfl
  | _ :: _ :: _ :: _ :: _ => rfl

/-- COPY_RST (R353). -/
def fastCopyRst : FastRow :=
  .mk segsCopyRst (fun _ xs => match xs with
    | [d, a] => some (true,
      (fun s => Sys2Proof.Machine.execCopyRst (.ofNat 5 d) (.ofNat 5 a) s))
    | _ => none)

theorem fastCopyRst_agrees : RowAgrees rowCopyRst fastCopyRst := fun p n =>
  rowAgrees_of p n fun xs => match xs with
  | [] => rfl
  | [_] => rfl
  | [_, _] => rfl
  | _ :: _ :: _ :: _ => rfl

/-- COPY2 (R347). -/
def fastCopy2 : FastRow :=
  .mk segsCopy2 (fun _ xs => match xs with
    | [d, a, b] => some (true,
      (fun s => Sys2Proof.Machine.execCopy2 (.ofNat 5 d) (.ofNat 5 a) (.ofNat 5 b) s))
    | _ => none)

theorem fastCopy2_agrees : RowAgrees rowCopy2 fastCopy2 := fun p n =>
  rowAgrees_of p n fun xs => match xs with
  | [] => rfl
  | [_] => rfl
  | [_, _] => rfl
  | [_, _, _] => rfl
  | _ :: _ :: _ :: _ :: _ => rfl

/-- FILL (R347). -/
def fastFill : FastRow :=
  .mk segsFill (fun _ xs => match xs with
    | [d, a, b] => some (true,
      (fun s => Sys2Proof.Machine.execFill (.ofNat 5 d) (.ofNat 5 a) (.ofNat 5 b) s))
    | _ => none)

theorem fastFill_agrees : RowAgrees rowFill fastFill := fun p n =>
  rowAgrees_of p n fun xs => match xs with
  | [] => rfl
  | [_] => rfl
  | [_, _] => rfl
  | [_, _, _] => rfl
  | _ :: _ :: _ :: _ :: _ => rfl

/-- SLABMOV (R359). -/
def fastSlabmov : FastRow :=
  .mk segsSlabmov (fun _ xs => match xs with
    | [d, a, b] => some (true,
      (fun s => Sys2Proof.Machine.execSlabmov (.ofNat 5 d) (.ofNat 5 a) (.ofNat 5 b) s))
    | _ => none)

theorem fastSlabmov_agrees : RowAgrees rowSlabmov fastSlabmov := fun p n =>
  rowAgrees_of p n fun xs => match xs with
  | [] => rfl
  | [_] => rfl
  | [_, _] => rfl
  | [_, _, _] => rfl
  | _ :: _ :: _ :: _ :: _ => rfl

/-- MDEC (R363). -/
def fastMdec : FastRow :=
  .mk segsMdec (fun _ xs => match xs with
    | [d, a, b] => some (true,
      (fun s => Sys2Proof.Machine.execMdec (.ofNat 5 d) (.ofNat 5 a) (.ofNat 5 b) s))
    | _ => none)

theorem fastMdec_agrees : RowAgrees rowMdec fastMdec := fun p n =>
  rowAgrees_of p n fun xs => match xs with
  | [] => rfl
  | [_] => rfl
  | [_, _] => rfl
  | [_, _, _] => rfl
  | _ :: _ :: _ :: _ :: _ => rfl

/-- MRSZ (R364). -/
def fastMrsz : FastRow :=
  .mk segsMrsz (fun _ xs => match xs with
    | [d, a, b] => some (true,
      (fun s => Sys2Proof.Machine.execMrsz (.ofNat 5 d) (.ofNat 5 a) (.ofNat 5 b) s))
    | _ => none)

theorem fastMrsz_agrees : RowAgrees rowMrsz fastMrsz := fun p n =>
  rowAgrees_of p n fun xs => match xs with
  | [] => rfl
  | [_] => rfl
  | [_, _] => rfl
  | [_, _, _] => rfl
  | _ :: _ :: _ :: _ :: _ => rfl

/-- MDEC_RST (R353). -/
def fastMdecRst : FastRow :=
  .mk segsMdecRst (fun _ xs => match xs with
    | [d, a] => some (true,
      (fun s => Sys2Proof.Machine.execMdecRst (.ofNat 5 d) (.ofNat 5 a) s))
    | _ => none)

theorem fastMdecRst_agrees : RowAgrees rowMdecRst fastMdecRst := fun p n =>
  rowAgrees_of p n fun xs => match xs with
  | [] => rfl
  | [_] => rfl
  | [_, _] => rfl
  | _ :: _ :: _ :: _ => rfl

/-- CRED (R405). -/
def fastCred : FastRow :=
  .mk segsCred (fun _ xs => match xs with
    | [d, a, b] => some (true,
      (fun s => Sys2Proof.Machine.execCred (.ofNat 5 d) (.ofNat 5 a) (.ofNat 5 b) s))
    | _ => none)

theorem fastCred_agrees : RowAgrees rowCred fastCred := fun p n =>
  rowAgrees_of p n fun xs => match xs with
  | [] => rfl
  | [_] => rfl
  | [_, _] => rfl
  | [_, _, _] => rfl
  | _ :: _ :: _ :: _ :: _ => rfl

/-- CBCAST (R405). -/
def fastCbcast : FastRow :=
  .mk segsCbcast (fun _ xs => match xs with
    | [d, a, b] => some (true,
      (fun s => Sys2Proof.Machine.execCbcast (.ofNat 5 d) (.ofNat 5 a) (.ofNat 5 b) s))
    | _ => none)

theorem fastCbcast_agrees : RowAgrees rowCbcast fastCbcast := fun p n =>
  rowAgrees_of p n fun xs => match xs with
  | [] => rfl
  | [_] => rfl
  | [_, _] => rfl
  | [_, _, _] => rfl
  | _ :: _ :: _ :: _ :: _ => rfl

/-- CRED_RST (R403). -/
def fastCredRst : FastRow :=
  .mk segsCredRst (fun _ xs => match xs with
    | [d, a] => some (true,
      (fun s => Sys2Proof.Machine.execCredRst (.ofNat 5 d) (.ofNat 5 a) s))
    | _ => none)

theorem fastCredRst_agrees : RowAgrees rowCredRst fastCredRst := fun p n =>
  rowAgrees_of p n fun xs => match xs with
  | [] => rfl
  | [_] => rfl
  | [_, _] => rfl
  | _ :: _ :: _ :: _ => rfl

/-- TLWAIT (R237). -/
def fastTlwait : FastRow :=
  .mk segsTlwait (fun _ xs => match xs with
    | [d, a, b, t] => some (true,
      (fun s => Sys2Proof.Machine.execTlwait (.ofNat 5 d) (.ofNat 5 a) (.ofNat 5 b) (.ofNat 6 t) s))
    | _ => none)

theorem fastTlwait_agrees : RowAgrees rowTlwait fastTlwait := fun p n =>
  rowAgrees_of p n fun xs => match xs with
  | [] => rfl
  | [_] => rfl
  | [_, _] => rfl
  | [_, _, _] => rfl
  | [_, _, _, _] => rfl
  | _ :: _ :: _ :: _ :: _ :: _ => rfl

/-- TLREAD_COUNT (R237). -/
def fastTlreadCount : FastRow :=
  .mk segsTlreadCount (fun _ xs => match xs with
    | [d, a] => some (true,
      (fun s => Sys2Proof.Machine.execTlreadCount (.ofNat 5 d) (.ofNat 5 a) s))
    | _ => none)

theorem fastTlreadCount_agrees : RowAgrees rowTlreadCount fastTlreadCount := fun p n =>
  rowAgrees_of p n fun xs => match xs with
  | [] => rfl
  | [_] => rfl
  | [_, _] => rfl
  | _ :: _ :: _ :: _ => rfl

/-- TLREAD_STATUS (R237). -/
def fastTlreadStatus : FastRow :=
  .mk segsTlreadStatus (fun _ xs => match xs with
    | [d, a] => some (true,
      (fun s => Sys2Proof.Machine.execTlreadStatus (.ofNat 5 d) (.ofNat 5 a) s))
    | _ => none)

theorem fastTlreadStatus_agrees : RowAgrees rowTlreadStatus fastTlreadStatus := fun p n =>
  rowAgrees_of p n fun xs => match xs with
  | [] => rfl
  | [_] => rfl
  | [_, _] => rfl
  | _ :: _ :: _ :: _ => rfl

/-- STRIN (R297). -/
def fastStrin : FastRow :=
  .mk segsStrin (fun _ xs => match xs with
    | [d, a, b, x, c] => some (true,
      (fun s => Sys2Proof.Machine.execStrin (.ofNat 5 d) (.ofNat 5 a) (.ofNat 5 b) (.ofNat 4 x) (.ofNat 5 c) s))
    | _ => none)

theorem fastStrin_agrees : RowAgrees rowStrin fastStrin := fun p n =>
  rowAgrees_of p n fun xs => match xs with
  | [] => rfl
  | [_] => rfl
  | [_, _] => rfl
  | [_, _, _] => rfl
  | [_, _, _, _] => rfl
  | [_, _, _, _, _] => rfl
  | _ :: _ :: _ :: _ :: _ :: _ :: _ => rfl

/-- STROUT (R298). -/
def fastStrout : FastRow :=
  .mk segsStrout (fun _ xs => match xs with
    | [d, a, b, x, c] => some (true,
      (fun s => Sys2Proof.Machine.execStrout (.ofNat 5 d) (.ofNat 5 a) (.ofNat 5 b) (.ofNat 4 x) (.ofNat 5 c) s))
    | _ => none)

theorem fastStrout_agrees : RowAgrees rowStrout fastStrout := fun p n =>
  rowAgrees_of p n fun xs => match xs with
  | [] => rfl
  | [_] => rfl
  | [_, _] => rfl
  | [_, _, _] => rfl
  | [_, _, _, _] => rfl
  | [_, _, _, _, _] => rfl
  | _ :: _ :: _ :: _ :: _ :: _ :: _ => rfl

/-- LAUNCH (R299, R300). -/
def fastLaunch : FastRow :=
  .mk segsLaunchRequest (fun p xs => match xs with
    | [d, a, b, x, c] => some (p != .control || (!(BitVec.ofNat 5 x).getLsbD 4 && BitVec.ofNat 5 c == 0),
      (fun s => match p with
      | .control => Sys2Proof.Machine.execLaunch (.ofNat 5 d) (.ofNat 5 a) (.ofNat 5 b) ((BitVec.ofNat 5 x).setWidth 4) s
      | _ => Sys2Proof.Machine.execLaunchRequest (.ofNat 5 d) (.ofNat 5 a) (.ofNat 5 b) (.ofNat 5 x) (.ofNat 5 c) s))
    | _ => none)

theorem fastLaunch_agrees : RowAgrees rowLaunchRequest fastLaunch := fun p n =>
  rowAgrees_of p n fun xs => match xs with
  | [] => rfl
  | [_] => rfl
  | [_, _] => rfl
  | [_, _, _] => rfl
  | [_, _, _, _] => rfl
  | [_, _, _, _, _] => by cases p <;> rfl
  | _ :: _ :: _ :: _ :: _ :: _ :: _ => rfl

/-- BARV (R320). -/
def fastBarv : FastRow :=
  .mk segsBarv (fun _ xs => match xs with
    | [d, a, b] => some (true,
      (fun s => Sys2Proof.Machine.execBarv (.ofNat 5 d) (.ofNat 5 a) (.ofNat 5 b) s))
    | _ => none)

theorem fastBarv_agrees : RowAgrees rowBarv fastBarv := fun p n =>
  rowAgrees_of p n fun xs => match xs with
  | [] => rfl
  | [_] => rfl
  | [_, _] => rfl
  | [_, _, _] => rfl
  | _ :: _ :: _ :: _ :: _ => rfl

/-- BARW (R321). -/
def fastBarw : FastRow :=
  .mk segsBarw (fun _ xs => match xs with
    | [d, a, b, t] => some (true,
      (fun s => Sys2Proof.Machine.execBarw (.ofNat 5 d) (.ofNat 5 a) (.ofNat 5 b) (.ofNat 6 t) s))
    | _ => none)

theorem fastBarw_agrees : RowAgrees rowBarw fastBarw := fun p n =>
  rowAgrees_of p n fun xs => match xs with
  | [] => rfl
  | [_] => rfl
  | [_, _] => rfl
  | [_, _, _] => rfl
  | [_, _, _, _] => rfl
  | _ :: _ :: _ :: _ :: _ :: _ => rfl

/-- GARM (R324). -/
def fastGarm : FastRow :=
  .mk segsGarm (fun _ xs => match xs with
    | [a, b] => some (true,
      (fun s => Sys2Proof.Machine.execGarm (.ofNat 5 a) (.ofNat 5 b) s))
    | _ => none)

theorem fastGarm_agrees : RowAgrees rowGarm fastGarm := fun p n =>
  rowAgrees_of p n fun xs => match xs with
  | [] => rfl
  | [_] => rfl
  | [_, _] => rfl
  | _ :: _ :: _ :: _ => rfl

/-- GARM_OFF (R324). -/
def fastGarmOff : FastRow :=
  .mk segsGarmOff (fun _ xs => match xs with
    | [d] => some (true,
      (fun s => Sys2Proof.Machine.execGarmOff (.ofNat 5 d) s))
    | _ => none)

theorem fastGarmOff_agrees : RowAgrees rowGarmOff fastGarmOff := fun p n =>
  rowAgrees_of p n fun xs => match xs with
  | [] => rfl
  | [_] => rfl
  | _ :: _ :: _ => rfl

/-- FQSET (R316). -/
def fastFqset : FastRow :=
  .mk segsFqset (fun _ xs => match xs with
    | [a, b, q] => some (true,
      (fun s => Sys2Proof.Machine.execFqset (.ofNat 5 a) (.ofNat 5 b) (.ofNat 4 q) s))
    | _ => none)

theorem fastFqset_agrees : RowAgrees rowFqset fastFqset := fun p n =>
  rowAgrees_of p n fun xs => match xs with
  | [] => rfl
  | [_] => rfl
  | [_, _] => rfl
  | [_, _, _] => rfl
  | _ :: _ :: _ :: _ :: _ => rfl

/-- FQSET_RD (R316). -/
def fastFqsetRd : FastRow :=
  .mk segsFqsetRd (fun _ xs => match xs with
    | [d, q] => some (true,
      (fun s => Sys2Proof.Machine.execFqsetRd (.ofNat 5 d) (.ofNat 4 q) s))
    | _ => none)

theorem fastFqsetRd_agrees : RowAgrees rowFqsetRd fastFqsetRd := fun p n =>
  rowAgrees_of p n fun xs => match xs with
  | [] => rfl
  | [_] => rfl
  | [_, _] => rfl
  | _ :: _ :: _ :: _ => rfl

/-- FQSET_ADV (R317). -/
def fastFqsetAdv : FastRow :=
  .mk segsFqsetAdv (fun _ xs => match xs with
    | [a, q] => some (true,
      (fun s => Sys2Proof.Machine.execFqsetAdv (.ofNat 5 a) (.ofNat 4 q) s))
    | _ => none)

theorem fastFqsetAdv_agrees : RowAgrees rowFqsetAdv fastFqsetAdv := fun p n =>
  rowAgrees_of p n fun xs => match xs with
  | [] => rfl
  | [_] => rfl
  | [_, _] => rfl
  | _ :: _ :: _ :: _ => rfl

/-- CRGET (R178). -/
def fastCrget : FastRow :=
  .mk segsCrget (fun _ xs => match xs with
    | [d, c] => some (csrAssigned (BitVec.ofNat 12 c).toNat,
      (fun s => Sys2Proof.Machine.execCrget (.ofNat 5 d) (.ofNat 12 c) s))
    | _ => none)

theorem fastCrget_agrees : RowAgrees rowCrget fastCrget := fun p n =>
  rowAgrees_of p n fun xs => match xs with
  | [] => rfl
  | [_] => rfl
  | [_, _] => rfl
  | _ :: _ :: _ :: _ => rfl

/-- CRPUT (R178). -/
def fastCrput : FastRow :=
  .mk segsCrput (fun _ xs => match xs with
    | [a, c] => some (csrAssigned (BitVec.ofNat 12 c).toNat,
      (fun s => Sys2Proof.Machine.execCrput (.ofNat 5 a) (.ofNat 12 c) s))
    | _ => none)

theorem fastCrput_agrees : RowAgrees rowCrput fastCrput := fun p n =>
  rowAgrees_of p n fun xs => match xs with
  | [] => rfl
  | [_] => rfl
  | [_, _] => rfl
  | _ :: _ :: _ :: _ => rfl

/-- CRSET (R178). -/
def fastCrset : FastRow :=
  .mk segsCrset (fun _ xs => match xs with
    | [a, c] => some (csrAssigned (BitVec.ofNat 12 c).toNat,
      (fun s => Sys2Proof.Machine.execCrset (.ofNat 5 a) (.ofNat 12 c) s))
    | _ => none)

theorem fastCrset_agrees : RowAgrees rowCrset fastCrset := fun p n =>
  rowAgrees_of p n fun xs => match xs with
  | [] => rfl
  | [_] => rfl
  | [_, _] => rfl
  | _ :: _ :: _ :: _ => rfl

/-- CRCLR (R178). -/
def fastCrclr : FastRow :=
  .mk segsCrclr (fun _ xs => match xs with
    | [a, c] => some (csrAssigned (BitVec.ofNat 12 c).toNat,
      (fun s => Sys2Proof.Machine.execCrclr (.ofNat 5 a) (.ofNat 12 c) s))
    | _ => none)

theorem fastCrclr_agrees : RowAgrees rowCrclr fastCrclr := fun p n =>
  rowAgrees_of p n fun xs => match xs with
  | [] => rfl
  | [_] => rfl
  | [_, _] => rfl
  | _ :: _ :: _ :: _ => rfl

/-- HCALL (R197). -/
def fastHcall : FastRow :=
  .mk segsHcall (fun _ xs => match xs with
    | [] => some (true,
      (fun s => Sys2Proof.Machine.execHcall s))
    | _ => none)

theorem fastHcall_agrees : RowAgrees rowHcall fastHcall := fun p n =>
  rowAgrees_of p n fun xs => match xs with
  | [] => rfl
  | _ :: _ => rfl

/-- HRET (R197). -/
def fastHret : FastRow :=
  .mk segsHret (fun _ xs => match xs with
    | [] => some (true,
      (fun s => Sys2Proof.Machine.execHret s))
    | _ => none)

theorem fastHret_agrees : RowAgrees rowHret fastHret := fun p n =>
  rowAgrees_of p n fun xs => match xs with
  | [] => rfl
  | _ :: _ => rfl

/-- NAP (R197). -/
def fastNap : FastRow :=
  .mk segsNap (fun _ xs => match xs with
    | [] => some (true,
      (fun s => Sys2Proof.Machine.execNap s))
    | _ => none)

theorem fastNap_agrees : RowAgrees rowNap fastNap := fun p n =>
  rowAgrees_of p n fun xs => match xs with
  | [] => rfl
  | _ :: _ => rfl

/-- BRK (R198). -/
def fastBrk : FastRow :=
  .mk segsBrk (fun _ xs => match xs with
    | [i] => some (true,
      (fun s => Sys2Proof.Machine.execBrk (.ofNat 15 i) s))
    | _ => none)

theorem fastBrk_agrees : RowAgrees rowBrk fastBrk := fun p n =>
  rowAgrees_of p n fun xs => match xs with
  | [] => rfl
  | [_] => rfl
  | _ :: _ :: _ => rfl

/-- The compiled rows of a steering opcode. -/
def fastRowsOf (op : Nat) : List FastRow :=
  match op with
  | 0x01 => [fastAdd, fastSub, fastAnd, fastOr, fastXor, fastSll, fastSrl, fastSra, fastSlt, fastSltn, fastMul, fastMulhs, fastMulhn, fastDiv, fastDivn, fastRem, fastRemn]
  | 0x02 => [fastAddi]
  | 0x03 => [fastAndi]
  | 0x04 => [fastOri]
  | 0x05 => [fastXori]
  | 0x06 => [fastSlli, fastSrli, fastSrai]
  | 0x07 => [fastSlti]
  | 0x08 => [fastSltin]
  | 0x09 => [fastLui]
  | 0x0A => [fastSext, fastZext, fastExtr, fastIns, fastClz, fastCtz, fastPopc]
  | 0x10 => [fastLdb]
  | 0x11 => [fastLdw]
  | 0x12 => [fastLdd]
  | 0x13 => [fastStb]
  | 0x14 => [fastStw]
  | 0x15 => [fastStd]
  | 0x16 => [fastAmoswap, fastAmoadd, fastAmoand, fastAmoor, fastAmoxor, fastAmomax, fastAmomin, fastAmomaxu]
  | 0x17 => [fastCas, fastFence]
  | 0x18 => [fastCjEq]
  | 0x19 => [fastCjNe]
  | 0x1A => [fastCjLt]
  | 0x1B => [fastCjGe]
  | 0x1C => [fastCjLtn]
  | 0x1D => [fastCjGen]
  | 0x1E => [fastJal]
  | 0x1F => [fastJr]
  | 0x20 => [fastBpush]
  | 0x21 => [fastDpush]
  | 0x22 => [fastRpop]
  | 0x23 => [fastEpop, fastEpopTry, fastEpopMsg, fastEpopMsgTry]
  | 0x24 => [fastWaitw]
  | 0x25 => [fastEndTask]
  | 0x26 => [fastDcoll]
  | 0x28 => [fastCopy, fastCopyRst]
  | 0x29 => [fastCopy2]
  | 0x2A => [fastFill]
  | 0x2B => [fastSlabmov]
  | 0x2C => [fastMdec, fastMrsz, fastMdecRst]
  | 0x2D => [fastCred, fastCbcast, fastCredRst]
  | 0x2E => [fastTlwait, fastTlreadCount, fastTlreadStatus]
  | 0x30 => [fastStrin]
  | 0x31 => [fastStrout]
  | 0x32 => [fastLaunch]
  | 0x33 => [fastBarv, fastBarw]
  | 0x34 => [fastGarm, fastGarmOff]
  | 0x35 => [fastFqset, fastFqsetRd, fastFqsetAdv]
  | 0x38 => [fastCrget, fastCrput, fastCrset, fastCrclr]
  | 0x39 => [fastHcall, fastHret, fastNap]
  | 0x3A => [fastBrk]
  | _ => []

theorem rowsAgree : ∀ op, op < 64 → RowsAgree (rowsOf op) (fastRowsOf op)
  | 0, _ => trivial
  | 1, _ => ⟨fastAdd_agrees, fastSub_agrees, fastAnd_agrees, fastOr_agrees, fastXor_agrees, fastSll_agrees, fastSrl_agrees, fastSra_agrees, fastSlt_agrees, fastSltn_agrees, fastMul_agrees, fastMulhs_agrees, fastMulhn_agrees, fastDiv_agrees, fastDivn_agrees, fastRem_agrees, fastRemn_agrees, trivial⟩
  | 2, _ => ⟨fastAddi_agrees, trivial⟩
  | 3, _ => ⟨fastAndi_agrees, trivial⟩
  | 4, _ => ⟨fastOri_agrees, trivial⟩
  | 5, _ => ⟨fastXori_agrees, trivial⟩
  | 6, _ => ⟨fastSlli_agrees, fastSrli_agrees, fastSrai_agrees, trivial⟩
  | 7, _ => ⟨fastSlti_agrees, trivial⟩
  | 8, _ => ⟨fastSltin_agrees, trivial⟩
  | 9, _ => ⟨fastLui_agrees, trivial⟩
  | 10, _ => ⟨fastSext_agrees, fastZext_agrees, fastExtr_agrees, fastIns_agrees, fastClz_agrees, fastCtz_agrees, fastPopc_agrees, trivial⟩
  | 11, _ => trivial
  | 12, _ => trivial
  | 13, _ => trivial
  | 14, _ => trivial
  | 15, _ => trivial
  | 16, _ => ⟨fastLdb_agrees, trivial⟩
  | 17, _ => ⟨fastLdw_agrees, trivial⟩
  | 18, _ => ⟨fastLdd_agrees, trivial⟩
  | 19, _ => ⟨fastStb_agrees, trivial⟩
  | 20, _ => ⟨fastStw_agrees, trivial⟩
  | 21, _ => ⟨fastStd_agrees, trivial⟩
  | 22, _ => ⟨fastAmoswap_agrees, fastAmoadd_agrees, fastAmoand_agrees, fastAmoor_agrees, fastAmoxor_agrees, fastAmomax_agrees, fastAmomin_agrees, fastAmomaxu_agrees, trivial⟩
  | 23, _ => ⟨fastCas_agrees, fastFence_agrees, trivial⟩
  | 24, _ => ⟨fastCjEq_agrees, trivial⟩
  | 25, _ => ⟨fastCjNe_agrees, trivial⟩
  | 26, _ => ⟨fastCjLt_agrees, trivial⟩
  | 27, _ => ⟨fastCjGe_agrees, trivial⟩
  | 28, _ => ⟨fastCjLtn_agrees, trivial⟩
  | 29, _ => ⟨fastCjGen_agrees, trivial⟩
  | 30, _ => ⟨fastJal_agrees, trivial⟩
  | 31, _ => ⟨fastJr_agrees, trivial⟩
  | 32, _ => ⟨fastBpush_agrees, trivial⟩
  | 33, _ => ⟨fastDpush_agrees, trivial⟩
  | 34, _ => ⟨fastRpop_agrees, trivial⟩
  | 35, _ => ⟨fastEpop_agrees, fastEpopTry_agrees, fastEpopMsg_agrees, fastEpopMsgTry_agrees, trivial⟩
  | 36, _ => ⟨fastWaitw_agrees, trivial⟩
  | 37, _ => ⟨fastEndTask_agrees, trivial⟩
  | 38, _ => ⟨fastDcoll_agrees, trivial⟩
  | 39, _ => trivial
  | 40, _ => ⟨fastCopy_agrees, fastCopyRst_agrees, trivial⟩
  | 41, _ => ⟨fastCopy2_agrees, trivial⟩
  | 42, _ => ⟨fastFill_agrees, trivial⟩
  | 43, _ => ⟨fastSlabmov_agrees, trivial⟩
  | 44, _ => ⟨fastMdec_agrees, fastMrsz_agrees, fastMdecRst_agrees, trivial⟩
  | 45, _ => ⟨fastCred_agrees, fastCbcast_agrees, fastCredRst_agrees, trivial⟩
  | 46, _ => ⟨fastTlwait_agrees, fastTlreadCount_agrees, fastTlreadStatus_agrees, trivial⟩
  | 47, _ => trivial
  | 48, _ => ⟨fastStrin_agrees, trivial⟩
  | 49, _ => ⟨fastStrout_agrees, trivial⟩
  | 50, _ => ⟨fastLaunch_agrees, trivial⟩
  | 51, _ => ⟨fastBarv_agrees, fastBarw_agrees, trivial⟩
  | 52, _ => ⟨fastGarm_agrees, fastGarmOff_agrees, trivial⟩
  | 53, _ => ⟨fastFqset_agrees, fastFqsetRd_agrees, fastFqsetAdv_agrees, trivial⟩
  | 54, _ => trivial
  | 55, _ => trivial
  | 56, _ => ⟨fastCrget_agrees, fastCrput_agrees, fastCrset_agrees, fastCrclr_agrees, trivial⟩
  | 57, _ => ⟨fastHcall_agrees, fastHret_agrees, fastNap_agrees, trivial⟩
  | 58, _ => ⟨fastBrk_agrees, trivial⟩
  | 59, _ => trivial
  | 60, _ => trivial
  | 61, _ => trivial
  | 62, _ => trivial
  | 63, _ => trivial
  | n + 64, h => absurd h (by omega)
/-- What the first of the compiled rows that reads a number gives. -/
def fastRead (p : Proc) : List FastRow → Nat → Option (Bool × (State → Result))
  | [], _ => none
  | f :: fs, n => match f.read p n with
    | some x => some x
    | none => fastRead p fs n

theorem readRows_fast (p : Proc) (n : Nat) : ∀ (rs : List Row) (fs : List FastRow), RowsAgree rs fs →
    (readRows rs n).map (fun i => (legalOn p i, exec (forProc p i))) = fastRead p fs n
  | [], [], _ => rfl
  | [], _ :: _, h => absurd h id
  | _ :: _, [], h => absurd h id
  | r :: rs, f :: fs, ⟨h, t⟩ => by
    have e := h p n
    simp only [readRows, fastRead, ← e]
    cases r.read n with
    | none => exact readRows_fast p n rs fs t
    | some i => rfl

/-- The condition and the meaning of the word that a number's fields bear. -/
def fastMeaning (p : Proc) (n : Nat) : Option (Bool × (State → Result)) :=
  if n % 128 < 64 then fastRead p (fastRowsOf (n % 128)) n
  else (readRows (vectorRows (n % 128)) n).map (fun i => (i.wf, exec i))

/-- A fetched word as compiled code runs it. -/
def fastWord (w : IWord) (s : State) : Result :=
  let n := w.toNat
  if n = 0 ∨ n = 0xFFFFFFFF ∨ n % 128 = 0x7F then badWord .illegalWord w s
  else if outsideSet s.proc w then badWord .illegalStream w s
  else match fastMeaning s.proc n with
    | some (ok, run) => if ok then goodWord w run s else badWord .illegalWord w s
    | none =>
      if aloneOpcode (n % 128) && decide (2 ^ 31 ≤ n) then
        match readVector (w - 0x80000000#32) with
        | some i => badWord (if i.wf then .convoyForm else .illegalWord) w s
        | none => badWord .illegalWord w s
      else badWord .illegalWord w s

theorem forProc_convoy (i : Instr) : forProc .convoy i = i := by
  unfold forProc
  split <;> rfl

theorem rowsOf_vector (op : Nat) (h : 64 ≤ op) : rowsOf op = vectorRows op := by
  unfold rowsOf
  split <;> first | rfl | omega

theorem readWord_vector (w : IWord) (h : 64 ≤ w.toNat % 128) : readWord w = readVector w := by
  rw [readWord, rowsOf_vector _ h, readVector]

theorem outside_vector (p : Proc) (w : IWord) (h : 64 ≤ w.toNat % 128) (hp : outsideSet p w = false) : p = .convoy := by
  cases p with
  | convoy => rfl
  | task => simp [outsideSet, h] at hp
  | control => simp [outsideSet, h] at hp

/-- The meaning found is the well-formedness and the meaning of the instruction read. -/
theorem fastMeaning_eq (p : Proc) (w : IWord) (hp : outsideSet p w = false) :
    fastMeaning p w.toNat = (readWord w).map (fun i => (legalOn p i, exec (forProc p i))) := by
  unfold fastMeaning
  split
  · next h => exact (readRows_fast p w.toNat _ _ (rowsAgree _ h)).symm
  · next h =>
    have hv : 64 ≤ w.toNat % 128 := by omega
    rw [readWord_vector w hv, outside_vector p w hv hp]
    simp only [forProc_convoy, legalOn_convoy]
    rfl

theorem alone_vector (w : IWord) (h : aloneOpcode (w.toNat % 128) = true) :
    readWord (w - 0x80000000#32) = readVector (w - 0x80000000#32) := by
  apply readWord_vector
  simp only [aloneOpcode, Bool.or_eq_true, beq_iff_eq] at h
  have e : (w - 0x80000000#32).toNat % 128 = w.toNat % 128 := by
    rw [BitVec.toNat_sub]
    have := w.isLt
    simp only [BitVec.toNat_ofNat]
    omega
  omega

/-- A fetched word runs as compiled code runs it. -/
@[csimp] theorem fast_word_eq : @runWord = @fastWord := by
  funext w s
  unfold runWord fastWord decode
  by_cases h : w.toNat = 0 ∨ w.toNat = 0xFFFFFFFF ∨ w.toNat % 128 = 0x7F
  · simp only [if_pos h]
  · simp only [if_neg h]
    cases ho : outsideSet s.proc w with
    | true => rfl
    | false =>
      rw [fastMeaning_eq _ _ ho]
      simp only [Bool.false_eq_true, if_false]
      cases hr : readWord w with
      | some i => cases hw : legalOn s.proc i <;> simp [hw]
      | none =>
        simp only [Option.map_none]
        cases ha : (aloneOpcode (w.toNat % 128) && decide (2 ^ 31 ≤ w.toNat)) with
        | false => rfl
        | true =>
          rw [Bool.and_eq_true] at ha
          rw [alone_vector w ha.1]
          simp only [if_true]
          cases readVector (w - 0x80000000#32) with
          | none => rfl
          | some i => cases hw : i.wf <;> simp [hw]

end Sys2Proof.Machine
end

