-- ==== Sys2Proof/Machine/Place.lean ====
section
/-! DEFINITION. Placing a word where the next step fetches: a program comes to run only after the boot of the package and
a launch, for which this stands. -/

namespace Sys2Proof.Machine

/-- The key of a page table's first entry, at an offset of this package's HBM. -/
def ownHbmKey (off : Nat) : Nat := 0xFFF * 2 ^ 42 + off

/-- PTROOT of the table at HBM offset 0x200000, address space 0. -/
def placedRoot : Word := .ofNat 64 (0xFFF * 2 ^ 42 + 0x200000)

/-- A table that maps the first GiB of GLOB addresses, writable, onto the first GiB of this package's HBM. -/
def placeTables (s : State) : State :=
  writeMem (ownHbmKey 0x210000) 8 (0xFFF * 2 ^ 42 + 7)
    (writeMem (ownHbmKey 0x200000) 8 (0xFFF * 2 ^ 42 + 0x210000 + 1) s)

/-- The word at GLOB address 0, and nothing that would keep its fetch from reading it. -/
def placeText (w : IWord) (s : State) : State :=
  { placeTables (writeMem (ownHbmKey 0) 4 w.toNat s) with poison := [] }

/-- The clocks run. -/
def runClocks (s : State) : State :=
  { s with
    cluster := { s.cluster with frozen := false, tlb := [] }
    die := { s.die with frozen := false }
    pkg := { s.pkg with frozen := false, cutOff := false, unpowered := false, bootState := 2 } }

/-- A steering processor at offset 0 of its text, at an instruction boundary that nothing else stands at. -/
def placeSteer (c : Steer) : Steer :=
  { c with
    pc := 0, ptroot := placedRoot, bksup := true, cbksup := true, expired := false, stepped := false, dead := none
    stopped := false, outs := [] }

/-- A core that runs a task whose texts begin at GLOB address 0. -/
def placeCore (c : Core) : Core :=
  { c with
    run := .running
    preq := false
    tlbS := []
    tlbV := []
    steer := { placeSteer c.steer with htbase := 0, htlen := 4 }
    task := { c.task with stbase := 0, stlen := 4, cbase := 0, clen := 4 }
    lad := { c.lad with err := false } }

/-- A convoy stream at the head of a convoy, in a block with one trip left. -/
def placeConvoy (c : Core) : Core :=
  { c with
    steer := { c.steer with chalt := false }
    conv := { c.conv with
      cpc := 0, cblk := 0, lc := 1, st := .run, forming := [], flight := none, parked := [], trapDue := none } }

/-- The agent that fetches a word. -/
def placeAgent (w : IWord) : Agent :=
  match procFor w with
  | .control => .control
  | .convoy => .convoy
  | .task => .steer

/-- The parts in focus as the agent of a word needs them. DESIGN CHOICE: log entry 11. -/
def placeFocus (w : IWord) (s : State) : State :=
  match placeAgent w with
  | .control => s.modCluster (fun c => { c with ctl := placeSteer c.ctl, ctlBase := 0, ctlLen := 4, dispatch := none })
  | .convoy => s.modCore (fun c => placeConvoy (placeCore c))
  | _ => s.modCore placeCore

/-- A word where the next step fetches it. DESIGN CHOICE: log entry 11. -/
def placeWord (w : IWord) (s : State) : State :=
  let t := placeFocus w (runClocks (placeText w s))
  { t with agenda := ⟨t.coreId, placeAgent w, none⟩ :: t.agenda }

end Sys2Proof.Machine
end

