-- ==== Sys2Proof/Machine/Step.lean ====
section
/-! DEFINITION. One step of the machine, and the state whose next step fetches a given word. -/

namespace Sys2Proof.Machine

/-- One step: the next job of the agenda, or the turn of the agent whose turn it is. -/
def step (s : State) : Host.Outcome State Fault Refusal := stepWith runWord s

/-- The state with a word stored where the next step fetches (Machine/Place.lean says what that takes). -/
def State.withFetchWord (s : State) (_nbits w : Nat) : State := placeWord (.ofNat 32 w) s

end Sys2Proof.Machine
end

