-- ==== Sys2Proof/Safety.lean ====
section
/-! DEFINITION. What the statements are made of: what holds of every state, what an instruction leaves as it was, and
the spec's tables of results, written apart from the meanings. -/

namespace Sys2Proof.Machine

/-! ## What holds of every state -/

/-- Memory is in its canonical form. -/
def State.MemoryCanonical (s : State) : Prop := s.mem.wf = true

/-- The queues of a core hold no more than they have room for (08_core_steering.md R181). -/
def Queues.Bounded (q : Queues) : Prop := q.bq.length ≤ 16 ∧ q.dq.length ≤ 32 ∧ q.rq.length ≤ 32 ∧ q.eq.length ≤ 16

/-! ## Frames of the steering stream -/

/-- A steering processor but for PC, the general registers and the limit of the wait at PC: its status, its trap and
mode registers, its breakpoints and its outstanding accesses. -/
def Steer.special (c : Steer) : Steer := { c with pc := 0, regs := [], expired := false }

/-- The machine beside the steering processor that moves: its other streams, queues, vector state, clusters, dies,
package and memory. -/
def State.besideCur (s : State) : State := s.modCur (fun _ => .reset)

/-- Nothing changes but the general registers `ds` and PC. -/
structure RegisterFrame (ds : List (BitVec 5)) (s t : State) : Prop where
  regs : ∀ r, r ∉ ds → readReg r t = readReg r s
  special : t.cur.special = s.cur.special
  beside : t.besideCur = s.besideCur
  memory : ∀ k, readByte t k = readByte s k

/-- The bytes from `key` on, `n` of them. -/
abbrev Inside (key n a : Nat) : Prop := key ≤ a ∧ a < key + n

/-- The state with memory, the marks of uncorrectable granules and what is watched taken away. -/
def State.noMemory (s : State) : State := { s with mem := [], poison := [], watches := [] }

/-- Nothing changes but the general registers `ds`, PC and `n` bytes from `key`. -/
structure StoreFrame (ds : List (BitVec 5)) (key n : Nat) (s t : State) : Prop where
  regs : ∀ r, r ∉ ds → readReg r t = readReg r s
  special : t.cur.special = s.cur.special
  beside : t.besideCur.noMemory = s.besideCur.noMemory
  memory : ∀ a, ¬Inside key n a → readByte t a = readByte s a

/-! ## Results of the steering words, by the spec's formulas -/

/-- The value of the w-bit two's complement number in the low bits of x. -/
def signedField (x : Word) (w : Nat) : Int :=
  if 2 ^ (w - 1) ≤ x.toNat % 2 ^ w then (x.toNat % 2 ^ w : Int) - 2 ^ w else x.toNat % 2 ^ w

/-- Truncated division with the corners of R170: what DIV writes. -/
def quotientOf (x y : Int) : Int :=
  if y = 0 then (if x < 0 then -2 ^ 63 else 2 ^ 63 - 1)
  else if x = -2 ^ 63 ∧ y = -1 then 2 ^ 63 - 1
  else x.tdiv y

/-- The result of a three-register word (R170) on the values of sa and sb. -/
def registerResult (i : Instr) (x y : Word) : Option (BitVec 5 × BitVec 5 × BitVec 5 × Word) :=
  match i with
  | .add d a b => some (d, a, b, .ofNat 64 (x.toNat + y.toNat))
  | .sub d a b => some (d, a, b, .ofInt 64 ((x.toNat : Int) - y.toNat))
  | .and d a b => some (d, a, b, .ofNat 64 (x.toNat &&& y.toNat))
  | .or d a b => some (d, a, b, .ofNat 64 (x.toNat ||| y.toNat))
  | .xor d a b => some (d, a, b, .ofNat 64 (x.toNat ^^^ y.toNat))
  | .sll d a b => some (d, a, b, .ofNat 64 (x.toNat * 2 ^ (y.toNat % 64)))
  | .srl d a b => some (d, a, b, .ofNat 64 (x.toNat / 2 ^ (y.toNat % 64)))
  | .sra d a b => some (d, a, b, .ofInt 64 (x.toInt / 2 ^ (y.toNat % 64)))
  | .slt d a b => some (d, a, b, if x.toInt < y.toInt then 1 else 0)
  | .sltn d a b => some (d, a, b, if x.toNat < y.toNat then 1 else 0)
  | .mul d a b => some (d, a, b, .ofNat 64 (x.toNat * y.toNat))
  | .mulhs d a b => some (d, a, b, .ofInt 64 (x.toInt * y.toInt / 2 ^ 64))
  | .mulhn d a b => some (d, a, b, .ofNat 64 (x.toNat * y.toNat / 2 ^ 64))
  | .div d a b => some (d, a, b, .ofInt 64 (quotientOf x.toInt y.toInt))
  | .divn d a b => some (d, a, b, if y.toNat = 0 then .ofInt 64 (-1) else .ofNat 64 (x.toNat / y.toNat))
  | .rem d a b => some (d, a, b, if y.toNat = 0 then x else .ofInt 64 (x.toInt.tmod y.toInt))
  | .remn d a b => some (d, a, b, if y.toNat = 0 then x else .ofNat 64 (x.toNat % y.toNat))
  | _ => none

/-- The result of a word with one register and an immediate, or an immediate alone (R171 to R173). -/
def immediateResult (i : Instr) (reg : BitVec 5 → Word) : Option (BitVec 5 × Word) :=
  match i with
  | .addi d a n => some (d, .ofInt 64 ((reg a).toInt + n.toInt))
  | .andi d a n => some (d, .ofNat 64 ((reg a).toNat &&& n.toNat))
  | .ori d a n => some (d, .ofNat 64 ((reg a).toNat ||| n.toNat))
  | .xori d a n => some (d, .ofNat 64 ((reg a).toNat ^^^ n.toNat))
  | .slli d a n => some (d, .ofNat 64 ((reg a).toNat * 2 ^ n.toNat))
  | .srli d a n => some (d, .ofNat 64 ((reg a).toNat / 2 ^ n.toNat))
  | .srai d a n => some (d, .ofInt 64 ((reg a).toInt / 2 ^ n.toNat))
  | .slti d a n => some (d, if (reg a).toInt < n.toInt then 1 else 0)
  | .sltin d a n => some (d, if (reg a).toNat < (BitVec.ofInt 64 n.toInt).toNat then 1 else 0)
  | .lui d n => some (d, .ofNat 64 (n.toNat * 2 ^ 12))
  | _ => none

/-- The result of a word that extends, extracts or counts bits (R174). -/
def fieldResult (i : Instr) (reg : BitVec 5 → Word) : Option (BitVec 5 × Word) :=
  match i with
  | .sext d a w => some (d, .ofInt 64 (signedField (reg a) (w.toNat + 1)))
  | .zext d a w => some (d, .ofNat 64 ((reg a).toNat % 2 ^ (w.toNat + 1)))
  | .extr d a b w => some (d, .ofNat 64 ((reg a).toNat / 2 ^ ((reg b).toNat % 64) % 2 ^ (w.toNat + 1)))
  | .popc d a => some (d, .ofNat 64 ((List.finRange 64).countP (fun n => (reg a).getLsbD n)))
  | _ => none

/-- v leading zeros: the v highest bits are 0, and the bit below them is 1. -/
def LeadingZeros (x : Word) (v : Nat) : Prop :=
  v ≤ 64 ∧ (∀ n, 64 - v ≤ n → n < 64 → x.getLsbD n = false) ∧ (v < 64 → x.getLsbD (63 - v) = true)

/-- v trailing zeros. -/
def TrailingZeros (x : Word) (v : Nat) : Prop :=
  v ≤ 64 ∧ (∀ n, n < v → x.getLsbD n = false) ∧ (v < 64 → x.getLsbD v = true)

/-- The condition of a compare and jump (R175) with its registers and its offset. -/
def branchTaken (i : Instr) (reg : BitVec 5 → Word) : Option (Bool × BitVec 15) :=
  match i with
  | .cjEq b a n => some (decide ((reg a).toNat = (reg b).toNat), n)
  | .cjNe b a n => some (decide ((reg a).toNat ≠ (reg b).toNat), n)
  | .cjLt b a n => some (decide ((reg a).toInt < (reg b).toInt), n)
  | .cjGe b a n => some (decide ((reg b).toInt ≤ (reg a).toInt), n)
  | .cjLtn b a n => some (decide ((reg a).toNat < (reg b).toNat), n)
  | .cjGen b a n => some (decide ((reg b).toNat ≤ (reg a).toNat), n)
  | _ => none

/-- A load or a store: its size, its data register, its base register, its space and its offset (09_core_memory.md
R215). -/
def scalarAccess (i : Instr) : Option (Nat × BitVec 5 × BitVec 5 × BitVec 2 × BitVec 13) :=
  match i with
  | .ldb d a p n => some (1, d, a, p, n)
  | .ldw d a p n => some (4, d, a, p, n)
  | .ldd d a p n => some (8, d, a, p, n)
  | .stb d a p n => some (1, d, a, p, n)
  | .stw d a p n => some (4, d, a, p, n)
  | .std d a p n => some (8, d, a, p, n)
  | _ => none

/-! ## A convoy of one word -/

/-- The convoy stream stands at a convoy boundary: nothing forms, no member of the convoy is skipped (05_convoy.md R138), no
convoy waits to retire (16_die.md R358) and no store of it has been discarded (19_fabric.md R401); the convoy is neither
traced (R145) nor stepped (R141), no SSTEP is due (08_core_steering.md R199), and a turn runs it whole (log entry 36). -/
structure State.Boundary (s : State) : Prop where
  forming : s.core.conv.forming = []
  done : s.core.conv.startDone = 0
  parked : s.core.conv.parked = []
  kept : s.core.conv.failedStore = none
  trace : s.core.trace.ltrc.getLsbD 8 = false
  step : s.core.conv.cdbg = false
  single : s.core.steer.stepped = false
  whole : s.core.pace = none

/-- The chain bit of the word is 0: it ends its convoy (02_encoding.md R29). -/
def endsConvoy (i : Instr) : Prop := (encode i).toNat < 2 ^ 31

/-- The core with a convoy of the one word issued: the rate ordered is taken and CBKSUP is cleared (01_levels.md R15,
05_convoy.md R141). -/
def issued (i : Instr) (s : State) : State := enterFlight [i] [⟨0, memberOf i s⟩] s

/-- The core with that convoy retired: its writes of convoy scalars and its rq entries land, VSTART and VISPOS are 0, and
CPC is at the next word (R111, R115, R135, R138). -/
def retired (i : Instr) (kout : List (Nat × Word)) (rqout : List Word) (t : State) : State :=
  retireConvoy { words := [i], next := 0, capp := 0, lk := 0, mid := none, done := 0, kout := kout, rqout := rqout } t

/-- A shape that a word names: its name, the width it is walked at, and the elements it must hold. -/
structure Named where
  shape : Nat
  ew : Nat
  need : Nat

/-- The shape meets the four conditions of R83: it is not OFF, its kind and its columns suit the width, it holds the
elements, and no band that it touches is OFF. -/
def Named.holds (n : Named) (s : State) : Prop :=
  let v := shapeAt n.shape s
  v.kind ≠ 0 ∧ shapeTypeBad v n.ew = false ∧ n.need ≤ v.cap n.ew ∧ shapeGated s.core.conv.planepwr v = false

/-- A word that the elements of a convoy are run for (classes E and P): the shapes it names, what else it asks for to
issue (the types it pairs with among them), and what one element does; `fits` says when that element does not trap or
wait. -/
structure ElementWord where
  named : List Named
  issues : Prop
  element : Nat → State → State
  fits : Nat → State → Prop

/-- The state in which an issued word accesses some elements: the bands that were in RETAIN and hold what it accesses are
ON (03_plane.md R91). -/
def accessing (i : Instr) (issue : State) (l : List Nat) (t : State) : State :=
  wake ((memberOf i issue).touched l t) t

/-- The issued word after the first n elements from VSTART.K, in order (R114). -/
def ElementWord.before (w : ElementWord) (i : Instr) (n : Nat) (s : State) : State :=
  (List.range' s.core.conv.startK.toNat n).foldl (fun t e => w.element e (accessing i (issued i s) [e] t)) (issued i s)

/-- The issued word as element K + n runs. -/
def ElementWord.running (w : ElementWord) (i : Instr) (n : Nat) (s : State) : State :=
  accessing i (issued i s) [s.core.conv.startK.toNat + n] (w.before i n s)

/-- The issued word after every element from VSTART.K to VL - 1. -/
def ElementWord.all (w : ElementWord) (i : Instr) (s : State) : State :=
  w.before i (s.vl - s.core.conv.startK.toNat) s

/-- Alone in its convoy, with no arithmetic trap enabled and its shapes as R83 asks, the word issues, runs every element
and retires. -/
def CompletesElements (word : Instr → State → Option ElementWord) : Prop :=
  ∀ (i : Instr) (s : State) (w : ElementWord), word i s = some w → s.Boundary → endsConvoy i → w.issues →
    s.core.conv.vctl = 0 → (∀ n ∈ w.named, n.holds s) →
    (∀ n, n < s.vl - s.core.conv.startK.toNat →
      w.fits (s.core.conv.startK.toNat + n) (w.running i n s)) →
    exec i s = .next (retired i [] [] (w.all i s))

/-- A word that runs as a whole (classes R, N and A): the shapes it names, what else it asks for to issue and run (the
types it pairs with among them), its effect, the convoy scalars it writes, and the entries it sends to rq. -/
structure WholeWord where
  named : List Named
  fits : Prop
  effect : State → State
  scalars : State → List (Nat × Word)
  entries : State → List Word

/-- The issued word as the whole of it runs (03_plane.md R91). -/
def running (i : Instr) (s : State) : State :=
  let u := issued i s
  accessing i u (u.elems.filter (fun e => decide (s.core.conv.startK.toNat ≤ e))) u

/-- The word alone in its convoy has issued, run and retired. -/
def WholeWord.completed (w : WholeWord) (i : Instr) (s : State) : State :=
  let u := running i s
  retired i (w.scalars u) (w.entries u) (w.effect u)

/-- Alone in its convoy, with no arithmetic trap enabled and its shapes as R83 asks, the word issues, runs and retires. -/
def CompletesWhole (word : Instr → State → Option WholeWord) : Prop :=
  ∀ (i : Instr) (s : State) (w : WholeWord), word i s = some w → s.Boundary → endsConvoy i → w.fits →
    s.core.conv.vctl = 0 → (∀ n ∈ w.named, n.holds s) →
    exec i s = .next (w.completed i s)

/-! ## What a convoy trap and a vector word leave -/

/-- A trap of the convoy stream in task mode, with no pre-emption request (08_core_steering.md R196; 05_convoy.md R137,
R138): CAUSE with STRM = 1, TVAL and EPC are recorded, the handler is entered, the convoy stream halts at the same CPC,
and CMEM and VSTART name the member and the element (VSTART.LK is 0, log entry 17); general registers and memory stay. -/
structure ConvoyTrapped (c : Cause) (tval : Word) (member k : Nat) (s t : State) : Prop where
  cause : t.core.steer.causeStrm = true ∧ t.core.steer.causeCode = c.code ∧ t.core.steer.tval = tval
  saved : t.core.steer.epc = s.core.steer.pc ∧ t.core.steer.pmode = false
  entered : t.core.steer.mode = true ∧ t.core.steer.chalt = true ∧ t.core.steer.pc = s.core.steer.tvec
  point : t.core.conv.cmem = .ofNat 2 member ∧ t.core.conv.startK = .ofNat 14 k ∧ t.core.conv.startLk = 0
  halted : t.core.conv.st = .halted ∧ t.core.conv.cpc = s.core.conv.cpc ∧ t.core.conv.lc = s.core.conv.lc
    ∧ t.core.conv.cblk = s.core.conv.cblk
  stays : t.core.steer.regs = s.core.steer.regs ∧ t.core.q = s.core.q ∧ t.mem = s.mem

/-- Cell k of the plane, numbered 64 r + c, holds bits of element e of a shape at a width. -/
def holdsElement (n ew e : Nat) (s : State) (k : Nat) : Prop :=
  let p := place (shapeAt n s) ew e
  k = 64 * p.1 + p.2.1 ∨ (ew = 64 ∧ k = 64 * p.1 + p.2.1 + 1)

/-- Nothing changes but the numbered cells, one mask, VFLAGS, the bands that wake, and what issue and retirement
set. -/
structure VectorFrame (cells : Nat → Prop) (mask : Option Nat) (s t : State) : Prop where
  steer : t.core.steer = { s.core.steer with cbksup := false }
  conv : t.core.conv.vl = s.core.conv.vl ∧ t.core.conv.vtype = s.core.conv.vtype ∧ t.core.conv.vmt = s.core.conv.vmt
    ∧ t.core.conv.vctl = s.core.conv.vctl ∧ t.core.conv.table = s.core.conv.table ∧ t.core.conv.k = s.core.conv.k
  block : t.core.conv.cpc = s.core.conv.cpc + 4 ∧ t.core.conv.lc = s.core.conv.lc
    ∧ t.core.conv.cblk = s.core.conv.cblk ∧ t.core.conv.st = s.core.conv.st
  units : t.core.q = s.core.q ∧ t.core.mat = s.core.mat ∧ t.core.lad = s.core.lad ∧ t.core.gang = s.core.gang
    ∧ t.core.task = s.core.task
  rest : t.mem = s.mem ∧ t.cluster = s.cluster ∧ t.pkg = s.pkg ∧ t.cores = s.cores
  plane : ∀ k, ¬cells k → spGet 0 t.core.conv.plane k = spGet 0 s.core.conv.plane k
  masks : ∀ m e, e < 8192 → mask ≠ some m → maskBit m e t = maskBit m e s

/-- The mask that a compare or a mask word writes. -/
def maskTarget (i : Instr) : Option Nat :=
  match i with
  | .vceq d _ _ _ _ | .vcne d _ _ _ _ | .vclt d _ _ _ _ | .vcle d _ _ _ _ | .vcgt d _ _ _ _ | .vcge d _ _ _ _
  | .vcun d _ _ _ _ | .vceqK d _ _ _ _ | .vcneK d _ _ _ _ | .vcltK d _ _ _ _ | .vcleK d _ _ _ _ | .vcgtK d _ _ _ _
  | .vcgeK d _ _ _ _ | .vcunK d _ _ _ _ | .vmand d _ _ _ _ | .vmor d _ _ _ _ | .vmxor d _ _ _ _
  | .vmandn d _ _ _ _ | .vmnot d _ _ _ | .vmset d _ _ | .vmclr d _ _ => some d.toNat
  | _ => none

/-- A word that writes v63 beside its destination. -/
def writesScales (i : Instr) : Bool :=
  match i with
  | .vqnt _ _ _ _ _ => true
  | _ => false

/-! ## The element-wise words, by the spec's formulas (05_convoy.md R121 to R128) -/

/-- The shapes that sources name, walked by VL. -/
def srcNamed (l : List Src) (ew vl : Nat) : List Named :=
  l.filterMap (fun x => match x with
    | .shape n => some ⟨n, ew, vl⟩
    | _ => none)

/-- The body of R121: where the governing mask is 1, element e of vd receives the result of the operands at e, and the
flags are set. -/
def onElements (s : State) (issues : Prop) (d : BitVec 6) (x y : Src) (m : BitVec 3)
    (f : Conv → Nat → Nat → Nat → Nat × FlagSet) : ElementWord :=
  { named := ⟨d.toNat, s.core.conv.ew, s.vl⟩ :: srcNamed [x, y] s.core.conv.ew s.vl
    issues := issues
    element := fun e t =>
      if maskBit m.toNat e t then
        let c := t.core.conv
        let r := f c (x.get c.ew e t) (y.get c.ew e t) (elemGet (shapeAt d.toNat t) c.ew e t)
        raiseFlags r.2 (elemSet (shapeAt d.toNat t) c.ew e r.1 t)
      else t
    fits := fun _ _ => True }

/-- The shapes of a word as sources. -/
def vSrc (a : BitVec 6) : Src := .shape a.toNat

/-- The sources of a word with a scalar: fx = 1 swaps them (R121). -/
def kSrc (a : BitVec 6) (x : BitVec 1) (k : BitVec 3) : Src × Src :=
  if x = 1 then (.scalar k.toNat, .shape a.toNat) else (.shape a.toNat, .scalar k.toNat)

/-- An operation on the exact values of integer elements, reduced modulo 2^EW (R124). -/
def onInts (f : Int → Int → Int) : Conv → Nat → Nat → Nat → Nat × FlagSet :=
  fun c x y _ => let t := intTyOf c.type; ((f (t.value x) (t.value y) % 2 ^ c.ew).toNat, 0)

/-- The immediate forms: the old vd is the first operand. -/
def onOld (f : Conv → Nat → Nat → Nat → Nat × FlagSet) : Conv → Nat → Nat → Nat → Nat × FlagSet :=
  fun c _ y z => f c z y 0

/-- A division or a remainder: a zero divisor raises DZ, or NV when the dividend is 0 too. -/
def onQuotient (zero : Nat → Nat → Nat) (f : Int → Int → Int) : Conv → Nat → Nat → Nat → Nat × FlagSet :=
  fun c x y z => if y = 0 then (zero c.ew x, if x = 0 then flagNV else flagDZ) else onInts f c x y z

/-- A sum or a difference clamped to the range of the type; SAT when it clamps. -/
def onClamped (f : Int → Int → Int) : Conv → Nat → Nat → Nat → Nat × FlagSet :=
  fun c x y _ =>
    let t := intTyOf c.type
    let v := f (t.value x) (t.value y)
    let u := max t.lo (min t.hi v)
    ((u % 2 ^ c.ew).toNat, if u = v then 0 else flagSAT)

/-- A shift: the amount is the low log2 EW bits of the second operand (R125). -/
def onShift (f : Nat → Nat → Nat → Int) : Conv → Nat → Nat → Nat → Nat × FlagSet :=
  fun c x y _ => ((f c.ew x (y % c.ew) % 2 ^ c.ew).toNat, 0)

/-- The arithmetic right shift takes x as signed, whatever the type. -/
def shiftSigned (ew x n : Nat) : Int := (if 2 ^ (ew - 1) ≤ x then (x : Int) - 2 ^ ew else x) / 2 ^ n

/-- A bitwise operation. -/
def onBits (f : Nat → Nat → Nat) : Conv → Nat → Nat → Nat → Nat × FlagSet := fun _ x y _ => (f x y, 0)

/-- The integer words of R124 and R125 that pair with the integer types. -/
def integerWord (i : Instr) (s : State) : Option ElementWord :=
  let w := onElements s (6 ≤ s.core.conv.type)
  let q := fun (_ : Nat) (x : Nat) => x
  let ones := fun (ew : Nat) (_ : Nat) => 2 ^ ew - 1
  match i with
  | .vadd d a b m _ => some (w d (vSrc a) (vSrc b) m (onInts (· + ·)))
  | .vsub d a b m _ => some (w d (vSrc a) (vSrc b) m (onInts (· - ·)))
  | .vmul d a b m _ => some (w d (vSrc a) (vSrc b) m (onInts (· * ·)))
  | .vmin d a b m _ => some (w d (vSrc a) (vSrc b) m (onInts min))
  | .vmax d a b m _ => some (w d (vSrc a) (vSrc b) m (onInts max))
  | .vdiv d a b m _ => some (w d (vSrc a) (vSrc b) m (onQuotient ones Int.tdiv))
  | .vrem d a b m _ => some (w d (vSrc a) (vSrc b) m (onQuotient q Int.tmod))
  | .vaddK d a x k m _ => some (w d (kSrc a x k).1 (kSrc a x k).2 m (onInts (· + ·)))
  | .vsubK d a x k m _ => some (w d (kSrc a x k).1 (kSrc a x k).2 m (onInts (· - ·)))
  | .vmulK d a x k m _ => some (w d (kSrc a x k).1 (kSrc a x k).2 m (onInts (· * ·)))
  | .vminK d a x k m _ => some (w d (kSrc a x k).1 (kSrc a x k).2 m (onInts min))
  | .vmaxK d a x k m _ => some (w d (kSrc a x k).1 (kSrc a x k).2 m (onInts max))
  | .vdivK d a x k m _ => some (w d (kSrc a x k).1 (kSrc a x k).2 m (onQuotient ones Int.tdiv))
  | .vremK d a x k m _ => some (w d (kSrc a x k).1 (kSrc a x k).2 m (onQuotient q Int.tmod))
  | .vaddi d n m _ => some (w d .unused (.imm n.toInt) m (onOld (onInts (· + ·))))
  | .vrsubi d n m _ => some (w d .unused (.imm n.toInt) m (onOld (onInts (fun x y => y - x))))
  | .vmuli d n m _ => some (w d .unused (.imm n.toInt) m (onOld (onInts (· * ·))))
  | .vmini d n m _ => some (w d .unused (.imm n.toInt) m (onOld (onInts min)))
  | .vmaxi d n m _ => some (w d .unused (.imm n.toInt) m (onOld (onInts max)))
  | .vsadd d a b m _ => some (w d (vSrc a) (vSrc b) m (onClamped (· + ·)))
  | .vssub d a b m _ => some (w d (vSrc a) (vSrc b) m (onClamped (· - ·)))
  | .vmulh d a b m _ => some (w d (vSrc a) (vSrc b) m (fun c x y z => onInts (fun u v => u * v / 2 ^ c.ew) c x y z))
  | .vavg d a b m _ => some (w d (vSrc a) (vSrc b) m (onInts (fun x y => (x + y + 1) / 2)))
  | .vsll d a b m _ => some (w d (vSrc a) (vSrc b) m (onShift (fun _ x n => x * 2 ^ n)))
  | .vsrl d a b m _ => some (w d (vSrc a) (vSrc b) m (onShift (fun _ x n => x / 2 ^ n)))
  | .vsra d a b m _ => some (w d (vSrc a) (vSrc b) m (onShift shiftSigned))
  | .vslli d n m _ => some (w d .unused (.imm n.toNat) m (onOld (onShift (fun _ x n => x * 2 ^ n))))
  | .vsrli d n m _ => some (w d .unused (.imm n.toNat) m (onOld (onShift (fun _ x n => x / 2 ^ n))))
  | .vsrai d n m _ => some (w d .unused (.imm n.toNat) m (onOld (onShift shiftSigned)))
  | _ => none

/-- The words of R125 that pair with every type: VANDN is x & ~y. -/
def bitsWord (i : Instr) (s : State) : Option ElementWord :=
  let w := onElements s True
  match i with
  | .vand d a b m _ => some (w d (vSrc a) (vSrc b) m (onBits (· &&& ·)))
  | .vor d a b m _ => some (w d (vSrc a) (vSrc b) m (onBits (· ||| ·)))
  | .vxor d a b m _ => some (w d (vSrc a) (vSrc b) m (onBits (· ^^^ ·)))
  | .vandn d a b m _ => some (w d (vSrc a) (vSrc b) m (fun c x y _ => (x &&& (2 ^ c.ew - 1 - y), 0)))
  | .vmov d a m _ => some (w d (vSrc a) .unused m (onBits (fun x _ => x)))
  | .vandi d n m _ => some (w d .unused (.imm n.toInt) m (onOld (onBits (· &&& ·))))
  | .vori d n m _ => some (w d .unused (.imm n.toInt) m (onOld (onBits (· ||| ·))))
  | .vxori d n m _ => some (w d .unused (.imm n.toInt) m (onOld (onBits (· ^^^ ·))))
  | .vli d n m _ => some (w d .unused (.imm n.toInt) m (onBits (fun _ y => y)))
  | _ => none

/-! ## The floating-point words (05_convoy.md R122, R123) -/

/-- An operation on two floating-point values, rounded once under VTYPE. -/
def onFloats (f : Rnd → FVal → FVal → Nat × FlagSet) : Conv → Nat → Nat → Nat → Nat × FlagSet :=
  fun c x y _ => f c.rnd (c.rnd.fmt.decode x) (c.rnd.fmt.decode y)

/-- An operation on one value. -/
def onFloat (f : Rnd → FVal → Nat × FlagSet) : Conv → Nat → Nat → Nat → Nat × FlagSet :=
  fun c x _ _ => f c.rnd (c.rnd.fmt.decode x)

/-- The lesser or the greater value. -/
def onExtreme (greater : Bool) : Conv → Nat → Nat → Nat → Nat × FlagSet :=
  fun c x y _ => fMinMax c.rnd.fmt greater (c.rnd.fmt.decode x) (c.rnd.fmt.decode y) x y

/-- ±(x × y) ± vd with one rounding. -/
def onFused (negProduct negAddend : Bool) : Conv → Nat → Nat → Nat → Nat × FlagSet :=
  fun c x y z =>
    let v := fun (neg : Bool) (raw : Nat) => if neg then (c.rnd.fmt.decode raw).neg else c.rnd.fmt.decode raw
    fFma c.rnd (v negProduct x) (v false y) (v negAddend z)

/-- The magnitude of x with a sign bit. -/
def onSign (sign : Nat → Nat → Nat) : Conv → Nat → Nat → Nat → Nat × FlagSet :=
  fun c x y _ => let h := 2 ^ (c.ew - 1); (x % h + h * sign (x / h) (y / h), 0)

/-- The kind of x in bits 2:0 and its sign in bit 3. -/
def onKind : Conv → Nat → Nat → Nat → Nat × FlagSet :=
  fun c x _ _ => (kindOf c.rnd.fmt x + 8 * (x / 2 ^ (c.ew - 1)), 0)

/-- The words that pair with f32, f16 and bf16. -/
def floatWord (i : Instr) (s : State) : Option ElementWord :=
  let w := onElements s (s.core.conv.type ≤ 2)
  match i with
  | .vfadd d a b m _ => some (w d (vSrc a) (vSrc b) m (onFloats fAdd))
  | .vfsub d a b m _ => some (w d (vSrc a) (vSrc b) m (onFloats fSub))
  | .vfmul d a b m _ => some (w d (vSrc a) (vSrc b) m (onFloats fMul))
  | .vfdiv d a b m _ => some (w d (vSrc a) (vSrc b) m (onFloats fDiv))
  | .vfmin d a b m _ => some (w d (vSrc a) (vSrc b) m (onExtreme false))
  | .vfmax d a b m _ => some (w d (vSrc a) (vSrc b) m (onExtreme true))
  | .vfaddK d a x k m _ => some (w d (kSrc a x k).1 (kSrc a x k).2 m (onFloats fAdd))
  | .vfsubK d a x k m _ => some (w d (kSrc a x k).1 (kSrc a x k).2 m (onFloats fSub))
  | .vfmulK d a x k m _ => some (w d (kSrc a x k).1 (kSrc a x k).2 m (onFloats fMul))
  | .vfdivK d a x k m _ => some (w d (kSrc a x k).1 (kSrc a x k).2 m (onFloats fDiv))
  | .vfminK d a x k m _ => some (w d (kSrc a x k).1 (kSrc a x k).2 m (onExtreme false))
  | .vfmaxK d a x k m _ => some (w d (kSrc a x k).1 (kSrc a x k).2 m (onExtreme true))
  | .vfneg d a m _ => some (w d (vSrc a) .unused m (onSign (fun x _ => 1 - x)))
  | .vfabs d a m _ => some (w d (vSrc a) .unused m (onSign (fun _ _ => 0)))
  | .vfcpys d a b m _ => some (w d (vSrc a) (vSrc b) m (onSign (fun _ y => y)))
  | .vfcpysn d a b m _ => some (w d (vSrc a) (vSrc b) m (onSign (fun _ y => 1 - y)))
  | .vfkind d a m _ => some (w d (vSrc a) .unused m onKind)
  | .vfma d a b m _ => some (w d (vSrc a) (vSrc b) m (onFused false false))
  | .vfnma d a b m _ => some (w d (vSrc a) (vSrc b) m (onFused true false))
  | .vfms d a b m _ => some (w d (vSrc a) (vSrc b) m (onFused false true))
  | .vfnms d a b m _ => some (w d (vSrc a) (vSrc b) m (onFused true true))
  | .vfmaK d a k m _ => some (w d (vSrc a) (.scalar k.toNat) m (onFused false false))
  | .vfnmaK d a k m _ => some (w d (vSrc a) (.scalar k.toNat) m (onFused true false))
  | .vfmsK d a k m _ => some (w d (vSrc a) (.scalar k.toNat) m (onFused false true))
  | .vfnmsK d a k m _ => some (w d (vSrc a) (.scalar k.toNat) m (onFused true true))
  | .vfsqrt d a m _ => some (w d (vSrc a) .unused m (onFloat fSqrt))
  | .vfrsqrt d a m _ => some (w d (vSrc a) .unused m (onFloat fRsqrt))
  | .vfrcp d a m _ => some (w d (vSrc a) .unused m (onFloat fRcp))
  | .vfexp2 d a m _ => some (w d (vSrc a) .unused m (onFloat fExp2))
  | .vflog2 d a m _ => some (w d (vSrc a) .unused m (onFloat fLog2))
  | .vfsinpi d a m _ => some (w d (vSrc a) .unused m (onFloat fSinPi))
  | .vftanh d a m _ => some (w d (vSrc a) .unused m (onFloat fTanh))
  | .vfsigm d a m _ => some (w d (vSrc a) .unused m (onFloat fSigm))
  | _ => none

/-! ## A convoy of two words (05_convoy.md R112 to R114) -/

/-- The integer, floating-point and bitwise words: each is of class E, and the first shape it names is its destination. -/
def arithmeticWord (i : Instr) (s : State) : Option ElementWord :=
  (integerWord i s).or ((floatWord i s).or (bitsWord i s))

/-- Of these the words of the SFU; the others are the VALU's (R112). -/
def onSfu (i : Instr) : Bool :=
  match i with
  | .vdiv .. | .vrem .. | .vdivK .. | .vremK .. | .vfdiv .. | .vfdivK .. | .vfsqrt .. | .vfrsqrt .. | .vfrcp .. | .vfexp2 ..
  | .vflog2 .. | .vfsinpi .. | .vftanh .. | .vfsigm .. => true
  | _ => false

/-- A shape of one word touches one of another: their boxes intersect, and one of them is a destination (R113). -/
def touch (w v : ElementWord) (x y : Named) (s : State) : Prop :=
  x ∈ w.named ∧ y ∈ v.named ∧ (w.named.head? = some x ∨ v.named.head? = some y)
    ∧ boxesMeet (shapeAt x.shape s).box (shapeAt y.shape s).box = true

/-- They have identical geometry (03_plane.md R89). -/
def agree (x y : Named) (s : State) : Prop := sameGeometry (shapeAt x.shape s) (shapeAt y.shape s) = true

/-- The convoy of two words has issued, and each element from VSTART.K to VL - 1 has run, of the first word and then of the
second (R114). -/
def chainedRun (i j : Instr) (w v : ElementWord) (s : State) : State :=
  let u := enterFlight [i, j] [⟨0, memberOf i s⟩, ⟨1, memberOf j s⟩] s
  (List.range' s.core.conv.startK.toNat (s.vl - s.core.conv.startK.toNat)).foldl (fun t e =>
    v.element e (accessing j u [e] (w.element e (accessing i u [e] t)))) u

/-- A convoy of words that write no convoy scalar and no queue has retired. -/
def retiredAll (words : List Instr) (t : State) : State :=
  retireConvoy { words := words, next := 0, capp := 0, lk := 0, mid := none, done := 0, kout := [], rqout := [] } t

/-! ## Compares, mask logic and selects (R126 to R128) -/

/-- The truth of a compare, from x < y and x = y. -/
def compareHolds (k : Cmp) (lt eq : Bool) : Bool :=
  match k with
  | .eq => eq
  | .ne => !eq
  | .lt => lt
  | .le => lt || eq
  | .gt => !lt && !eq
  | .ge => !lt
  | .un => false

/-- A compare of two elements: a NaN makes VCNE and VCUN true and the others false; it sets NV when it is signaling, and
in the four orderings whatever it is. -/
def compareOf (k : Cmp) (t x y : Nat) : Bool × FlagSet :=
  if 6 ≤ t then
    let a := (intTyOf t).value x
    let b := (intTyOf t).value y
    (compareHolds k (decide (a < b)) (decide (a = b)), 0)
  else
    let a := (fmtOf t).decode x
    let b := (fmtOf t).decode y
    if a.isNan || b.isNan then
      (k == .ne || k == .un,
        if a.isSnan || b.isSnan || !(k == .eq || k == .ne || k == .un) then flagNV else 0)
    else (compareHolds k (cmpVal a b == 0) (cmpVal a b == 1), 0)

/-- A compare: where the governing mask is 1, bit e of md. -/
def onCompare (s : State) (k : Cmp) (d : BitVec 3) (x y : Src) (m : BitVec 3) : ElementWord :=
  let t := s.core.conv.type
  { named := srcNamed [x, y] s.core.conv.ew s.vl
    issues := t ≠ 5 ∧ (k = .un → t < 6)
    element := fun e u =>
      if maskBit m.toNat e u then
        let c := u.core.conv
        let r := compareOf k c.type (x.get c.ew e u) (y.get c.ew e u)
        raiseFlags r.2 (writeMaskBit d.toNat e r.1 u)
      else u
    fits := fun _ _ => True }

/-- A logical operation on masks. -/
def onMasks (d m : BitVec 3) (f : Nat → State → Bool) : ElementWord :=
  { named := [], issues := True
    element := fun e u => if maskBit m.toNat e u then writeMaskBit d.toNat e (f e u) u else u
    fits := fun _ _ => True }

/-- A select: every element below VL is written, from va where the mask is 1 and otherwise from the second source. -/
def onSelect (s : State) (d a : BitVec 6) (y : Src) (m : BitVec 3) : ElementWord :=
  { named := ⟨d.toNat, s.core.conv.ew, s.vl⟩ :: srcNamed [vSrc a, y] s.core.conv.ew s.vl
    issues := True
    element := fun e u =>
      let ew := u.core.conv.ew
      elemSet (shapeAt d.toNat u) ew e ((if maskBit m.toNat e u then vSrc a else y).get ew e u) u
    fits := fun _ _ => True }

/-- The words of R126 to R128. -/
def compareWord (i : Instr) (s : State) : Option ElementWord :=
  match i with
  | .vceq d a b m _ => some (onCompare s .eq d (vSrc a) (vSrc b) m)
  | .vcne d a b m _ => some (onCompare s .ne d (vSrc a) (vSrc b) m)
  | .vclt d a b m _ => some (onCompare s .lt d (vSrc a) (vSrc b) m)
  | .vcle d a b m _ => some (onCompare s .le d (vSrc a) (vSrc b) m)
  | .vcgt d a b m _ => some (onCompare s .gt d (vSrc a) (vSrc b) m)
  | .vcge d a b m _ => some (onCompare s .ge d (vSrc a) (vSrc b) m)
  | .vcun d a b m _ => some (onCompare s .un d (vSrc a) (vSrc b) m)
  | .vceqK d a k m _ => some (onCompare s .eq d (vSrc a) (.scalar k.toNat) m)
  | .vcneK d a k m _ => some (onCompare s .ne d (vSrc a) (.scalar k.toNat) m)
  | .vcltK d a k m _ => some (onCompare s .lt d (vSrc a) (.scalar k.toNat) m)
  | .vcleK d a k m _ => some (onCompare s .le d (vSrc a) (.scalar k.toNat) m)
  | .vcgtK d a k m _ => some (onCompare s .gt d (vSrc a) (.scalar k.toNat) m)
  | .vcgeK d a k m _ => some (onCompare s .ge d (vSrc a) (.scalar k.toNat) m)
  | .vcunK d a k m _ => some (onCompare s .un d (vSrc a) (.scalar k.toNat) m)
  | .vmand d a b m _ => some (onMasks d m (fun e u => maskBit a.toNat e u && maskBit b.toNat e u))
  | .vmor d a b m _ => some (onMasks d m (fun e u => maskBit a.toNat e u || maskBit b.toNat e u))
  | .vmxor d a b m _ => some (onMasks d m (fun e u => maskBit a.toNat e u != maskBit b.toNat e u))
  | .vmandn d a b m _ => some (onMasks d m (fun e u => maskBit a.toNat e u && !maskBit b.toNat e u))
  | .vmnot d a m _ => some (onMasks d m (fun e u => !maskBit a.toNat e u))
  | .vmset d m _ => some (onMasks d m (fun _ _ => true))
  | .vmclr d m _ => some (onMasks d m (fun _ _ => false))
  | .vsel d a b m _ => some (onSelect s d a (vSrc b) m)
  | .vselz d a m _ => some (onSelect s d a (.imm 0) m)
  | _ => none

/-! ## Conversions (R129, R130) and permutes (R131) -/

/-- An element under the governing mask receives bits, with flags. -/
def putElement (d : BitVec 6) (m : BitVec 3) (r : Nat → State → Nat × FlagSet) (e : Nat) (u : State) : State :=
  if maskBit m.toNat e u then
    raiseFlags (r e u).2 (elemSet (shapeAt d.toNat u) u.core.conv.ew e (r e u).1 u)
  else u

/-- The conversion of VCVT: an integer to an integer type clamps, everything else rounds once (R99, R100, R129). -/
def convertOf (src : Nat) (c : Conv) (x : Nat) : Nat × FlagSet :=
  if 6 ≤ src ∧ 6 ≤ c.type then
    let t := intTyOf c.type
    let v := (intTyOf src).value x
    let u := max t.lo (min t.hi v)
    ((u % 2 ^ c.ew).toNat, if u = v then 0 else flagSAT)
  else convertTo c.type c.rm c.sat (typeVal src x)

/-- The active elements below VL of a block of 32, with their values. -/
def blockValues (b vl : Nat) (m : BitVec 3) (v : Nat → FVal) (u : State) : List (Nat × FVal) :=
  (((List.range 32).map (32 * b + ·)).filter (fun j => decide (j < vl) && maskBit m.toNat j u)).map (fun j => (j, v j))

/-- One element of a block, which converts from the sources as they stand: its bits and flags where it takes part, and
after the block's last element its metadata word to v63 (03_plane.md R88; R92, R98, R130). Log entry 67. -/
def putBlock (d : BitVec 6) (vl : Nat) (blk : State → Option Block) (e : Nat) (u : State) : State :=
  let v := u.modConv (fun c => { c with block := blk u })
  let w := match (blk u).bind (fun b => b.codes.find? (fun p => p.1 == e)) with
    | some p => raiseFlags p.2.2 (elemSet (shapeAt d.toNat v) v.core.conv.ew e p.2.1 v)
    | none => v
  match (if e % 32 = 31 ∨ e + 1 = vl then blk w else none) with
  | some b => elemSet (shapeAt 63 w) 16 (e / 32) b.word w
  | none => w

/-- VCVT, VQNT and VDQNT. -/
def convertWord (i : Instr) (s : State) : Option ElementWord :=
  let t := s.core.conv.type
  let ew := s.core.conv.ew
  match i with
  | .vcvt d a src m _ => some
    { named := [⟨d.toNat, ew, s.vl⟩, ⟨a.toNat, ewOf src.toNat, s.vl⟩]
      issues := src.toNat ≠ t ∧ src.toNat ≠ 5 ∧ t ≠ 5
      element := putElement d m (fun e u =>
        convertOf src.toNat u.core.conv (elemGet (shapeAt a.toNat u) (ewOf src.toNat) e u))
      fits := fun _ _ => True }
  | .vqnt d a src m _ => some
    { named := [⟨d.toNat, ew, s.vl⟩, ⟨a.toNat, ewOf src.toNat, s.vl⟩, ⟨63, 16, (s.vl + 31) / 32⟩]
      issues := src.toNat ≤ 2 ∧ (t = 3 ∨ t = 4 ∨ t = 5)
      element := fun e => putBlock d s.vl (fun u =>
        let l := blockValues (e / 32) s.vl m (fun j => typeVal src.toNat (elemGet (shapeAt a.toNat u) (ewOf src.toNat) j u)) u
        let c := u.core.conv
        if l = [] then none else some (if c.type = 5 then toE2m1x l else toScaledFp8 c.type c.rm c.sat l)) e
      fits := fun _ _ => True }
  | .vdqnt d a src m _ => some
    { named := [⟨d.toNat, ew, s.vl⟩, ⟨a.toNat, ewOf src.toNat, s.vl⟩, ⟨63, 16, (s.vl + 31) / 32⟩]
      issues := (src.toNat = 3 ∨ src.toNat = 4 ∨ src.toNat = 5) ∧ t ≤ 2
      element := putElement d m (fun e u =>
        let c := u.core.conv
        convertTo c.type c.rm c.sat (scaledVal src.toNat (elemGet (shapeAt a.toNat u) (ewOf src.toNat) e u)
          (elemGet (shapeAt 63 u) 16 (e / 32) u)))
      fits := fun _ _ => True }
  | _ => none

/-- A permute: vd, the shapes read with the elements each must hold, and the bits and flags of element e. -/
def onPermute (s : State) (d : BitVec 6) (srcs : List (BitVec 6 × Nat)) (m : BitVec 3)
    (r : Nat → State → Nat × FlagSet) : ElementWord :=
  { named := ⟨d.toNat, s.core.conv.ew, s.vl⟩ :: srcs.map (fun p => ⟨p.1.toNat, s.core.conv.ew, p.2⟩)
    issues := True
    element := putElement d m r
    fits := fun _ _ => True }

/-- Element j of a shape under the current type. -/
def under (a : BitVec 6) (j : Nat) (u : State) : Nat := elemGet (shapeAt a.toNat u) u.core.conv.ew j u

/-- The capacity of a shape under the current type. -/
def capUnder (a : BitVec 6) (u : State) : Nat := (shapeAt a.toNat u).cap u.core.conv.ew

/-- The permutes of R131: an index out of the capacity of va gives 0, with IDX in VGATH; VRAISE leaves the elements below
its distance. -/
def permuteWord (i : Instr) (s : State) : Option ElementWord :=
  match i with
  | .vgath d a b m _ => some (onPermute s d [(a, 0), (b, s.vl)] m (fun e u =>
      let j := under b e u
      if j < capUnder a u then (under a j u, 0) else (0, flagIDX)))
  | .vhead d a b m _ => some (onPermute s d [(a, s.vl), (b, 0)] m (fun e u =>
      (if e = 0 then under b 0 u else under a (e - 1) u, 0)))
  | .vtail d a b m _ => some (onPermute s d [(a, s.vl), (b, 0)] m (fun e u =>
      (if e + 1 < s.vl then under a (e + 1) u else under b 0 u, 0)))
  | .vbcast d a m _ => some (onPermute s d [(a, 0)] m (fun _ u => (under a 0 u, 0)))
  | .vbcastk d k m _ => some (onPermute s d [] m (fun _ u => ((readK k.toNat u).toNat % 2 ^ u.core.conv.ew, 0)))
  | .vlower d a k m _ => some (onPermute s d [(a, 0)] m (fun e u =>
      let j := e + (readK k.toNat u).toNat
      (if j < capUnder a u then under a j u else 0, 0)))
  | .vraise d a k m _ =>
    let w := onPermute s d [(a, s.vl)] m (fun e u => (under a (e - (readK k.toNat u).toNat) u, 0))
    some { w with element := fun e u => if (readK k.toNat u).toNat ≤ e then w.element e u else u }
  | _ => none

/-! ## Vector loads and stores (09_core_memory.md R220 to R226; 16_die.md R356 to R358) -/

/-- The element address leads to a place that the access may use: it is aligned and in range, translated and permitted,
and its data is neither uncorrectable nor out of reach. -/
def elementReaches (load ordered : Bool) (addr : Word) (u : State) : Prop :=
  let c := u.core.conv
  let bpe := max 1 (c.ew / 8)
  ∃ loc, resolve u c.vmt addr (elemWant bpe (!load) ordered) = .ok loc ∧ remoteFails u loc = false
    ∧ (if load then locPoisoned u loc bpe = false
       else locStorePoisoned u loc bpe = false ∧ (c.ew = 4 → locPoisoned u loc 1 = false))

/-- What one element of a load or a store does at the place its address leads to. E2M1x elements are the nibbles of
bytes. -/
def accessElement (load ordered : Bool) (d : BitVec 6) (e : Nat) (addr : Word) (u : State) : State :=
  let c := u.core.conv
  let bpe := max 1 (c.ew / 8)
  match resolve u c.vmt addr (elemWant bpe (!load) ordered) with
  | .error _ => u
  | .ok loc =>
    if load then
      let raw := readLoc u loc bpe
      ((elemSet (shapeAt d.toNat u) c.ew e (if c.ew = 4 then raw / 16 ^ (e % 2) % 16 else raw) u).afterRead loc).tickUp
    else
      let x := elemGet (shapeAt d.toNat u) c.ew e u
      let v := if c.ew = 4 then storedValue 4 e (readLoc u loc 1) x else x
      match loc with
      | .mem key _ => if ordered ∨ c.ew = 4 then (storeMem key bpe v u).tickUp else storeUnordered bpe key v u
      | _ => (writeLoc loc bpe v u).tickUp

/-- A vector load or store. -/
def onAccess (s : State) (load : Bool) (o : BitVec 1) (d : BitVec 6) (index : List Named) (m : BitVec 3) (issues : Prop)
    (addr : Nat → State → Word) : ElementWord :=
  { named := ⟨d.toNat, s.core.conv.ew, s.vl⟩ :: index
    issues := issues
    element := fun e u => if maskBit m.toNat e u then accessElement load (o == 1) d e (addr e u) u else u
    fits := fun e u => maskBit m.toNat e u = true → elementReaches load (o == 1) (addr e u) u }

/-- The vector loads and stores, with the addresses of R221 to R223. -/
def accessWord (i : Instr) (s : State) : Option ElementWord :=
  let x := fun (a : BitVec 6) => [(⟨a.toNat, 32, s.vl⟩ : Named)]
  let t := s.core.conv.type
  match i with
  | .vld d j k m r _ => some (onAccess s true r d [] m True (unitAddr k.toNat j))
  | .vst d j k m r _ => some (onAccess s false r d [] m True (unitAddr k.toNat j))
  | .vld2 d j k m r _ => some (onAccess s true r d [] m (t ≠ 5) (walkAddr k.toNat j))
  | .vst2 d j k m r _ => some (onAccess s false r d [] m (t ≠ 5) (walkAddr k.toNat j))
  | .vldx d a y k m r _ => some (onAccess s true r d (x a) m (t ≠ 5) (indexAddr k.toNat a.toNat y))
  | .vstx d a y k m r _ => some (onAccess s false r d (x a) m (t ≠ 5) (indexAddr k.toNat a.toNat y))
  | _ => none

/-- The address that a store's element e goes to, with its ordering and its governing mask; none for a load. -/
def storeAddr (i : Instr) (e : Nat) (u : State) : Option (BitVec 1 × BitVec 3 × Word) :=
  match i with
  | .vst _ j k m r _ => some (r, m, unitAddr k.toNat j e u)
  | .vst2 _ j k m r _ => some (r, m, walkAddr k.toNat j e u)
  | .vstx _ a y k m r _ => some (r, m, indexAddr k.toNat a.toNat y e u)
  | _ => none

/-- Where element e of VLDSLAB lies in the slab whose entry kN names: the token's position from the index shape, and the
place of R357. -/
def slabTarget (S : SlabEntry) (a : BitVec 6) (e : Nat) (u : State) : SlabPlace :=
  let bpe := u.core.conv.ew / 8
  let n := 2 ^ S.tsz / bpe
  let p := elemGet (shapeAt a.toNat u) 32 (e / n) u
  slabPlace S p (p * 2 ^ S.tsz + e % n * bpe)

/-- VLDSLAB: a resident page is loaded and clears the element's bit of mt; a missing one sets it, and is noted for the
tier-miss event. -/
def slabWord (i : Instr) (s : State) : Option ElementWord :=
  match i with
  | .vldslab d a t k m _ => some
    { named := [⟨d.toNat, s.core.conv.ew, s.vl⟩, ⟨a.toNat, 32, 0⟩]
      issues := s.core.conv.type ≠ 5 ∧ s.core.conv.vmt = 3
      element := fun e u =>
        if maskBit m.toNat e u then
          let v := u.tickUp
          match readSlabEntry u (readK k.toNat u) with
          | .error _ => u
          | .ok S => match slabTarget S a e v with
            | .at addr => writeMaskBit t.toNat e false (accessElement true false d e addr v)
            | .miss page => (writeMaskBit t.toNat e true v).modConv (fun c =>
                { c with missed := addPage page c.missed, missEntry := readK k.toNat u })
            | _ => u
        else u
      fits := fun e u => u.core.q.eq.length < 16 ∧ (maskBit m.toNat e u = true →
        ∃ S, readSlabEntry u (readK k.toNat u) = .ok S ∧ u.core.conv.ew / 8 ≤ 2 ^ S.tsz
          ∧ e / (2 ^ S.tsz / (u.core.conv.ew / 8)) < (shapeAt a.toNat u).cap 32
          ∧ ((∃ addr, slabTarget S a e u.tickUp = .at addr ∧ elementReaches true false addr u.tickUp)
            ∨ ∃ page, slabTarget S a e u.tickUp = .miss page)) }
  | _ => none

/-! ## Reductions (05_convoy.md R132; 04_numbers.md R106 to R108) -/

/-- The active elements below VL of a shape, in order. -/
def activeBits (a : BitVec 6) (m : BitVec 3) (u : State) : List Nat :=
  ((List.range u.vl).filter (fun j => maskBit m.toNat j u)).map (fun j => under a j u)

/-- A reduction: element 0 of vd receives the result. -/
def onReduce (s : State) (d a : BitVec 6) (issues : Prop) (r : State → Nat × FlagSet) : WholeWord :=
  { named := [⟨d.toNat, s.core.conv.ew, 0⟩, ⟨a.toNat, s.core.conv.ew, s.vl⟩]
    fits := issues
    effect := fun u => raiseFlags (r u).2 (elemSet (shapeAt d.toNat u) u.core.conv.ew 0 (r u).1 u)
    scalars := fun _ => [], entries := fun _ => [] }

/-- The leaves of a floating-point reduction: an inactive element is absent. -/
def leavesOf (a : BitVec 6) (m : BitVec 3) (leaf : Nat → Nat × FlagSet) (u : State) (j : Nat) : Partial :=
  if maskBit m.toNat j u then (some (leaf (under a j u)).1, (leaf (under a j u)).2) else (none, 0)

/-- A floating-point reduction in the order of lanes (R107) or, for a sum under VTYPE.LA, of the canonical tree (R108). -/
def reduceFloat (sum : Bool) (op : Nat → Nat → Nat × FlagSet) (empty : Nat) (leaf : Nat → Partial) (u : State) :
    Nat × FlagSet :=
  let r := if sum && u.core.conv.la then canonicalTree op u.vl leaf else laneOrder op u.vl leaf
  (r.1.getD empty, r.2)

/-- The reductions: an integer sum wraps, the extremes of no element are the ends of the type, and floating-point ones
keep their order. -/
def reductionWord (i : Instr) (s : State) : Option WholeWord :=
  let plain := fun (x : Nat) => (x, (0 : FlagSet))
  let float := s.core.conv.type ≤ 2
  let extreme := fun (g : Bool) (a : BitVec 6) (m : BitVec 3) (u : State) =>
    let f := u.core.conv.rnd.fmt
    reduceFloat false (fun x y => fMinMax f g (f.decode x) (f.decode y) x y) f.nanRaw (leavesOf a m plain u) u
  match i with
  | .vredsum d a m _ => some (onReduce s d a (6 ≤ s.core.conv.type) (fun u =>
      ((activeBits a m u).sum % 2 ^ u.core.conv.ew, 0)))
  | .vredmax d a m _ => some (onReduce s d a (6 ≤ s.core.conv.type) (fun u =>
      let t := intTyOf u.core.conv.type
      (t.bits (((activeBits a m u).map t.value).foldl max t.lo), 0)))
  | .vredmin d a m _ => some (onReduce s d a (6 ≤ s.core.conv.type) (fun u =>
      let t := intTyOf u.core.conv.type
      (t.bits (((activeBits a m u).map t.value).foldl min t.hi), 0)))
  | .vfredsum d a m _ => some (onReduce s d a float (fun u =>
      let r := u.core.conv.rnd
      reduceFloat true (fun x y => fAdd r (r.fmt.decode x) (r.fmt.decode y)) 0 (leavesOf a m plain u) u))
  | .vfredmax d a m _ => some (onReduce s d a float (extreme true a m))
  | .vfredmin d a m _ => some (onReduce s d a float (extreme false a m))
  | .vfredsumw d a m _ =>
    let r := fun (u : State) =>
      let c := u.core.conv
      reduceFloat true (fun x y => fAdd ⟨fp32, c.rm, c.sat⟩ (fp32.decode x) (fp32.decode y)) 0
        (leavesOf a m (fun x => if c.type = 0 then (x, 0) else convertTo 0 c.rm c.sat (typeVal c.type x)) u) u
    some { onReduce s d a float r with
      effect := fun u =>
        let v := shapeAt d.toNat u
        raiseFlags (r u).2 (writeCell v.row0 v.col0 (.ofNat 32 (r u).1) u) }
  | _ => none

/-! ## Convoy scalars, settings and blocks (05_convoy.md R133 to R135; 03_plane.md R69 to R79) -/

/-- A word that does nothing but what its fields say. -/
def WholeWord.plain : WholeWord :=
  { named := [], fits := True, effect := fun u => u, scalars := fun _ => [], entries := fun _ => [] }

/-- A word of the scalar side that writes a convoy scalar when its convoy retires. -/
def onScalar (d : BitVec 3) (v : State → Word) : WholeWord := { WholeWord.plain with scalars := fun u => [(d.toNat, v u)] }

/-- A word that sends an entry to rq when its convoy retires; it waits for room (R115). -/
def onEntry (s : State) (v : State → Word) : WholeWord :=
  { WholeWord.plain with fits := s.core.q.rq.length < 32, entries := fun u => [v u] }

/-- The elements below VL whose bit of a mask is 1. -/
def onesOf (a : BitVec 3) (u : State) : List Nat := (List.range u.vl).filter (fun j => maskBit a.toNat j u)

/-- The scalar words of R133 and R134. -/
def scalarWord (i : Instr) (s : State) : Option WholeWord :=
  match i with
  | .vkadd d j k _ => some (onScalar d (fun u => readK k.toNat u + .ofInt 64 j.toInt))
  | .vkaddK d t k _ => some (onScalar d (fun u => readK k.toNat u + readK t.toNat u))
  | .vkpop d _ => some
    { onScalar d (fun u => u.core.q.dq.headD 0) with
      fits := s.core.q.dq ≠ []
      effect := fun u => u.modQ (fun q => { q with dq := q.dq.tail }) }
  | .vkget d a _ => some
    { onScalar d (fun u =>
        let t := u.core.conv.type
        .ofInt 64 (if 6 ≤ t then (intTyOf t).value (under a 0 u) else under a 0 u)) with
      named := [⟨a.toNat, s.core.conv.ew, 0⟩] }
  | .vkpush k _ => some (onEntry s (readK k.toNat))
  | .vmpushCount a _ => some (onEntry s (fun u => .ofNat 64 (onesOf a u).length))
  | .vmpushFirst a _ => some (onEntry s (fun u => match onesOf a u with
      | [] => .ofInt 64 (-1)
      | j :: _ => .ofNat 64 j))
  | _ => none

/-- VL takes the lesser of a request and 8192, and the scalar receives it (R70). -/
def onLength (k : BitVec 3) (want : State → Nat) : WholeWord :=
  { onScalar k (fun u => .ofNat 64 (min (want u) 8192)) with
    effect := fun u => u.modConv (fun c => { c with vl := .ofNat 14 (min (want u) 8192) }) }

/-- A word that changes the setting of the convoy stream alone. -/
def onSetting (f : State → Conv → Conv) : WholeWord := { WholeWord.plain with effect := fun u => u.modConv (f u) }

/-- The 64 entries at a TCM offset are aligned, in range and, for a read, free of uncorrectable data. -/
def tableReaches (k : BitVec 3) (read : Bool) (s : State) : Prop :=
  let a := (readK k.toNat s).toNat
  a % 8 = 0 ∧ a + 512 ≤ 262144 ∧ (read = true → poisoned s (tcmKey s.coreId a) 512 = false)

/-- The settings of R69 to R71, the shape words of R77 to R79, and VBEND. -/
def settingWord (i : Instr) (s : State) : Option WholeWord :=
  match i with
  | .vsett j => some (onSetting (fun _ c => { c with vtype := j }))
  | .vlen k => some (onLength k (fun u => (readK k.toNat u).toNat))
  | .vlenShape a k => some
    { onLength k (capUnder a) with
      fits := (shapeAt a.toNat s).kind ≠ 0 ∧ shapeTypeBad (shapeAt a.toNat s) s.core.conv.ew = false }
  | .vsetmt k => some (onSetting (fun u c => { c with vmt := (readK k.toNat u).setWidth 2 }))
  | .vsetmtImm p => some (onSetting (fun _ c => { c with vmt := p }))
  | .vdef d k => some
    { onSetting (fun u c => { c with table := spPut 0 c.table d.toNat (readK k.toNat u) }) with
      fits := descValid (readK k.toNat s) = true }
  | .vtld k => some
    { onSetting (fun u c => { c with
        table := (List.range 64).foldl (fun t j => spPut 0 t j (tableEntry u (readK k.toNat u) j)) c.table }) with
      fits := tableReaches k true s ∧ ∀ j, j < 64 → descValid (tableEntry s (readK k.toNat s) j) = true }
  | .vtst k => some
    { WholeWord.plain with
      fits := tableReaches k false s
      effect := fun u => (List.range 64).foldl (fun t j =>
        storeMem (tcmKey u.coreId ((readK k.toNat u).toNat + 8 * j)) 8 (spGet 0 u.core.conv.table j).toNat t) u }
  | .vbend => some WholeWord.plain
  | _ => none

/-! ## The matrix unit (10_core_matrix.md) -/

/-- A word of the matrix unit that a slab's holders hold back: the unit is on, and neither an arm nor an incomplete share
names the slab (R249; 14_cluster.md R328). -/
def slabFree (s : State) (n : BitVec 2) : Prop := s.core.mat.en = true ∧ slabHeld s n = false

/-- The views of A and B hold the granted sizes (R247, R262). -/
def viewsHold (s : State) (a b : BitVec 6) : Prop :=
  let ew := s.core.conv.ew
  let z := s.core.mat.msize
  viewHolds (shapeAt a.toNat s) ew (sizeM z) (sizeK z) = true ∧ sizeK z ≤ kMax ew
    ∧ viewHolds (shapeAt b.toNat s) ew (sizeK z) (sizeN z) = true

/-- The product of two views added into slab n, under both predicates, in K-groups of 32 / EW (R256; R109). -/
def productOf (n : BitVec 2) (a b : Nat → Nat → FVal) (u : State) : State :=
  let m := u.core.mat
  product2 n.toNat m.msize m.mrowp m.mcolp (32 / u.core.conv.ew) a b u

/-- The values of a view. -/
def viewVals (a : BitVec 6) (u : State) (i j : Nat) : FVal :=
  typeVal u.core.conv.type (viewElem (shapeAt a.toNat u) u.core.conv.ew i j u)

/-- The blocks of a row or of a column. -/
def blocksOf (n : Nat) : Nat := n / 32

/-- The metadata words that `rows` rows of q blocks take over K columns: (rows - 1) q + ceil(K / 32) (R257). -/
def wordsNeeded (rows q k : Nat) : Nat := (((rows : Int) - 1) * (q : Int) + ((k + 31) / 32 : Nat)).toNat

/-- The words of the matrix unit that run as a whole. -/
def matrixWord (i : Instr) (s : State) : Option WholeWord :=
  let t := s.core.conv.type
  let ew := s.core.conv.ew
  let z := s.core.mat.msize
  let two := fun (a b : BitVec 6) => [(⟨a.toNat, ew, 0⟩ : Named), ⟨b.toNat, ew, 0⟩]
  let insert := fun (d : BitVec 6) (n : BitVec 2) (k : Slice) (m : BitVec 3) =>
    { WholeWord.plain with
      named := ⟨d.toNat, ew, s.vl⟩ :: (if t = 5 then [⟨63, 16, (s.vl + 31) / 32⟩] else [])
      fits := slabFree s n
      effect := fun u =>
        ((List.range u.vl).filter (fun j => decide (u.core.conv.startK.toNat ≤ j) && takesPart k m.toNat j u)).foldl
          (fun w j =>
            let r := k.slot u.core.mat.msize j
            raiseFlags (insertVal d.toNat j u).2 (writeAcc n.toNat r.1 r.2 (insertVal d.toNat j u).1 w)) u }
  match i with
  | .mma n a b _ => some
    { WholeWord.plain with
      named := two a b
      fits := t ≤ 4 ∧ slabFree s n ∧ viewsHold s a b
      effect := fun u => productOf n (viewVals a u) (viewVals b u) u }
  | .mmas n a b _ =>
    let na := (viewDims (shapeAt a.toNat s) ew).2
    let nb := (viewDims (shapeAt b.toNat s) ew).1
    some
    { WholeWord.plain with
      named := two a b ++ [⟨63, 16, wordsNeeded (sizeM z) (blocksOf na) (sizeK z)⟩,
        ⟨62, 16, wordsNeeded (sizeN z) (blocksOf nb) (sizeK z)⟩]
      fits := 3 ≤ t ∧ t ≤ 5 ∧ slabFree s n ∧ viewsHold s a b ∧ na % 32 = 0 ∧ nb % 32 = 0
      effect := fun u =>
        let m := u.core.mat
        productInto n.toNat m.msize m.mrowp m.mcolp (32 / ew) (fun i j k => scaledProduct t
          (viewElem (shapeAt a.toNat u) ew i k u) (elemGet (shapeAt 63 u) 16 (i * blocksOf na + k / 32) u)
          (viewElem (shapeAt b.toNat u) ew k j u) (elemGet (shapeAt 62 u) 16 (j * blocksOf nb + k / 32) u)) u }
  | .men _ => some
    { WholeWord.plain with
      effect := fun u => if u.core.mat.en then u else u.modMat (fun m => { m with en := true, acc := [] }) }
  | .mdis _ => some
    { WholeWord.plain with fits := anySlabHeld s = false, scalars := fun _ => [(outDisable, 0)] }
  | .mzero n _ => some
    { WholeWord.plain with
      fits := slabFree s n
      effect := fun u => u.modMat (fun m => { m with acc := m.acc.filter (fun p => decide (p.1 / 4096 ≠ n.toNat)) }) }
  | .mshape k _ =>
    let g := fun (u : State) =>
      let r := (readK k.toNat u).toNat
      let field := fun (j bound : Nat) => min (r / 2 ^ (16 * j) % 2 ^ 16) bound * 2 ^ (16 * j)
      (.ofNat 64 (field 0 64 + field 1 64 + field 2 (64 * (32 / u.core.conv.ew))) : Word)
    some { WholeWord.plain with fits := t ≤ 5, scalars := fun u => [(k.toNat, g u), (outShape, g u)] }
  | .mscl k _ => some { WholeWord.plain with scalars := fun u => [(outScale, readK k.toNat u)] }
  | .minsRow d n p m _ => some (insert d n (.row p.toNat) m)
  | .minsCol d n p m _ => some (insert d n (.col p.toNat) m)
  | .minsRect d n m _ => some (insert d n .rect m)
  | _ => none

/-- MEXT: the elements that take part receive the slab's elements, scaled, clipped and converted; under E2M1x they go by
blocks (R260). -/
def extractWord (i : Instr) (s : State) : Option ElementWord :=
  let extract := fun (d : BitVec 6) (n : BitVec 2) (k : Slice) (m : BitVec 3) =>
    ({ named := ⟨d.toNat, s.core.conv.ew, s.vl⟩ ::
        (if s.core.conv.type = 5 then [⟨63, 16, (s.vl + 31) / 32⟩] else [])
       issues := slabFree s n
       element := fun e u =>
        let c := u.core.conv
        if c.type = 5 then
          putBlock d u.vl (extractBlock s.core.conv.startK.toNat n.toNat k m.toNat (e / 32)) e u
        else if takesPart k m.toNat e u then
          let v := extractVal n.toNat k e u
          let r := convertTo c.type c.rm c.sat v.1
          raiseFlags (v.2 ||| r.2) (elemSet (shapeAt d.toNat u) c.ew e r.1 u)
        else u
       fits := fun _ _ => True } : ElementWord)
  match i with
  | .mextRow d n p m _ => some (extract d n (.row p.toNat) m)
  | .mextCol d n p m _ => some (extract d n (.col p.toNat) m)
  | .mextRect d n m _ => some (extract d n .rect m)
  | _ => none

/-! ## The ladder (11_core_ladder.md) -/

/-- No chain runs (R271). -/
def ladderStill (s : State) : Prop := s.core.chainRuns = false

/-- The ladder is configured. -/
def ladderOn (s : State) : Prop := lcfgMax s.core.lad.lcfgr ≠ 0

/-- An FP32 value at an element of a shape, converted to the current type. -/
def putFloat (d : BitVec 6) (e raw : Nat) (u : State) : State :=
  let c := u.core.conv
  let r := if c.type = 0 then (raw, (0 : FlagSet)) else convertTo c.type c.rm c.sat (fp32.decode raw)
  raiseFlags r.2 (putElem d.toNat e r.1 u)

/-- A rung word: the level, which must exist; a load of an empty rung gives zeros. -/
def onRung (s : State) (load : Bool) (d : BitVec 6) (level : State → Word) : WholeWord :=
  let from' := s.core.conv.startLk.toNat
  { WholeWord.plain with
    named := [⟨d.toNat, s.core.conv.ew, lcfgCells s.core.lad.lcfgr⟩]
    fits := s.core.conv.type ≤ 2 ∧ ladderStill s ∧ ladderOn s ∧ (level s).toNat < lcfgMax s.core.lad.lcfgr
      ∧ (load = true → rungFull s.core.lad (level s).toNat = true → rungPoison s (level s).toNat from' = none)
    effect := fun u =>
      let r := (level u).toNat
      let cells := (List.range (lcfgCells u.core.lad.lcfgr)).filter (fun e => decide (from' ≤ e))
      if load then
        (cells.foldl (fun w e => putFloat d e (if rungFull u.core.lad r then readRung u r e else 0) w) u).tickUp
      else
        let c := u.core.conv
        let cell := fun (e : Nat) =>
          if c.type = 0 then (under d e u, 0) else convertTo 0 rmNearest false (typeVal c.type (under d e u))
        raiseFlags (cells.foldl (fun f e => f ||| (cell e).2) 0)
          (writeCells r from' (lcfgCells u.core.lad.lcfgr) (fun e => (cell e).1) u) }

/-- LCNT or LCARRY read into a scalar register. -/
def onStatus (k : BitVec 3) (carry : Bool) : WholeWord := { onScalar k (lstatWord carry) with effect := State.tickUp }

/-- The ladder words. -/
def ladderWord (i : Instr) (s : State) : Option WholeWord :=
  let l := s.core.lad
  match i with
  | .lcfg k _ => some
    { WholeWord.plain with
      fits := ladderStill s ∧ lcfgValid (readK k.toNat s) = true
      effect := fun u => configureLadder (readK k.toNat u) u }
  | .lreset _ => some
    { WholeWord.plain with
      fits := ladderStill s
      effect := emptyLadder }
  | .lstatCnt k _ => some (onStatus k false)
  | .lstatCarry k _ => some (onStatus k true)
  | .lstep n _ => some
    { WholeWord.plain with
      fits := ladderStill s ∧ slabFree s n ∧ ladderOn s ∧ l.lcnt ≠ 0xFFFFFFFFFFFFFFFF
      effect := fun u => u.modLad (fun l => { l with act := true, lvl := 0, tile := some (stepTile u n.toNat) }) }
  | .lblend d _ =>
    let w := lcfgWsh l.lcfgr
    some
    { WholeWord.plain with
      named := [⟨d.toNat, s.core.conv.ew, lcfgCells l.lcfgr⟩, ⟨w, 32, lcfgMax l.lcfgr⟩]
      fits := s.core.conv.type ≤ 2 ∧ ladderStill s ∧ ladderOn s
        ∧ ∀ r, r < lcfgMax l.lcfgr → rungFull l r = true → rungPoison s r s.core.conv.startLk.toNat = none
      effect := fun u =>
        (((List.range (lcfgCells l.lcfgr)).filter (fun e => decide (s.core.conv.startLk.toNat ≤ e))).foldl (fun t e =>
          putFloat d e (blendElem t w e).1 (raiseFlags (blendElem t w e).2 t)) u).tickUp }
  | .lrungLd d n _ => some (onRung s true d (fun _ => n.setWidth 64))
  | .lrungSt d n _ => some (onRung s false d (fun _ => n.setWidth 64))
  | .lrungLdK d k _ => some (onRung s true d (readK k.toNat))
  | .lrungStK d k _ => some (onRung s false d (readK k.toNat))
  | _ => none

/-! ## Feed appends, waits and ganged products (06_issue.md R154 to R160; 14_cluster.md R325) -/

/-- The words that go beside the core. -/
def besideWord (i : Instr) (s : State) : Option WholeWord :=
  let append := fun (q : BitVec 4) (m : BitVec 3) (named : List Named) (v : Nat → State → Nat) =>
    let l := fun (u : State) =>
      (List.range u.vl).filter (fun j => decide (s.core.conv.startK.toNat ≤ j) && maskBit m.toNat j u)
    let all := fun (u : State) => (l u).foldl (fun t j => feedWrite q.toNat t.core.task.serial (v j u) t) u
    ({ WholeWord.plain with
       named := named
       fits := (s.cluster.feed q.toNat).cap ≠ 0
        ∧ (l s).length ≤ (s.cluster.feed q.toNat).cap.toNat - (s.cluster.feed q.toNat).held
        ∧ feedEventWaits q.toNat (all s) = false
       effect := all } : WholeWord)
  match i with
  | .vcapp q a m _ => some (append q m [⟨a.toNat, 32, s.vl⟩] (fun j u => elemGet (shapeAt a.toNat u) 32 j u))
  | .vcappK q k m _ => some (append q m [] (fun j u => ((readK k.toNat u).toNat + j) % 2 ^ 32))
  | .vwait d a e k m =>
    let none' := fun (u : State) => (List.range u.vl).all (fun j => !maskBit m.toNat j u)
    let pass := waitPass a.toNat d.toNat e.toNat m.toNat (List.range s.vl) (running i s)
    some
    { WholeWord.plain with
      named := [⟨d.toNat, 64, s.vl⟩, ⟨a.toNat, 64, s.vl⟩]
      fits := none' s = true ∨ (pass.2 = none ∧ none' pass.1 = true)
      effect := fun u => if none' s then u else pass.1.tickUp
      scalars := fun u =>
        if none' s then [] else [(k.toNat, remainingLimit (readK k.toNat u) (Config.elapsed u.tick))] }
  | .gmma n a b _ =>
    some
    { WholeWord.plain with
      named := [⟨a.toNat, s.core.conv.ew, 0⟩, ⟨b.toNat, s.core.conv.ew, 0⟩]
      fits := s.core.conv.type ≤ 4 ∧ slabFree s n ∧ viewsHold s a b
        ∧ ∀ p ∈ gangSlots s.core.gang.gsel, (armedCore s p.2).isSome = true ∨ slotAbandoned s p.2 = true
      effect := fun u =>
        let g := u.core.gang.gsel
        let m := u.core.mat
        let share : Share :=
          { issuer := u.coreId, issuerTask := u.core.task.serial, issuerSlot := .ofNat 7 u.slot, pos := 8, a := a, slab := n
            bar := if g.getLsbD 23 then some (.ofNat 5 (g.toNat / 2 ^ 16)) else none
            vtype := u.core.conv.vtype, msize := m.msize, mrowp := m.mrowp, mcolp := m.mcolp, b := latchB u b.toNat
            head := u.core.conv.cpc, mark := 0, ended := false, events := abandonedEvents u (gangSlots g) }
        let u1 := productOf n (viewVals a u) (viewVals b u) u
        ((gangSlots g).foldl (fun t p => multicastTo share p t) u1).modGang (fun x => { x with
          shares := x.shares ++ [{ share with b := [] }] }) }
  | _ => none

/-! ## Atomics, queues and launches -/

/-- What an atomic word writes to memory, from the old value and sb (09_core_memory.md R217), with sd, sa, sb, ORD and
SPACE. -/
def atomicResult (i : Instr) (old x : Word) :
    Option (Word × BitVec 5 × BitVec 5 × BitVec 5 × BitVec 2 × BitVec 2) :=
  match i with
  | .amoswap d a b _ o p => some (x, d, a, b, o, p)
  | .amoadd d a b _ o p => some (.ofNat 64 (old.toNat + x.toNat), d, a, b, o, p)
  | .amoand d a b _ o p => some (old &&& x, d, a, b, o, p)
  | .amoor d a b _ o p => some (old ||| x, d, a, b, o, p)
  | .amoxor d a b _ o p => some (old ^^^ x, d, a, b, o, p)
  | .amomax d a b _ o p => some (.ofInt 64 (max old.toInt x.toInt), d, a, b, o, p)
  | .amomin d a b _ o p => some (.ofInt 64 (min old.toInt x.toInt), d, a, b, o, p)
  | .amomaxu d a b _ o p => some (.ofNat 64 (max old.toNat x.toNat), d, a, b, o, p)
  | _ => none

/-- An engine's word: its class, its command, and its registers (16_die.md R341, R343; 19_fabric.md R402). -/
def engineWord (i : Instr) : Option (Nat × CmdOp × BitVec 5 × BitVec 5 × BitVec 5) :=
  match i with
  | .copy d a b => some (1, .copy, d, a, b)
  | .copy2 d a b => some (1, .copy2, d, a, b)
  | .fill d a b => some (1, .fill, d, a, b)
  | .slabmov d a b => some (1, .slabmov, d, a, b)
  | .mdec d a b => some (2, .mdec, d, a, b)
  | .mrsz d a b => some (2, .mrsz, d, a, b)
  | .cred d a b => some (3, .cred, d, a, b)
  | .cbcast d a b => some (3, .cbcast, d, a, b)
  | _ => none

/-- Nothing stands in the way of a release: no access is outstanding, and no store has failed (19_fabric.md R401). -/
def State.released (s : State) : Prop := s.cur.outs = [] ∧ s.cur.failedStore = none

/-! ## Copies and links -/

/-- The copy of a stream finds byte i of its source at k i and of its destination at m i, whatever the destination holds
while the copy goes on (14_cluster.md R297). -/
def CopyPlaces (s : State) (e : Entry) (k m : Nat → Nat) : Prop :=
  ∀ u : State, u.fab = s.fab → u.pkg = s.pkg → u.poison = [] →
    (∀ a, (∀ j, j < e.len → a ≠ m j) → readByte u a = readByte s a) → ∀ i, i < e.len →
    engineLoc u (pumpCmd e false) 0 0 3 (.ofNat 64 (e.src.toNat + i)) 1 false = some (.mem (k i) false)
      ∧ engineLoc u (pumpCmd e false) 0 0 3 (.ofNat 64 (e.dst.toNat + i)) 1 true = some (.mem (m i) false)

/-- A port has sent one flit under its next number, with an acknowledgement or, with `nak`, a refusal, and holds it for
replay. -/
def FlitSent (q r : Port) (ack : BitVec 12) (nak : Bool) : Prop :=
  r.next = q.next + 1
    ∧ ∃ f, r.held = (q.held ++ [f]).drop (q.held.length + 1 - 512) ∧ f.seq = q.next ∧ f.ack = ack ∧ f.nak = nak

end Sys2Proof.Machine
end

