-- ==== Sys2Proof/Certificates/Slice0/Obligations.lean ====
section
/-! DEFINITION. The statements for the provers. Each one's docstring says which rule of the spec it formalises. -/

open Sys2Proof Sys2Proof.Machine

/-! ## Encoding -/

/-- The word of every well-formed instruction decodes, on a processor that executes it, to that instruction (02_encoding.md
R29 to R36): no operand bit is dropped. -/
def Obligations.DecodeOfEncode : Prop :=
  ∀ i : Instr, i.isWord = true → i.wf = true → decode (procOf i) (encode i) = .instr i

/-- A word that decodes to an instruction is that instruction's encoding, and the instruction is a well-formed word: no two
words share a meaning, and unused bits that must be 0 are 0 (R28). -/
def Obligations.EncodeOfDecode : Prop :=
  ∀ (p : Proc) (w : IWord) (i : Instr), decode p w = .instr i → encode i = w ∧ i.wf = true ∧ i.isWord = true

/-- Words of the spec's own tables decode to the instructions it gives beside them. -/
def Obligations.SpecWordsDecode : Prop :=
  decode .task 0x004C5201 = .instr (.sub 4 5 6) ∧ decode .task 0x02CC5201 = .instr (.mulhs 4 5 6)
    ∧ decode .task 0x010E4186 = .instr (.srai 3 4 7) ∧ decode .task 0x07C0528A = .instr (.sext 5 5 31)
    ∧ decode .task 0x22C8348A = .instr (.extr 9 3 4 11) ∧ decode .task 0x00081018 = .instr (.cjEq 0 1 4)
    ∧ decode .task 0x0001F01F = .instr (.jr 0 31) ∧ decode .task 0x0FCA44AE = .instr (.tlwait 9 4 5 63)
    ∧ decode .convoy 0x001840F0 = .instr (.mma 1 2 3 0) ∧ decode .convoy 0x10288070 = .instr (.mmas 0 4 5 0)
    ∧ decode .convoy 0x04282472 = .instr (.mextRow 8 1 5 2 0) ∧ decode .convoy 0x1100006D = .instr (.vtst 4)

/-- The all-zero word, the all-one word and the words of opcode 0x7F are ILLEGAL-WORD on every processor (R36); another
word outside the processor's set is ILLEGAL-STREAM: a steering opcode in convoy text, a vector opcode in steering text,
and on each kind of core the words of the other (R35, R39). The readings and choices of log entry 23 stand in it. -/
def Obligations.RejectedWords : Prop :=
  (∀ (p : Proc) (w : IWord), w = 0 ∨ w = 0xFFFFFFFF ∨ w.toNat % 128 = 0x7F → decode p w = .bad .illegalWord)
  ∧ ∀ (w : IWord), w ≠ 0 → w ≠ 0xFFFFFFFF → w.toNat % 128 ≠ 0x7F →
    (w.toNat % 128 < 0x40 → decode .convoy w = .bad .illegalStream)
    ∧ (0x40 ≤ w.toNat % 128 → decode .task w = .bad .illegalStream ∧ decode .control w = .bad .illegalStream)
    ∧ (w.toNat % 128 = 0x30 ∨ w.toNat % 128 = 0x31 ∨ w.toNat % 128 = 0x35 → decode .task w = .bad .illegalStream)
    ∧ (w.toNat % 128 = 0x20 ∨ w.toNat % 128 = 0x21 ∨ w.toNat % 128 = 0x22 ∨ w.toNat % 128 = 0x25 ∨ w.toNat % 128 = 0x34 →
        decode .control w = .bad .illegalStream)

/-! ## The steering stream: integer words -/

/-- The three-register words complete in every state: sd receives the result of R170, PC advances, and nothing else
changes. -/
def Obligations.RegisterWords : Prop :=
  ∀ (i : Instr) (s : State) (d a b : BitVec 5) (v : Word),
    registerResult i (readReg a s) (readReg b s) = some (d, a, b, v) →
    exec i s = .next (advance (writeReg d v s))

/-- The immediate words, SEXT, ZEXT, EXTR and POPC complete in every state with the results of R171 to R174. The words of
R171 and of LUI hold their opcode, sd, sa and the immediate, which ADDI, SLTI and SLTIN extend by its sign and ANDI, ORI
and XORI by zeros (R31). -/
def Obligations.ImmediateAndFieldWords : Prop :=
  (∀ (i : Instr) (s : State) (d : BitVec 5) (v : Word),
    immediateResult i (fun r => readReg r s) = some (d, v) ∨ fieldResult i (fun r => readReg r s) = some (d, v) →
    exec i s = .next (advance (writeReg d v s)))
  ∧ ∀ (d a : BitVec 5) (x : BitVec 15) (y : BitVec 20),
    (∀ n i, (n, i) ∈ [(0x02, Instr.addi d a x), (0x03, .andi d a x), (0x04, .ori d a x), (0x05, .xori d a x),
        (0x07, .slti d a x), (0x08, .sltin d a x)] →
      (encode i).toNat = n + d.toNat * 2 ^ 7 + a.toNat * 2 ^ 12 + x.toNat * 2 ^ 17)
    ∧ (encode (.lui d y)).toNat = 0x09 + d.toNat * 2 ^ 7 + y.toNat * 2 ^ 12

/-- INS, CLZ and CTZ complete in every state (R174): INS replaces bits lo to min(lo + w - 1, 63) of sd by the low bits of
sa, and CLZ and CTZ count. -/
def Obligations.InsertAndCountWords : Prop :=
  ∀ (s : State) (d a b : BitVec 5) (w : BitVec 6),
    (∃ v, exec (.ins d a b w) s = .next (advance (writeReg d v s)) ∧ ∀ n, n < 64 → v.getLsbD n =
      (if (readReg b s).toNat % 64 ≤ n ∧ n ≤ (readReg b s).toNat % 64 + w.toNat
        then (readReg a s).getLsbD (n - (readReg b s).toNat % 64) else (readReg d s).getLsbD n))
    ∧ (∃ v, exec (.clz d a) s = .next (advance (writeReg d (.ofNat 64 v) s)) ∧ LeadingZeros (readReg a s) v)
    ∧ (∃ v, exec (.ctz d a) s = .next (advance (writeReg d (.ofNat 64 v) s)) ∧ TrailingZeros (readReg a s) v)

/-- The compare-and-jump words complete in every state: PC goes to the word's own address plus four times the offset when
the condition of R175 holds, and advances by 4 otherwise; nothing else changes. Their words hold the opcode, sb, sa and the
offset. -/
def Obligations.BranchWords : Prop :=
  (∀ (i : Instr) (s : State) (taken : Bool) (off : BitVec 15),
    branchTaken i (fun r => readReg r s) = some (taken, off) →
    exec i s = .next (setPc (if taken then s.cur.pc + .ofInt 32 (4 * off.toInt) else s.cur.pc + 4) s))
  ∧ ∀ (b a : BitVec 5) (off : BitVec 15) (n : Nat) (i : Instr),
    (n, i) ∈ [(0x18, Instr.cjEq b a off), (0x19, .cjNe b a off), (0x1A, .cjLt b a off), (0x1B, .cjGe b a off),
      (0x1C, .cjLtn b a off), (0x1D, .cjGen b a off)] →
    (encode i).toNat = n + b.toNat * 2 ^ 7 + a.toNat * 2 ^ 12 + off.toNat * 2 ^ 17

/-- JAL and JR complete in every state (R176, R177): the address of the next word goes to sd, and PC to the target; JR
reads sa before sd is written and clears bits 1:0. Their words hold the opcode, sd, and the offset or sa. -/
def Obligations.JumpWords : Prop :=
  ∀ (s : State) (d a : BitVec 5) (off : BitVec 20),
    exec (.jal d off) s = .next (setPc (s.cur.pc + .ofInt 32 (4 * off.toInt)) (writeReg d (zext64 (s.cur.pc + 4)) s))
    ∧ exec (.jr d a) s = .next (setPc (.ofNat 32 ((readReg a s).toNat % 2 ^ 32 / 4 * 4))
        (writeReg d (zext64 (s.cur.pc + 4)) s))
    ∧ (encode (.jal d off)).toNat = 0x1E + d.toNat * 2 ^ 7 + off.toNat * 2 ^ 12
    ∧ (encode (.jr d a)).toNat = 0x1F + d.toNat * 2 ^ 7 + a.toNat * 2 ^ 12

/-- s0 reads 0, a write of s0 is discarded, and a write of another register is what reads of it give, and no other
register's (R167). -/
def Obligations.RegisterZero : Prop :=
  ∀ (s : State) (r q : BitVec 5) (v : Word),
    readReg 0 s = 0 ∧ writeReg 0 v s = s ∧ (r ≠ 0 → readReg r (writeReg r v s) = v)
      ∧ (q ≠ r → readReg q (writeReg r v s) = readReg q s)

/-- The frame of the integer words, of branches and of jumps: only sd and PC change. -/
def Obligations.IntegerFrame : Prop :=
  ∀ (i : Instr) (s t : State), exec i s = .next t →
    (∀ d a b v, registerResult i (readReg a s) (readReg b s) = some (d, a, b, v) → RegisterFrame [d] s t)
    ∧ (∀ d v, immediateResult i (fun r => readReg r s) = some (d, v) → RegisterFrame [d] s t)
    ∧ (∀ d v, fieldResult i (fun r => readReg r s) = some (d, v) → RegisterFrame [d] s t)
    ∧ (∀ d a b w, i = .ins d a b w → RegisterFrame [d] s t)
    ∧ (∀ d a, i = .clz d a ∨ i = .ctz d a ∨ i = .jr d a → RegisterFrame [d] s t)
    ∧ (∀ c off, branchTaken i (fun r => readReg r s) = some (c, off) → RegisterFrame [] s t)
    ∧ (∀ d off, i = .jal d off → RegisterFrame [d] s t)

/-! ## The machine's step -/

/-- A turn of a steering stream or of a control core that runs a text of its own fetches the word at PC and runs the
instruction that it decodes to, when nothing stands at the boundary and the word waits for no access; the turn passes to
the next agent (08 R168, R201; the order of turns is the model's, log entry 1, and so is the shipped dispatcher's way of
running, log entry 9). The convoy stream's turn does the same at CPC (05 R135). -/
def Obligations.StepRunsDecoded : Prop :=
  ∀ (s : State) (w : IWord) (i : Instr), s.agenda = [] → decode s.proc w = .instr i →
    ((s.agent = .steer ∨ (s.agent = .control ∧ s.cluster.dispatch = none)) → processorRuns s = true →
      s.cur.stepped = false → convoyOwes s = false → ladDue s = false → breakDue s = false →
      fetchWord s.cur.pc s = some w →
      requested s = false → holdWord w s = false →
      step s = passTurn s.agent.after (endWord s.cur.mode (exec i { s with stalled := false })))
    ∧ (s.agent = .convoy → clocksStopped s = false → unparks s = false → s.core.convoyLive = true → s.inFlight = false →
      boundaryHeld s = false → s.core.conv.formed = false → s.core.conv.st ≠ .idle →
      (s.core.conv.forming = [] → convoyBreakDue s = false) → fetchWord (convoyFetch s) s = some w →
      step s = passTurn .control (exec i { s with stalled := false }))

/-- A word at PC that is no instruction, or that cannot be fetched, traps before anything executes: CAUSE names the error,
TVAL is the word, or PC for a fetch, EPC is PC, and BKSUP is cleared (02 R39; 08 R194, R196).
The readings and choices of log entries 1, 24 stand in it. -/
def Obligations.BadWordTraps : Prop :=
  ∀ (s : State), s.agenda = [] → (s.agent = .steer ∨ (s.agent = .control ∧ s.cluster.dispatch = none)) →
    processorRuns s = true → s.cur.stepped = false → convoyOwes s = false → ladDue s = false → breakDue s = false →
    convoyBusy s = false →
    (∀ w e, fetchWord s.cur.pc s = some w → decode s.proc w = .bad e →
      step s = passTurn s.agent.after (.next (takeTrap ⟨decodeCause e, false, w.setWidth 64, s.cur.pc⟩
        (({ s with stalled := false } : State).modCur (fun c => { c with bksup := false })))))
    ∧ (fetchWord s.cur.pc s = none →
      step s = passTurn s.agent.after (.next (takeTrap ⟨.fetch, false, s.cur.pc.setWidth 64, s.cur.pc⟩
        (({ s with stalled := false } : State).modCur (fun c => { c with bksup := false })))))

/-- Every state has a next state: the spec stops the machine nowhere. -/
def Obligations.StepAlwaysNext : Prop := ∀ s : State, ∃ t, step s = .next t

/-- Every step keeps memory in its canonical form: strictly rising addresses, and no entry that lists the byte that an
unlisted address reads as. -/
def Obligations.CanonicalKept : Prop :=
  ∀ (s t : State), s.MemoryCanonical → step s = .next t → t.MemoryCanonical

/-- After reset memory is canonical and lists nothing, every general and control register of every processor has its reset
value (08 R167, R194, R195, R234; 03 R66 to R71, R90; 10 R248, R254; 11 R268; 14 R331, R332), the package's ROM has not
booted and no dispatcher runs (18 R384), and every register of the package and of the fabric reads as its reset value
(18 R371; 19 R394). TIME, SCYC and PTIME are the clock's. Where the spec gives no value the register is 0.
The readings and choices of log entries 2, 3, 65 stand in it. -/
def Obligations.ResetState : Prop :=
  State.reset.MemoryCanonical ∧ (∀ k, readByte State.reset k = unlistedByte)
    ∧ (∀ a r, readReg r { State.reset with agent := a } = 0)
    ∧ Core.reset.steer.mode = false ∧ statusWord Core.reset.steer = 0 ∧ Core.reset.steer.mfinfo = 0xE0
    ∧ Core.reset.conv.st = .idle ∧ Core.reset.conv.vmt = 3 ∧ Core.reset.conv.vl = 0 ∧ Core.reset.conv.vtype = 0
    ∧ Core.reset.mat.mxscl = 0x7FC000000000007F ∧ Core.reset.mat.en = false ∧ lcarryWord Core.reset.lad = 0
    ∧ Context.reset.count = 0 ∧ Context.reset.crcr = 0xFFFFFFFF ∧ Pkg.reset.plimit = 4400
    ∧ (Port.reset.state = 0 ∧ Port.reset.peer = 0xFFF)
    ∧ (∀ a n, n < 4096 → n ∉ [0x008, 0x009, 0x012, 0x049, 0x054] → csrRead n { State.reset with agent := a } = 0)
    ∧ (∀ a, csrRead 0x012 { State.reset with agent := a } = 3 ∧ csrRead 0x049 { State.reset with agent := a } = 0xE0
        ∧ csrRead 0x054 { State.reset with agent := a } = 0x7FC000000000007F)
    ∧ State.reset.pkg.bootState = 0 ∧ State.reset.pkg.bootFail = 0 ∧ State.reset.cluster.dispatch = none
    ∧ (∀ off, off ∉ [0x28, 0x30] → pkgRead State.reset off = 0) ∧ pkgRead State.reset 0x28 = 4400
    ∧ fabRead State.reset 0x00 = 0xFFF ∧ fabRead State.reset 0x08 = .ofNat 64 (500 * 2 ^ 48 + 100 * 2 ^ 32 + 2000)
    ∧ fabRead State.reset 0x10 = 0 ∧ ∀ p, p < 18 → fabRead State.reset (0x100 + 8 * p) = 0xFFF000

/-! ## Traps -/

/-- Taking a trap in task mode (08 R196; 14 R292): CAUSE, TVAL and EPC are recorded, PMODE takes MODE and MODE is 1, PC is
TVEC, where the processor stops while a debugger is attached (07 R166); on a task core CHALT is 1 and the convoy stream
halts, on a control core nothing else happens. General registers, memory and everything else stay. -/
def Obligations.TrapEntry : Prop :=
  ∀ (s : State) (t : Trap), s.cur.mode = false → (s.agent ≠ .control → s.core.preq = false) →
    let u := takeTrap t s
    u.cur = { s.cur with
      causeStrm := t.strm, causeCode := t.cause.code, tval := t.tval, epc := t.epc, pmode := false, mode := true
      chalt := decide (s.agent ≠ .control), tpend := false, pc := s.cur.tvec, expired := false
      stopped := s.cur.stopped || s.cur.attached }
    ∧ (s.agent ≠ .control → u = { s with core := { s.core with
        steer := u.cur, conv := { s.core.conv with st := .halted, forming := [], flight := none } } })
    ∧ (s.agent = .control → u = { s with cluster := { s.cluster with ctl := u.cur } })
    ∧ (∀ r, readReg r u = readReg r s)

/-- A trap in supervisor mode is a double trap: the processor halts with CAUSE, TVAL and EPC for the stream controller, PC
and the mode stay, and the handler is not entered (08 R202, R203). -/
def Obligations.DoubleTrapHalts : Prop :=
  ∀ (s : State) (t : Trap), s.cur.mode = true →
    let u := takeTrap t s
    u.cur = { s.cur with
      dead := some ⟨.ofNat 64 ((if t.strm then 2 ^ 63 else 0) + t.cause.code.toNat), t.tval, t.epc⟩ }
    ∧ (s.agent ≠ .control → u.core.conv.st = .halted) ∧ (s.agent = .control → u.cluster.error = true) ∧ u.mem = s.mem

/-- Under a pre-emption request a trap in task mode is recorded and the core halts with TPEND = 1; the mode and PC stay as
they stood before the trap, and a trap of the convoy stream leaves CHALT = 1 (08 R210). That a second trap under the request
takes the place of the one already recorded with TPEND = 1 is the model's choice, log entry 79. -/
def Obligations.RequestRecordsTrap : Prop :=
  ∀ (s : State) (t : Trap), s.agent ≠ .control → s.core.steer.mode = false → s.core.preq = true →
    let u := takeTrap t s
    u.core.run = .halted
    ∧ u.core.steer = { s.core.steer with
        causeStrm := t.strm, causeCode := t.cause.code, tval := t.tval, epc := t.epc, tpend := true, expired := false
        chalt := s.core.steer.chalt || t.strm }
    ∧ u.core.conv = { s.core.conv with
        forming := [], flight := none, st := if t.strm then .halted else s.core.conv.st }
    ∧ u.mem = s.mem

/-- HRET in supervisor mode: MODE = PMODE, PC = EPC, and on a task core a halted convoy stream resumes and CHALT is 0; with
TPEND = 1 the recorded trap is taken afresh. In task mode it is PRIVILEGE, with the word as TVAL (08 R197, R200). HCALL and
BRK take their traps with EPC at the next word and TVAL 0 or the code; BRK under BRKH stops the processor in that same
state before the handler (the model's reading, log entry 10). NAP ends at once, which R197 allows.
The readings and choices of log entries 12, 13 stand in it. -/
def Obligations.CallAndReturn : Prop :=
  ∀ (s : State) (n : BitVec 15),
    let u := s.modCur (fun c => { c with bksup := false })
    (s.cur.mode = true → s.cur.tpend = false → ∃ t, exec .hret s = .next t
      ∧ t.cur = { s.cur with
          mode := s.cur.pmode, pc := s.cur.epc, expired := false
          chalt := s.cur.chalt && decide (s.agent = .control) }
      ∧ (s.agent ≠ .control → t.core.conv = if s.core.steer.chalt then
          { s.core.conv with st := if s.core.conv.lc = 0 then .idle else .run } else s.core.conv)
      ∧ t.mem = s.mem)
    ∧ (s.cur.mode = true → s.cur.tpend = true → s.cur.pmode = false → ∃ t, exec .hret s = .next t
      ∧ t.cur.pc = s.cur.tvec ∧ t.cur.mode = true ∧ t.cur.tpend = false ∧ t.cur.causeCode = s.cur.causeCode
      ∧ t.cur.epc = s.cur.epc ∧ t.cur.tval = s.cur.tval)
    ∧ (s.cur.mode = false → convoyBusy s = false → exec .hret s = .next
        (takeTrap ⟨.privilege, false, 0x00400039, s.cur.pc⟩ u))
    ∧ (convoyBusy s = false →
      exec .hcall s = .next (takeTrap ⟨.hcall, false, 0, s.cur.pc + 4⟩ u)
      ∧ (s.cur.sdbg.getLsbD 1 = false → exec (.brk n) s = .next (takeTrap ⟨.brk, false, zext64 n, s.cur.pc + 4⟩ u))
      ∧ (s.cur.sdbg.getLsbD 1 = true → ∃ t, exec (.brk n) s = .next t ∧ t.cur.stopped = true
          ∧ t.cur.causeCode = 0x33 ∧ t.cur.tval = zext64 n ∧ t.cur.epc = s.cur.pc + 4 ∧ t.cur.pc = s.cur.tvec))
    ∧ exec .nap s = .next (advance s)

/-! ## Control and status registers -/

/-- CRGET: sd receives the register's value; a supervisor register in task mode is PRIVILEGE, and an access under 03 R68
waits for the convoy stream. Reading TIME and SCYC uses up a value of the free clock (log entry 5).
The readings and choices of log entries 15, 26 stand in it. -/
def Obligations.RegisterReads : Prop :=
  ∀ (s : State) (d : BitVec 5) (c : BitVec 12),
    ((csrSupervisor c.toNat = true → s.cur.mode = true) → csrWaits c.toNat s = false →
      exec (.crget d c) s = .next (advance (writeReg d (csrRead c.toNat s)
        (if c.toNat = 0x008 then s.clockRead else if c.toNat = 0x009 then s.tickUp else s))))
    ∧ (csrSupervisor c.toNat = true → s.cur.mode = false → convoyBusy s = false →
      exec (.crget d c) s = .next (takeTrap ⟨.privilege, false, (encode (.crget d c)).setWidth 64, s.cur.pc⟩
        (s.modCur (fun c => { c with bksup := false }))))
    ∧ ((csrSupervisor c.toNat = true → s.cur.mode = true) → csrWaits c.toNat s = true →
      exec (.crget d c) s = .next { s with stalled := true })

/-- CRPUT, CRSET and CRCLR on a register that can be read back store sa, old OR sa and old AND NOT sa; on a write-only
register CRSET acts as CRPUT and CRCLR writes nothing, a write of TLBINV waiting for the accesses that it concerns
(08 R178 to R180; 09 R234). A supervisor register, or a supervisor field that would change, is PRIVILEGE in task mode, and
a write there that leaves such a field as it is completes. An access under 03 R68 waits for the convoy stream. The
readings and choices of log entries 15, 26, 77 stand in it: what CRSET and CRCLR leave in GSEL, its mask tested again
whichever bits are marked, is the model's choice of log entry 77. -/
def Obligations.RegisterWrites : Prop :=
  ∀ (s : State) (a : BitVec 5) (c : BitVec 12),
    let n := c.toNat
    let x := readReg a s
    let old := csrRead n s
    let refused := fun (i : Instr) => takeTrap ⟨.privilege, false, (encode i).setWidth 64, s.cur.pc⟩
      (s.modCur (fun c => { c with bksup := false }))
    (∀ i v marks, (i, v, marks) ∈ [(Instr.crput a c, x, x), (.crset a c, old ||| x, x), (.crclr a c, old &&& ~~~x, 0)] →
      (csrSupervisor n = true → s.cur.mode = false → convoyBusy s = false → exec i s = .next (refused i))
      ∧ ((csrSupervisor n = true → s.cur.mode = true) → csrWaits n s = true → exec i s = .next { s with stalled := true })
      ∧ ((csrSupervisor n = true → s.cur.mode = true) → csrWaits n s = false →
        (s.cur.mode = false → (old ^^^ v) &&& csrGuarded n ≠ 0 → convoyBusy s = false → exec i s = .next (refused i))
        ∧ (s.cur.mode = true ∨ (old ^^^ v) &&& csrGuarded n = 0 → csrWriteOnly n = false →
          exec i s = .next (advance (csrStore n v marks s)))))
    ∧ ((csrSupervisor n = true → s.cur.mode = true) → csrWriteOnly n = true →
      ((n = 0x04A → tlbinvWaits x s = false) →
        exec (.crput a c) s = .next (advance (csrStore n x x s))
        ∧ exec (.crset a c) s = .next (advance (csrStore n x x s)))
      ∧ (n = 0x04A → tlbinvWaits x s = true →
        exec (.crput a c) s = .next { s with stalled := true } ∧ exec (.crset a c) s = .next { s with stalled := true })
      ∧ exec (.crclr a c) s = .next (advance s))

/-- What a write of the registers of the handler, of the convoy stream and of the matrix unit leaves: fields of fewer than
64 bits keep what they have room for, offsets drop bits 1:0, VL is at most 8192, the code 14 or 15 leaves TYPE, and VMT
takes two bits (03 R66 to R71; 08 R194, R195; 10 R254). The readings and choices of log entries 25, 26 stand in it. -/
def Obligations.RegisterFields : Prop :=
  ∀ (s : State) (v : Word),
    (csrStore 0x011 v v s).core.conv.vl = .ofNat 14 (min (v.toNat % 2 ^ 14) 8192)
    ∧ (csrStore 0x010 v v s).core.conv.type = (if v.toNat % 16 < 14 then v.toNat % 16 else s.core.conv.type)
    ∧ (csrStore 0x012 v v s).core.conv.vmt = v.setWidth 2
    ∧ (csrStore 0x02A v v s).cur.tval = v ∧ (csrStore 0x02F v v s).cur.sscr = v
    ∧ (csrStore 0x02B v v s).cur.epc.toNat = v.toNat % 2 ^ 32 / 4 * 4
    ∧ (csrStore 0x02C v v s).cur.tvec.toNat = v.toNat % 2 ^ 32 / 4 * 4
    ∧ csrRead 0x028 (csrStore 0x028 v v s) = (csrRead 0x028 s &&& ~~~0xD2) ||| (v &&& 0xD2)
    ∧ (sizeM (csrStore 0x051 v v s).core.mat.msize = min (v.toNat % 128) 64)
    ∧ (sizeN (csrStore 0x051 v v s).core.mat.msize = min (v.toNat / 2 ^ 8 % 128) 64)
    ∧ (sizeK (csrStore 0x051 v v s).core.mat.msize = min (v.toNat / 2 ^ 16 % 1024) 512)
    ∧ (csrStore 0x073 v v s).core.gang.gstat = s.core.gang.gstat &&& ~~~(v.setWidth 9)

/-! ## Scalar memory -/

/-- A load of a place in this package: sd receives the bytes, zero-extended, the lowest address lowest, and nothing else
changes but PC and, when the place is the package's clock, the time that it was read (00 R6; 09 R215).
The readings and choices of log entries 5, 8 stand in it. -/
def Obligations.LoadWords : Prop :=
  ∀ (i : Instr) (s : State) (n : Nat) (d a : BitVec 5) (p : BitVec 2) (o : BitVec 13) (loc : PaLoc),
    scalarAccess i = some (n, d, a, p, o) → (i = .ldb d a p o ∨ i = .ldw d a p o ∨ i = .ldd d a p o) →
    resolve s p (readReg a s + .ofInt 64 o.toInt) ⟨n, false, false, false, false⟩ = .ok loc →
    loc.remote = false → deviceHeld s p (readReg a s + .ofInt 64 o.toInt) = false → locPoisoned s loc n = false →
    let t := advance (writeReg d (.ofNat 64 (readLoc s loc n)) (s.afterRead loc))
    exec i s = .next t ∧ RegisterFrame [d] (s.afterRead loc) t ∧ (s.afterRead loc = s ∨ s.afterRead loc = s.clockRead)

/-- A store to memory of this package: the low bytes of sd stand at the address, the lowest first, and nothing else
changes but PC (09 R215). The readings and choices of log entry 8 stand in it. -/
def Obligations.StoreWords : Prop :=
  ∀ (i : Instr) (s : State) (n : Nat) (d a : BitVec 5) (p : BitVec 2) (o : BitVec 13) (key : Nat),
    scalarAccess i = some (n, d, a, p, o) → (i = .stb d a p o ∨ i = .stw d a p o ∨ i = .std d a p o) →
    resolve s p (readReg a s + .ofInt 64 o.toInt) ⟨n, true, false, false, false⟩ = .ok (.mem key false) →
    deviceHeld s p (readReg a s + .ofInt 64 o.toInt) = false → storePoisoned s key n = false →
    ∃ t, exec i s = .next t ∧ readMem t key n = (readReg d s).toNat % 256 ^ n ∧ StoreFrame [] key n s t
      ∧ t.cur.pc = s.cur.pc + 4

/-- A load or a store that the checks of 09 R226 refuse takes the trap of the first check that fails, with its address as
TVAL and MFINFO as R234 says; one of a place that holds uncorrectable data is MEM-DATA. No byte of memory changes.
A misaligned address is MEM-ALIGN before anything else, one past the end of TCM, SPAD or DIE is MEM-RANGE, and the save
area of the die store is MEM-PROT in task mode. The readings and choices of log entry 27 stand in it. -/
def Obligations.AccessFaults : Prop :=
  (∀ (i : Instr) (s : State) (n : Nat) (d a : BitVec 5) (p : BitVec 2) (o : BitVec 13) (w : Bool),
    scalarAccess i = some (n, d, a, p, o) → w = (i == .stb d a p o || i == .stw d a p o || i == .std d a p o) →
    convoyBusy s = false →
    let addr := readReg a s + .ofInt 64 o.toInt
    let want : Want := ⟨n, w, false, false, false⟩
    let taken := fun (f : MemFault) =>
      takeTrap ⟨f.cause, false, addr, s.cur.pc⟩
        ((s.modCur (fun c => { c with mfinfo := mfinfoOf f.level want p })).modCur (fun c => { c with bksup := false }))
    (∀ f, resolve s p addr want = .error f → exec i s = .next (taken f) ∧ (taken f).mem = s.mem)
    ∧ (∀ key, resolve s p addr want = .ok (.mem key false) → deviceHeld s p addr = false →
        (if w then storePoisoned s key n else poisoned s key n) = true →
        exec i s = .next (taken ⟨.memData, 7⟩) ∧ (taken ⟨.memData, 7⟩).mem = s.mem))
  ∧ ∀ (s : State) (p : BitVec 2) (addr : Word) (w : Want), 0 < w.size →
    (addr.toNat % w.size ≠ 0 → resolve s p addr w = .error ⟨.memAlign, 7⟩)
    ∧ (addr.toNat % w.size = 0 → p ≠ 3 → spaceSize p < addr.toNat + w.size → resolve s p addr w = .error ⟨.memRange, 7⟩)
    ∧ (addr.toNat % w.size = 0 → p = 2 → addr.toNat + w.size ≤ 0xC000000 → 0x6000000 ≤ addr.toNat → s.cur.mode = false →
        resolve s p addr w = .error ⟨.memProt, 7⟩)
    ∧ (addr.toNat % w.size = 0 → p ≠ 3 → addr.toNat + w.size ≤ spaceSize p →
        (p = 2 → 0x6000000 ≤ addr.toNat → s.cur.mode = true) →
        resolve s p addr w = .ok (.mem (spaceKey s p addr.toNat) false))

/-- An atomic on a place in this package: sd receives the old value, the result of R217 stands at the address, and nothing
else changes but PC; a release first waits for what is outstanding. CAS stores sb where the old value is the expected
one in sd, and otherwise nothing (R218). The readings and choices of log entry 28 stand in it. -/
def Obligations.AtomicWords : Prop :=
  ∀ (s : State) (d a b : BitVec 5) (o p : BitVec 2) (key : Nat),
    let old : Word := .ofNat 64 (readMem s key 8)
    resolve s p (readReg a s) ⟨8, true, true, false, false⟩ = .ok (.mem key false) → deviceHeld s p (readReg a s) = false →
    poisoned s key 8 = false → (2 ≤ o.toNat → s.released) →
    (∀ (i : Instr) (v : Word), atomicResult i old (readReg b s) = some (v, d, a, b, o, p) →
      ∃ t, exec i s = .next t ∧ (d ≠ 0 → readReg d t = old) ∧ readMem t key 8 = v.toNat ∧ StoreFrame [d] key 8 s t
        ∧ t.cur.pc = s.cur.pc + 4)
    ∧ (∀ e, ∃ t, exec (.cas d a b e o p) s = .next t ∧ (d ≠ 0 → readReg d t = old)
        ∧ readMem t key 8 = (if old = readReg d s then (readReg b s).toNat else old.toNat)
        ∧ StoreFrame [d] key 8 s t ∧ t.cur.pc = s.cur.pc + 4)

/-- FENCE with no access outstanding ends, and changes PC alone; WAITW ends with the value in sd
when its condition holds, or its limit has passed, and waits otherwise (09 R219; 06 R161, R162).
The readings and choices of log entries 6, 28 stand in it. -/
def Obligations.FenceAndWait : Prop :=
  (∀ (s : State) (e : BitVec 3) (q p : BitVec 2), s.released →
    exec (.fence e q p) s = .next (advance s) ∧ RegisterFrame [] s (advance s))
  ∧ ∀ (s : State) (d a b : BitVec 5) (p m : BitVec 2) (t : BitVec 6) (key : Nat),
    resolve s p (readReg a s) ⟨8, false, false, false, false⟩ = .ok (.mem key false) → deviceHeld s p (readReg a s) = false →
    poisoned s key 8 = false →
    let x := readMem s key 8
    let y := (readReg b s).toNat
    let met := if m = 0 then x = y else if m = 1 then x ≠ y else y ≤ x
    (met ∨ t = 0 ∨ (t ≠ 63 ∧ s.cur.expired = true) →
      exec (.waitw d a b p m t) s = .next (advance (writeReg d (.ofNat 64 x) s.tickUp)))
    ∧ (¬met → t ≠ 0 → (t = 63 ∨ s.cur.expired = false) →
      exec (.waitw d a b p m t) s = .next { s.tickUp with stalled := true })

/-- DCOLL on a valid descriptor: a complete walk gives 0 and changes nothing else; another gives the length of the run,
with RUNADDR and the counters of R164 in the descriptor, and no byte outside the descriptor's 88 changes.
The readings and choices of log entry 27 stand in it. -/
def Obligations.CollectWord : Prop :=
  ∀ (s : State) (d a b : BitVec 5),
    let off := (readReg a s).toNat
    let key := spaceKey s 0 off
    let w := readWalk s key
    let n := (readReg b s).toNat
    let run := walkStep w (if n = 0 ∨ 2 ^ 32 ≤ n then 2 ^ 32 - 1 else n)
    off % 8 = 0 → off + 88 ≤ 262144 → poisoned s key 88 = false → w.valid = true →
    (w.complete = true → exec (.dcoll d a b) s = .next (advance (writeReg d 0 s)))
    ∧ (w.complete = false → ∃ t, exec (.dcoll d a b) s = .next t ∧ (d ≠ 0 → readReg d t = .ofNat 64 run.1)
        ∧ readMem t (key + 8) 8 = run.2.1 ∧ (∀ j, j < 4 → readMem t (key + 0x28 + 4 * j) 4 = run.2.2.getD j 0 % 2 ^ 32)
        ∧ StoreFrame [d] key 88 s t)

/-! ## Queues and the end of a task -/

/-- BPUSH, DPUSH, RPOP and the four EPOPs with room, or with something to pop: the queue of R181, or the cq of 14 R294,
changes at its end or at its head, sd receives the head, or 0 from an empty queue in the TRY forms, and PC advances; a
push first releases what is outstanding (09 R244): that BPUSH and DPUSH wait while any access is outstanding is the model's
reading (log entry 28). With no room, or nothing to pop, they wait, and a BPUSH whose operands are out of range or
misaligned is QUEUE-ARG with sa as TVAL (08 R183 to R186). The readings and choices of log entries 28, 32 stand in it. -/
def Obligations.QueueWords : Prop :=
  ∀ (s : State) (d a b : BitVec 5),
    let wait : State := { s with stalled := true }
    ((readReg a s).toNat < 2 ^ 32 → (readReg a s).toNat % 4 = 0 → (readReg b s).toNat < 2 ^ 32 → s.core.q.bq.length < 16 →
      s.released → exec (.bpush a b) s = .next (advance (s.modQ (fun q => { q with
        bq := q.bq ++ [⟨.ofNat 32 (readReg a s).toNat, .ofNat 32 (readReg b s).toNat⟩] }))))
    ∧ (s.core.q.dq.length < 32 → s.released →
      exec (.dpush a) s = .next (advance (s.modQ (fun q => { q with dq := q.dq ++ [readReg a s] }))))
    ∧ (∀ v l, s.core.q.rq = v :: l →
      exec (.rpop d) s = .next (advance (writeReg d v (s.modQ (fun q => { q with rq := l })))))
    ∧ (∀ v l, s.core.q.eq = v :: l → s.core.q.posts = [] →
      exec (.epop d) s = .next (advance (writeReg d v (s.modQ (fun q => { q with eq := l }))))
      ∧ exec (.epopTry d) s = .next (advance (writeReg d v (s.modQ (fun q => { q with eq := l })))))
    ∧ (s.core.q.eq = [] → exec (.epopTry d) s = .next (advance (writeReg d 0 s)))
    ∧ (∀ v l, s.cluster.cq = v :: l → s.cluster.cqPosts = [] →
      (∃ t, exec (.epopMsg d) s = .next (advance (writeReg d v t)) ∧ t = s.modCluster (fun c => { c with cq := l }))
      ∧ ∃ t, exec (.epopMsgTry d) s = .next (advance (writeReg d v t)) ∧ t = s.modCluster (fun c => { c with cq := l }))
    ∧ (s.cluster.cq = [] → exec (.epopMsgTry d) s = .next (advance (writeReg d 0 s)))
    ∧ ((readReg a s).toNat < 2 ^ 32 → (readReg a s).toNat % 4 = 0 → (readReg b s).toNat < 2 ^ 32 →
      16 ≤ s.core.q.bq.length ∨ s.cur.outs ≠ [] → exec (.bpush a b) s = .next wait)
    ∧ (32 ≤ s.core.q.dq.length ∨ s.cur.outs ≠ [] → exec (.dpush a) s = .next wait)
    ∧ (s.core.q.rq = [] → exec (.rpop d) s = .next wait) ∧ (s.core.q.eq = [] → exec (.epop d) s = .next wait)
    ∧ (s.cluster.cq = [] → exec (.epopMsg d) s = .next wait)
    ∧ (2 ^ 32 ≤ (readReg a s).toNat ∨ (readReg a s).toNat % 4 ≠ 0 ∨ 2 ^ 32 ≤ (readReg b s).toNat → convoyBusy s = false →
      exec (.bpush a b) s = .next (takeTrap ⟨.queueArg, false, readReg a s, s.cur.pc⟩
        (s.modCur (fun c => { c with bksup := false }))))

/-- END of a drained task, with no access outstanding: the completion word's COUNT is one more modulo 2^40, its flags gain
VFLAGS, and its bit 56 tells an END in supervisor mode; the core lets go of the task, its shares of ganged products end,
and TCM is cleared (08 R190 to R192). COMPLETION_WORD_UPDATE is this END at PC, when no trap and no request stands there.
The readings and choices of log entries 28, 58 stand in it. -/
def Obligations.EndOfTask : Prop :=
  ∀ (s : State) (key : Nat), s.agent = .steer → (s.core.steer.mode = true ∨ (s.core.drained = true ∧ s.core.chainRuns = false)) →
    s.released → s.core.conv.failedStore = none → resolve s 3 s.core.task.cwaddr ⟨8, true, true, false, false⟩ = .ok (.mem key false) →
    poisoned s key 8 = false →
    let old := readMem s key 8
    let t := endTaskOn s.coreId s.core.steer.mode (leaveShares (storeMem key 8
      (completionNext (.ofNat 64 old) s.core.conv.vflags s.core.steer.mode).toNat s.tickUp))
    exec .endTask s = .next t
    ∧ (s.core.live = true → s.core.preq = false → executes s = true →
        fetchWord s.core.steer.pc s = some 0x00000025 → exec .completionWordUpdate s = .next t)
    ∧ (completionNext (.ofNat 64 old) s.core.conv.vflags s.core.steer.mode).toNat % 2 ^ 40 = (old % 2 ^ 40 + 1) % 2 ^ 40
    ∧ (t.coreAt s.coreId).run = .clearing

/-! ## Timelines, barriers, arms and feed queues -/

/-- TLREAD gives COUNT or the status word of a context, and TLWAIT gives COUNT once it has reached sb, has failed at the
next command, or the limit has passed; a handle that names no context is TL-CTX with the handle as TVAL (09 R235 to
R237). The readings and choices of log entries 6, 57 stand in it. -/
def Obligations.TimelineWords : Prop :=
  ∀ (s : State) (d a b : BitVec 5) (t : BitVec 6),
    let h := readReg a s
    let c := s.context (ctxKey h)
    (handleOk h = true →
      exec (.tlreadCount d a) s = .next (advance (writeReg d c.count s))
      ∧ exec (.tlreadStatus d a) s = .next (advance (writeReg d c.status s))
      ∧ ((readReg b s).toNat ≤ c.count.toNat ∨ c.failed = true ∧ c.stoppedAt = true ∨ t = 0
          ∨ (t ≠ 63 ∧ s.cur.expired = true) → exec (.tlwait d a b t) s = .next (advance (writeReg d c.count s))))
    ∧ (handleOk h = false → convoyBusy s = false →
      let u := takeTrap ⟨.tlCtx, false, h, s.cur.pc⟩ (s.modCur (fun c => { c with bksup := false }))
      exec (.tlreadCount d a) s = .next u ∧ exec (.tlreadStatus d a) s = .next u ∧ exec (.tlwait d a b t) s = .next u)

/-- A control core names all 32 barriers, a task core those of BARWIN, relative to its first; another number is BAR-RANGE
with sa as TVAL. BARV adds sb to a barrier modulo 2^64 and gives its old value; BARW gives its value once it has reached
sb or the limit has passed, and waits otherwise (14 R319 to R321). When a limit passes is the model's choice of log entry 6. -/
def Obligations.BarrierWords : Prop :=
  ∀ (s : State) (d a b : BitVec 5) (t : BitVec 6),
    let i := readReg a s
    let y := (readReg b s).toNat
    let win := s.core.task.barwin.toNat
    (s.agent = .control → barrierOf i s = if i.toNat < 32 then some i.toNat else none)
    ∧ (s.agent = .steer → barrierOf i s =
        if i.toNat < 32 ∧ i.toNat < win / 2 ^ 8 % 64 then some ((win % 32 + i.toNat) % 32) else none)
    ∧ (∀ n, barrierOf i s = some n →
      let x := spGet 0 s.cluster.barriers n
      (s.released → exec (.barv d a b) s = .next (advance (writeReg d x (s.modCluster (fun c => { c with
          barriers := spPut 0 c.barriers n (.ofNat 64 (x.toNat + y)) })))))
      ∧ (y ≤ x.toNat ∨ t = 0 ∨ (t ≠ 63 ∧ s.cur.expired = true) →
          exec (.barw d a b t) s = .next (advance (writeReg d x s)))
      ∧ (x.toNat < y → t ≠ 0 → (t = 63 ∨ s.cur.expired = false) →
          exec (.barw d a b t) s = .next { s with stalled := true }))
    ∧ (barrierOf i s = none → convoyBusy s = false →
        let u := takeTrap ⟨.barRange, false, i, s.cur.pc⟩ (s.modCur (fun c => { c with bksup := false }))
        exec (.barv d a b) s = .next u ∧ exec (.barw d a b t) s = .next u)

/-- GARM arms this core for the slot in sa with the slab and the barrier in sb, from when on the cells that convoys write
are noted for the share (14 R328; the notes, of which it says only that they begin, are the model's own), GARM.OFF takes the arm back and tells whether it stood, and a GARM that R324 forbids is
GANG-ARM; FQSET sets up a queue that no launch holds, empty, FQSET.RD reads HEAD and TAIL, and FQSET.ADV moves HEAD on by
at most what the queue holds (14 R316, R317, R324). The readings and choices of log entries 15, 47, 71 stand in it. -/
def Obligations.ArmAndFeedWords : Prop :=
  ∀ (s : State) (d a b : BitVec 5) (q : BitVec 4),
    let x := readReg a s
    let y := readReg b s
    let f := s.cluster.feed q.toNat
    (orderedReady s = true → armFaults x y s = false →
      ∃ (l : List Nat) (m : Nat), exec (.garm a b) s = .next (advance ((s.modGang (fun g => { g with
        armIslot := x.setWidth 7, armSlab := .ofNat 2 y.toNat, armBar := .ofNat 5 (y.toNat / 2 ^ 8)
        armFault := false, armed := true, armMark := m })).modConv (fun c => { c with wrote := some l }))))
    ∧ (orderedReady s = true → armFaults x y s = true → convoyBusy s = false →
      exec (.garm a b) s = .next (takeTrap ⟨.gangArm, false, x, s.cur.pc⟩ (s.modCur (fun c => { c with bksup := false }))))
    ∧ (orderedReady s = true → exec (.garmOff d) s = .next (advance (writeReg d (if s.core.gang.armed then 1 else 0)
        (disarmPlane (s.modGang (fun g => { g with armed := false }))))))
    ∧ (feedFaults x y f = false → f.written = [] →
      ∃ t, exec (.fqset a b q) s = .next (advance t) ∧ t = s.modCluster (·.modFeed q.toNat (fun _ => { FeedQueue.reset with
        base := .ofNat 25 x.toNat, cap := .ofNat 16 (x.toNat / 2 ^ 32), vlfeed := .ofNat 16 y.toNat
        even := decide (y.toNat / 2 ^ 16 % 2 = 1) })))
    ∧ exec (.fqsetRd d q) s = .next (advance (writeReg d (.ofNat 64 (f.head.toNat * 2 ^ 32 + f.tail.toNat)) s))
    ∧ ∃ g : FeedQueue, exec (.fqsetAdv a q) s = .next (advance (s.modCluster (·.modFeed q.toNat (fun _ => g))))
        ∧ g = (if f.attached.isSome then f
          else { f with head := f.head + .ofNat 32 (min (x.toNat % 2 ^ 32) (f.tail - f.head).toNat) })

/-! ## Launches and engines -/

/-- STRIN, STROUT and LAUNCH answer an error code for the conditions of 14 R297 to R301, and otherwise take the lowest free
scoreboard entry with the next number of their context, or, with no free entry, wait (R301); the states of the scoreboard's
entries follow R304, and a copy's deadline is the fabric's (19 R398). A LAUNCH on a task core posts a message of KIND 0x10
to the cluster's cq. The readings and choices of log entries 5, 37, 55 stand in it. -/
def Obligations.LaunchWords : Prop :=
  ∀ (s : State) (d a b : BitVec 5) (x : BitVec 4) (c : BitVec 5),
    let u := readReg a s
    let y := readReg b s
    let z := readReg c s
    let key := ctxKey (launchHandle s.clusterId x.toNat)
    let num := (s.context key).next
    let later : Word := s.now + .ofNat 64 (1000 * s.fab.offh.toNat)
    let give := fun (v : Nat) (t : State) => Host.Outcome.next (advance (writeReg d (.ofNat 64 v) t))
    let wait := fun (t : State) => Host.Outcome.next { t with stalled := true }
    let made := fun (i : Nat) (e : Entry) (t : State) =>
      ((t.modContext key (fun k => { k with next := k.next + 1 })).modPkg (fun p => { p with
        serials := t.pkg.serials + 1 })).modCluster (fun k => (k.addEntry i { e with age := t.pkg.serials + 1 }).refresh)
    let goodOut := (z = 0 ∨ copyArgsBad u z = false) ∧ y.toNat < 64 ∧ streamLive s.cluster y.toNat = true
    (copyArgsBad u z = true ∨ y.toNat % 64 ≠ 0 → exec (.strin d a b x c) s = give (2 ^ 63 + 5) s)
    ∧ (z ≠ 0 → copyArgsBad u z = true → exec (.strout d a b x c) s = give (2 ^ 63 + 5) s)
    ∧ ((z = 0 ∨ copyArgsBad u z = false) → (64 ≤ y.toNat ∨ streamLive s.cluster y.toNat = false) →
      exec (.strout d a b x c) s = give (2 ^ 63 + 7) s)
    ∧ (s.cluster.freeIndex = none →
      (copyArgsBad u z = false → y.toNat % 64 = 0 → exec (.strin d a b x c) s = wait s)
      ∧ (goodOut → exec (.strout d a b x c) s = wait s))
    ∧ (∀ i, s.cluster.freeIndex = some i →
      (copyArgsBad u z = false → y.toNat % 64 = 0 →
        exec (.strin d a b x c) s = give (i + 2 ^ 16 * (num % 2 ^ 47)) (made i { Entry.fresh .streamIn .ready x.toNat num with
          ptroot := s.cur.ptroot, super := s.cur.mode, direct := s.cluster.dispatch.isSome, src := y, dst := u
          len := z.toNat, deadline := later } s).clockRead)
      ∧ (goodOut → ∀ e, s.cluster.entry? y.toNat = some e →
        exec (.strout d a b x c) s = give (i + 2 ^ 16 * (num % 2 ^ 47))
          ((made i { Entry.fresh .streamOut .waiting x.toNat num with
            ptroot := s.cur.ptroot, super := s.cur.mode, direct := s.cluster.dispatch.isSome, src := e.dst, dst := u
            len := z.toNat, target := y.toNat, deadline := later } s).modCluster
              (·.modEntry y.toNat (fun e => { e with releasing := true }))).clockRead))
    ∧ (∀ n, blockHeld s u = false → readBlock s u 128 = .ok n →
      let k := parseBlock n
      let code := launchCode k (n / 2 ^ (8 * 0x5D)) u y s.cluster
      (code ≠ 0 → exec (.launch d a b x) s = give (2 ^ 63 + code) s.tickUp)
      ∧ (code = 0 → s.released → s.cluster.freeIndex = none → exec (.launch d a b x) s = wait s.tickUp)
      ∧ (code = 0 → s.released → ∀ i, s.cluster.freeIndex = some i →
        let t := made i { Entry.fresh .kernel .waiting x.toNat num with
          block := k, streams := streamList y, upTo := if k.feed then 0 else k.groups } s.tickUp
        exec (.launch d a b x) s = give (i + 2 ^ 16 * (num % 2 ^ 47))
          (if k.feed then t.modCluster (·.modFeed k.fq.toNat (fun f => { f with attached := some i })) else t)))
    ∧ (s.released → s.frozenAt s.clusterId = false → s.cluster.cqPosts = [] → s.cluster.cq.length + 4 ≤ 64 → ∀ f : BitVec 5,
      ∃ t, exec (.launchRequest d a b f c) s = .next t ∧ (d ≠ 0 → readReg d t = 0)
        ∧ t.cluster.cq = s.cluster.cq ++ [.ofNat 64 (0x10 * 2 ^ 56 + f.toNat * 2 ^ 48 + s.coreId % 96), readReg a s,
            readReg b s, readReg c s] ∧ t.cur.pc = s.cur.pc + 4)

/-- A command word gives its context's next number and appends the command with the 64 bytes of its descriptor, its
issuer's PTROOT and mode, and its deadline (19 R398); with 16 unfinished commands it waits (16 R342); a reset word of a
context with no unfinished command gives COUNT and resets it (16 R341 to R344, R353; 19 R402, R403). A handle of another
class is TL-CTX. The readings and choices of log entries 5, 57 stand in it. -/
def Obligations.EngineWords : Prop :=
  ∀ (s : State) (i : Instr) (cls : Nat) (op : CmdOp) (d a b : BitVec 5), engineWord i = some (cls, op, d, a, b) →
    let h := readReg a s
    let off := (readReg b s).toNat
    let c := s.context (ctxKey h)
    (handleOk h = true → handleClass h = cls → off % 64 = 0 → off + 64 ≤ 262144 →
      poisoned s (spaceKey s 0 off) 64 = false → s.released → c.cmds.length < 16 →
      exec i s = .next (advance (writeReg d (.ofNat 64 c.next) ((s.modContext (ctxKey h) (fun k => { k with
        next := k.next + 1
        cmds := k.cmds ++ [{ op := op, num := c.next, desc := readMem s (spaceKey s 0 off) 64, ptroot := s.cur.ptroot
                             super := s.cur.mode, promoted := false, since := (c.cmds.map (·.num)).headD c.next
                             clash := cls == 3 && tagUsed s (blockField (readMem s (spaceKey s 0 off) 64) 0x28 8)
                             task := if s.agent = .control then none else some s.core.task.serial
                             deadline := s.now + .ofNat 64 (1000 * s.fab.offh.toNat), move := none }] })).clockRead))))
    ∧ (handleOk h = true → handleClass h = cls → off % 64 = 0 → off + 64 ≤ 262144 →
      poisoned s (spaceKey s 0 off) 64 = false → s.released → 16 ≤ c.cmds.length → exec i s = .next { s with stalled := true })
    ∧ (handleOk h = false ∨ handleClass h ≠ cls → convoyBusy s = false →
      exec i s = .next (takeTrap ⟨.tlCtx, false, h, s.cur.pc⟩ (s.modCur (fun c => { c with bksup := false }))))
    ∧ (handleOk h = true → c.cmds = [] →
      let t := advance (writeReg d c.count (s.modContext (ctxKey h) (fun _ => .reset)))
      (handleClass h = 1 → exec (.copyRst d a) s = .next t) ∧ (handleClass h = 2 → exec (.mdecRst d a) s = .next t)
        ∧ (handleClass h = 3 → exec (.credRst d a) s = .next t))

/-! ## The convoy stream -/

/-- A word of convoy text with C = 1 joins the convoy that forms, and nothing else changes; the fourth such word is
CONVOY-FORM, and a word that has no meaning under TYPE is ILLEGAL-WORD, both with the word as TVAL and its member's
index in CMEM, once every earlier convoy has retired (02 R37, R38, R40). A convoy of two arithmetic words runs element
after element, the first word's first, so that the second reads what the first has written for the element, when the shapes
of theirs that touch have identical geometry; where a pair has not, the convoy is CONVOY-ALIAS with the second word's shape as
TVAL, and no cell changes. The second word of the SFU, and the third of the VALU, is CONVOY-STRUCTURE with the pipe's code
(05 R112 to R114). The readings and choices of log entries 7, 17, 19 stand in it. -/
def Obligations.ConvoyForms : Prop :=
  (∀ (i : Instr) (s : State) (w : ElementWord),
    (integerWord i s = some w ∨ floatWord i s = some w ∨ compareWord i s = some w ∨ convertWord i s = some w) →
    (w.issues → ¬endsConvoy i → s.core.conv.forming.length < 3 →
      exec i s = .next (s.modConv (fun c => { c with forming := c.forming ++ [i] })))
    ∧ (w.issues → ¬endsConvoy i → s.core.conv.forming.length = 3 → s.core.conv.parked = [] → s.core.steer.mode = false →
      s.core.preq = false → s.core.steer.stepped = false →
      ∃ t, exec i s = .next t ∧ ConvoyTrapped .convoyForm ((encode i).setWidth 64) 3 0 s t)
    ∧ (¬w.issues → s.core.conv.parked = [] → s.core.steer.mode = false → s.core.preq = false →
      s.core.steer.stepped = false → ∃ t, exec i s = .next t
        ∧ ConvoyTrapped .illegalWord ((encode i).setWidth 64) s.core.conv.forming.length 0 s t)
    ∧ (¬w.issues ∨ (¬endsConvoy i ∧ s.core.conv.forming.length = 3) → s.core.conv.parked ≠ [] →
      exec i s = .next { s with stalled := true }))
  ∧ (∀ (i j : Instr) (s : State) (w v : ElementWord), arithmeticWord i s = some w → arithmeticWord j s = some v →
      s.Boundary → endsConvoy j → w.issues → v.issues → (∀ n ∈ w.named ++ v.named, n.holds s) →
      let u := s.modConv (fun c => { c with forming := [i] })
      let stops := fun (c : Cause) (tval : Word) => s.core.steer.mode = false → s.core.preq = false →
        ∃ t, exec j u = .next t ∧ ConvoyTrapped c tval 1 0 s t ∧ t.core.conv.plane = s.core.conv.plane
      (onSfu i = true → onSfu j = true → stops .convoyStructure 1)
      ∧ (onSfu i = false ∨ onSfu j = false →
        (s.core.conv.vctl = 0 → (∀ x y, touch w v x y s → agree x y s) →
          exec j u = .next (retiredAll [i, j] (chainedRun i j w v s)))
        ∧ ∀ l y r x, v.named = l ++ y :: r → (∀ p, ∀ q ∈ l, touch w v p q s → agree p q s) → touch w v x y s →
            ¬agree x y s → stops .convoyAlias (.ofNat 64 y.shape)))
  ∧ ∀ (i j k : Instr) (s : State) (w v x : ElementWord), arithmeticWord i s = some w → arithmeticWord j s = some v →
      arithmeticWord k s = some x → onSfu i = false → onSfu j = false → onSfu k = false → s.Boundary → endsConvoy k →
      w.issues → v.issues → x.issues → (∀ n ∈ w.named ++ v.named ++ x.named, n.holds s) → s.core.steer.mode = false →
      s.core.preq = false →
      ∃ t, exec k (s.modConv (fun c => { c with forming := [i, j] })) = .next t
        ∧ ConvoyTrapped .convoyStructure 0 2 0 s t ∧ t.core.conv.plane = s.core.conv.plane

/-- A shape that a word names and that fails a condition of R83 traps at issue with its name as TVAL: the first condition
that fails, in the order OFF, type, length, gated, and the first shape that fails it. No cell changes.
The readings and choices of log entry 17 stand in it. -/
def Obligations.ShapeTraps : Prop :=
  ∀ (i : Instr) (s : State) (w : ElementWord),
    (integerWord i s = some w ∨ floatWord i s = some w) → s.Boundary → endsConvoy i → w.issues →
    s.core.steer.mode = false → s.core.preq = false →
    let off := fun (n : Named) => (shapeAt n.shape s).kind = 0
    let type := fun (n : Named) => shapeTypeBad (shapeAt n.shape s) n.ew = true
    let long := fun (n : Named) => (shapeAt n.shape s).cap n.ew < n.need
    let gate := fun (n : Named) => shapeGated s.core.conv.planepwr (shapeAt n.shape s) = true
    let stops := fun (c : Cause) (l r : List Named) (n : Named) (bad : Named → Prop) =>
      w.named = l ++ n :: r → bad n → (∀ x ∈ l, ¬bad x) →
        ∃ t, exec i s = .next t ∧ ConvoyTrapped c (.ofNat 64 n.shape) 0 0 s t
          ∧ t.core.conv.plane = s.core.conv.plane ∧ t.core.conv.masks = s.core.conv.masks
    ∀ (l r : List Named) (n : Named),
      stops .shapeOff l r n off
      ∧ ((∀ x ∈ w.named, ¬off x) → stops .shapeType l r n type
        ∧ ((∀ x ∈ w.named, ¬type x) → stops .shapeLength l r n long
          ∧ ((∀ x ∈ w.named, ¬long x) → stops .planeGated l r n gate)))

/-- The integer words, bitwise words, moves and shifts complete with the results of R124 and R125. -/
def Obligations.IntegerElements : Prop := CompletesElements integerWord ∧ CompletesElements bitsWord

/-- The floating-point words complete with the results of R122 and R123.
The readings and choices of log entry 21 stand in it. -/
def Obligations.FloatElements : Prop := CompletesElements floatWord

/-- The compares, mask words and selects complete with the results of R126 to R128, and the conversions and permutes with
those of R129 to R131; that VCVT to an integer type rounds first and then tests the range is log entry 20. The readings
and choices of log entries 20, 67, 75 stand in it. -/
def Obligations.CompareConvertPermute : Prop :=
  CompletesElements compareWord ∧ CompletesElements convertWord ∧ CompletesElements permuteWord

/-- The frame of the element-wise words, VL being at most the 8192 that every write of it keeps (03 R66, R69): no cell but
those of vd's elements below VL changes (and those of v63's block words for VQNT), no mask but md of a compare or a mask
word, no convoy scalar, no register of the steering stream but CBKSUP, no queue, slab or rung, and no byte of memory; CPC
moves past the word (R111, R121). -/
def Obligations.ElementFrame : Prop :=
  ∀ (i : Instr) (s t : State) (w : ElementWord),
    (integerWord i s = some w ∨ bitsWord i s = some w ∨ floatWord i s = some w ∨ compareWord i s = some w
      ∨ convertWord i s = some w ∨ permuteWord i s = some w) →
    s.Boundary → endsConvoy i → w.issues → s.core.conv.vctl = 0 → s.vl ≤ 8192 → (∀ n ∈ w.named, n.holds s) →
    exec i s = .next t →
    VectorFrame (fun k => (maskTarget i = none ∧ ∃ n ∈ w.named.head?, ∃ e, e < s.vl ∧ holdsElement n.shape n.ew e s k)
      ∨ (writesScales i = true ∧ ∃ e, 32 * e < s.vl ∧ holdsElement 63 16 e s k)) (maskTarget i) s t

/-- Vector loads, stores and VLDSLAB complete with what each element does at its address (09 R220 to R226; 16 R356 to
R358); a store changes no byte but those of the elements that it stores, and a load none.
The readings and choices of log entries 22, 29 stand in it. -/
def Obligations.VectorAccess : Prop :=
  CompletesElements accessWord ∧ CompletesElements slabWord
  ∧ ∀ (i : Instr) (s : State) (w : ElementWord) (a : Nat), accessWord i s = some w ∨ slabWord i s = some w → s.Boundary →
    (∀ n, n < s.vl - s.core.conv.startK.toNat →
      let e := s.core.conv.startK.toNat + n
      let u := w.running i n s
      let bytes := max 1 (u.core.conv.ew / 8)
      ∀ r m x loc, storeAddr i e u = some (r, m, x) → maskBit m.toNat e u = true →
        resolve u u.core.conv.vmt x (elemWant bytes true (r == 1)) = .ok loc →
        ∃ key q, loc = .mem key q ∧ ¬Inside key bytes a) →
    readByte (retired i [] [] (w.all i s)) a = readByte s a

/-- The reductions complete with the results of R132 in the orders of 04 R106 to R108, the words of convoy scalars, of rq
and of masks with those of R133 and R134, and the settings of the convoy stream with those of 03 R69 to R79.
The readings and choices of log entry 67 stand in it. -/
def Obligations.ReductionScalarSetting : Prop :=
  CompletesWhole reductionWord ∧ CompletesWhole scalarWord ∧ CompletesWhole settingWord

/-- The words of the matrix unit complete: products group by group, inserts and extracts, and the unit's settings
(10 R248 to R262). That MEXT and MINS complete with a DIAG shape is log entry 67, and how MEXT converts to an integer type
log entry 20. The readings and choices of log entries 20, 36, 67, 75 stand in it. -/
def Obligations.MatrixWords : Prop := CompletesWhole matrixWord ∧ CompletesElements extractWord

/-- The ladder words complete: a step begins its chain, a blend and the rung words move tiles (11 R276 to R283).
The readings and choices of log entries 36, 71 and 84 stand in it: that the last word of a tile is written in the tile's own
half alone, and the free values where the spec leaves the ladder's results unspecified, are the model's choices of log
entries 84 and 71. -/
def Obligations.LadderWords : Prop := CompletesWhole ladderWord

/-- Feed appends, VWAIT and the ganged product complete (06 R154 to R160; 14 R325).
The readings and choices of log entry 64 stand in it. -/
def Obligations.BesideWords : Prop := CompletesWhole besideWord

/-- VISSUE alone in its convoy, with no start words and VSTART.K = 0 (06 R146 to R150). Where every active element holds
an illegal lane word, md receives the active elements, ISS is raised if there is one, and no cell changes. Where every
active element holds one word of the integer family that is legal, md is cleared below VL, and the word's elements run,
in order, for the active elements under the word's own mask. The reading of log entry 74 stands in it. -/
def Obligations.VissueWord : Prop :=
  ∀ (s : State) (d m : BitVec 3) (a : BitVec 6), s.Boundary → s.core.conv.vctl = 0 → s.core.conv.vispos = 0 →
    s.core.conv.startK = 0 → (⟨a.toNat, 32, s.vl⟩ : Named).holds s → (∀ p ∈ s.core.conv.masks, p.1 < 65536) →
    let active := (List.range s.vl).filter (fun e => maskBit m.toNat e s)
    let word := fun (e : Nat) => elemGet (shapeAt a.toNat s) 32 e s
    let box := (shapeAt a.toNat s).box
    ((∀ e ∈ active, laneInstr 1 [⟨box, m.toNat, d.toNat⟩] (word e) s = none) →
      ∃ t, exec (.vissue d a m) s = .next t
        ∧ (∀ e, e < s.vl → d ≠ 0 → maskBit d.toNat e t = maskBit m.toNat e s)
        ∧ t.core.conv.vflags = (if active = [] then s.core.conv.vflags else s.core.conv.vflags ||| flagISS)
        ∧ t.core.conv.plane = s.core.conv.plane ∧ t.core.conv.cpc = s.core.conv.cpc + 4 ∧ t.mem = s.mem)
    ∧ ∀ (j : Instr) (w : ElementWord), integerWord j s = some w → w.issues → endsConvoy j → j.wf = true →
      laneOpcode 1 ((encode j).toNat % 128) = true → (∀ n ∈ w.named, n.holds s) →
      (∀ n ∈ w.named.head?, ∀ b ∈ cellBoxes (shapeAt n.shape s), boxesMeet b box = false) →
      (∀ e ∈ active, word e = (encode j).toNat) →
      let u := (List.range s.vl).foldl (fun u e => writeMaskBit d.toNat e false u) s
      let v := active.foldl (fun u e => w.element e u) u
      ∃ t, exec (.vissue d a m) s = .next t ∧ (∀ r c, readCell r c t = readCell r c v)
        ∧ (∀ k e, k < 8 → e < 8192 → maskBit k e t = maskBit k e u) ∧ t.core.conv.vflags = v.core.conv.vflags
        ∧ t.core.conv.cpc = s.core.conv.cpc + 4 ∧ t.mem = s.mem

/-- A division by zero under VCTL.DZ traps at its element: the elements below have run, the flag is raised, and VSTART.K
and TVAL name the element and vd (04 R104; 05 R114, R137, R138).
The readings and choices of log entry 17 stand in it. -/
def Obligations.ArithmeticTrap : Prop :=
  ∀ (s : State) (d a b : BitVec 6) (m : BitVec 3) (w : ElementWord) (n : Nat),
    integerWord (.vdiv d a b m 0) s = some w → w.issues → s.Boundary → (∀ x ∈ w.named, x.holds s) →
    s.core.conv.vctl = flagDZ → s.core.steer.mode = false → s.core.preq = false →
    let k := s.core.conv.startK.toNat
    let u := w.before (.vdiv d a b m 0) n s
    let dividend := fun (e : Nat) (u : State) => elemGet (shapeAt a.toNat u) u.core.conv.ew e u
    let divisor := fun (e : Nat) (u : State) => elemGet (shapeAt b.toNat u) u.core.conv.ew e u
    k + n < s.vl → maskBit m.toNat (k + n) s = true → divisor (k + n) u = 0 → dividend (k + n) u ≠ 0 →
    (∀ j, j < n → maskBit m.toNat (k + j) s = true →
      let v := w.before (.vdiv d a b m 0) j s
      divisor (k + j) v ≠ 0 ∨ dividend (k + j) v = 0) →
    ∃ t, exec (.vdiv d a b m 0) s = .next t ∧ ConvoyTrapped .arithDZ (.ofNat 64 d.toNat) 0 (k + n) s t
      ∧ (∀ r c, readCell r c t = readCell r c u) ∧ t.core.conv.vflags = u.core.conv.vflags ||| flagDZ

/-- Every finite number of each of the five formats with TYPE codes 0 to 4 (FP32, BF16, FP16, E4M3, E5M2) rounds to its own
bits, in every rounding mode and with no flag: decoding and rounding agree on what each of them holds (00 R8; 04 R92 to
R95). -/
def Obligations.FormatsRoundTrip : Prop :=
  ∀ (t rm raw : Nat) (sat n : Bool) (m : Nat) (e : Int), t ≤ 4 → rm < 4 → raw < 2 ^ ewOf t →
    (fmtOf t).decode raw = .fin n m e → roundTo (fmtOf t) rm sat (.fin n m e) = (raw, 0)

/-! ## Events of a core -/

/-- The events of the convoy stream, of waits and of the boundary. BLOCK_POP takes the head of bq (05 R135). A convoy of
one word that waits issues, when nothing at its boundary goes before it, and one in flight retires, with what the word does. A VWAIT tests its buoys when a watched
line is written and on a spurious wake (06 R159). A passed limit marks the wait at PC (R161). TRAP_ENTRY takes LAD-MEM
(11 R275); QUEUE_DEADLOCK traps an RPOP or an EPOP that nothing can end, with its queue's code (08 R188). DEBUG_STOP and
PREEMPTION_REQUEST stop the core and ask it to stop, with its gang (08 R193, R204; 14 R323).
The readings and choices of log entries 6, 17, 31, 35, 64 stand in it. -/
def Obligations.ConvoyEvents : Prop :=
  (∀ (s : State) (b : BqEntry) (l : List BqEntry), s.core.convoyLive = true → s.inFlight = false → s.core.conv.st = .idle →
    s.core.q.bq = b :: l → exec .blockPop s = .next (s.modCore (fun c => { c with
      q := { c.q with bq := l }
      conv := if b.trips = 0 then c.conv else { c.conv with cblk := b.addr, cpc := b.addr, lc := b.trips, st := .run } })))
  ∧ (∀ (i : Instr) (s : State) (w : ElementWord), integerWord i s = some w → s.Boundary → endsConvoy i → w.issues →
      s.core.conv.vctl = 0 → (∀ n ∈ w.named, n.holds s) → s.core.live = true → s.core.steer.chalt = false →
      s.core.conv.st ≠ .halted → s.inFlight = false → boundaryHeld s = false →
      let t := retired i [] [] (w.all i s)
      exec .convoyIssue (s.modConv (fun c => { c with forming := [i] })) = .next t
      ∧ exec .convoyRetire (issued i s) = .next t ∧ exec .vectorElementArrival (issued i s) = .next t)
  ∧ (∀ (s : State) (d a : BitVec 6) (e : BitVec 2) (k m : BitVec 3) (w : WholeWord),
      besideWord (.vwait d a e k m) s = some w → s.Boundary → w.fits → s.core.conv.vctl = 0 →
      (∀ n ∈ w.named, n.holds s) → s.core.live = true →
      let u := issued (.vwait d a e k m) s
      let t := w.completed (.vwait d a e k m) s
      exec .spuriousWake u = .next t ∧ ∀ line, watches line u = true → exec (.monitoredLineWrite line) u = .next t)
  ∧ (∀ (s : State) (d a b : BitVec 5) (p m : BitVec 2) (t : BitVec 6) (w : IWord), s.agent ≠ .convoy →
      fetchWord s.cur.pc s = some w → t ≠ 0 → t ≠ 63 → (m ≠ 3 ∧ w = encode (.waitw d a b p m t) ∨
        w = encode (.tlwait d a b t) ∨ w = encode (.barw d a b t)) →
      exec .waitLimitExpiry s = .next (s.modCur (fun c => { c with expired := true })))
  ∧ (∀ (s : State), s.core.convoyLive = true → s.inFlight = false → s.core.lad.act = true → s.core.lad.err = true →
      s.core.steer.mode = false → s.core.preq = false → s.core.steer.stepped = false → ∃ t, exec .trapEntry s = .next t
        ∧ ConvoyTrapped .ladMem (s.core.lad.fault.setWidth 64) 0 0 s t ∧ t.core.lad = s.core.lad)
  ∧ (∀ (s : State) (d : BitVec 5) (n : Nat), s.agent = .steer → s.core.convoyLive = true → s.core.preq = false →
      s.core.conv.st = .idle → s.core.q.bq = [] → s.inFlight = false → s.core.chainRuns = false →
      s.core.conv.parked = [] → ladPending s = false → breakDue s = false → s.core.steer.stepped = false →
      s.core.conv.trapDue = none →
      s.core.steer.outs = [] → (∀ p ∈ s.pkg.contexts, ∀ c ∈ p.2.cmds, c.task ≠ some s.core.task.serial) →
      (fetchWord s.core.steer.pc s = some (encode (.rpop d)) ∧ s.core.q.rq = [] ∧ n = 2
        ∨ fetchWord s.core.steer.pc s = some (encode (.epop d)) ∧ s.core.q.eq = [] ∧ n = 3) →
      exec .queueDeadlock s = .next (takeTrap ⟨.queueDeadlock, false, .ofNat 64 n, s.core.steer.pc⟩
        (s.modCur (fun c => { c with bksup := false }))))
  ∧ (∀ (s : State), (s.agent = .control → exec .debugStop s = .next (s.modCur (fun c => { c with
        stopped := true, expired := false })))
      ∧ (s.agent ≠ .control → s.inFlight = false → s.core.run = .running → exec .debugStop s = .next
          (s.modCore (fun c => { c with
            steer := { c.steer with stopped := true, chalt := true, expired := false }
            conv := { c.conv with st := .halted, forming := [], flight := none } }))))
  ∧ ∀ (s : State) (g : PlacedGroup) (slot : Nat), s.core.run = .running → s.taskOf s.coreId = some (g, slot) →
      ∃ t, exec .preemptionRequest s = .next t ∧ t.mem = s.mem
        ∧ ∀ u ∈ g.tasks, u.place = .running → (s.coreAt u.core).run = .running →
            t.coreAt u.core = { s.coreAt u.core with preq := true }

/-- A task's context. CONTEXT_SAVE of a halted core, whose masks, slabs and queues have the sizes of the machine, writes
PC, the general registers, the convoy scalars and the context's control registers to the core's save slot at the offsets
of 08 R207, and no byte outside the slot; CONTEXT_RESTORE loads them and the task resumes (R208). END_REPORT counts a task
of its launch, which completes when all are counted (14 R305); TASK_ABANDON after a double trap tells the home's control
core (R306); TCM_CLEAR empties TCM (03 R80). The readings and choices of log entries 14 and 40 stand in it. -/
def Obligations.ContextEvents : Prop :=
  (∀ (s : State), saveReady s = true → (∀ p ∈ s.core.conv.masks, p.1 < 65536) → (∀ p ∈ s.core.mat.acc, p.1 < 16384) →
      s.core.q.bq.length ≤ 16 → s.core.q.dq.length ≤ 32 → s.core.q.rq.length ≤ 32 → s.core.q.eq.length ≤ 16 →
      ∃ t, exec .contextSave s = .next t ∧ t.core.run = .saved
      ∧ (let key := slotKey s.coreId
        readMem64 t (key + 0x32500) = s.core.steer.pc.setWidth 64
        ∧ (∀ r, 1 ≤ r → r ≤ 31 → readMem64 t (key + 0x32500 + 8 * r) = spGet 0 s.core.steer.regs r)
        ∧ (∀ k, k < 8 → readMem64 t (key + 0x32600 + 8 * k) = readK k s)
        ∧ (∀ n ∈ contextCsrs, readMem64 t (key + 0x32680 + 8 * n) = csrRead n { s with agent := .steer })
        ∧ ∀ a, ¬Inside key 0x40000 a → readByte t a = readByte s a))
  ∧ (∀ (s : State), s.core.run = .restoring → (readMem64 s (slotKey s.coreId + 0x32680 + 8 * 0x028)).getLsbD 4 = false →
      ∃ t, exec .contextRestore s = .next t ∧ t.core.run = .running ∧ t.mem = s.mem
      ∧ (let key := slotKey s.coreId
        t.core.steer.pc = (readMem64 s (key + 0x32500)).setWidth 32
        ∧ (∀ r, 1 ≤ r → r ≤ 31 → spGet 0 t.core.steer.regs r = readMem64 s (key + 0x32500 + 8 * r))
        ∧ (∀ k, k < 8 → readK k t = readMem64 s (key + 0x32600 + 8 * k))
        ∧ t.core.steer.tval = readMem64 s (key + 0x32680 + 8 * 0x02A)
        ∧ t.core.mat.mrowp = readMem64 s (key + 0x32680 + 8 * 0x052)
        ∧ t.core.lad.lcnt = readMem64 s (key + 0x32680 + 8 * 0x061)
        ∧ t.core.steer.tvec = s.core.steer.tvec))
  ∧ (∀ (s : State) (r : Report) (l : List Report) (e : Entry), s.cluster.reports = r :: l →
      s.cluster.entry? r.entry = some e → e.kind = .kernel →
      (e.ended + 1 + e.abandoned ≠ e.block.total → exec .endReport s = .next (s.modCluster (fun c =>
        (if e.block.feed then feedReport r.entry e r.task { c with reports := l } else { c with reports := l }).modEntry
          r.entry (fun e => { e with ended := e.ended + 1, aborted := e.aborted || r.aborted }))))
      ∧ (e.ended + 1 + e.abandoned = e.block.total → ∃ t, exec .endReport s = .next t
          ∧ t.cluster.entry? r.entry = none
          ∧ t.context (entryCtx s.clusterId e) = (s.context (entryCtx s.clusterId e)).finish e.num
              (if e.abandoned ≠ 0 then 1 else if e.aborted || r.aborted then 2 else 0)))
  ∧ (∀ (s : State) (d : DoubleTrap), s.core.steer.dead = some d → s.core.run = .running ∨ s.core.run = .halted →
      ∃ t, exec .taskAbandon s = .next t ∧ (t.coreAt s.coreId).run = .clearing
      ∧ ∀ g slot e, s.taskOf s.coreId = some (g, slot) → s.cluster.entry? g.entry = some e → e.kind = .kernel →
          s.frozenAt s.clusterId = false → s.cluster.cqPosts = [] → s.cluster.cq.length + 4 ≤ 64 →
          (t.clusterAt s.clusterId).cq = s.cluster.cq ++ [.ofNat 64 (0x11 * 2 ^ 56 + d.cause.toNat % 2 ^ 8 * 2 ^ 48
            + e.ctx % 16 * 2 ^ 44 + e.num % 2 ^ 24 * 2 ^ 16 + s.coreId % 96), d.tval, d.epc.setWidth 64, s.core.task.wid])
  ∧ ∀ (s : State), s.core.run = .clearing → ∃ t, exec .tcmClear s = .next t ∧ t.core = { s.core with run := .free }
      ∧ (∀ a, Inside (tcmKey s.coreId 0) 262144 a → readByte t a = 0)
      ∧ ∀ a, ¬Inside (tcmKey s.coreId 0) 262144 a → readByte t a = readByte s a

/-- The answers to accesses. A remote load's or atomic's value goes to sd when it arrives, and a store is forgotten when it
is acknowledged (09 R216, R219); the home performs an access once no earlier one to its line is to be performed (19 R400),
and one that finds its data uncorrectable raises MEM-DATA with its address and its own PC (09 R229);
a store unanswered for too long is recorded, and a load or an atomic raises MEM-DATA, their home having performed them or
not (19 R401); no SSTEP then stands (log entry 35). With the elements of its accesses there, a vector load or store in flight
completes (09 R220). A table walk fills the agent's TLB and the cluster's (09 R230). The host writes HBM and host memory (18 R369),
and the debug port writes a frozen cluster (R391; the numbers of places are the model's own).
The readings and choices of log entries 30, 33, 35, 48, 66 stand in it. -/
def Obligations.AccessEvents : Prop :=
  (∀ (s : State) (n : Nat) (a : OutAcc), s.cur.outs[n]? = some a →
    let dropped := s.modCur (fun c => { c with outs := c.outs.eraseIdx n })
    (a.performed = true → a.kind ≠ .store → exec (.loadDataArrival n) s = .next (writeReg a.rd a.value dropped))
    ∧ (a.performed = true → a.kind = .store → exec (.storeAcknowledged n) s = .next dropped)
    ∧ (a.performed = false →
        (∀ b ∈ s.cur.outs.take n, b.performed = true ∨ (a.device = false ∧ b.key / 64 ≠ a.key / 64)) →
        (accessPoisoned a s = true → (s.agent = .control ∨ s.inFlight = false) →
          exec (.remoteAccess n) s = .next (takeTrap ⟨.memData, false, a.va, a.pc⟩ (dropped.modCur (fun c => { c with
            bksup := false, stepped := false, mfinfo := mfinfoOf 7 a.want 3 }))))
        ∧ (accessPoisoned a s = false →
        let old : Word := .ofNat 64 (readMem s a.key a.size)
        ∃ t, exec (.remoteAccess n) s = .next t
          ∧ t.cur.outs = s.cur.outs.set n { a with performed := true, value := old }
          ∧ (a.kind = .store → readMem t a.key a.size = a.data.toNat % 256 ^ a.size)
          ∧ (∀ op, a.kind = .amo op → readMem t a.key a.size = (amoOp op old a.data).toNat % 256 ^ a.size)
          ∧ (a.kind = .cas → a.size = 8 → old = a.expect → readMem t a.key 8 = a.data.toNat)
          ∧ ∀ k, ¬Inside a.key a.size k ∨ a.kind = .load → readByte t k = readByte s k))
    ∧ (a.kind = .store → (∀ b ∈ s.cur.outs.take n, b.kind ≠ .store) →
        ∃ t, exec (.remoteAccessTimeout n) s = .next t
          ∧ t.cur = { dropped.cur with failedStore := some (dropped.cur.failedStore.getD a.va) }
          ∧ (readMem t a.key a.size = readMem s a.key a.size
            ∨ a.performed = false ∧ lineBusy n a s = false ∧ readMem t a.key a.size = a.data.toNat % 256 ^ a.size)
          ∧ ∀ k, ¬Inside a.key a.size k → readByte t k = readByte s k)
    ∧ (a.kind ≠ .store → (s.agent = .control ∨ s.inFlight = false) →
        exec (.remoteAccessTimeout n) s = .next (takeTrap ⟨.memData, false, a.va, a.pc⟩
          (dropped.modCur (fun c => { c with bksup := false, stepped := false, mfinfo := mfinfoOf 7 a.want 3 })))))
  ∧ (∀ (s : State) (va : BitVec 57) (vec : Bool) (e : BitVec 64) (bits : Nat), s.agent = .steer →
      tableWalk s s.cur.ptroot va.toNat = .leaf e bits →
      let entry : TlbEntry := ⟨.ofNat 16 s.cur.ptroot.toNat, va.toNat / 2 ^ bits * 2 ^ bits, bits, e⟩
      ∃ t, exec (.tableWalk va vec) s = .next t ∧ entry ∈ t.cluster.tlb
        ∧ entry ∈ (if vec then t.core.tlbV else t.core.tlbS) ∧ t.mem = s.mem)
  ∧ (∀ (s : State) (addr key : Nat) (v : BitVec 64),
      (addr + 8 ≤ 0xC000000000 ∧ key = 0xFFF * 2 ^ 42 + addr) ∨ (2 ^ 56 ≤ addr ∧ addr + 8 ≤ 2 ^ 56 + 2 ^ 52 ∧ key = addr) →
      s.pkg.frozen = false → s.pkg.unpowered = false →
      exec (.cxlMemAccess false addr v) s = .next s
      ∧ ∃ t, exec (.cxlMemAccess true addr v) s = .next t ∧ readMem t key 8 = v.toNat
        ∧ ∀ k, ¬Inside key 8 k → readByte t k = readByte s k)
  ∧ (∀ (s : State) (v : BitVec 64) (off : Nat), s.pkg.debugEn = true → s.pkg.frozen = false → s.cluster.frozen = true →
      s.coreId < 2304 → off + 8 ≤ 262144 →
      exec (.debugPortAccess false (tcmKey s.coreId off) v) s = .next s
      ∧ ∃ t, exec (.debugPortAccess true (tcmKey s.coreId off) v) s = .next t
        ∧ readMem t (tcmKey s.coreId off) 8 = v.toNat
        ∧ ∀ k, ¬Inside (tcmKey s.coreId off) 8 k → readByte t k = readByte s k)
  ∧ ∀ (i : Instr) (s : State) (w : ElementWord), accessWord i s = some w → s.Boundary → endsConvoy i → w.issues →
      s.core.conv.vctl = 0 → (∀ n ∈ w.named, n.holds s) → s.core.live = true →
      (∀ n, n < s.vl - s.core.conv.startK.toNat → w.fits (s.core.conv.startK.toNat + n) (w.running i n s)) →
      exec .vectorElementArrival (issued i s) = .next (retired i [] [] (w.all i s))

/-- The chain and the gang. CARRY_CHAIN runs a stage: with no rung below full the tile becomes rung 0 and LCNT counts it
(11 R270, R272). GMMA_MULTICAST performs the oldest share of the core, a product of its own A and the B that the
multicast brought (14 R326), and ends the issuer's own once every multicast has arrived; GMMA_SHARE_COMPLETION arrives on
the share's barrier once its events are in eq (R327, 15 R336).
The readings and choices of log entries 36, 70, 71, 84 and 90 stand in it: what writeTile writes where h x w is odd, or where
the ladder's values are unspecified, is the model's choice of log entries 84 and 71, and an arrival on a barrier out of the
group's that of log entry 90. -/
def Obligations.GangAndChainEvents : Prop :=
  (∀ (s : State) (t : Sp (BitVec 32)), s.core.chainRuns = true → s.core.lad.tile = some t → s.core.lad.lvl = 0 →
      2 ≤ lcfgMax s.core.lad.lcfgr → s.core.lad.lcnt.getLsbD 0 = false →
      exec .carryChain s = .next ((writeTile 0 (fun e => (spGet 0 t e).toNat) s).modLad (fun l => { l with
        lcnt := l.lcnt + 1, act := false, lvl := 0, tile := none })))
  ∧ (∀ (s : State) (h : Share) (l : List Share), s.core.gang.shares = h :: l → h.ended = false → h ∉ l →
      h.pos < 8 → s.core.mat.en = true →
      let t := h.vtype.toNat % 16
      let v := shapeAt h.a.toNat s
      let read := viewElems v (ewOf t) (rowsOn h.msize h.mrowp) (List.range (sizeK h.msize))
      v.kind ≠ 0 → t ≤ 4 → shapeGated s.core.conv.planepwr v = false →
      viewHolds v (ewOf t) (sizeM h.msize) (sizeK h.msize) = true →
      exec .gmmaMulticast s = .next ((product2 h.slab.toNat h.msize h.mrowp h.mcolp (32 / ewOf t)
        (fun i k => typeVal t (viewElem v (ewOf t) i k (armedPlane h s))) (fun k j => typeVal t (spGet 0 h.b (64 * k + j)))
        (s.modConv (fun c => { c with planepwr := wakeBands c.planepwr v (ewOf t) read })).tickUp).modGang (fun g =>
          { g with shares := { h with ended := true } :: l })))
  ∧ (∀ (s : State) (h : Share) (l : List Share), s.core.gang.shares = h :: l → h.ended = false → h ∉ l →
      8 ≤ h.pos → multicastPending s = false →
      exec .gmmaMulticast s = .next (s.modGang (fun g => { g with shares := { h with ended := true } :: l })))
  ∧ ∀ (s : State) (h : Share) (l : List Share), s.core.gang.shares = h :: l → h.ended = true → eventsIn s h = true →
      let u := disarmPlane (s.modGang (fun g => { g with shares := l }))
      (h.bar = none → exec .gmmaShareCompletion s = .next u)
      ∧ ∀ bar, h.bar = some bar → exec .gmmaShareCompletion s = .next (u.modCluster (fun c =>
          let n := (s.core.task.barwin.toNat + bar.toNat) % 32
          { c with barriers := spPut 0 c.barriers n (spGet 0 c.barriers n + 1) }))

/-- The writes of control registers that have rows of their own, as the words of the stream make them: a write that the
mode does not permit, or that waits (03 R68, 09 R234, 11 R268), does not come about. PLANEPWR: the code 3 leaves a band as
it is, and the cells of a band that is OFF neither before nor after stay (03 R90, R91). LCNT and LCARRY (11 R268). GSEL
drops the slots out of the group and the own slot (14 R331). TLBINV drops the translations it names from every TLB, the
engines' too, and no other (09 R234). FQADV moves HEAD of a free queue on (14 R317). CLRESET resets the launch contexts it
marks that have no live entry (R303). CSR_WRITE stores. Whether the ladder's rungs then read as free values, `wild` and the
watches, is the model's own note (log entry 71), left open. The readings and choices of log entries 15, 33, 34, 40, 71, 77
stand in it. -/
def Obligations.RegisterEvents : Prop :=
  ∀ (s : State) (v : BitVec 64),
    (∀ p ∈ [(0x013, Instr.planepwrWrite v), (0x061, .lcntWrite v), (0x062, .lcarryWrite v), (0x071, .gselWrite v),
        (0x04A, .tlbinv v)], csrHeld p.1 v s = true → exec p.2 s = .next s)
    ∧ (csrHeld 0x013 v s = false → ∃ t, exec (.planepwrWrite v) s = .next t
      ∧ (∀ b, b < 8 → bandState t.core.conv.planepwr b =
          if v.toNat / 4 ^ b % 4 = 3 then bandState s.core.conv.planepwr b else v.toNat / 4 ^ b % 4)
      ∧ ∀ r c, r < 512 → c < 64 → readCell r c t =
          if bandState s.core.conv.planepwr (r / 64) ≠ 0 ∧ bandState t.core.conv.planepwr (r / 64) ≠ 0 then readCell r c s else 0)
    ∧ (csrHeld 0x061 v s = false → ∃ b : Bool, exec (.lcntWrite v) s = .next (s.modLad (fun l => { l with
        lcnt := v, wild := b })))
    ∧ (csrHeld 0x062 v s = false → ∃ (b : Bool) (m : List Watch), exec (.lcarryWrite v) s = .next { s.modLad (fun l => { l with
        err := v.getLsbD 7, act := v.getLsbD 6, lvl := v.setWidth 5, tile := none, wild := b }) with watches := m })
    ∧ (csrHeld 0x071 v s = false → ∃ g : BitVec 24, exec (.gselWrite v) s = .next (s.modGang (fun x => { x with gsel := g }))
      ∧ g.toNat % 128 = v.toNat % 128 ∧ g.toNat / 2 ^ 16 % 32 = v.toNat / 2 ^ 16 % 32 ∧ g.getLsbD 23 = v.getLsbD 23
      ∧ ∀ j, j < 8 → g.getLsbD (8 + j) = (v.getLsbD (8 + j)
          && decide (v.toNat % 128 + j < s.core.task.gslot.toNat / 2 ^ 8 % 256)
          && decide (v.toNat % 128 + j ≠ s.core.task.gslot.toNat % 128)))
    ∧ (csrHeld 0x04A v s = false → ∃ t, exec (.tlbinv v) s = .next t
      ∧ (∀ e, e ∈ t.core.tlbS ↔ e ∈ s.core.tlbS ∧ tlbMatches v e = false)
      ∧ (∀ e, e ∈ t.core.tlbV ↔ e ∈ s.core.tlbV ∧ tlbMatches v e = false)
      ∧ (∀ e, e ∈ t.cluster.tlb ↔ e ∈ s.cluster.tlb ∧ tlbMatches v e = false)
      ∧ (∀ key e, e ∈ (t.context key).tlb ↔ e ∈ (s.context key).tlb ∧ tlbMatches v e = false)
      ∧ (∀ c e, e ∈ (t.coreAt c).tlbS → tlbMatches v e = false) ∧ t.mem = s.mem)
    ∧ (∃ t, exec (.fqadv v) s = .next t ∧
      let q := v.toNat / 2 ^ 32 % 16
      let f := s.cluster.feed q
      t.cluster.feed q = if f.attached.isSome then f
        else { f with head := f.head + .ofNat 32 (min (v.toNat % 2 ^ 32) (f.tail - f.head).toNat) })
    ∧ (∃ t, exec (.clreset v) s = .next t ∧ ∀ n, n < 16 →
      let key := ctxKey (launchHandle s.clusterId n)
      t.context key = if v.getLsbD n && s.cluster.entries.all (fun p => p.2.kind == .proxy || p.2.ctx != n) then .reset
        else s.context key)
    ∧ ∀ c : BitVec 12, exec (.csrWrite c v) s = .next (if csrHeld c.toNat v s then s else csrStore c.toNat v v s)

/-! ## Events of a cluster and of the engines -/

/-- The scheduler (14 R297 to R318). A waiting kernel is READY once its streams are in place and its dependency is
met, and fails with a stream or a dependency that failed. Fantail places the one group of a one-task launch on the lowest
free core, which starts at the block's entry. An entry may become overdue, and pre-emption for priority asks lower groups
to stop and reserves their cores. The pump copies the stream that it has in hand and completes it with the copy's error, 0
or 4; where source and destination share no byte and every byte is in reach and correctable, the error is 0 and, when no
command of a lower number has failed, the destination holds the source's bytes. A released stream is freed with its release. A feed crossing triggers the next task
of the queue's launch and, of an even queue, posts its event to the task that wrote the entry.
The readings and choices of log entries 37, 39, 40, 41, 55 stand in it. -/
def Obligations.SchedulerEvents : Prop :=
  (∀ (s : State) (n : Nat) (e : Entry), s.cluster.entry? n = some e → e.kind = .kernel → e.st = .waiting →
    let dep := s.context (ctxKey e.block.deph)
    ((∀ j ∈ e.streams, ∀ y, s.cluster.entry? j = some y → y.st = .done ∧ y.err = 0) →
      (e.block.deph = 0 ∨ e.block.depv.toNat ≤ dep.count.toNat) →
      exec (.entryReady n) s = .next (s.modCluster (·.modEntry n (fun e => { e with st := .ready }))))
    ∧ ((∃ j ∈ e.streams, ∃ y, s.cluster.entry? j = some y ∧ y.err ≠ 0)
        ∨ (e.block.deph ≠ 0 ∧ dep.settled e.block.depv = some false) →
      ∃ t, exec (.entryReady n) s = .next t ∧ t.cluster.entry? n = none
        ∧ t.context (entryCtx s.clusterId e) = (s.context (entryCtx s.clusterId e)).finish e.num 3))
  ∧ (∀ (s : State) (n core : Nat) (e : Entry), s.cluster.entries = [(n, e)] → e.kind = .kernel → e.st = .ready →
      e.block.cmask = 0 → e.block.gang = 1 → e.block.nbar = 0 → e.block.prio.toNat ≤ 3 → e.block.feed = false →
      e.next + 1 = e.upTo → e.overdue = false →
      s.cluster.groups = [] → s.cluster.reserved = [] → clusterHeld s s.clusterId = false →
      e.block.power.toNat ≤ s.cluster.grant.toNat → (freeCores s s.clusterId n).head? = some core →
      ∃ t, exec .fantailRun s = .next t ∧ (t.coreAt core).run = .running
        ∧ (t.coreAt core).steer.pc = e.block.entry ∧ (t.coreAt core).task.wid = e.block.widOf e.next
        ∧ (t.coreAt core).task.cwaddr = e.block.cwaddr ∧ (t.coreAt core).steer.mode = false
        ∧ (t.cluster.entry? n).map (fun x => (x.st, x.next)) = some (.running, e.upTo))
  ∧ (∀ (s : State) (n : Nat) (e : Entry), s.cluster.entry? n = some e → placeable s.cluster n e = true →
      clusterHeld s s.clusterId = false →
      exec (.overdue n) s = .next (s.modCluster (·.modEntry n (fun x => { x with overdue := true })))
      ∧ (let lack := coresLacked s s.clusterId n e
        let gs := chooseGroups (lowerGroups s.cluster e.block.prio.toNat) lack
        let cores := gs.flatMap PlacedGroup.cores
        e.block.preempt = true → lack ≠ 0 → powerFits s s.clusterId (nextSize s.cluster n e) e = true →
        lack ≤ cores.length → slotsPromised s s.cluster + cores.length ≤ (freeSlots s.cluster).length →
        ∃ t, exec (.priorityPreemption n) s = .next t
          ∧ t.cluster.reserved = s.cluster.reserved ++ cores.map (fun k => (k, n))
          ∧ ∀ g ∈ gs, ∀ u ∈ g.tasks, u.place = .running → (s.coreAt u.core).run = .running →
              (t.coreAt u.core).preq = true))
  ∧ (∀ (s : State) (n : Nat) (e : Entry), s.cluster.entry? n = some e → e.st = .running →
      (s.cluster.entries.map (·.1)).Nodup →
      let p := pumpCopy e s
      let key := entryCtx s.clusterId e
      (e.kind = .streamIn → ∃ t, exec (.streamPumpTransfer n) s = .next t
        ∧ t.cluster.entry? n = some { e with st := .done, err := p.err }
        ∧ t.context key = (s.context key).finish e.num p.err ∧ t.mem = p.s.mem)
      ∧ (e.kind = .streamOut → ∃ t, exec (.streamOutCopy n) s = .next t
        ∧ t.cluster.entry? n = none ∧ t.cluster.entry? e.target = none
        ∧ (e.len = 0 → t.context key = (s.context key).finish e.num 0 ∧ t.mem = s.mem)
        ∧ (e.len ≠ 0 → t.context key = (s.context key).finish e.num p.err ∧ t.mem = p.s.mem))
      ∧ (p.err = 0 ∨ p.err = 4)
      ∧ ∀ k m : Nat → Nat, s.poison = [] → CopyPlaces s e k m →
          (∀ i j, i < e.len → j < e.len → k i ≠ m j ∧ (m i = m j → i = j)) →
          p.err = 0
            ∧ ((s.context key).failedBelow e.num = false → ∀ i, i < e.len → readByte p.s (m i) = readByte s (k i))
            ∧ ∀ a, (∀ j, j < e.len → a ≠ m j) → readByte p.s a = readByte s a)
  ∧ ∀ (s : State) (q : BitVec 4) (task i : Nat) (l : List Nat) (e : Entry),
      let f := s.cluster.feed q.toNat
      f.written = task :: l → f.attached = some i → s.cluster.entry? i = some e →
      let ev : Word := .ofNat 64 (2 * 2 ^ 56 + q.toNat * 2 ^ 48 + (f.crossings + 1) * f.vlfeed.toNat % 2 ^ 32)
      let u := if f.even then postTask task ev s else s
      ∃ t, exec (.feedCrossing q) s = .next t
        ∧ t.cluster.feed q.toNat = { f with crossings := f.crossings + 1, written := l }
        ∧ (∀ c, t.coreAt c = u.coreAt c) ∧ t.mem = u.mem ∧ t.cluster.eqPosts = u.cluster.eqPosts
        ∧ (t.cluster.entry? i).map (fun x => (x.triggered, x.upTo)) = some
            (if e.triggered < e.block.total then (e.triggered + 1, e.upTo + 1) else (e.triggered, e.upTo))

/-- The engines (16 R341 to R351; 19 R402 to R407). TIMELINE_ADVANCE performs the head command: a FILL of one row of bytes
in the die store writes PADV's low byte over it, and nothing else, and COUNT counts it. COMMAND_FAILED records a failure with
a code that the command has (R351, R406), and changes CRCR for a copy alone (R348). A collective fails with the code of its
own member's checks; without one it fails with 9 when its limit passes, and with 8 when a member is out of reach, and a
CRED of a member that receives nothing finishes when every member has issued its tag. A copy or media command, or a stream
copy, whose deadline has come is promoted (19 R398). The readings and choices of log entries 33, 41, 46 stand in it: the
TLB that the walks of a collective's pages leave is the model's choice of log entry 33. -/
def Obligations.EngineEvents : Prop :=
  (∀ (s : State) (h : Nat) (cmd : Cmd), headCommand s h = some cmd →
    (cmd.op = .fill → h / 2 ^ 28 = 1 → commandHeld h cmd s = false →
      let d := copyDesc cmd.desc
      d.valid .fill = true → d.esz = 0 → d.n1 = 1 → d.swzD = false → d.spcD = 2 → d.dst + d.n0 ≤ 0x6000000 → s.poison = [] →
      (s.context h).failed = false →
      ∃ t u, exec (.timelineAdvance h) s = .next t ∧ t.context h = { (s.context h).finish cmd.num 0 with undo := u }
        ∧ (∀ a, Inside (dieKey (keyDie h) d.dst) d.n0 a → (readByte t a).toNat = d.padv % 256)
        ∧ ∀ a, ¬Inside (dieKey (keyDie h) d.dst) d.n0 a → readByte t a = readByte s a)
    ∧ (∀ err ∈ cmd.op.codes, ∃ t crc, exec (.commandFailed h err) s = .next t
        ∧ t.context h = { (s.context h).finish cmd.num err with crcr := crc }
        ∧ (cmd.op ≠ .copy → cmd.op ≠ .copy2 → crc = (s.context h).crcr))
    ∧ (∀ err, err ∉ cmd.op.codes → exec (.commandFailed h err) s = .next s)
    ∧ (cmd.op = .cred ∨ cmd.op = .cbcast →
      let u := walkPages h cmd s
      (∃ t, exec (.collectiveTimeout h) s = .next t
        ∧ t.context h = (s.context h).finish cmd.num ((collFault h cmd s).getD 9))
      ∧ (collFault h cmd s = none → ∃ t, exec (.memberUnreachable h) s = .next t
        ∧ t.context h = (s.context h).finish cmd.num 8)
      ∧ (∃ l, u.context h = { s.context h with tlb := l })
      ∧ (∀ e, collFault h cmd u = some e → ∃ t, exec (.collectiveMatch h) s = .next t
        ∧ t.context h = (u.context h).finish cmd.num e)
      ∧ (cmd.op = .cred → (collDesc cmd.desc).needsDst cmd.op = false → collFault h cmd u = none →
        ∀ own, engineWords (cmd.plain h) (collDesc cmd.desc).src (collDesc cmd.desc).elem (collDesc cmd.desc).count u = .ok own →
        ∃ t, exec (.collectiveMatch h) s = .next t
          ∧ t.context h = (u.context h).finish cmd.num (if Config.freeBool u.tick then 7 else 0))))
  ∧ ∀ (s : State) (key l : Nat), ∃ t, exec .offloadPromotion s = .next t
      ∧ (t.context key).cmds = (s.context key).cmds.map (fun c => { c with
          promoted := c.promoted || (c.op != .cred && c.op != .cbcast && decide (c.deadline.toNat ≤ (s.now).toNat)) })
      ∧ (t.clusterAt l).entries = (s.clusterAt l).entries.map (fun p => (p.1, promoteEntry s.now p.2))

/-! ## Events of the package -/

/-- The host's registers (18 R371, R374, R388, R390). CLRST empties the clusters it names: scoreboard, groups, cq, barriers
and launch contexts, their cores and their scratchpads. PREQ asks the running tasks it matches, with their gangs, to
stop, and is DONE once they have. CLHOLD, and PLIMIT within its bounds, are stored. FRZ and the freeze signal stop a
scope's clocks, and a thaw lets a cluster or a die go on, and delivers the events that have waited for its cores alone (no
event for a saved task waits in its cluster).
The readings and choices of log entries 49, 52, 53, 83 and 87 stand in it: that a frozen cluster is reset at once is the
model's choice of log entry 83, and what a reset does to a debugger's attachment that of log entry 87. -/
def Obligations.HostEvents : Prop :=
  ∀ (s : State) (v : BitVec 64),
    (∃ t, exec (.clusterReset v) s = .next t ∧ ∀ l, l < 24 → v.getLsbD l = true →
      (t.clusterAt l).entries = [] ∧ (t.clusterAt l).groups = [] ∧ (t.clusterAt l).cq = []
      ∧ (t.clusterAt l).barriers = [] ∧ (∀ n, n < 16 → t.context (ctxKey (launchHandle l n)) = .reset)
      ∧ (∀ n, n < 96 → (t.coreAt (96 * l + n)).run = .free ∨ (t.coreAt (96 * l + n)).run = .clearing)
      ∧ ∀ a, Inside (spadKey l 0) (2 ^ 25) a → readByte t a = 0)
    ∧ (s.pkg.preqBusy = false → ∃ t, exec (.hostPreemptionRequest v) s = .next t
      ∧ t.pkg.preqBusy = true ∧ t.pkg.preqDone = false ∧ t.mem = s.mem
      ∧ ∀ l, l < 24 → ∀ g ∈ (s.clusterAt l).groups, (∃ u ∈ g.tasks, u.place = .running ∧
          preqMatches ((v >>> 40).setWidth 8) ((v >>> 32).setWidth 8) ((v >>> 24).setWidth 8) u.core = true) →
          ∀ u ∈ g.tasks, u.place = .running → (s.coreAt u.core).run = .running → (t.coreAt u.core).preq = true)
    ∧ (s.pkg.preqBusy = true → (∀ n ∈ s.pkg.preqTasks, preqSettled s n = true) → exec .preqComplete s = .next
        (s.modPkg (fun p => { p with preqBusy := false, preqDone := true, preqTasks := [], msix := p.msix ||| 4 })))
    ∧ exec (.clholdWrite v) s = .next (s.modPkg (fun p => { p with clhold := v.setWidth 24 }))
    ∧ exec (.plimitWrite v) s = .next (s.modPkg (fun p => { p with
        plimit := .ofNat 16 (max 1900 (min 4400 (v.toNat % 2 ^ 16))) }))
    ∧ (let scope := v.toNat / 2 ^ 8 % 4
      let die := v.toNat / 2 ^ 5 % 8
      let clus := v.toNat % 4
      (scope < 3 → die < 6 → (∃ t, exec (.freeze v) s = .next t ∧ scopeFrozen t scope die clus = true)
        ∧ (s.pkg.debugEn = true → ∃ t, exec (.freezeSignal v) s = .next t ∧ scopeFrozen t scope die clus = true))
      ∧ (s.pkg.debugEn = false → exec (.freezeSignal v) s = .next s)
      ∧ (scope < 2 → die < 6 → (∀ l, l < 24 → (s.clusterAt l).eqPosts = []) → ∃ t, exec (.thaw v) s = .next t ∧ scopeFrozen t scope die clus = false
          ∧ t.mem = s.mem ∧ { t.core with q := s.core.q } = s.core
          ∧ t.core.q.eq ++ t.core.q.posts = s.core.q.eq ++ s.core.q.posts
          ∧ { t.core.q with eq := s.core.q.eq, posts := s.core.q.posts } = s.core.q))

/-- The mailbox (18 R382 to R387) and the ends of a power cycle (R380, R386). While the package has power: in READY,
COMMIT_SVN fuses the SVN, DBGEN turns the debug port on or off, CLLOG hands out in MBDATA the oldest messages of a
cluster's log (at most 256, the model's choice in log entry 51), CERT the certificates and ATTEST a report of 4,908 bytes
that begins with the nonce; another code answers 1. In RECOVERY, an image that verifies is written to flash and starts to
boot (STATE 1), and RECOVER answers 3 for another. A package reset leaves every core and all on-die memory as reset has
them, and the ROM boots from flash. After a power loss nothing runs.
The readings and choices of log entries 9, 51, 86 and 93 stand in it: the verification of an image rests on the digests and
signatures of log entry 86, which are PRESUMED, and CODE 3 for a wrong ARG is the model's choice of log entry 93. -/
def Obligations.MailboxEvents : Prop :=
  ∀ (s : State) (v : BitVec 64),
    (s.pkg.bootState = 2 → s.pkg.mbBusy = false → s.pkg.unpowered = false →
      (∃ t, exec .commitSvn s = .next t ∧ t.pkg.fusedSvn = s.pkg.svn ∧ t.pkg.mbDone = true ∧ t.pkg.mbCode = 0)
      ∧ (v.toNat % 2 ^ 32 < 2 → ∃ t, exec (.dbgen v) s = .next t ∧ t.pkg.debugEn = decide (v.toNat % 2 ^ 32 = 1)
          ∧ t.pkg.mbDone = true ∧ t.pkg.mbCode = 0)
      ∧ (v.toNat % 2 ^ 32 < 24 →
          let bytes := ((s.clusterAt (v.toNat % 2 ^ 32)).log.take 256).flatMap (·.flatMap (fun w => leBytes 8 w.toNat))
          ∃ t, exec (.cllog v) s = .next t ∧ t.pkg.mbCode = 0
          ∧ t.pkg.mbLen = .ofNat 32 bytes.length
          ∧ (∀ j, j < bytes.length → readByte t (mbdataKey j) = bytes.getD j 0)
          ∧ (t.clusterAt (v.toNat % 2 ^ 32)).log = (s.clusterAt (v.toNat % 2 ^ 32)).log.drop 256)
      ∧ (∃ t, exec .cert s = .next t ∧ t.pkg.mbCode = 0 ∧ t.pkg.mbLen = .ofNat 32 Config.certificates.length
          ∧ ∀ j, j < Config.certificates.length → readByte t (mbdataKey j) = Config.certificates.getD j 0)
      ∧ (∃ t, exec .attest s = .next t ∧ t.pkg.mbCode = 0 ∧ t.pkg.mbDone = true ∧ t.pkg.mbLen = 4908
          ∧ ∀ j, j < 64 → readByte t (mbdataKey j) = readByte s (mbdataKey j))
      ∧ (∀ c : BitVec 8, c = 0 ∨ 6 < c.toNat → ∃ t, exec (.unknownCommand c) s = .next t ∧ t.pkg.mbCode = 1
          ∧ t.pkg.mbCmd = c ∧ t.mem = s.mem))
    ∧ (s.pkg.bootState = 3 → s.pkg.mbBusy = false → s.pkg.unpowered = false → s.MemoryCanonical →
      let good := verifySteps s (recoveryKey 0) = 0 ∧ v.toNat % 2 ^ 32 = 0x2000 + readMem s (recoveryKey 12) 4
      ∃ t, exec (.recover v) s = .next t
        ∧ (good → t.pkg.bootState = 1 ∧ t.pkg.bootFail = 0 ∧ t.pkg.mbCode = 0
          ∧ ∀ j, j < 0x1000000 → readByte t (flashKey j) = readByte s (recoveryKey j))
        ∧ (¬good → t.pkg.bootState = 3 ∧ t.pkg.mbCode = 3 ∧ t.mem = s.mem))
    ∧ (∃ t, exec .packageReset s = .next t ∧ (t.pkg.bootState = 1 ∨ t.pkg.bootState = 3)
      ∧ (∀ c, t.coreAt c = .reset) ∧ t.pkg.fusedSvn = s.pkg.fusedSvn ∧ t.pkg.plimit = 4400
      ∧ ∀ k, 2 ^ 60 ≤ k → k < 2 ^ 64 → readByte t k = 0)
    ∧ ∃ t, exec .powerLoss s = .next t ∧ t.pkg.cutOff = true ∧ t.pkg.unpowered = true ∧ t.mem = s.mem

/-- Power, scrubbing and links (16 R340; 18 R376 to R380; 19 R394 to R396, R408). A grant cycle's grants cover each floor
and, with the 350 W of the rest, stay within PLIMIT; a die above 105 degrees that has not cooled gets at most 90 % of the
grant before. A grant that reaches a die is in force there, PGRANT shows it, and each of its clusters that is not frozen
takes its share and orders half rate where its full estimates exceed it; a die that misses two falls to its floor. A
cut-off stops the package. A flit in order is accepted and acknowledged; one with a bad CRC is refused with a NAK and drops
what follows; a replay sends and counts the flits held from the one named, at most 512; a port trains, comes up at 8 lanes
or 4 or stays down, and goes down; with one master in the domain a package takes its measured offset, and a master's is 0.
The readings and choices of log entries 50, 59, 80 and 92 stand in it: the demand in whole watts is the model's choice of log
entry 80, and the rounding of the capped grant and of the shares that of log entry 92. -/
def Obligations.PowerAndLinkEvents : Prop :=
  (∀ (limit : Nat) (demand : Nat → Nat), 1900 ≤ limit →
    (∀ p ∈ grantsFor limit demand, floorW p.1 ≤ p.2) ∧ ((grantsFor limit demand).map (·.2)).sum + 350 ≤ limit)
  ∧ (∀ (s : State) (d : Nat), d < 6 →
    (s.pkg.frozen = false → s.pkg.unpowered = false → ∃ t g, exec .grantCycle s = .next t
      ∧ (d, g) ∈ grantsFor s.pkg.plimit.toNat (demandW s) ∧ t.mem = s.mem
      ∧ (let hot := (s.dieAt d).hot && !Config.cooled (s.tick + d)
        (t.dieAt d).hot = hot
        ∧ (t.dieAt d).pending = some (.ofNat 16 (if hot then min g ((s.dieAt d).grant.toNat * 9 / 10) else g))))
    ∧ (∀ g, (s.dieAt d).pending = some g → ∃ t, exec (.grantDelivery d) s = .next t ∧ (t.dieAt d).grant = g
        ∧ (t.dieAt d).pending = none ∧ (t.dieAt d).missed = 0 ∧ (spGet 0 t.pkg.pgrant d).toNat % 2 ^ 16 = g.toNat
        ∧ ∀ k, k < 4 →
          let share := clusterShare s d g.toNat k
          if s.frozenAt (4 * d + k) then t.clusterAt (4 * d + k) = s.clusterAt (4 * d + k)
          else t.clusterAt (4 * d + k) = { s.clusterAt (4 * d + k) with
            grant := .ofNat 32 share, half := decide (share < clusterFull s (4 * d + k)) })
    ∧ (∃ t, exec (.missedGrants d) s = .next t ∧ (t.dieAt d).missed = (s.dieAt d).missed + 1
        ∧ (t.dieAt d).grant = if (s.dieAt d).missed = 0 then (s.dieAt d).grant else 224)
    ∧ (∃ t, exec (.thermalThrottle d) s = .next t ∧ (t.dieAt d).hot = true)
    ∧ ∃ t, exec (.dieStoreScrub d) s = .next t ∧ (t.dieAt d).corrected = [] ∧ t.mem = s.mem)
  ∧ (∀ (s : State) (p : Nat) (n : BitVec 16) (v : BitVec 64),
    exec .thermalCutoff s = .next (s.modPkg (fun p => { p with cutOff := true, msix := p.msix ||| 1 }))
    ∧ exec .hbmScrub s = .next (s.modPkg (fun p => { p with corrected := [] }))
    ∧ (p < 18 →
      let q := s.port p
      let seq : BitVec 12 := n.setWidth 12
      (q.isUp = true →
        (∃ t, exec (.flitReceive p n true) s = .next t ∧ (seq ≠ q.expected → t.port p = q)
          ∧ (seq = q.expected → (t.port p).expected = q.expected + 1 ∧ (t.port p).dropping = false
            ∧ FlitSent q (t.port p) (q.refused.getD q.expected) q.refused.isSome))
        ∧ (∃ t, exec (.flitReceive p n false) s = .next t ∧ (t.port p).expected = q.expected
          ∧ (q.dropping = true → seq ≠ q.expected → t.port p = q)
          ∧ (q.dropping = false ∨ seq = q.expected → (t.port p).dropping = true ∧ FlitSent q (t.port p) q.expected true))
        ∧ ∃ t, exec (.nakReplay p n) s = .next t ∧ (q.heldFrom seq = [] → t.port p = q)
            ∧ (q.heldFrom seq ≠ [] → q.held.length ≤ 512 → 1 ≤ (q.heldFrom seq).length ∧ (q.heldFrom seq).length ≤ 512
              ∧ (t.port p).replay.toNat = min (2 ^ 32 - 1) (q.replay.toNat + (q.heldFrom seq).length)))
      ∧ (q.trains = true → ∃ t, exec (.portRetrain p) s = .next t ∧ (t.port p).state = 1 ∧ (t.port p).width = 0)
      ∧ (q.state = 1 → ∃ t, exec (.portRetrain p) s = .next t
          ∧ ((t.port p).state = 2 ∧ (t.port p).width = 8 ∨ (t.port p).state = 3 ∧ (t.port p).width = 4
            ∨ (t.port p).state = 0 ∧ (t.port p).width = 0))
      ∧ ∃ t, exec (.portDown p) s = .next t ∧ (t.port p).state = 0 ∧ (t.port p).width = 0)
    ∧ (s.fab.master = false → v.toNat / 2 ^ 32 = 1 → ∃ t, exec (.timeMessage v) s = .next t
        ∧ t.fab.ofs = v.setWidth 32 ∧ -100 ≤ t.fab.rate ∧ t.fab.rate ≤ 100)
    ∧ (s.fab.master = true → v.toNat / 2 ^ 32 = 0 → ∃ t, exec (.timeMessage v) s = .next t
        ∧ t.fab.ofs = 0 ∧ t.fab.rate = 0))
end

