-- ==== Sys2Proof/Laws/Sparse.lean ====
section
/-! SUPPORT. The laws of sparse maps: a read after a write, and the canonical form kept by every write. -/

namespace Sys2Proof.Machine

variable {α : Type}

@[simp] theorem spGet_nil (d : α) (i : Nat) : spGet d [] i = d := rfl

theorem spGet_erase_self (d : α) (m : Sp α) (i : Nat) : spGet d (spErase m i) i = d := by
  induction m with
  | nil => rfl
  | cons p m ih =>
    obtain ⟨j, v⟩ := p
    by_cases h : i = j
    · simp [spErase, h]; simpa [h] using ih
    · simp [spErase, spGet, h, ih]

theorem spGet_erase_ne (d : α) (m : Sp α) {i k : Nat} (hk : k ≠ i) :
    spGet d (spErase m i) k = spGet d m k := by
  induction m with
  | nil => rfl
  | cons p m ih =>
    obtain ⟨j, v⟩ := p
    by_cases h : i = j
    · subst h; simp [spErase, spGet, hk, ih]
    · by_cases h2 : k = j <;> simp [spErase, spGet, h, h2, ih]

theorem spGet_insert_ne (d : α) (m : Sp α) {i k : Nat} (v : α) (hk : k ≠ i) :
    spGet d (spInsert m i v) k = spGet d m k := by
  induction m with
  | nil => simp [spInsert, spGet, hk]
  | cons p m ih =>
    obtain ⟨j, w⟩ := p
    by_cases h : i < j
    · simp [spInsert, spGet, h, hk]
    · by_cases h2 : k = j <;> simp [spInsert, spGet, h, h2, ih]

theorem spGet_insert_self (d : α) (m : Sp α) (i : Nat) (v : α) (hm : ∀ p ∈ m, p.1 ≠ i) :
    spGet d (spInsert m i v) i = v := by
  induction m with
  | nil => simp [spInsert, spGet]
  | cons p m ih =>
    obtain ⟨j, w⟩ := p
    have hj : j ≠ i := hm (j, w) (by simp)
    by_cases h : i < j
    · simp [spInsert, spGet, h]
    · simp [spInsert, spGet, h, hj.symm]
      exact ih (fun p hp => hm p (by simp [hp]))

theorem spErase_not_mem (m : Sp α) (i : Nat) : ∀ p ∈ spErase m i, p.1 ≠ i := by
  induction m with
  | nil => simp [spErase]
  | cons p m ih =>
    obtain ⟨j, v⟩ := p
    by_cases h : i = j
    · simpa [spErase, h] using ih
    · intro q hq
      simp only [spErase, h, if_false, List.mem_cons] at hq
      rcases hq with rfl | hq
      · exact fun e => h e.symm
      · exact ih q hq

/-- A read after a write: the written key reads the written value, and every other key is as before. -/
theorem spGet_put [DecidableEq α] (d : α) (m : Sp α) (i k : Nat) (v : α) :
    spGet d (spPut d m i v) k = if k = i then v else spGet d m k := by
  by_cases hv : v = d
  · subst hv
    by_cases hk : k = i
    · subst hk; simp [spPut, spGet_erase_self]
    · simp [spPut, hk, spGet_erase_ne _ _ hk]
  · by_cases hk : k = i
    · subst hk; simp [spPut, hv, spGet_insert_self _ _ _ _ (spErase_not_mem m k)]
    · simp [spPut, hv, hk, spGet_insert_ne _ _ _ hk, spGet_erase_ne _ _ hk]

@[simp] theorem spGet_put_self [DecidableEq α] (d : α) (m : Sp α) (i : Nat) (v : α) :
    spGet d (spPut d m i v) i = v := by simp [spGet_put]

theorem spGet_put_ne [DecidableEq α] (d : α) (m : Sp α) {i k : Nat} (v : α) (h : k ≠ i) :
    spGet d (spPut d m i v) k = spGet d m k := by simp [spGet_put, h]

theorem spSorted_mono (m : Sp α) {a b : Nat} (h : a ≤ b) (hs : spSorted (some b) m = true) :
    spSorted (some a) m = true := by
  cases m with
  | nil => rfl
  | cons p m =>
    obtain ⟨j, v⟩ := p
    simp only [spSorted, Bool.and_eq_true, decide_eq_true_eq] at hs ⊢
    exact ⟨by omega, hs.2⟩

theorem spSorted_erase (m : Sp α) (i : Nat) (a : Option Nat) (hs : spSorted a m = true) :
    spSorted a (spErase m i) = true := by
  induction m generalizing a with
  | nil => cases a <;> rfl
  | cons p m ih =>
    obtain ⟨j, v⟩ := p
    cases a with
    | none =>
      simp only [spSorted] at hs
      by_cases h : i = j
      · simp only [spErase, h, if_true]
        have hj := ih (some j) hs
        subst h
        revert hj
        cases hm : spErase m i with
        | nil => simp [spSorted]
        | cons q t => obtain ⟨q, w⟩ := q; simp [spSorted]
      · simp only [spErase, h, if_false, spSorted]; exact ih _ hs
    | some l =>
      simp only [spSorted, Bool.and_eq_true, decide_eq_true_eq] at hs
      by_cases h : i = j
      · simp only [spErase, h, if_true]
        rw [← h]
        exact spSorted_mono _ (le_of_lt (by omega : l < j)) (h ▸ ih (some j) hs.2)
      · simp only [spErase, h, if_false, spSorted, Bool.and_eq_true, decide_eq_true_eq]
        exact ⟨hs.1, ih _ hs.2⟩

theorem spSorted_insert (m : Sp α) (i : Nat) (v : α) (a : Option Nat) (hm : ∀ p ∈ m, p.1 ≠ i)
    (ha : ∀ l, a = some l → l < i) (hs : spSorted a m = true) : spSorted a (spInsert m i v) = true := by
  induction m generalizing a with
  | nil =>
    cases a with
    | none => rfl
    | some l => simp [spInsert, spSorted, ha l rfl]
  | cons p m ih =>
    obtain ⟨j, w⟩ := p
    have hj : j ≠ i := hm (j, w) (by simp)
    have hm' : ∀ p ∈ m, p.1 ≠ i := fun p hp => hm p (by simp [hp])
    by_cases h : i < j
    · cases a with
      | none => simp only [spSorted] at hs; simp [spInsert, h, spSorted, hs]
      | some l =>
        simp only [spSorted, Bool.and_eq_true, decide_eq_true_eq] at hs
        simp [spInsert, h, spSorted, ha l rfl, hs.2]
    · have hij : j < i := by omega
      cases a with
      | none =>
        simp only [spSorted] at hs
        simp only [spInsert, h, if_false, spSorted]
        exact ih (some j) hm' (by intro l hl; cases hl; exact hij) hs
      | some l =>
        simp only [spSorted, Bool.and_eq_true, decide_eq_true_eq] at hs
        simp only [spInsert, h, if_false, spSorted, Bool.and_eq_true, decide_eq_true_eq]
        exact ⟨hs.1, ih (some j) hm' (by intro l hl; cases hl; exact hij) hs.2⟩

theorem mem_spErase (m : Sp α) (i : Nat) (p : Nat × α) (h : p ∈ spErase m i) : p ∈ m := by
  induction m with
  | nil => simp [spErase] at h
  | cons q m ih =>
    obtain ⟨j, v⟩ := q
    by_cases hij : i = j
    · simp only [spErase, hij, if_true] at h
      exact List.mem_cons_of_mem _ (ih (by rw [hij]; exact h))
    · simp only [spErase, hij, if_false, List.mem_cons] at h
      rcases h with rfl | h
      · simp
      · exact List.mem_cons_of_mem _ (ih h)

theorem mem_spInsert (m : Sp α) (i : Nat) (v : α) (p : Nat × α) (h : p ∈ spInsert m i v) :
    p = (i, v) ∨ p ∈ m := by
  induction m with
  | nil => simpa [spInsert] using h
  | cons q m ih =>
    obtain ⟨j, w⟩ := q
    by_cases hij : i < j
    · simpa [spInsert, hij] using h
    · simp only [spInsert, hij, if_false, List.mem_cons] at h
      rcases h with rfl | h
      · simp
      · rcases ih h with h | h
        · exact .inl h
        · exact .inr (List.mem_cons_of_mem _ h)

/-- Every write keeps the canonical form. -/
theorem spWf_put [DecidableEq α] (d : α) (m : Sp α) (i : Nat) (v : α) (h : spWf d m = true) :
    spWf d (spPut d m i v) = true := by
  simp only [spWf, Bool.and_eq_true, List.all_eq_true, decide_eq_true_eq] at h ⊢
  by_cases hv : v = d
  · simp only [spPut, hv, if_true]
    exact ⟨spSorted_erase _ _ _ h.1, fun p hp => h.2 p (mem_spErase _ _ _ hp)⟩
  · simp only [spPut, hv, if_false]
    refine ⟨spSorted_insert _ _ _ _ (spErase_not_mem m i) (by simp) (spSorted_erase _ _ _ h.1), ?_⟩
    intro p hp
    rcases mem_spInsert _ _ _ _ hp with rfl | hp
    · exact hv
    · exact h.2 p (mem_spErase _ _ _ hp)

theorem spWf_nil [DecidableEq α] (d : α) : spWf d ([] : Sp α) = true := rfl

end Sys2Proof.Machine
end

