-- ==== Sys2Proof/Laws/State.lean ====
section
/-! SUPPORT. What each update of the state leaves in each of its fields, and the laws of registers, convoy scalars, masks,
cells and slabs: a read after a write. -/

namespace Sys2Proof.Machine

variable (s : State)

/-! ## Updates of one part -/

@[simp] theorem State.modCore_tick (f : Core → Core) : (s.modCore f).tick = s.tick := rfl
@[simp] theorem State.modCore_time (f : Core → Core) : (s.modCore f).time = s.time := rfl
@[simp] theorem State.modCore_agenda (f : Core → Core) : (s.modCore f).agenda = s.agenda := rfl
@[simp] theorem State.modCore_agent (f : Core → Core) : (s.modCore f).agent = s.agent := rfl
@[simp] theorem State.modCore_stalled (f : Core → Core) : (s.modCore f).stalled = s.stalled := rfl
@[simp] theorem State.modCore_coreId (f : Core → Core) : (s.modCore f).coreId = s.coreId := rfl
@[simp] theorem State.modCore_core (f : Core → Core) : (s.modCore f).core = f s.core := rfl
@[simp] theorem State.modCore_cores (f : Core → Core) : (s.modCore f).cores = s.cores := rfl
@[simp] theorem State.modCore_cluster (f : Core → Core) : (s.modCore f).cluster = s.cluster := rfl
@[simp] theorem State.modCore_clusters (f : Core → Core) : (s.modCore f).clusters = s.clusters := rfl
@[simp] theorem State.modCore_die (f : Core → Core) : (s.modCore f).die = s.die := rfl
@[simp] theorem State.modCore_dies (f : Core → Core) : (s.modCore f).dies = s.dies := rfl
@[simp] theorem State.modCore_pkg (f : Core → Core) : (s.modCore f).pkg = s.pkg := rfl
@[simp] theorem State.modCore_fab (f : Core → Core) : (s.modCore f).fab = s.fab := rfl
@[simp] theorem State.modCore_mem (f : Core → Core) : (s.modCore f).mem = s.mem := rfl
@[simp] theorem State.modCore_poison (f : Core → Core) : (s.modCore f).poison = s.poison := rfl
@[simp] theorem State.modCore_watches (f : Core → Core) : (s.modCore f).watches = s.watches := rfl
@[simp] theorem State.modSteer_tick (f : Steer → Steer) : (s.modSteer f).tick = s.tick := rfl
@[simp] theorem State.modSteer_time (f : Steer → Steer) : (s.modSteer f).time = s.time := rfl
@[simp] theorem State.modSteer_agenda (f : Steer → Steer) : (s.modSteer f).agenda = s.agenda := rfl
@[simp] theorem State.modSteer_agent (f : Steer → Steer) : (s.modSteer f).agent = s.agent := rfl
@[simp] theorem State.modSteer_stalled (f : Steer → Steer) : (s.modSteer f).stalled = s.stalled := rfl
@[simp] theorem State.modSteer_coreId (f : Steer → Steer) : (s.modSteer f).coreId = s.coreId := rfl
@[simp] theorem State.modSteer_core (f : Steer → Steer) :
    (s.modSteer f).core = { s.core with steer := f s.core.steer } := rfl
@[simp] theorem State.modSteer_cores (f : Steer → Steer) : (s.modSteer f).cores = s.cores := rfl
@[simp] theorem State.modSteer_cluster (f : Steer → Steer) : (s.modSteer f).cluster = s.cluster := rfl
@[simp] theorem State.modSteer_clusters (f : Steer → Steer) : (s.modSteer f).clusters = s.clusters := rfl
@[simp] theorem State.modSteer_die (f : Steer → Steer) : (s.modSteer f).die = s.die := rfl
@[simp] theorem State.modSteer_dies (f : Steer → Steer) : (s.modSteer f).dies = s.dies := rfl
@[simp] theorem State.modSteer_pkg (f : Steer → Steer) : (s.modSteer f).pkg = s.pkg := rfl
@[simp] theorem State.modSteer_fab (f : Steer → Steer) : (s.modSteer f).fab = s.fab := rfl
@[simp] theorem State.modSteer_mem (f : Steer → Steer) : (s.modSteer f).mem = s.mem := rfl
@[simp] theorem State.modSteer_poison (f : Steer → Steer) : (s.modSteer f).poison = s.poison := rfl
@[simp] theorem State.modSteer_watches (f : Steer → Steer) : (s.modSteer f).watches = s.watches := rfl
@[simp] theorem State.modConv_tick (f : Conv → Conv) : (s.modConv f).tick = s.tick := rfl
@[simp] theorem State.modConv_time (f : Conv → Conv) : (s.modConv f).time = s.time := rfl
@[simp] theorem State.modConv_agenda (f : Conv → Conv) : (s.modConv f).agenda = s.agenda := rfl
@[simp] theorem State.modConv_agent (f : Conv → Conv) : (s.modConv f).agent = s.agent := rfl
@[simp] theorem State.modConv_stalled (f : Conv → Conv) : (s.modConv f).stalled = s.stalled := rfl
@[simp] theorem State.modConv_coreId (f : Conv → Conv) : (s.modConv f).coreId = s.coreId := rfl
@[simp] theorem State.modConv_core (f : Conv → Conv) :
    (s.modConv f).core = { s.core with conv := f s.core.conv } := rfl
@[simp] theorem State.modConv_cores (f : Conv → Conv) : (s.modConv f).cores = s.cores := rfl
@[simp] theorem State.modConv_cluster (f : Conv → Conv) : (s.modConv f).cluster = s.cluster := rfl
@[simp] theorem State.modConv_clusters (f : Conv → Conv) : (s.modConv f).clusters = s.clusters := rfl
@[simp] theorem State.modConv_die (f : Conv → Conv) : (s.modConv f).die = s.die := rfl
@[simp] theorem State.modConv_dies (f : Conv → Conv) : (s.modConv f).dies = s.dies := rfl
@[simp] theorem State.modConv_pkg (f : Conv → Conv) : (s.modConv f).pkg = s.pkg := rfl
@[simp] theorem State.modConv_fab (f : Conv → Conv) : (s.modConv f).fab = s.fab := rfl
@[simp] theorem State.modConv_mem (f : Conv → Conv) : (s.modConv f).mem = s.mem := rfl
@[simp] theorem State.modConv_poison (f : Conv → Conv) : (s.modConv f).poison = s.poison := rfl
@[simp] theorem State.modConv_watches (f : Conv → Conv) : (s.modConv f).watches = s.watches := rfl
@[simp] theorem State.modQ_tick (f : Queues → Queues) : (s.modQ f).tick = s.tick := rfl
@[simp] theorem State.modQ_time (f : Queues → Queues) : (s.modQ f).time = s.time := rfl
@[simp] theorem State.modQ_agenda (f : Queues → Queues) : (s.modQ f).agenda = s.agenda := rfl
@[simp] theorem State.modQ_agent (f : Queues → Queues) : (s.modQ f).agent = s.agent := rfl
@[simp] theorem State.modQ_stalled (f : Queues → Queues) : (s.modQ f).stalled = s.stalled := rfl
@[simp] theorem State.modQ_coreId (f : Queues → Queues) : (s.modQ f).coreId = s.coreId := rfl
@[simp] theorem State.modQ_core (f : Queues → Queues) : (s.modQ f).core = { s.core with q := f s.core.q } := rfl
@[simp] theorem State.modQ_cores (f : Queues → Queues) : (s.modQ f).cores = s.cores := rfl
@[simp] theorem State.modQ_cluster (f : Queues → Queues) : (s.modQ f).cluster = s.cluster := rfl
@[simp] theorem State.modQ_clusters (f : Queues → Queues) : (s.modQ f).clusters = s.clusters := rfl
@[simp] theorem State.modQ_die (f : Queues → Queues) : (s.modQ f).die = s.die := rfl
@[simp] theorem State.modQ_dies (f : Queues → Queues) : (s.modQ f).dies = s.dies := rfl
@[simp] theorem State.modQ_pkg (f : Queues → Queues) : (s.modQ f).pkg = s.pkg := rfl
@[simp] theorem State.modQ_fab (f : Queues → Queues) : (s.modQ f).fab = s.fab := rfl
@[simp] theorem State.modQ_mem (f : Queues → Queues) : (s.modQ f).mem = s.mem := rfl
@[simp] theorem State.modQ_poison (f : Queues → Queues) : (s.modQ f).poison = s.poison := rfl
@[simp] theorem State.modQ_watches (f : Queues → Queues) : (s.modQ f).watches = s.watches := rfl
@[simp] theorem State.modMat_tick (f : Matrix → Matrix) : (s.modMat f).tick = s.tick := rfl
@[simp] theorem State.modMat_time (f : Matrix → Matrix) : (s.modMat f).time = s.time := rfl
@[simp] theorem State.modMat_agenda (f : Matrix → Matrix) : (s.modMat f).agenda = s.agenda := rfl
@[simp] theorem State.modMat_agent (f : Matrix → Matrix) : (s.modMat f).agent = s.agent := rfl
@[simp] theorem State.modMat_stalled (f : Matrix → Matrix) : (s.modMat f).stalled = s.stalled := rfl
@[simp] theorem State.modMat_coreId (f : Matrix → Matrix) : (s.modMat f).coreId = s.coreId := rfl
@[simp] theorem State.modMat_core (f : Matrix → Matrix) :
    (s.modMat f).core = { s.core with mat := f s.core.mat } := rfl
@[simp] theorem State.modMat_cores (f : Matrix → Matrix) : (s.modMat f).cores = s.cores := rfl
@[simp] theorem State.modMat_cluster (f : Matrix → Matrix) : (s.modMat f).cluster = s.cluster := rfl
@[simp] theorem State.modMat_clusters (f : Matrix → Matrix) : (s.modMat f).clusters = s.clusters := rfl
@[simp] theorem State.modMat_die (f : Matrix → Matrix) : (s.modMat f).die = s.die := rfl
@[simp] theorem State.modMat_dies (f : Matrix → Matrix) : (s.modMat f).dies = s.dies := rfl
@[simp] theorem State.modMat_pkg (f : Matrix → Matrix) : (s.modMat f).pkg = s.pkg := rfl
@[simp] theorem State.modMat_fab (f : Matrix → Matrix) : (s.modMat f).fab = s.fab := rfl
@[simp] theorem State.modMat_mem (f : Matrix → Matrix) : (s.modMat f).mem = s.mem := rfl
@[simp] theorem State.modMat_poison (f : Matrix → Matrix) : (s.modMat f).poison = s.poison := rfl
@[simp] theorem State.modMat_watches (f : Matrix → Matrix) : (s.modMat f).watches = s.watches := rfl
@[simp] theorem State.modLad_tick (f : Ladder → Ladder) : (s.modLad f).tick = s.tick := rfl
@[simp] theorem State.modLad_time (f : Ladder → Ladder) : (s.modLad f).time = s.time := rfl
@[simp] theorem State.modLad_agenda (f : Ladder → Ladder) : (s.modLad f).agenda = s.agenda := rfl
@[simp] theorem State.modLad_agent (f : Ladder → Ladder) : (s.modLad f).agent = s.agent := rfl
@[simp] theorem State.modLad_stalled (f : Ladder → Ladder) : (s.modLad f).stalled = s.stalled := rfl
@[simp] theorem State.modLad_coreId (f : Ladder → Ladder) : (s.modLad f).coreId = s.coreId := rfl
@[simp] theorem State.modLad_core (f : Ladder → Ladder) :
    (s.modLad f).core = { s.core with lad := f s.core.lad } := rfl
@[simp] theorem State.modLad_cores (f : Ladder → Ladder) : (s.modLad f).cores = s.cores := rfl
@[simp] theorem State.modLad_cluster (f : Ladder → Ladder) : (s.modLad f).cluster = s.cluster := rfl
@[simp] theorem State.modLad_clusters (f : Ladder → Ladder) : (s.modLad f).clusters = s.clusters := rfl
@[simp] theorem State.modLad_die (f : Ladder → Ladder) : (s.modLad f).die = s.die := rfl
@[simp] theorem State.modLad_dies (f : Ladder → Ladder) : (s.modLad f).dies = s.dies := rfl
@[simp] theorem State.modLad_pkg (f : Ladder → Ladder) : (s.modLad f).pkg = s.pkg := rfl
@[simp] theorem State.modLad_fab (f : Ladder → Ladder) : (s.modLad f).fab = s.fab := rfl
@[simp] theorem State.modLad_mem (f : Ladder → Ladder) : (s.modLad f).mem = s.mem := rfl
@[simp] theorem State.modLad_poison (f : Ladder → Ladder) : (s.modLad f).poison = s.poison := rfl
@[simp] theorem State.modLad_watches (f : Ladder → Ladder) : (s.modLad f).watches = s.watches := rfl
@[simp] theorem State.modGang_tick (f : Gang → Gang) : (s.modGang f).tick = s.tick := rfl
@[simp] theorem State.modGang_time (f : Gang → Gang) : (s.modGang f).time = s.time := rfl
@[simp] theorem State.modGang_agenda (f : Gang → Gang) : (s.modGang f).agenda = s.agenda := rfl
@[simp] theorem State.modGang_agent (f : Gang → Gang) : (s.modGang f).agent = s.agent := rfl
@[simp] theorem State.modGang_stalled (f : Gang → Gang) : (s.modGang f).stalled = s.stalled := rfl
@[simp] theorem State.modGang_coreId (f : Gang → Gang) : (s.modGang f).coreId = s.coreId := rfl
@[simp] theorem State.modGang_core (f : Gang → Gang) :
    (s.modGang f).core = { s.core with gang := f s.core.gang } := rfl
@[simp] theorem State.modGang_cores (f : Gang → Gang) : (s.modGang f).cores = s.cores := rfl
@[simp] theorem State.modGang_cluster (f : Gang → Gang) : (s.modGang f).cluster = s.cluster := rfl
@[simp] theorem State.modGang_clusters (f : Gang → Gang) : (s.modGang f).clusters = s.clusters := rfl
@[simp] theorem State.modGang_die (f : Gang → Gang) : (s.modGang f).die = s.die := rfl
@[simp] theorem State.modGang_dies (f : Gang → Gang) : (s.modGang f).dies = s.dies := rfl
@[simp] theorem State.modGang_pkg (f : Gang → Gang) : (s.modGang f).pkg = s.pkg := rfl
@[simp] theorem State.modGang_fab (f : Gang → Gang) : (s.modGang f).fab = s.fab := rfl
@[simp] theorem State.modGang_mem (f : Gang → Gang) : (s.modGang f).mem = s.mem := rfl
@[simp] theorem State.modGang_poison (f : Gang → Gang) : (s.modGang f).poison = s.poison := rfl
@[simp] theorem State.modGang_watches (f : Gang → Gang) : (s.modGang f).watches = s.watches := rfl
@[simp] theorem State.modTrace_tick (f : Trace → Trace) : (s.modTrace f).tick = s.tick := rfl
@[simp] theorem State.modTrace_time (f : Trace → Trace) : (s.modTrace f).time = s.time := rfl
@[simp] theorem State.modTrace_agenda (f : Trace → Trace) : (s.modTrace f).agenda = s.agenda := rfl
@[simp] theorem State.modTrace_agent (f : Trace → Trace) : (s.modTrace f).agent = s.agent := rfl
@[simp] theorem State.modTrace_stalled (f : Trace → Trace) : (s.modTrace f).stalled = s.stalled := rfl
@[simp] theorem State.modTrace_coreId (f : Trace → Trace) : (s.modTrace f).coreId = s.coreId := rfl
@[simp] theorem State.modTrace_core (f : Trace → Trace) :
    (s.modTrace f).core = { s.core with trace := f s.core.trace } := rfl
@[simp] theorem State.modTrace_cores (f : Trace → Trace) : (s.modTrace f).cores = s.cores := rfl
@[simp] theorem State.modTrace_cluster (f : Trace → Trace) : (s.modTrace f).cluster = s.cluster := rfl
@[simp] theorem State.modTrace_clusters (f : Trace → Trace) : (s.modTrace f).clusters = s.clusters := rfl
@[simp] theorem State.modTrace_die (f : Trace → Trace) : (s.modTrace f).die = s.die := rfl
@[simp] theorem State.modTrace_dies (f : Trace → Trace) : (s.modTrace f).dies = s.dies := rfl
@[simp] theorem State.modTrace_pkg (f : Trace → Trace) : (s.modTrace f).pkg = s.pkg := rfl
@[simp] theorem State.modTrace_fab (f : Trace → Trace) : (s.modTrace f).fab = s.fab := rfl
@[simp] theorem State.modTrace_mem (f : Trace → Trace) : (s.modTrace f).mem = s.mem := rfl
@[simp] theorem State.modTrace_poison (f : Trace → Trace) : (s.modTrace f).poison = s.poison := rfl
@[simp] theorem State.modTrace_watches (f : Trace → Trace) : (s.modTrace f).watches = s.watches := rfl
@[simp] theorem State.modCluster_tick (f : Cluster → Cluster) : (s.modCluster f).tick = s.tick := rfl
@[simp] theorem State.modCluster_time (f : Cluster → Cluster) : (s.modCluster f).time = s.time := rfl
@[simp] theorem State.modCluster_agenda (f : Cluster → Cluster) : (s.modCluster f).agenda = s.agenda := rfl
@[simp] theorem State.modCluster_agent (f : Cluster → Cluster) : (s.modCluster f).agent = s.agent := rfl
@[simp] theorem State.modCluster_stalled (f : Cluster → Cluster) : (s.modCluster f).stalled = s.stalled := rfl
@[simp] theorem State.modCluster_coreId (f : Cluster → Cluster) : (s.modCluster f).coreId = s.coreId := rfl
@[simp] theorem State.modCluster_core (f : Cluster → Cluster) : (s.modCluster f).core = s.core := rfl
@[simp] theorem State.modCluster_cores (f : Cluster → Cluster) : (s.modCluster f).cores = s.cores := rfl
@[simp] theorem State.modCluster_cluster (f : Cluster → Cluster) : (s.modCluster f).cluster = f s.cluster := rfl
@[simp] theorem State.modCluster_clusters (f : Cluster → Cluster) : (s.modCluster f).clusters = s.clusters := rfl
@[simp] theorem State.modCluster_die (f : Cluster → Cluster) : (s.modCluster f).die = s.die := rfl
@[simp] theorem State.modCluster_dies (f : Cluster → Cluster) : (s.modCluster f).dies = s.dies := rfl
@[simp] theorem State.modCluster_pkg (f : Cluster → Cluster) : (s.modCluster f).pkg = s.pkg := rfl
@[simp] theorem State.modCluster_fab (f : Cluster → Cluster) : (s.modCluster f).fab = s.fab := rfl
@[simp] theorem State.modCluster_mem (f : Cluster → Cluster) : (s.modCluster f).mem = s.mem := rfl
@[simp] theorem State.modCluster_poison (f : Cluster → Cluster) : (s.modCluster f).poison = s.poison := rfl
@[simp] theorem State.modCluster_watches (f : Cluster → Cluster) : (s.modCluster f).watches = s.watches := rfl
@[simp] theorem State.modDie_tick (f : Die → Die) : (s.modDie f).tick = s.tick := rfl
@[simp] theorem State.modDie_time (f : Die → Die) : (s.modDie f).time = s.time := rfl
@[simp] theorem State.modDie_agenda (f : Die → Die) : (s.modDie f).agenda = s.agenda := rfl
@[simp] theorem State.modDie_agent (f : Die → Die) : (s.modDie f).agent = s.agent := rfl
@[simp] theorem State.modDie_stalled (f : Die → Die) : (s.modDie f).stalled = s.stalled := rfl
@[simp] theorem State.modDie_coreId (f : Die → Die) : (s.modDie f).coreId = s.coreId := rfl
@[simp] theorem State.modDie_core (f : Die → Die) : (s.modDie f).core = s.core := rfl
@[simp] theorem State.modDie_cores (f : Die → Die) : (s.modDie f).cores = s.cores := rfl
@[simp] theorem State.modDie_cluster (f : Die → Die) : (s.modDie f).cluster = s.cluster := rfl
@[simp] theorem State.modDie_clusters (f : Die → Die) : (s.modDie f).clusters = s.clusters := rfl
@[simp] theorem State.modDie_die (f : Die → Die) : (s.modDie f).die = f s.die := rfl
@[simp] theorem State.modDie_dies (f : Die → Die) : (s.modDie f).dies = s.dies := rfl
@[simp] theorem State.modDie_pkg (f : Die → Die) : (s.modDie f).pkg = s.pkg := rfl
@[simp] theorem State.modDie_fab (f : Die → Die) : (s.modDie f).fab = s.fab := rfl
@[simp] theorem State.modDie_mem (f : Die → Die) : (s.modDie f).mem = s.mem := rfl
@[simp] theorem State.modDie_poison (f : Die → Die) : (s.modDie f).poison = s.poison := rfl
@[simp] theorem State.modDie_watches (f : Die → Die) : (s.modDie f).watches = s.watches := rfl
@[simp] theorem State.modPkg_tick (f : Pkg → Pkg) : (s.modPkg f).tick = s.tick := rfl
@[simp] theorem State.modPkg_time (f : Pkg → Pkg) : (s.modPkg f).time = s.time := rfl
@[simp] theorem State.modPkg_agenda (f : Pkg → Pkg) : (s.modPkg f).agenda = s.agenda := rfl
@[simp] theorem State.modPkg_agent (f : Pkg → Pkg) : (s.modPkg f).agent = s.agent := rfl
@[simp] theorem State.modPkg_stalled (f : Pkg → Pkg) : (s.modPkg f).stalled = s.stalled := rfl
@[simp] theorem State.modPkg_coreId (f : Pkg → Pkg) : (s.modPkg f).coreId = s.coreId := rfl
@[simp] theorem State.modPkg_core (f : Pkg → Pkg) : (s.modPkg f).core = s.core := rfl
@[simp] theorem State.modPkg_cores (f : Pkg → Pkg) : (s.modPkg f).cores = s.cores := rfl
@[simp] theorem State.modPkg_cluster (f : Pkg → Pkg) : (s.modPkg f).cluster = s.cluster := rfl
@[simp] theorem State.modPkg_clusters (f : Pkg → Pkg) : (s.modPkg f).clusters = s.clusters := rfl
@[simp] theorem State.modPkg_die (f : Pkg → Pkg) : (s.modPkg f).die = s.die := rfl
@[simp] theorem State.modPkg_dies (f : Pkg → Pkg) : (s.modPkg f).dies = s.dies := rfl
@[simp] theorem State.modPkg_pkg (f : Pkg → Pkg) : (s.modPkg f).pkg = f s.pkg := rfl
@[simp] theorem State.modPkg_fab (f : Pkg → Pkg) : (s.modPkg f).fab = s.fab := rfl
@[simp] theorem State.modPkg_mem (f : Pkg → Pkg) : (s.modPkg f).mem = s.mem := rfl
@[simp] theorem State.modPkg_poison (f : Pkg → Pkg) : (s.modPkg f).poison = s.poison := rfl
@[simp] theorem State.modPkg_watches (f : Pkg → Pkg) : (s.modPkg f).watches = s.watches := rfl
@[simp] theorem State.modFab_tick (f : Fab → Fab) : (s.modFab f).tick = s.tick := rfl
@[simp] theorem State.modFab_time (f : Fab → Fab) : (s.modFab f).time = s.time := rfl
@[simp] theorem State.modFab_agenda (f : Fab → Fab) : (s.modFab f).agenda = s.agenda := rfl
@[simp] theorem State.modFab_agent (f : Fab → Fab) : (s.modFab f).agent = s.agent := rfl
@[simp] theorem State.modFab_stalled (f : Fab → Fab) : (s.modFab f).stalled = s.stalled := rfl
@[simp] theorem State.modFab_coreId (f : Fab → Fab) : (s.modFab f).coreId = s.coreId := rfl
@[simp] theorem State.modFab_core (f : Fab → Fab) : (s.modFab f).core = s.core := rfl
@[simp] theorem State.modFab_cores (f : Fab → Fab) : (s.modFab f).cores = s.cores := rfl
@[simp] theorem State.modFab_cluster (f : Fab → Fab) : (s.modFab f).cluster = s.cluster := rfl
@[simp] theorem State.modFab_clusters (f : Fab → Fab) : (s.modFab f).clusters = s.clusters := rfl
@[simp] theorem State.modFab_die (f : Fab → Fab) : (s.modFab f).die = s.die := rfl
@[simp] theorem State.modFab_dies (f : Fab → Fab) : (s.modFab f).dies = s.dies := rfl
@[simp] theorem State.modFab_pkg (f : Fab → Fab) : (s.modFab f).pkg = s.pkg := rfl
@[simp] theorem State.modFab_fab (f : Fab → Fab) : (s.modFab f).fab = f s.fab := rfl
@[simp] theorem State.modFab_mem (f : Fab → Fab) : (s.modFab f).mem = s.mem := rfl
@[simp] theorem State.modFab_poison (f : Fab → Fab) : (s.modFab f).poison = s.poison := rfl
@[simp] theorem State.modFab_watches (f : Fab → Fab) : (s.modFab f).watches = s.watches := rfl
@[simp] theorem State.tickUp_tick : (s.tickUp).tick = s.tick + 1 := rfl
@[simp] theorem State.tickUp_time : (s.tickUp).time = s.time := rfl
@[simp] theorem State.tickUp_agenda : (s.tickUp).agenda = s.agenda := rfl
@[simp] theorem State.tickUp_agent : (s.tickUp).agent = s.agent := rfl
@[simp] theorem State.tickUp_stalled : (s.tickUp).stalled = s.stalled := rfl
@[simp] theorem State.tickUp_coreId : (s.tickUp).coreId = s.coreId := rfl
@[simp] theorem State.tickUp_core : (s.tickUp).core = s.core := rfl
@[simp] theorem State.tickUp_cores : (s.tickUp).cores = s.cores := rfl
@[simp] theorem State.tickUp_cluster : (s.tickUp).cluster = s.cluster := rfl
@[simp] theorem State.tickUp_clusters : (s.tickUp).clusters = s.clusters := rfl
@[simp] theorem State.tickUp_die : (s.tickUp).die = s.die := rfl
@[simp] theorem State.tickUp_dies : (s.tickUp).dies = s.dies := rfl
@[simp] theorem State.tickUp_pkg : (s.tickUp).pkg = s.pkg := rfl
@[simp] theorem State.tickUp_fab : (s.tickUp).fab = s.fab := rfl
@[simp] theorem State.tickUp_mem : (s.tickUp).mem = s.mem := rfl
@[simp] theorem State.tickUp_poison : (s.tickUp).poison = s.poison := rfl
@[simp] theorem State.tickUp_watches : (s.tickUp).watches = s.watches := rfl
@[simp] theorem stall_tick : (stall s).tick = s.tick := rfl
@[simp] theorem stall_time : (stall s).time = s.time := rfl
@[simp] theorem stall_agenda : (stall s).agenda = s.agenda := rfl
@[simp] theorem stall_agent : (stall s).agent = s.agent := rfl
@[simp] theorem stall_stalled : (stall s).stalled = true := rfl
@[simp] theorem stall_coreId : (stall s).coreId = s.coreId := rfl
@[simp] theorem stall_core : (stall s).core = s.core := rfl
@[simp] theorem stall_cores : (stall s).cores = s.cores := rfl
@[simp] theorem stall_cluster : (stall s).cluster = s.cluster := rfl
@[simp] theorem stall_clusters : (stall s).clusters = s.clusters := rfl
@[simp] theorem stall_die : (stall s).die = s.die := rfl
@[simp] theorem stall_dies : (stall s).dies = s.dies := rfl
@[simp] theorem stall_pkg : (stall s).pkg = s.pkg := rfl
@[simp] theorem stall_fab : (stall s).fab = s.fab := rfl
@[simp] theorem stall_mem : (stall s).mem = s.mem := rfl
@[simp] theorem stall_poison : (stall s).poison = s.poison := rfl
@[simp] theorem stall_watches : (stall s).watches = s.watches := rfl
@[simp] theorem raiseFlags_tick (f : FlagSet) : (raiseFlags f s).tick = s.tick := rfl
@[simp] theorem raiseFlags_time (f : FlagSet) : (raiseFlags f s).time = s.time := rfl
@[simp] theorem raiseFlags_agenda (f : FlagSet) : (raiseFlags f s).agenda = s.agenda := rfl
@[simp] theorem raiseFlags_agent (f : FlagSet) : (raiseFlags f s).agent = s.agent := rfl
@[simp] theorem raiseFlags_stalled (f : FlagSet) : (raiseFlags f s).stalled = s.stalled := rfl
@[simp] theorem raiseFlags_coreId (f : FlagSet) : (raiseFlags f s).coreId = s.coreId := rfl
@[simp] theorem raiseFlags_core (f : FlagSet) :
    (raiseFlags f s).core = { s.core with conv := { s.core.conv with vflags := s.core.conv.vflags ||| f } } := rfl
@[simp] theorem raiseFlags_cores (f : FlagSet) : (raiseFlags f s).cores = s.cores := rfl
@[simp] theorem raiseFlags_cluster (f : FlagSet) : (raiseFlags f s).cluster = s.cluster := rfl
@[simp] theorem raiseFlags_clusters (f : FlagSet) : (raiseFlags f s).clusters = s.clusters := rfl
@[simp] theorem raiseFlags_die (f : FlagSet) : (raiseFlags f s).die = s.die := rfl
@[simp] theorem raiseFlags_dies (f : FlagSet) : (raiseFlags f s).dies = s.dies := rfl
@[simp] theorem raiseFlags_pkg (f : FlagSet) : (raiseFlags f s).pkg = s.pkg := rfl
@[simp] theorem raiseFlags_fab (f : FlagSet) : (raiseFlags f s).fab = s.fab := rfl
@[simp] theorem raiseFlags_mem (f : FlagSet) : (raiseFlags f s).mem = s.mem := rfl
@[simp] theorem raiseFlags_poison (f : FlagSet) : (raiseFlags f s).poison = s.poison := rfl
@[simp] theorem raiseFlags_watches (f : FlagSet) : (raiseFlags f s).watches = s.watches := rfl
@[simp] theorem writeK_tick (n : Nat) (v : Word) : (writeK n v s).tick = s.tick := rfl
@[simp] theorem writeK_time (n : Nat) (v : Word) : (writeK n v s).time = s.time := rfl
@[simp] theorem writeK_agenda (n : Nat) (v : Word) : (writeK n v s).agenda = s.agenda := rfl
@[simp] theorem writeK_agent (n : Nat) (v : Word) : (writeK n v s).agent = s.agent := rfl
@[simp] theorem writeK_stalled (n : Nat) (v : Word) : (writeK n v s).stalled = s.stalled := rfl
@[simp] theorem writeK_coreId (n : Nat) (v : Word) : (writeK n v s).coreId = s.coreId := rfl
@[simp] theorem writeK_core (n : Nat) (v : Word) :
    (writeK n v s).core = { s.core with conv := { s.core.conv with k := spPut 0 s.core.conv.k n v } } := rfl
@[simp] theorem writeK_cores (n : Nat) (v : Word) : (writeK n v s).cores = s.cores := rfl
@[simp] theorem writeK_cluster (n : Nat) (v : Word) : (writeK n v s).cluster = s.cluster := rfl
@[simp] theorem writeK_clusters (n : Nat) (v : Word) : (writeK n v s).clusters = s.clusters := rfl
@[simp] theorem writeK_die (n : Nat) (v : Word) : (writeK n v s).die = s.die := rfl
@[simp] theorem writeK_dies (n : Nat) (v : Word) : (writeK n v s).dies = s.dies := rfl
@[simp] theorem writeK_pkg (n : Nat) (v : Word) : (writeK n v s).pkg = s.pkg := rfl
@[simp] theorem writeK_fab (n : Nat) (v : Word) : (writeK n v s).fab = s.fab := rfl
@[simp] theorem writeK_mem (n : Nat) (v : Word) : (writeK n v s).mem = s.mem := rfl
@[simp] theorem writeK_poison (n : Nat) (v : Word) : (writeK n v s).poison = s.poison := rfl
@[simp] theorem writeK_watches (n : Nat) (v : Word) : (writeK n v s).watches = s.watches := rfl
@[simp] theorem writeMaskBit_tick (m i : Nat) (v : Bool) : (writeMaskBit m i v s).tick = s.tick := rfl
@[simp] theorem writeMaskBit_time (m i : Nat) (v : Bool) : (writeMaskBit m i v s).time = s.time := rfl
@[simp] theorem writeMaskBit_agenda (m i : Nat) (v : Bool) : (writeMaskBit m i v s).agenda = s.agenda := rfl
@[simp] theorem writeMaskBit_agent (m i : Nat) (v : Bool) : (writeMaskBit m i v s).agent = s.agent := rfl
@[simp] theorem writeMaskBit_stalled (m i : Nat) (v : Bool) : (writeMaskBit m i v s).stalled = s.stalled := rfl
@[simp] theorem writeMaskBit_coreId (m i : Nat) (v : Bool) : (writeMaskBit m i v s).coreId = s.coreId := rfl
@[simp] theorem writeMaskBit_core (m i : Nat) (v : Bool) :
    (writeMaskBit m i v s).core = { s.core with conv := { s.core.conv with masks := spPut false s.core.conv.masks (8192 * m + i) v } } := rfl
@[simp] theorem writeMaskBit_cores (m i : Nat) (v : Bool) : (writeMaskBit m i v s).cores = s.cores := rfl
@[simp] theorem writeMaskBit_cluster (m i : Nat) (v : Bool) : (writeMaskBit m i v s).cluster = s.cluster := rfl
@[simp] theorem writeMaskBit_clusters (m i : Nat) (v : Bool) : (writeMaskBit m i v s).clusters = s.clusters := rfl
@[simp] theorem writeMaskBit_die (m i : Nat) (v : Bool) : (writeMaskBit m i v s).die = s.die := rfl
@[simp] theorem writeMaskBit_dies (m i : Nat) (v : Bool) : (writeMaskBit m i v s).dies = s.dies := rfl
@[simp] theorem writeMaskBit_pkg (m i : Nat) (v : Bool) : (writeMaskBit m i v s).pkg = s.pkg := rfl
@[simp] theorem writeMaskBit_fab (m i : Nat) (v : Bool) : (writeMaskBit m i v s).fab = s.fab := rfl
@[simp] theorem writeMaskBit_mem (m i : Nat) (v : Bool) : (writeMaskBit m i v s).mem = s.mem := rfl
@[simp] theorem writeMaskBit_poison (m i : Nat) (v : Bool) : (writeMaskBit m i v s).poison = s.poison := rfl
@[simp] theorem writeMaskBit_watches (m i : Nat) (v : Bool) : (writeMaskBit m i v s).watches = s.watches := rfl
@[simp] theorem writeCell_tick (r c : Nat) (v : Cell32) : (writeCell r c v s).tick = s.tick := rfl
@[simp] theorem writeCell_time (r c : Nat) (v : Cell32) : (writeCell r c v s).time = s.time := rfl
@[simp] theorem writeCell_agenda (r c : Nat) (v : Cell32) : (writeCell r c v s).agenda = s.agenda := rfl
@[simp] theorem writeCell_agent (r c : Nat) (v : Cell32) : (writeCell r c v s).agent = s.agent := rfl
@[simp] theorem writeCell_stalled (r c : Nat) (v : Cell32) : (writeCell r c v s).stalled = s.stalled := rfl
@[simp] theorem writeCell_coreId (r c : Nat) (v : Cell32) : (writeCell r c v s).coreId = s.coreId := rfl
@[simp] theorem writeCell_core (r c : Nat) (v : Cell32) :
    (writeCell r c v s).core = { s.core with conv := { s.core.conv with
      plane := spPut 0 s.core.conv.plane (64 * r + c) v
      wrote := s.core.conv.wrote.map (fun l => (64 * r + c) :: l) } } := rfl
@[simp] theorem writeCell_cores (r c : Nat) (v : Cell32) : (writeCell r c v s).cores = s.cores := rfl
@[simp] theorem writeCell_cluster (r c : Nat) (v : Cell32) : (writeCell r c v s).cluster = s.cluster := rfl
@[simp] theorem writeCell_clusters (r c : Nat) (v : Cell32) : (writeCell r c v s).clusters = s.clusters := rfl
@[simp] theorem writeCell_die (r c : Nat) (v : Cell32) : (writeCell r c v s).die = s.die := rfl
@[simp] theorem writeCell_dies (r c : Nat) (v : Cell32) : (writeCell r c v s).dies = s.dies := rfl
@[simp] theorem writeCell_pkg (r c : Nat) (v : Cell32) : (writeCell r c v s).pkg = s.pkg := rfl
@[simp] theorem writeCell_fab (r c : Nat) (v : Cell32) : (writeCell r c v s).fab = s.fab := rfl
@[simp] theorem writeCell_mem (r c : Nat) (v : Cell32) : (writeCell r c v s).mem = s.mem := rfl
@[simp] theorem writeCell_poison (r c : Nat) (v : Cell32) : (writeCell r c v s).poison = s.poison := rfl
@[simp] theorem writeCell_watches (r c : Nat) (v : Cell32) : (writeCell r c v s).watches = s.watches := rfl
@[simp] theorem writeAcc_tick (n i j : Nat) (v : BitVec 32) : (writeAcc n i j v s).tick = s.tick := rfl
@[simp] theorem writeAcc_time (n i j : Nat) (v : BitVec 32) : (writeAcc n i j v s).time = s.time := rfl
@[simp] theorem writeAcc_agenda (n i j : Nat) (v : BitVec 32) : (writeAcc n i j v s).agenda = s.agenda := rfl
@[simp] theorem writeAcc_agent (n i j : Nat) (v : BitVec 32) : (writeAcc n i j v s).agent = s.agent := rfl
@[simp] theorem writeAcc_stalled (n i j : Nat) (v : BitVec 32) : (writeAcc n i j v s).stalled = s.stalled := rfl
@[simp] theorem writeAcc_coreId (n i j : Nat) (v : BitVec 32) : (writeAcc n i j v s).coreId = s.coreId := rfl
@[simp] theorem writeAcc_core (n i j : Nat) (v : BitVec 32) :
    (writeAcc n i j v s).core = { s.core with mat := { s.core.mat with acc := spPut 0 s.core.mat.acc (4096 * n + 64 * i + j) v } } := rfl
@[simp] theorem writeAcc_cores (n i j : Nat) (v : BitVec 32) : (writeAcc n i j v s).cores = s.cores := rfl
@[simp] theorem writeAcc_cluster (n i j : Nat) (v : BitVec 32) : (writeAcc n i j v s).cluster = s.cluster := rfl
@[simp] theorem writeAcc_clusters (n i j : Nat) (v : BitVec 32) : (writeAcc n i j v s).clusters = s.clusters := rfl
@[simp] theorem writeAcc_die (n i j : Nat) (v : BitVec 32) : (writeAcc n i j v s).die = s.die := rfl
@[simp] theorem writeAcc_dies (n i j : Nat) (v : BitVec 32) : (writeAcc n i j v s).dies = s.dies := rfl
@[simp] theorem writeAcc_pkg (n i j : Nat) (v : BitVec 32) : (writeAcc n i j v s).pkg = s.pkg := rfl
@[simp] theorem writeAcc_fab (n i j : Nat) (v : BitVec 32) : (writeAcc n i j v s).fab = s.fab := rfl
@[simp] theorem writeAcc_mem (n i j : Nat) (v : BitVec 32) : (writeAcc n i j v s).mem = s.mem := rfl
@[simp] theorem writeAcc_poison (n i j : Nat) (v : BitVec 32) : (writeAcc n i j v s).poison = s.poison := rfl
@[simp] theorem writeAcc_watches (n i j : Nat) (v : BitVec 32) : (writeAcc n i j v s).watches = s.watches := rfl
@[simp] theorem writeByte_tick (k : Nat) (v : Byte) : (writeByte k v s).tick = s.tick := rfl
@[simp] theorem writeByte_time (k : Nat) (v : Byte) : (writeByte k v s).time = s.time := rfl
@[simp] theorem writeByte_agenda (k : Nat) (v : Byte) : (writeByte k v s).agenda = s.agenda := rfl
@[simp] theorem writeByte_agent (k : Nat) (v : Byte) : (writeByte k v s).agent = s.agent := rfl
@[simp] theorem writeByte_stalled (k : Nat) (v : Byte) : (writeByte k v s).stalled = s.stalled := rfl
@[simp] theorem writeByte_coreId (k : Nat) (v : Byte) : (writeByte k v s).coreId = s.coreId := rfl
@[simp] theorem writeByte_core (k : Nat) (v : Byte) : (writeByte k v s).core = s.core := rfl
@[simp] theorem writeByte_cores (k : Nat) (v : Byte) : (writeByte k v s).cores = s.cores := rfl
@[simp] theorem writeByte_cluster (k : Nat) (v : Byte) : (writeByte k v s).cluster = s.cluster := rfl
@[simp] theorem writeByte_clusters (k : Nat) (v : Byte) : (writeByte k v s).clusters = s.clusters := rfl
@[simp] theorem writeByte_die (k : Nat) (v : Byte) : (writeByte k v s).die = s.die := rfl
@[simp] theorem writeByte_dies (k : Nat) (v : Byte) : (writeByte k v s).dies = s.dies := rfl
@[simp] theorem writeByte_pkg (k : Nat) (v : Byte) : (writeByte k v s).pkg = s.pkg := rfl
@[simp] theorem writeByte_fab (k : Nat) (v : Byte) : (writeByte k v s).fab = s.fab := rfl
@[simp] theorem writeByte_mem (k : Nat) (v : Byte) : (writeByte k v s).mem = spPut unlistedByte s.mem k v := rfl
@[simp] theorem writeByte_poison (k : Nat) (v : Byte) : (writeByte k v s).poison = s.poison := rfl
@[simp] theorem writeByte_watches (k : Nat) (v : Byte) : (writeByte k v s).watches = s.watches := rfl

/-! ## The steering processor that moves -/

@[simp] theorem State.modCur_cur (f : Steer → Steer) : (s.modCur f).cur = f s.cur := by
  unfold State.modCur State.cur
  cases h : s.agent <;> simp [h]

@[simp] theorem State.modCur_tick (f : Steer → Steer) : (s.modCur f).tick = s.tick := by
  unfold State.modCur; split <;> rfl
@[simp] theorem State.modCur_time (f : Steer → Steer) : (s.modCur f).time = s.time := by
  unfold State.modCur; split <;> rfl
@[simp] theorem State.modCur_agenda (f : Steer → Steer) : (s.modCur f).agenda = s.agenda := by
  unfold State.modCur; split <;> rfl
@[simp] theorem State.modCur_agent (f : Steer → Steer) : (s.modCur f).agent = s.agent := by
  unfold State.modCur; split <;> rfl
@[simp] theorem State.modCur_stalled (f : Steer → Steer) : (s.modCur f).stalled = s.stalled := by
  unfold State.modCur; split <;> rfl
@[simp] theorem State.modCur_coreId (f : Steer → Steer) : (s.modCur f).coreId = s.coreId := by
  unfold State.modCur; split <;> rfl
@[simp] theorem State.modCur_cores (f : Steer → Steer) : (s.modCur f).cores = s.cores := by
  unfold State.modCur; split <;> rfl
@[simp] theorem State.modCur_clusters (f : Steer → Steer) : (s.modCur f).clusters = s.clusters := by
  unfold State.modCur; split <;> rfl
@[simp] theorem State.modCur_die (f : Steer → Steer) : (s.modCur f).die = s.die := by
  unfold State.modCur; split <;> rfl
@[simp] theorem State.modCur_dies (f : Steer → Steer) : (s.modCur f).dies = s.dies := by
  unfold State.modCur; split <;> rfl
@[simp] theorem State.modCur_pkg (f : Steer → Steer) : (s.modCur f).pkg = s.pkg := by
  unfold State.modCur; split <;> rfl
@[simp] theorem State.modCur_fab (f : Steer → Steer) : (s.modCur f).fab = s.fab := by
  unfold State.modCur; split <;> rfl
@[simp] theorem State.modCur_mem (f : Steer → Steer) : (s.modCur f).mem = s.mem := by
  unfold State.modCur; split <;> rfl
@[simp] theorem State.modCur_poison (f : Steer → Steer) : (s.modCur f).poison = s.poison := by
  unfold State.modCur; split <;> rfl
@[simp] theorem State.modCur_watches (f : Steer → Steer) : (s.modCur f).watches = s.watches := by
  unfold State.modCur; split <;> rfl

theorem State.modCur_modCur (f g : Steer → Steer) : (s.modCur f).modCur g = s.modCur (g ∘ f) := by
  unfold State.modCur
  cases h : s.agent <;> simp [h] <;> rfl

@[simp] theorem State.modCur_id : s.modCur (fun c => c) = s := by
  unfold State.modCur
  cases h : s.agent <;> rfl

@[simp] theorem writeReg_tick (r : BitVec 5) (v : Word) : (writeReg r v s).tick = s.tick := by unfold writeReg; split <;> simp
@[simp] theorem writeReg_time (r : BitVec 5) (v : Word) : (writeReg r v s).time = s.time := by unfold writeReg; split <;> simp
@[simp] theorem writeReg_agenda (r : BitVec 5) (v : Word) : (writeReg r v s).agenda = s.agenda := by unfold writeReg; split <;> simp
@[simp] theorem writeReg_agent (r : BitVec 5) (v : Word) : (writeReg r v s).agent = s.agent := by unfold writeReg; split <;> simp
@[simp] theorem writeReg_stalled (r : BitVec 5) (v : Word) : (writeReg r v s).stalled = s.stalled := by unfold writeReg; split <;> simp
@[simp] theorem writeReg_coreId (r : BitVec 5) (v : Word) : (writeReg r v s).coreId = s.coreId := by unfold writeReg; split <;> simp
@[simp] theorem writeReg_cores (r : BitVec 5) (v : Word) : (writeReg r v s).cores = s.cores := by unfold writeReg; split <;> simp
@[simp] theorem writeReg_clusters (r : BitVec 5) (v : Word) : (writeReg r v s).clusters = s.clusters := by unfold writeReg; split <;> simp
@[simp] theorem writeReg_die (r : BitVec 5) (v : Word) : (writeReg r v s).die = s.die := by unfold writeReg; split <;> simp
@[simp] theorem writeReg_dies (r : BitVec 5) (v : Word) : (writeReg r v s).dies = s.dies := by unfold writeReg; split <;> simp
@[simp] theorem writeReg_pkg (r : BitVec 5) (v : Word) : (writeReg r v s).pkg = s.pkg := by unfold writeReg; split <;> simp
@[simp] theorem writeReg_fab (r : BitVec 5) (v : Word) : (writeReg r v s).fab = s.fab := by unfold writeReg; split <;> simp
@[simp] theorem writeReg_mem (r : BitVec 5) (v : Word) : (writeReg r v s).mem = s.mem := by unfold writeReg; split <;> simp
@[simp] theorem writeReg_poison (r : BitVec 5) (v : Word) : (writeReg r v s).poison = s.poison := by unfold writeReg; split <;> simp
@[simp] theorem writeReg_watches (r : BitVec 5) (v : Word) : (writeReg r v s).watches = s.watches := by unfold writeReg; split <;> simp
@[simp] theorem setPc_tick (p : BitVec 32) : (setPc p s).tick = s.tick := by simp [setPc]
@[simp] theorem setPc_time (p : BitVec 32) : (setPc p s).time = s.time := by simp [setPc]
@[simp] theorem setPc_agenda (p : BitVec 32) : (setPc p s).agenda = s.agenda := by simp [setPc]
@[simp] theorem setPc_agent (p : BitVec 32) : (setPc p s).agent = s.agent := by simp [setPc]
@[simp] theorem setPc_stalled (p : BitVec 32) : (setPc p s).stalled = s.stalled := by simp [setPc]
@[simp] theorem setPc_coreId (p : BitVec 32) : (setPc p s).coreId = s.coreId := by simp [setPc]
@[simp] theorem setPc_cores (p : BitVec 32) : (setPc p s).cores = s.cores := by simp [setPc]
@[simp] theorem setPc_clusters (p : BitVec 32) : (setPc p s).clusters = s.clusters := by simp [setPc]
@[simp] theorem setPc_die (p : BitVec 32) : (setPc p s).die = s.die := by simp [setPc]
@[simp] theorem setPc_dies (p : BitVec 32) : (setPc p s).dies = s.dies := by simp [setPc]
@[simp] theorem setPc_pkg (p : BitVec 32) : (setPc p s).pkg = s.pkg := by simp [setPc]
@[simp] theorem setPc_fab (p : BitVec 32) : (setPc p s).fab = s.fab := by simp [setPc]
@[simp] theorem setPc_mem (p : BitVec 32) : (setPc p s).mem = s.mem := by simp [setPc]
@[simp] theorem setPc_poison (p : BitVec 32) : (setPc p s).poison = s.poison := by simp [setPc]
@[simp] theorem setPc_watches (p : BitVec 32) : (setPc p s).watches = s.watches := by simp [setPc]
@[simp] theorem advance_tick : (advance s).tick = s.tick := by simp [advance]
@[simp] theorem advance_time : (advance s).time = s.time := by simp [advance]
@[simp] theorem advance_agenda : (advance s).agenda = s.agenda := by simp [advance]
@[simp] theorem advance_agent : (advance s).agent = s.agent := by simp [advance]
@[simp] theorem advance_stalled : (advance s).stalled = s.stalled := by simp [advance]
@[simp] theorem advance_coreId : (advance s).coreId = s.coreId := by simp [advance]
@[simp] theorem advance_cores : (advance s).cores = s.cores := by simp [advance]
@[simp] theorem advance_clusters : (advance s).clusters = s.clusters := by simp [advance]
@[simp] theorem advance_die : (advance s).die = s.die := by simp [advance]
@[simp] theorem advance_dies : (advance s).dies = s.dies := by simp [advance]
@[simp] theorem advance_pkg : (advance s).pkg = s.pkg := by simp [advance]
@[simp] theorem advance_fab : (advance s).fab = s.fab := by simp [advance]
@[simp] theorem advance_mem : (advance s).mem = s.mem := by simp [advance]
@[simp] theorem advance_poison : (advance s).poison = s.poison := by simp [advance]
@[simp] theorem advance_watches : (advance s).watches = s.watches := by simp [advance]

@[simp] theorem setPc_cur (p : BitVec 32) : (setPc p s).cur = { s.cur with pc := p, expired := false } := by simp [setPc]

@[simp] theorem advance_cur : (advance s).cur = { s.cur with pc := s.cur.pc + 4, expired := false } := by simp [advance]

theorem writeReg_cur (r : BitVec 5) (v : Word) :
    (writeReg r v s).cur = { s.cur with regs := if r = 0 then s.cur.regs else spPut 0 s.cur.regs r.toNat v } := by
  unfold writeReg; split <;> simp

@[simp] theorem writeReg_pc (r : BitVec 5) (v : Word) : (writeReg r v s).cur.pc = s.cur.pc := by simp [writeReg_cur]

/-! ## A read after a write -/

@[simp] theorem readReg_zero : readReg 0 s = 0 := rfl

@[simp] theorem readReg_setPc (r : BitVec 5) (p : BitVec 32) : readReg r (setPc p s) = readReg r s := by simp [readReg]

@[simp] theorem readReg_advance (r : BitVec 5) : readReg r (advance s) = readReg r s := by simp [readReg]

theorem readReg_writeReg (q r : BitVec 5) (v : Word) :
    readReg q (writeReg r v s) = if q = r ∧ r ≠ 0 then v else readReg q s := by
  by_cases h : r = 0
  · simp [writeReg, h]
  · by_cases hq : q = 0
    · simp [readReg, hq]; intro h2; exact absurd h2.symm h
    · simp only [readReg, if_neg hq, writeReg_cur, if_neg h, spGet_put]
      by_cases e : q = r
      · subst e; rw [if_pos rfl, if_pos ⟨rfl, h⟩]
      · have : q.toNat ≠ r.toNat := fun x => e (BitVec.eq_of_toNat_eq x)
        simp [e, this]

theorem readK_writeK (n m : Nat) (v : Word) : readK n (writeK m v s) = if n = m then v else readK n s := by
  simp [readK, spGet_put]

theorem readCell_writeCell (r c r' c' : Nat) (v : Cell32) :
    readCell r c (writeCell r' c' v s) = if 64 * r + c = 64 * r' + c' then v else readCell r c s := by
  simp [readCell, spGet_put]

theorem readAcc_writeAcc (n i j n' i' j' : Nat) (v : BitVec 32) :
    readAcc n i j (writeAcc n' i' j' v s)
      = if 4096 * n + 64 * i + j = 4096 * n' + 64 * i' + j' then v else readAcc n i j s := by
  simp [readAcc, spGet_put]

theorem maskBit_writeMaskBit (m i m' i' : Nat) (v : Bool) (h : m ≠ 0) :
    maskBit m i (writeMaskBit m' i' v s) = if 8192 * m + i = 8192 * m' + i' then v else maskBit m i s := by
  simp only [maskBit, writeMaskBit_core, spGet_put]
  split <;> simp [h]

@[simp] theorem maskBit_zero (i : Nat) : maskBit 0 i s = true := rfl

@[simp] theorem readByte_writeByte (k k' : Nat) (v : Byte) :
    readByte (writeByte k' v s) k = if k = k' then v else readByte s k := by
  simp [readByte, spGet_put]

end Sys2Proof.Machine
end

