-- ==== Sys2Proof/Laws/Memory.lean ====
section
/-! SUPPORT. The laws of memory: what each operation changes, a read after a write, and that every operation keeps the
canonical form, which reset memory has. -/

namespace Sys2Proof.Machine

/-! ## Writes of several bytes change memory only -/

theorem writeMem_eq (key n v : Nat) (s : State) : writeMem key n v s = { s with mem := (writeMem key n v s).mem } := by
  induction n generalizing key v s with
  | zero => rfl
  | succ n ih => rw [writeMem, ih]; rfl

theorem storeMem_eq (key n v : Nat) (s : State) :
    storeMem key n v s = { s with
      mem := (writeMem key n v s).mem
      poison := s.poison.filter (fun g => !(decide (key ≤ g) && decide (g + 8 ≤ key + n)))
      watches := s.watches.map (Watch.note key n) } := by
  rw [storeMem, noteWrite, writeMem_eq]

@[simp] theorem storeMem_mem (key n v : Nat) (s : State) : (storeMem key n v s).mem = (writeMem key n v s).mem := rfl

theorem clearMem_eq (lo n : Nat) (s : State) : clearMem lo n s = { s with
    mem := (clearMem lo n s).mem, poison := (clearMem lo n s).poison } := rfl

theorem foldl_mem_eq {α : Type} (f : State → α → State) (hf : ∀ t a, f t a = { t with mem := (f t a).mem })
    (l : List α) (s : State) : l.foldl f s = { s with mem := (l.foldl f s).mem } := by
  induction l generalizing s with
  | nil => rfl
  | cons a l ih => rw [List.foldl_cons, ih, hf]

theorem copyMem_eq (src dst n : Nat) (s : State) :
    copyMem src dst n s = { s with mem := (copyMem src dst n s).mem, poison := (clearMem dst n s).poison } := by
  unfold copyMem
  rw [foldl_mem_eq _ (fun _ _ => rfl)]
  rfl

theorem writeBytes_eq (key : Nat) (l : List Byte) (s : State) :
    writeBytes key l s = { s with mem := (writeBytes key l s).mem } := by
  induction l generalizing key s with
  | nil => rfl
  | cons b l ih => rw [writeBytes, ih]; rfl

/-! ## A read after a write -/

theorem readByte_mem {s t : State} (h : t.mem = s.mem) (k : Nat) : readByte t k = readByte s k := by
  rw [readByte, readByte, h]

theorem readMem_congr {s t : State} (key n : Nat) (h : ∀ a, Inside key n a → readByte t a = readByte s a) :
    readMem t key n = readMem s key n := by
  induction n generalizing key with
  | zero => rfl
  | succ n ih =>
    rw [readMem, readMem, h key ⟨by omega, by omega⟩, ih]
    intro a ha
    exact h a ⟨by have := ha.1; omega, by have := ha.2; omega⟩

theorem readByte_writeMem_of_not_inside (key n v : Nat) (s : State) (a : Nat) (h : ¬Inside key n a) :
    readByte (writeMem key n v s) a = readByte s a := by
  induction n generalizing key v s with
  | zero => rfl
  | succ n ih =>
    have hne : a ≠ key := fun e => h ⟨by omega, by omega⟩
    rw [writeMem, ih, readByte_writeByte, if_neg hne]
    exact fun hi => h ⟨by have := hi.1; omega, by have := hi.2; omega⟩

theorem readByte_storeMem_of_not_inside (key n v : Nat) (s : State) (a : Nat) (h : ¬Inside key n a) :
    readByte (storeMem key n v s) a = readByte s a := by
  rw [← readByte_writeMem_of_not_inside key n v s a h]
  exact readByte_mem rfl a

/-- What a write leaves where it wrote: the value, in the bytes it has room for. -/
theorem readMem_writeMem (key n v : Nat) (s : State) : readMem (writeMem key n v s) key n = v % 2 ^ (8 * n) := by
  induction n generalizing key v s with
  | zero => simp [readMem, Nat.mod_one]
  | succ n ih =>
    rw [writeMem, readMem, ih, readByte_writeMem_of_not_inside _ _ _ _ _ (fun h => by have := h.1; omega),
      readByte_writeByte, if_pos rfl]
    rw [show 8 * (n + 1) = 8 + 8 * n by omega, Nat.pow_add, Nat.mod_mul]
    simp

theorem readMem_storeMem (key n v : Nat) (s : State) : readMem (storeMem key n v s) key n = v % 2 ^ (8 * n) := by
  rw [← readMem_writeMem key n v s]
  exact readMem_congr _ _ (fun _ _ => readByte_mem rfl _)

theorem readByte_clearMem (lo n : Nat) (s : State) (a : Nat) :
    readByte (clearMem lo n s) a = if Inside lo n a then 0 else readByte s a := by
  show spGet unlistedByte (s.mem.filter _) a = if Inside lo n a then 0 else spGet unlistedByte s.mem a
  induction s.mem with
  | nil => simp [unlistedByte]
  | cons p l ih =>
    obtain ⟨j, v⟩ := p
    by_cases hj : Inside lo n j
    · have : (!(decide (lo ≤ j) && decide (j < lo + n))) = false := by
        simp [hj.1, hj.2]
      rw [List.filter_cons_of_neg (by simp [this]), ih]
      by_cases ha : Inside lo n a
      · rw [if_pos ha, if_pos ha]
      · have : a ≠ j := fun e => ha (e ▸ hj)
        simp [ha, spGet, this]
    · have : (!(decide (lo ≤ j) && decide (j < lo + n))) = true := by
        simp only [Inside, not_and] at hj
        by_cases h1 : lo ≤ j
        · simp [h1, hj h1]
        · simp [h1]
      rw [List.filter_cons_of_pos (by simp [this])]
      by_cases e : a = j
      · subst e; simp [spGet, hj]
      · simp only [spGet, if_neg e]; exact ih

/-! ## The canonical form -/

theorem spSorted_filter {α : Type} (q : Nat × α → Bool) (m : Sp α) (a : Option Nat) (h : spSorted a m = true) :
    spSorted a (m.filter q) = true := by
  induction m generalizing a with
  | nil => cases a <;> rfl
  | cons p m ih =>
    obtain ⟨j, v⟩ := p
    have hj : spSorted (some j) m = true := by
      cases a with
      | none => exact h
      | some l => exact (Bool.and_eq_true _ _ ▸ h).2
    by_cases hq : q (j, v) = true
    · rw [List.filter_cons_of_pos hq]
      cases a with
      | none => exact ih _ hj
      | some l => exact Bool.and_eq_true _ _ ▸ ⟨(Bool.and_eq_true _ _ ▸ h).1, ih _ hj⟩
    · rw [List.filter_cons_of_neg hq]
      apply ih
      cases a with
      | none =>
        cases m with
        | nil => rfl
        | cons p m => exact (Bool.and_eq_true _ _ ▸ hj).2
      | some l => exact spSorted_mono m (Nat.le_of_lt (of_decide_eq_true (Bool.and_eq_true _ _ ▸ h).1)) hj

theorem spWf_filter {α : Type} [DecidableEq α] (d : α) (q : Nat × α → Bool) (m : Sp α) (h : spWf d m = true) :
    spWf d (m.filter q) = true := by
  simp only [spWf, Bool.and_eq_true, List.all_eq_true] at h ⊢
  exact ⟨spSorted_filter q m none h.1, fun p hp => h.2 p (List.mem_filter.mp hp).1⟩

theorem canonical_of_mem {s t : State} (h : s.MemoryCanonical) (e : t.mem = s.mem) : t.MemoryCanonical := by
  rw [State.MemoryCanonical, e]; exact h

theorem reset_canonical : State.reset.MemoryCanonical := rfl

theorem writeByte_canonical (k : Nat) (v : Byte) {s : State} (h : s.MemoryCanonical) :
    (writeByte k v s).MemoryCanonical := spWf_put _ _ _ _ h

theorem writeMem_canonical (key n v : Nat) {s : State} (h : s.MemoryCanonical) :
    (writeMem key n v s).MemoryCanonical := by
  induction n generalizing key v s with
  | zero => exact h
  | succ n ih => exact ih _ _ (writeByte_canonical _ _ h)

theorem storeMem_canonical (key n v : Nat) {s : State} (h : s.MemoryCanonical) :
    (storeMem key n v s).MemoryCanonical := canonical_of_mem (writeMem_canonical key n v h) rfl

theorem clearMem_canonical (lo n : Nat) {s : State} (h : s.MemoryCanonical) : (clearMem lo n s).MemoryCanonical :=
  spWf_filter _ _ _ h

theorem foldl_canonical {α : Type} (f : State → α → State)
    (hf : ∀ t a, t.MemoryCanonical → (f t a).MemoryCanonical) (l : List α) {s : State} (h : s.MemoryCanonical) :
    (l.foldl f s).MemoryCanonical := by
  induction l generalizing s with
  | nil => exact h
  | cons a l ih => exact ih (hf _ _ h)

theorem copyMem_canonical (src dst n : Nat) {s : State} (h : s.MemoryCanonical) :
    (copyMem src dst n s).MemoryCanonical :=
  foldl_canonical _ (fun _ _ ht => writeByte_canonical _ _ ht) _ (clearMem_canonical _ _ h)

theorem writeBytes_canonical (key : Nat) (l : List Byte) {s : State} (h : s.MemoryCanonical) :
    (writeBytes key l s).MemoryCanonical := by
  induction l generalizing key s with
  | nil => exact h
  | cons b l ih => exact ih _ (writeByte_canonical _ _ h)

theorem breakArea_canonical (m : Watch) {s : State} (h : s.MemoryCanonical) : (breakArea m s).MemoryCanonical := by
  unfold breakArea
  split
  · exact h
  · exact canonical_of_mem (foldl_canonical _ (fun _ _ ht => writeMem_canonical _ _ _ ht) _ h) rfl

theorem breakAreas_canonical {s : State} (h : s.MemoryCanonical) : (breakAreas s).MemoryCanonical :=
  foldl_canonical _ (fun _ _ ht => breakArea_canonical _ ht) _ h

/-- Where no rung area has been written, nothing changes. -/
theorem breakAreas_eq {s : State} (h : ∀ m ∈ s.watches, m.guards = true → m.wrote = []) : breakAreas s = s := by
  have : s.watches.filter (fun m => m.guards && !m.wrote.isEmpty) = [] :=
    List.filter_eq_nil_iff.mpr (fun m hm e => by
      simp only [Bool.and_eq_true, Bool.not_eq_true'] at e
      rw [h m hm e.1] at e; exact absurd e.2 (by decide))
  rw [breakAreas, this]; rfl

theorem memAfterReset_wf (tick : Nat) (m : Memory) : Memory.wf (memAfterReset tick m) = true := by
  unfold memAfterReset
  suffices ∀ (l acc : Memory), Memory.wf acc = true → Memory.wf (l.foldl (fun acc p =>
      if isOwnHbm p.1 then spPut unlistedByte acc p.1 (Config.resetByte tick p.1)
      else if keepsOverReset p.1 then spPut unlistedByte acc p.1 p.2 else acc) acc) = true from this m [] rfl
  intro l
  induction l with
  | nil => exact fun _ h => h
  | cons p l ih =>
    intro acc h
    apply ih
    dsimp only
    split
    · exact spWf_put _ _ _ _ h
    · split
      · exact spWf_put _ _ _ _ h
      · exact h

end Sys2Proof.Machine
end

