-- ==== Sys2Proof/Laws/Convoy.lean ====
section
/-! SUPPORT. A convoy of one word from its issue to its retirement: what issue leaves, and what a word whose elements, or
whose whole run, neither trap nor wait comes to. -/

namespace Sys2Proof.Machine

/-! ## Tracing off -/

theorem emitRecord_off (b : Bool) (p m c : Nat) (s : State) (h : s.core.trace.ltrc.getLsbD 8 = false) :
    emitRecord b p m c s = s := by simp only [emitRecord, h, true_or, if_true]

theorem beginRecords_off (l : List Slot) (c : Nat) (s : State) (h : s.core.trace.ltrc.getLsbD 8 = false) :
    beginRecords l c s = s := by
  unfold beginRecords
  induction l with
  | nil => rfl
  | cons x l ih => rw [List.foldl_cons, emitRecord_off _ _ _ _ _ h]; exact ih

theorem endRecords_off (l : List Instr) (s : State) (h : s.core.trace.ltrc.getLsbD 8 = false) : endRecords l s = s := by
  unfold endRecords
  generalize slotsOf l s.core.conv.startDone s = k
  induction k with
  | nil => rfl
  | cons x l ih => rw [List.foldl_cons, emitRecord_off _ _ _ _ _ h]; exact ih

/-! ## Issue -/

theorem issued_eq (i : Instr) (s : State) (h : s.core.trace.ltrc.getLsbD 8 = false) :
    issued i s = s.modCore (fun c => { c with
      half := c.halfNext
      steer := { c.steer with cbksup := false }
      conv := { c.conv with
        forming := [], stored := [], missed := [], missEntry := 0, expired := false, block := none
        flight := some { words := [i], next := c.conv.startK.toNat, capp := c.conv.startK.toNat
                         lk := c.conv.startLk.toNat, mid := none, done := c.conv.startDone, kout := [], rqout := [] } } }) := by
  unfold issued enterFlight
  rw [beginRecords_off]
  exact h

theorem structureFault_one (m : Member) : structureFault [⟨0, m⟩] [] = none := by
  unfold structureFault
  cases m.pipe <;> rfl

theorem convoyFault_one (m : Member) (s : State) (h : shapeFault m s = none) (hc : m.check = none) :
    convoyFault [⟨0, m⟩] s = none := by
  simp [convoyFault, memberFault, structureFault_one, aliasFault, orCheck, h, hc]

theorem slotsOf_one (i : Instr) (d : BitVec 4) (h : d = 0) (s : State) : slotsOf [i] d s = [⟨0, memberOf i s⟩] := by
  subst h; simp [slotsOf]

/-- With no member skipped, the checks at issue see the members as they are. -/
theorem checkedSlots_one (i : Instr) (s : State) (h : s.core.conv.startDone = 0) :
    checkedSlots [i] s = [⟨0, memberOf i s⟩] := by
  simp only [checkedSlots, slotsOf_one i 0 rfl, h]
  simp

/-- A word alone in its convoy that passes the checks issues. -/
theorem vectorWord_alone (i : Instr) (s : State) (hb : s.Boundary) (hl : endsConvoy i)
    (hp : (memberOf i s).paired = true) (hs : (memberOf i s).settled = true)
    (hf : shapeFault (memberOf i s) s = none) (hc : (memberOf i s).check = none)
    (hr : convoyReady [i] [⟨0, memberOf i s⟩] s = true) : vectorWord i s = runConvoy (issued i s) := by
  have hch : chained i = false := by simpa [chained, endsConvoy] using hl
  simp only [vectorWord, hp, hch, hb.forming, issueConvoy, List.nil_append, hb.done, slotsOf_one i 0 rfl,
    checkedSlots_one i s hb.done, convoyFault_one _ _ hf hc, hr]
  simp [issued, hs, hp]

/-! ## Retirement -/

theorem landWrite_trace (p : Nat × Word) (s : State) : (landWrite p s).core.trace = s.core.trace := by
  unfold landWrite
  split
  · rfl
  · split
    · rfl
    · split <;> rfl

theorem landWrites_trace (l : List (Nat × Word)) (s : State) :
    (l.foldl (fun t p => landWrite p t) s).core.trace = s.core.trace := by
  induction l generalizing s with
  | nil => rfl
  | cons p l ih => rw [List.foldl_cons, ih, landWrite_trace]

theorem landAll_trace (f : Flight) (s : State) : (landAll f s).core.trace = s.core.trace := by
  unfold landAll
  simp only [State.modQ_core]
  exact landWrites_trace f.kout s

theorem landOrPark_trace (f : Flight) (s : State) : (landOrPark f s).core.trace = s.core.trace := by
  unfold landOrPark postMisses
  split
  · exact landWrites_trace _ s
  · split
    · exact landAll_trace f s
    · simpa using landAll_trace f s

theorem retireConvoy_retired (i : Instr) (n c lk : Nat) (m : Option Nat) (d : BitVec 4) (ko : List (Nat × Word))
    (rq : List Word) (a : List (Nat × List Nat)) (b : List (Nat × Word)) (t : State)
    (h : t.core.trace.ltrc.getLsbD 8 = false) :
    retireConvoy ⟨[i], n, c, lk, m, d, ko, rq, a, b⟩ t = retired i ko rq t := by
  have h2 : ∀ (l : List Instr) (f : Flight), endRecords l (landOrPark f t) = landOrPark f t :=
    fun l f => endRecords_off _ _ (by rw [landOrPark_trace]; exact h)
  unfold retired retireConvoy
  rw [h2, h2]
  rfl

/-! ## Elements -/

theorem runElement_one (st : State) (e : Nat) (m : Member) (s t : State)
    (h : m.elem e (wake (m.touched [e] s) s) = .ok t [] []) : runElement st e [⟨0, m⟩] s = .done t := by
  simp only [runElement, h]

/-- Elements that neither trap nor wait. -/
theorem runElements_one (m : Member) (g : Nat → State → State) (n e : Nat) (s : State)
    (h : ∀ j, j < n → let u := (List.range' e j).foldl (fun t x => g x t) s
      m.elem (e + j) (wake (m.touched [e + j] u) u) = .ok (g (e + j) u) [] []) :
    runElements [⟨0, m⟩] n e s = .done ((List.range' e n).foldl (fun t x => g x t) s) := by
  induction n generalizing e s with
  | zero => rfl
  | succ n ih =>
    rw [runElements, runElement_one _ _ _ _ _ (by simpa using h 0 (by omega))]
    dsimp only
    rw [ih]
    · rw [List.range'_succ, List.foldl_cons]
    · intro j hj
      have := h (j + 1) (by omega)
      rw [List.range'_succ, List.foldl_cons] at this
      rw [show e + 1 + j = e + (j + 1) by omega]
      exact this

/-- No turn of the convoy stream is cut short without a pace. -/
theorem turnEnd_whole (l : List Member) (k : Nat) (s : State) (h : s.core.pace = none) : turnEnd l k s = s.vl := by
  simp [turnEnd, h]

/-- A push finds no discarded store when there is none, or no push. -/
theorem failedPush_none (f : Flight) (s : State) (h : f.rqout = [] ∨ s.core.conv.failedStore = none) :
    failedPush f s = none := by
  unfold failedPush
  rcases h with h | h
  · rw [h]; cases s.core.conv.failedStore <;> rfl
  · rw [h]

theorem accessing_setting (i : Instr) (v : State) (l : List Nat) (t : State) :
    (accessing i v l t).core.trace = t.core.trace ∧ (accessing i v l t).core.conv.vl = t.core.conv.vl := ⟨rfl, rfl⟩

/-- A convoy of one word whose elements neither trap nor wait retires with every element's effect. -/
theorem runConvoy_elements (i : Instr) (s : State) (w : ElementWord) (hb : s.Boundary)
    (hc : (memberOf i (issued i s)).cls = .e ∨ (memberOf i (issued i s)).cls = .p)
    (he : ∀ n, n < s.vl - s.core.conv.startK.toNat →
      (memberOf i (issued i s)).elem (s.core.conv.startK.toNat + n) (w.running i n s)
        = .ok (w.element (s.core.conv.startK.toNat + n) (w.running i n s)) [] [])
    (hv : (w.all i s).vl = s.vl) (ht : (w.all i s).core.trace = s.core.trace) :
    runConvoy (issued i s) = .next (retired i [] [] (w.all i s)) := by
  have hw : ((memberOf i (issued i s)).cls == .e || (memberOf i (issued i s)).cls == .p) = true := by
    rcases hc with h | h <;> simp [h]
  have hvl : (issued i s).vl = s.vl := by unfold State.vl; rw [issued_eq i s hb.trace]; rfl
  have hp : (issued i s).core.pace = none := by rw [issued_eq i s hb.trace]; exact hb.whole
  have hfl : (issued i s).core.conv.flight = some
      { words := [i], next := s.core.conv.startK.toNat, capp := s.core.conv.startK.toNat
        lk := s.core.conv.startLk.toNat, mid := none, done := 0, kout := [], rqout := [] } := by
    rw [issued_eq i s hb.trace]; simp [hb.done]
  have hall : runElements [⟨0, memberOf i (issued i s)⟩] (s.vl - s.core.conv.startK.toNat) s.core.conv.startK.toNat
      (issued i s) = .done (w.all i s) :=
    runElements_one (memberOf i (issued i s)) (fun e t => w.element e (accessing i (issued i s) [e] t)) _ _ _ he
  unfold runConvoy
  rw [hfl]
  dsimp only
  rw [slotsOf_one i 0 rfl]
  have f1 : ([⟨0, memberOf i (issued i s)⟩] : List Slot).filter Slot.walks = [⟨0, memberOf i (issued i s)⟩] := by
    simp only [List.filter_cons, Slot.walks, hw, List.filter_nil, if_true]
  have f2 : ([⟨0, memberOf i (issued i s)⟩] : List Slot).filter (fun x => !x.walks) = [] := by
    simp only [List.filter_cons, Slot.walks, hw, List.filter_nil, Bool.not_true, Bool.false_eq_true, if_false]
  rw [f1, f2]
  simp only [List.foldl_nil, turnEnd_whole _ _ _ hp, hvl, hall, hv, Bool.false_eq_true, Bool.false_and, Bool.or_false, if_false, Nat.lt_irrefl, and_false]
  rw [failedPush_none _ _ (.inl rfl)]
  dsimp only
  rw [retireConvoy_retired]
  rw [ht]; exact hb.trace

/-- A word alone in its convoy whose elements neither trap nor wait completes. -/
theorem completes_elements (i : Instr) (s : State) (w : ElementWord) (hb : s.Boundary) (hl : endsConvoy i)
    (hp : (memberOf i s).paired = true) (hs : (memberOf i s).settled = true)
    (hf : shapeFault (memberOf i s) s = none) (hch : (memberOf i s).check = none)
    (hr : convoyReady [i] [⟨0, memberOf i s⟩] s = true)
    (hc : (memberOf i (issued i s)).cls = .e ∨ (memberOf i (issued i s)).cls = .p)
    (he : ∀ n, n < s.vl - s.core.conv.startK.toNat →
      (memberOf i (issued i s)).elem (s.core.conv.startK.toNat + n) (w.running i n s)
        = .ok (w.element (s.core.conv.startK.toNat + n) (w.running i n s)) [] [])
    (hv : (w.all i s).vl = s.vl) (ht : (w.all i s).core.trace = s.core.trace) :
    vectorWord i s = .next (retired i [] [] (w.all i s)) := by
  rw [vectorWord_alone i s hb hl hp hs hf hch hr, runConvoy_elements i s w hb hc he hv ht]

/-- A word alone in its convoy whose whole run neither traps nor waits completes. -/
theorem completes_whole (i : Instr) (s t : State) (ko : List (Nat × Word)) (rq : List Word) (hb : s.Boundary)
    (hl : endsConvoy i) (hp : (memberOf i s).paired = true) (hs : (memberOf i s).settled = true)
    (hf : shapeFault (memberOf i s) s = none) (hch : (memberOf i s).check = none)
    (hr : convoyReady [i] [⟨0, memberOf i s⟩] s = true)
    (hc : (memberOf i (issued i s)).cls ≠ .e ∧ (memberOf i (issued i s)).cls ≠ .p)
    (he : (memberOf i (issued i s)).run (running i s) = .ok t ko rq)
    (hk : rq = [] ∨ t.core.conv.failedStore = none) (ht : t.core.trace = s.core.trace) :
    vectorWord i s = .next (retired i ko rq t) := by
  rw [vectorWord_alone i s hb hl hp hs hf hch hr]
  have hw : ((memberOf i (issued i s)).cls == .e || (memberOf i (issued i s)).cls == .p) = false := by
    simp [hc.1, hc.2]
  have hfl : (issued i s).core.conv.flight = some
      { words := [i], next := s.core.conv.startK.toNat, capp := s.core.conv.startK.toNat
        lk := s.core.conv.startLk.toNat, mid := none, done := 0, kout := [], rqout := [] } := by
    rw [issued_eq i s hb.trace]; simp [hb.done]
  have hst : startElem (issued i s) = s.core.conv.startK.toNat := by simp [startElem, hfl]
  have hru : wake ((memberOf i (issued i s)).touched
      ((issued i s).elems.filter (fun e => decide (startElem (issued i s) ≤ e))) (issued i s)) (issued i s)
      = running i s := by rw [hst]; rfl
  unfold runConvoy
  rw [hfl]
  dsimp only
  rw [slotsOf_one i 0 rfl]
  have f1 : ([⟨0, memberOf i (issued i s)⟩] : List Slot).filter Slot.walks = [] := by
    simp only [List.filter_cons, Slot.walks, hw, List.filter_nil, Bool.false_eq_true, if_false]
  have f2 : ([⟨0, memberOf i (issued i s)⟩] : List Slot).filter (fun x => !x.walks)
      = [⟨0, memberOf i (issued i s)⟩] := by
    simp only [List.filter_cons, Slot.walks, hw, List.filter_nil, Bool.not_false, if_true]
  have hn : ∀ (n e : Nat) (u : State), runElements [] n e u = .done u := by
    intro n
    induction n with
    | zero => exact fun _ _ => rfl
    | succ n ih => intro e u; rw [runElements, runElement]; exact ih _ _
  rw [f1, f2]
  simp only [List.foldl_cons, List.foldl_nil, runMember, hru, he, hn, Bool.false_eq_true, Bool.false_and, Bool.or_false, if_false, ne_eq,
    not_true_eq_false, false_and, List.nil_append]
  rw [failedPush_none _ _ hk]
  dsimp only
  rw [retireConvoy_retired]
  rw [ht]; exact hb.trace

end Sys2Proof.Machine
end

