-- ==== Sys2Proof/Laws/Decode.lean ====
section
/-! SUPPORT. The fields of a word: laying operands out and reading them back agree, two rows that fix a bit
differently never read the same word, and what that gives for decoding an encoded instruction. -/

namespace Sys2Proof.Laws

/-- Every fixed field holds a value that fits it. -/
def segsOk : List Seg → Bool
  | [] => true
  | .fixed w v :: t => decide (v < 2 ^ w) && segsOk t
  | .operand _ :: t => segsOk t

/-- The operands are as many as the fields that carry one, and each fits its field. -/
def segsFit : List Seg → List Nat → Bool
  | [], [] => true
  | [], _ :: _ => false
  | .fixed _ _ :: t, xs => segsFit t xs
  | .operand _ :: _, [] => false
  | .operand w :: t, x :: xs => decide (x < 2 ^ w) && segsFit t xs

/-- The bits that the fields take. -/
def segsWidth : List Seg → Nat
  | [] => 0
  | .fixed w _ :: t => w + segsWidth t
  | .operand w :: t => w + segsWidth t

/-- What the fields fix of each bit, from bit 0 upward. -/
def segBits : List Seg → List (Option Bool)
  | [] => []
  | .fixed w v :: t => (List.range w).map (fun i => some (v.testBit i)) ++ segBits t
  | .operand w :: t => List.replicate w none ++ segBits t

/-- Some bit is fixed to different values. -/
def bitsClash : List (Option Bool) → List (Option Bool) → Bool
  | some x :: s, some y :: t => x != y || bitsClash s t
  | _ :: s, _ :: t => bitsClash s t
  | _, _ => false

/-- A number has the fixed bits. -/
def BitsHold (n : Nat) (l : List (Option Bool)) : Prop := ∀ i b, l[i]? = some (some b) → n.testBit i = b

theorem fitNil : segsFit [] [] = true := rfl

theorem fitFixed {w v : Nat} {t : List Seg} {xs : List Nat} (h : segsFit t xs = true) :
    segsFit (.fixed w v :: t) xs = true := h

theorem fitOperand {w : Nat} (x : BitVec w) {t : List Seg} {xs : List Nat} (h : segsFit t xs = true) :
    segsFit (.operand w :: t) (x.toNat :: xs) = true := by
  simp [segsFit, x.isLt, h]

theorem segsMatch_pack (sg : List Seg) : ∀ xs, segsOk sg = true → segsFit sg xs = true →
    segsMatch sg (segsPack sg xs) = some xs := by
  induction sg with
  | nil =>
    intro xs _ hf
    cases xs <;> simp_all [segsFit, segsPack, segsMatch]
  | cons f t ih =>
    intro xs hok hf
    cases f with
    | fixed w v =>
      simp only [segsOk, Bool.and_eq_true, decide_eq_true_eq] at hok
      simp only [segsFit] at hf
      have hm : (v + 2 ^ w * segsPack t xs) % 2 ^ w = v := by rw [Nat.add_mul_mod_self_left, Nat.mod_eq_of_lt hok.1]
      rw [segsPack, segsMatch, if_pos hm, Nat.add_mul_div_left _ _ (Nat.two_pow_pos w), Nat.div_eq_of_lt hok.1,
        Nat.zero_add]
      exact ih xs hok.2 hf
    | operand w =>
      simp only [segsOk] at hok
      cases xs with
      | nil => simp [segsFit] at hf
      | cons x xs =>
        simp only [segsFit, Bool.and_eq_true, decide_eq_true_eq] at hf
        simp only [segsPack, segsMatch]
        rw [Nat.add_mul_mod_self_left, Nat.mod_eq_of_lt hf.1, Nat.add_mul_div_left _ _ (Nat.two_pow_pos w),
          Nat.div_eq_of_lt hf.1, Nat.zero_add, ih xs hok hf.2]
        rfl

theorem segsPack_lt (sg : List Seg) : ∀ xs, segsOk sg = true → segsFit sg xs = true →
    segsPack sg xs < 2 ^ segsWidth sg := by
  induction sg with
  | nil => intro xs _ _; simp [segsPack, segsWidth]
  | cons f t ih =>
    intro xs hok hf
    cases f with
    | fixed w v =>
      simp only [segsOk, Bool.and_eq_true, decide_eq_true_eq] at hok
      have h := ih xs hok.2 hf
      simp only [segsPack, segsWidth, Nat.pow_add]
      calc v + 2 ^ w * segsPack t xs < 2 ^ w + 2 ^ w * segsPack t xs := by omega
        _ = 2 ^ w * (segsPack t xs + 1) := by rw [Nat.mul_add, Nat.mul_one, Nat.add_comm]
        _ ≤ 2 ^ w * 2 ^ segsWidth t := Nat.mul_le_mul_left _ h
    | operand w =>
      cases xs with
      | nil => simp [segsFit] at hf
      | cons x xs =>
        simp only [segsFit, Bool.and_eq_true, decide_eq_true_eq] at hf
        simp only [segsOk] at hok
        have h := ih xs hok hf.2
        simp only [segsPack, segsWidth, Nat.pow_add]
        calc x + 2 ^ w * segsPack t xs < 2 ^ w + 2 ^ w * segsPack t xs := by omega
          _ = 2 ^ w * (segsPack t xs + 1) := by rw [Nat.mul_add, Nat.mul_one, Nat.add_comm]
          _ ≤ 2 ^ w * 2 ^ segsWidth t := Nat.mul_le_mul_left _ h

theorem bitsHold_of_match (sg : List Seg) : ∀ n xs, segsMatch sg n = some xs → BitsHold n (segBits sg) := by
  induction sg with
  | nil => intro n xs _ i b h; simp [segBits] at h
  | cons f t ih =>
    intro n xs hm i b h
    cases f with
    | fixed w v =>
      simp only [segsMatch] at hm
      split at hm
      · rename_i hv
        simp only [segBits] at h
        by_cases hi : i < w
        · rw [List.getElem?_append_left (by simpa using hi)] at h
          simp only [List.getElem?_map, List.getElem?_range hi, Option.map_some, Option.some.injEq] at h
          rw [← h, ← hv, Nat.testBit_mod_two_pow]
          simp [hi]
        · rw [List.getElem?_append_right (by simpa using hi)] at h
          have := ih _ _ hm (i - w) b (by simpa using h)
          rwa [Nat.testBit_div_two_pow, Nat.sub_add_cancel (Nat.le_of_not_lt hi)] at this
      · simp at hm
    | operand w =>
      simp only [segsMatch, Option.map_eq_some_iff] at hm
      obtain ⟨ys, hy, -⟩ := hm
      simp only [segBits] at h
      by_cases hi : i < w
      · rw [List.getElem?_append_left (by simpa using hi)] at h
        simp [hi] at h
      · rw [List.getElem?_append_right (by simpa using hi)] at h
        have := ih _ _ hy (i - w) b (by simpa using h)
        rwa [Nat.testBit_div_two_pow, Nat.sub_add_cancel (Nat.le_of_not_lt hi)] at this

theorem bitsClash_ne (s : List (Option Bool)) : ∀ t n, bitsClash s t = true → BitsHold n s → ¬BitsHold n t := by
  induction s with
  | nil => intro t n h; simp [bitsClash] at h
  | cons x s ih =>
    intro t n h hs ht
    cases t with
    | nil => cases x <;> simp [bitsClash] at h
    | cons y t =>
      have hs' : BitsHold (n / 2) s := fun i b hi => by
        rw [Nat.testBit_div_two]; exact hs (i + 1) b (by simpa using hi)
      have ht' : BitsHold (n / 2) t := fun i b hi => by
        rw [Nat.testBit_div_two]; exact ht (i + 1) b (by simpa using hi)
      cases x with
      | none => exact ih t (n / 2) (by cases y <;> simpa [bitsClash] using h) hs' ht'
      | some x =>
        cases y with
        | none => exact ih t (n / 2) (by simpa [bitsClash] using h) hs' ht'
        | some y =>
          have h0 := (hs 0 x rfl).symm.trans (ht 0 y rfl)
          subst h0
          exact ih t (n / 2) (by simpa [bitsClash] using h) hs' ht'

/-- A word of one row is none of a row that fixes some bit differently. -/
theorem segsMatch_clash {a b : List Seg} {xs : List Nat} (hok : segsOk a = true) (hf : segsFit a xs = true)
    (h : bitsClash (segBits a) (segBits b) = true) : segsMatch b (segsPack a xs) = none := by
  cases hm : segsMatch b (segsPack a xs) with
  | none => rfl
  | some ys =>
    exact absurd (bitsHold_of_match b _ _ hm)
      (bitsClash_ne _ _ _ h (bitsHold_of_match a _ _ (segsMatch_pack a xs hok hf)))

/-- The rows before a row clash with it. -/
def rowsClash (pre : List Row) (r : Row) : Bool := pre.all (fun q => bitsClash (segBits r.segs) (segBits q.segs))

/-- Among rows that clash with it, a row reads its own words. -/
theorem readRows_pack (pre post : List Row) (r : Row) (xs : List Nat) (i : Instr) (hok : segsOk r.segs = true)
    (hf : segsFit r.segs xs = true) (hb : r.build xs = some i) (hc : rowsClash pre r = true) :
    readRows (pre ++ r :: post) (segsPack r.segs xs) = some i := by
  induction pre with
  | nil => simp [readRows, Row.read, segsMatch_pack _ _ hok hf, hb]
  | cons q pre ih =>
    simp only [rowsClash, List.all_cons, Bool.and_eq_true] at hc
    simp only [List.cons_append, readRows, Row.read, segsMatch_clash hok hf hc.1, Option.bind_none]
    exact ih hc.2

/-- What the table of rows says of a row: its opcode, its place among the rows of the opcode, and its width. -/
structure RowAt (op : Nat) (pre : List Row) (r : Row) (post : List Row) : Prop where
  rows : rowsOf op = pre ++ r :: post
  clash : rowsClash pre r = true
  ok : segsOk r.segs = true
  width : segsWidth r.segs = 32
  head : r.segs.head? = some (.fixed 7 op)
  opLt : op < 127
  opPos : 0 < op

theorem pack_mod {sg : List Seg} {op : Nat} {xs : List Nat} (h : sg.head? = some (.fixed 7 op)) (hop : op < 127) :
    segsPack sg xs % 128 = op := by
  cases sg with
  | nil => simp at h
  | cons f t =>
    simp only [List.head?_cons, Option.some.injEq] at h
    subst h
    simp only [segsPack]
    omega

/-- The word of an instruction is its fields laid out. -/
theorem encode_toNat {i : Instr} {sg : List Seg} {xs : List Nat} (h : i.fields = some (sg, xs))
    (hok : segsOk sg = true) (hf : segsFit sg xs = true) (hw : segsWidth sg = 32) :
    (encode i).toNat = segsPack sg xs := by
  have := segsPack_lt sg xs hok hf
  rw [hw] at this
  rw [encode, h]
  exact Nat.mod_eq_of_lt this

/-- A word that means the same on a processor as on any other is legal there when it is well formed. -/
theorem legalOn_unchanged {p : Proc} {i : Instr} (h : forProc p i = i) : legalOn p i = i.wf := by
  unfold legalOn
  split
  · cases p with
    | control => simp [forProc] at h
    | task => rfl
    | convoy => rfl
  · rfl

/-- Decoding the word of an instruction gives the instruction that its row builds, as the processor reads it. -/
theorem decode_encode {op : Nat} {pre post : List Row} {r : Row} (hr : RowAt op pre r post) {p : Proc} {i j : Instr}
    {xs : List Nat} (hi : i.fields = some (r.segs, xs)) (hf : segsFit r.segs xs = true) (hb : r.build xs = some j)
    (ho : outsideSet p (encode i) = false) (hwf : legalOn p j = true) : decode p (encode i) = .instr (forProc p j) := by
  have hn := encode_toNat hi hr.ok hf hr.width
  have hm : (encode i).toNat % 128 = op := by rw [hn]; exact pack_mod hr.head hr.opLt
  have h1 := hr.opLt
  have h2 := hr.opPos
  have hread : readWord (encode i) = some j := by
    rw [readWord, hm, hn, hr.rows]
    exact readRows_pack pre post r xs j hr.ok hf hb hr.clash
  have hne : ¬((encode i).toNat = 0 ∨ (encode i).toNat = 0xFFFFFFFF ∨ (encode i).toNat % 128 = 0x7F) := by
    rintro (h | h | h) <;> rw [h] at hm <;> omega
  rw [decode]
  simp only [if_neg hne, ho, hread, hwf, if_true, Bool.false_eq_true, if_false]

/-- The steering words that only a control core executes, and the words of the control registers that only it has. -/
def procSteer (i : Instr) : Proc :=
  match i with
  | .strin .. | .strout .. | .fqset .. | .fqsetRd .. | .fqsetAdv .. | .epopMsg .. | .epopMsgTry .. | .launch .. =>
    .control
  | .crget _ c | .crput _ c | .crset _ c | .crclr _ c => if csrControlOnly c.toNat then .control else .task
  | _ => .task

/-- A processor that executes a steering word. -/
theorem procOf_steer {i : Instr} (h : (encode i).toNat % 128 < 0x40) : procOf i = procSteer i :=
  if_neg (Nat.not_le.mpr h)

/-- The opcodes of the words that every steering stream of a task core executes. -/
def taskOpcode (op : Nat) : Bool :=
  decide (op < 0x40) && op != 0x30 && op != 0x31 && op != 0x35 && op != 0x23 && op != 0x38

theorem outside_task {w : IWord} {op : Nat} (h : w.toNat % 128 = op) (ho : taskOpcode op = true) :
    outsideSet .task w = false := by
  simp only [taskOpcode, Bool.and_eq_true, decide_eq_true_eq, bne_iff_ne] at ho
  simp only [outsideSet, h]
  simp [ho]

/-- The opcodes of the words that a control core executes, but for EPOP and the control registers. -/
def controlOpcode (op : Nat) : Bool :=
  decide (op < 0x40) && op != 0x34 && op != 0x25 && op != 0x20 && op != 0x21 && op != 0x22 && op != 0x23 && op != 0x38

theorem outside_control {w : IWord} {op : Nat} (h : w.toNat % 128 = op) (ho : controlOpcode op = true) :
    outsideSet .control w = false := by
  simp only [controlOpcode, Bool.and_eq_true, decide_eq_true_eq, bne_iff_ne] at ho
  simp only [outsideSet, h]
  simp [ho]

/-- The opcode of an encoded instruction. -/
theorem encode_mod {op : Nat} {pre post : List Row} {r : Row} (hr : RowAt op pre r post) {i : Instr} {xs : List Nat}
    (hi : i.fields = some (r.segs, xs)) (hf : segsFit r.segs xs = true) : (encode i).toNat % 128 = op := by
  rw [encode_toNat hi hr.ok hf hr.width]
  exact pack_mod hr.head hr.opLt

end Sys2Proof.Laws
end

