-- ==== Sys2Proof/Laws/Elements.lean ====
section
/-! SUPPORT. Elements of shapes: bounds, what a write of one leaves, and the completion of a word whose members are built by
the body of the element-wise words. -/

namespace Sys2Proof.Machine

/-! ## Reading and writing elements -/

theorem elemGet_lt (v : Shape) (ew i : Nat) (s : State) : elemGet v ew i s < 2 ^ ew := by
  unfold elemGet
  dsimp only
  split
  · next h =>
    subst h
    have h1 := (readCell (place v 64 i).1 (place v 64 i).2.1 s).isLt
    have h2 := (readCell (place v 64 i).1 ((place v 64 i).2.1 + 1) s).isLt
    omega
  · exact Nat.mod_lt _ (Nat.two_pow_pos _)

theorem Src.get_lt (x : Src) (ew e : Nat) (s : State) : x.get ew e s < 2 ^ ew := by
  cases x with
  | shape n => exact elemGet_lt _ _ _ _
  | scalar k => exact Nat.mod_lt _ (Nat.two_pow_pos _)
  | imm v =>
    have h1 : (0 : Int) < 2 ^ ew := by positivity
    have h2 := Int.emod_lt_of_pos v h1
    have h3 := Int.emod_nonneg v (Int.ne_of_gt h1)
    have h4 : ((v % 2 ^ ew).toNat : Int) = v % 2 ^ ew := Int.toNat_of_nonneg h3
    have : ((v % 2 ^ ew).toNat : Int) < ((2 ^ ew : Nat) : Int) := by rw [h4]; exact_mod_cast h2
    exact_mod_cast this
  | unused => exact Nat.two_pow_pos _

/-- A write of an element changes the plane alone, and the record of the cells written under an arm. -/
theorem elemSet_eq (v : Shape) (ew i x : Nat) (s : State) :
    elemSet v ew i x s = s.modConv (fun c => { c with
      plane := (elemSet v ew i x s).core.conv.plane, wrote := (elemSet v ew i x s).core.conv.wrote }) := by
  unfold elemSet
  dsimp only
  split <;> rfl

/-- Two states with the same convoy stream but for the plane, the masks, the flags and the convoy scalars, and the same
core, steering and memory beside it. -/
structure SameSetting (s t : State) : Prop where
  vtype : t.core.conv.vtype = s.core.conv.vtype
  vctl : t.core.conv.vctl = s.core.conv.vctl
  vl : t.core.conv.vl = s.core.conv.vl
  trace : t.core.trace = s.core.trace

theorem SameSetting.refl (s : State) : SameSetting s s := ⟨rfl, rfl, rfl, rfl⟩

theorem SameSetting.trans {s t u : State} (a : SameSetting s t) (b : SameSetting t u) : SameSetting s u :=
  ⟨b.vtype.trans a.vtype, b.vctl.trans a.vctl, b.vl.trans a.vl, b.trace.trans a.trace⟩

theorem SameSetting.elemSet (v : Shape) (ew i x : Nat) (s : State) : SameSetting s (elemSet v ew i x s) := by
  rw [elemSet_eq]; exact ⟨rfl, rfl, rfl, rfl⟩

theorem SameSetting.raiseFlags (f : FlagSet) (s : State) : SameSetting s (raiseFlags f s) := ⟨rfl, rfl, rfl, rfl⟩

theorem SameSetting.writeMaskBit (m i : Nat) (v : Bool) (s : State) : SameSetting s (writeMaskBit m i v s) :=
  ⟨rfl, rfl, rfl, rfl⟩

theorem SameSetting.accessing (i : Instr) (v : State) (l : List Nat) (s : State) :
    SameSetting s (Machine.accessing i v l s) := ⟨rfl, rfl, rfl, rfl⟩

theorem SameSetting.foldl {α : Type} (g : State → α → State) (hg : ∀ t a, SameSetting t (g t a)) (l : List α)
    (s : State) : SameSetting s (l.foldl g s) := by
  induction l generalizing s with
  | nil => exact .refl s
  | cons a l ih => exact (hg s a).trans (ih _)

/-- What issue leaves of the setting of the convoy stream. -/
theorem issued_setting (i : Instr) (s : State) (hb : s.Boundary) :
    (issued i s).core.conv.vtype = s.core.conv.vtype ∧ (issued i s).core.conv.vctl = s.core.conv.vctl
      ∧ (issued i s).core.trace = s.core.trace
      ∧ (issued i s).core.conv.vl = s.core.conv.vl ∧ (issued i s).core.mat = s.core.mat
      ∧ (issued i s).core.conv.startK = s.core.conv.startK := by
  rw [issued_eq i s hb.trace]
  exact ⟨rfl, rfl, rfl, rfl, rfl, rfl⟩

theorem arithCause_none (fl : FlagSet) : arithCause fl 0 = none := by
  simp [arithCause]

theorem finishElem_quiet (d : Nat) (fl : FlagSet) (wr : State → State) (s : State) (h : s.core.conv.vctl = 0) :
    finishElem d fl wr s = .ok (raiseFlags fl (wr s)) [] [] := by
  rw [finishElem, h, arithCause_none]; rfl

/-! ## The body of the element-wise words -/

/-- The shapes of a member hold, in the form of R83. -/
theorem shapeFault_none (m : Member) (s : State)
    (h : ∀ u ∈ m.uses, (shapeAt u.shape s).kind ≠ 0 ∧ shapeTypeBad (shapeAt u.shape s) u.ew = false
      ∧ (∀ n, u.need = some n → n ≤ (shapeAt u.shape s).cap u.ew)
      ∧ (u.box = true → shapeGated s.core.conv.planepwr (shapeAt u.shape s) = false)) : shapeFault m s = none := by
  have hk : ∀ k : ShapeCond, m.uses.find? (fun u => k.fails u s) = none := by
    intro k
    rw [List.find?_eq_none]
    intro u hu
    obtain ⟨h1, h2, h3, h4⟩ := h u hu
    cases k with
    | off => simp [ShapeCond.fails, h1]
    | type => simp [ShapeCond.fails, h2]
    | length =>
      cases hn : u.need with
      | none => simp [ShapeCond.fails, hn]
      | some n => simp [ShapeCond.fails, hn]; exact h3 n hn
    | gated =>
      cases hx : u.box with
      | false => simp [ShapeCond.fails, hx]
      | true => simp [ShapeCond.fails, h4 hx]
  simp [shapeFault, hk]

theorem mem_srcUses (x : Src) (ew vl : Nat) (u : Use) (h : u ∈ x.uses ew vl) :
    ∃ n, x = .shape n ∧ u = readVl n ew vl := by
  cases x <;> simp [Src.uses] at h
  exact ⟨_, rfl, h⟩

theorem mem_srcNamed (l : List Src) (ew vl n : Nat) (h : Src.shape n ∈ l) : ⟨n, ew, vl⟩ ∈ srcNamed l ew vl := by
  exact List.mem_filterMap.mpr ⟨_, h, rfl⟩

/-- A word that the body of R121 makes, alone in its convoy, completes. -/
theorem completes_elementwise (i : Instr) (s : State) (P : Prop) (pairs readsD : Bool) (pipe : Pipe) (d : BitVec 6) (x y : Src)
    (m : BitVec 3) (op f : ElemOp) (hi : ∀ t, t.core.conv.vtype = s.core.conv.vtype →
      memberOf i t = elementwise t pipe pairs d.toNat x y readsD m.toNat op)
    (hop : ∀ (c : Conv) (a b z z' : Nat), a < 2 ^ c.ew → b < 2 ^ c.ew → z < 2 ^ c.ew → c.vtype = s.core.conv.vtype →
      pairs = true → (readsD = true → z' = z) → op c a b z' = f c a b z)
    (hb : s.Boundary) (hl : endsConvoy i) (hp : pairs = true) (hv : s.core.conv.vctl = 0)
    (hn : ∀ n ∈ (onElements s P d x y m f).named, n.holds s) :
    vectorWord i s = .next (retired i [] [] ((onElements s P d x y m f).all i s)) := by
  have hm : memberOf i s = elementwise s pipe pairs d.toNat x y readsD m.toNat op := hi s rfl
  obtain ⟨q1, q2, q4, q5, _, _⟩ := issued_setting i s hb
  have hm' : memberOf i (issued i s) = elementwise (issued i s) pipe pairs d.toNat x y readsD m.toNat op :=
    hi _ q1
  have keep : ∀ t e, SameSetting t ((onElements s P d x y m f).element e t) := by
    intro t e
    simp only [onElements]
    split
    · exact (SameSetting.elemSet _ _ _ _ _).trans (SameSetting.raiseFlags _ _)
    · exact .refl t
  have before : ∀ n, SameSetting (issued i s) ((onElements s P d x y m f).before i n s) := fun n =>
    SameSetting.foldl _ (fun t e => (SameSetting.accessing _ _ _ t).trans (keep _ e)) _ _
  apply completes_elements i s (onElements s P d x y m f) hb hl
  · rw [hm]; exact hp
  · rw [hm]; rfl
  · apply shapeFault_none
    rw [hm]
    intro u hu
    have hd := hn ⟨d.toNat, s.core.conv.ew, s.vl⟩ (by simp [onElements])
    simp only [Named.holds] at hd
    simp only [elementwise, List.mem_cons, List.mem_append] at hu
    rcases hu with rfl | hu | hu
    · cases readsD <;> exact ⟨hd.1, hd.2.1, fun n e => by cases e; exact hd.2.2.1, fun _ => hd.2.2.2⟩
    · obtain ⟨n, rfl, rfl⟩ := mem_srcUses _ _ _ _ hu
      have h1 := hn ⟨n, s.core.conv.ew, s.vl⟩ (by
        simp only [onElements, List.mem_cons]; exact .inr (mem_srcNamed _ _ _ _ (by simp)))
      simp only [Named.holds] at h1
      exact ⟨h1.1, h1.2.1, fun n e => by cases e; exact h1.2.2.1, fun _ => h1.2.2.2⟩
    · obtain ⟨n, rfl, rfl⟩ := mem_srcUses _ _ _ _ hu
      have h1 := hn ⟨n, s.core.conv.ew, s.vl⟩ (by
        simp only [onElements, List.mem_cons]; exact .inr (mem_srcNamed _ _ _ _ (by simp)))
      simp only [Named.holds] at h1
      exact ⟨h1.1, h1.2.1, fun n e => by cases e; exact h1.2.2.1, fun _ => h1.2.2.2⟩
  · rw [hm]; rfl
  · rw [hm]
    have ht : s.core.trace.ltrc[8] = false := by simpa [BitVec.getLsbD_eq_getElem] using hb.trace
    simp [convoyReady, queuesServe, traceHolds, parkedHolds, hb.parked, elementwise, Member.base, ht]
  · rw [hm']; exact .inl rfl
  · intro n _
    rw [hm']
    have hs : SameSetting (issued i s) ((onElements s P d x y m f).running i n s) :=
      (before n).trans (SameSetting.accessing _ _ _ _)
    generalize (onElements s P d x y m f).running i n s = t at hs
    have e1 : t.core.conv.vtype = s.core.conv.vtype := hs.vtype.trans q1
    have e2 : t.core.conv.vctl = 0 := (hs.vctl.trans q2).trans hv
    have e3 : (issued i s).core.conv.ew = t.core.conv.ew := by simp only [Conv.ew, Conv.type, hs.vtype]
    simp only [elementwise, onElements, e3]
    by_cases hk : maskBit m.toNat (s.core.conv.startK.toNat + n) t = true
    · simp only [hk, if_true, Bool.true_eq_false, if_false, finishElem_quiet _ _ _ t e2]
      rw [hop t.core.conv _ _ (elemGet (shapeAt d.toNat t) t.core.conv.ew (s.core.conv.startK.toNat + n) t) _
        (Src.get_lt _ _ _ _) (Src.get_lt _ _ _ _) (elemGet_lt _ _ _ _) e1 hp (fun h => by rw [if_pos h])]
    · simp [hk, Step.done]
  · unfold State.vl ElementWord.all; rw [(before _).vl, q5]
  · exact (before _).trace.trans q4

end Sys2Proof.Machine
end

