-- ==== Sys2Proof/Laws/PerInstr.lean ====
section
/-! SUPPORT. What holds of every instruction, one lemma per constructor. Family RoundTrip: the word of a well-formed
instruction decodes, on a processor that executes it, to that instruction. Events have no word, and none is well
formed. -/

namespace Sys2Proof.Laws

namespace RoundTrip

/-- A well-formed instruction word is what its encoding decodes to. -/
def Statement (i : Instr) : Prop := i.isWord = true → i.wf = true → decode (procOf i) (encode i) = .instr i

/-- An event is no word. -/
theorem event {i : Instr} (h : i.isWord = false) : Statement i := fun hw => by rw [h] at hw; cases hw

/-- A vector word: decoded on the convoy stream. -/
theorem vectorWord {op : Nat} {pre post : List Row} {r : Row} (hr : RowAt op pre r post) {i : Instr} {xs : List Nat}
    (hi : i.fields = some (r.segs, xs)) (hf : segsFit r.segs xs = true) (hb : r.build xs = some i) (hop : 0x40 ≤ op)
    (hl : forProc .convoy i = i) : Statement i := by
  intro _ hwf
  have hm := encode_mod hr hi hf
  have hp : procOf i = .convoy := by simp [procOf, hm, hop]
  have ho : outsideSet .convoy (encode i) = false := by simp only [outsideSet, hm]; simpa using hop
  rw [hp, decode_encode hr hi hf hb ho ((legalOn_convoy i).trans hwf), hl]

/-- A word of a steering set. -/
theorem steeringWord {op : Nat} {pre post : List Row} {r : Row} (hr : RowAt op pre r post) {i j : Instr} {p : Proc}
    {xs : List Nat} (hi : i.fields = some (r.segs, xs)) (hf : segsFit r.segs xs = true) (hb : r.build xs = some j)
    (hop : op < 0x40) (hp : procSteer i = p) (ho : outsideSet p (encode i) = false) (hj : legalOn p j = i.wf)
    (hl : forProc p j = i) : Statement i := by
  intro _ hwf
  rw [procOf_steer ((encode_mod hr hi hf).trans_lt hop), hp, decode_encode hr hi hf hb ho (hj.trans hwf), hl]

/-- A word that the steering stream of a task core executes. -/
theorem taskWord {op : Nat} {pre post : List Row} {r : Row} (hr : RowAt op pre r post) {i : Instr} {xs : List Nat}
    (hi : i.fields = some (r.segs, xs)) (hf : segsFit r.segs xs = true) (hb : r.build xs = some i)
    (hop : taskOpcode op = true) (hp : procSteer i = .task) (hl : forProc .task i = i) :
    Statement i :=
  steeringWord hr hi hf hb (by simp only [taskOpcode, Bool.and_eq_true, decide_eq_true_eq] at hop; omega) hp
    (outside_task (encode_mod hr hi hf) hop) (legalOn_unchanged hl) hl

/-- A word that a control core executes. -/
theorem controlWord {op : Nat} {pre post : List Row} {r : Row} (hr : RowAt op pre r post) {i : Instr} {xs : List Nat}
    (hi : i.fields = some (r.segs, xs)) (hf : segsFit r.segs xs = true) (hb : r.build xs = some i)
    (hop : controlOpcode op = true) (hp : procSteer i = .control) (hl : forProc .control i = i) : Statement i :=
  steeringWord hr hi hf hb (by simp only [controlOpcode, Bool.and_eq_true, decide_eq_true_eq] at hop; omega) hp
    (outside_control (encode_mod hr hi hf) hop) (legalOn_unchanged hl) hl

/-- A word of the control registers: the register's set is that of the processor. -/
theorem csrWord {pre post : List Row} {r : Row} (hr : RowAt 0x38 pre r post) {i : Instr} {xs : List Nat} {c : BitVec 12}
    (hi : i.fields = some (r.segs, xs)) (hf : segsFit r.segs xs = true) (hb : r.build xs = some i)
    (hc : csrField (encode i) = c.toNat) (hp : procSteer i = if csrControlOnly c.toNat then .control else .task)
    (hl : ∀ p, forProc p i = i) : Statement i := by
  have hm := encode_mod hr hi hf
  by_cases h : csrControlOnly c.toNat = true
  · refine steeringWord hr hi hf hb (by decide) (p := .control) (by rw [hp, if_pos h]) ?_ (legalOn_unchanged (hl _)) (hl _)
    have ht : csrTaskOnly c.toNat = false := by
      simp only [csrControlOnly, Bool.and_eq_true, decide_eq_true_eq] at h
      simp only [csrTaskOnly, Bool.or_eq_false_iff, Bool.and_eq_false_iff, decide_eq_false_iff_not, beq_eq_false_iff_ne]
      omega
    simp [outsideSet, hm, hc, ht]
  · refine steeringWord hr hi hf hb (by decide) (p := .task) (by rw [hp, if_neg h]) ?_ (legalOn_unchanged (hl _)) (hl _)
    simp [outsideSet, hm, hc, Bool.not_eq_true _ ▸ h]


/-- Where the row of vfadd stands. -/
theorem atVfadd : RowAt 0x40 [] rowVfadd [rowVfsub, rowVfmul, rowVfmin, rowVfmax, rowVfdiv] :=
  ⟨rfl, by decide, by decide, by decide, rfl, by decide, by decide⟩

theorem vfadd : ∀ d a b m c, Statement (.vfadd d a b m c) :=
  fun d a b m c => vectorWord atVfadd rfl (fitFixed (fitOperand d (fitOperand a (fitOperand b (fitOperand m (fitFixed (fitOperand c (fitNil))))))))
    (by simp [rowVfadd]) (by decide) rfl

/-- Where the row of vfsub stands. -/
theorem atVfsub : RowAt 0x40 [rowVfadd] rowVfsub [rowVfmul, rowVfmin, rowVfmax, rowVfdiv] :=
  ⟨rfl, by decide, by decide, by decide, rfl, by decide, by decide⟩

theorem vfsub : ∀ d a b m c, Statement (.vfsub d a b m c) :=
  fun d a b m c => vectorWord atVfsub rfl (fitFixed (fitOperand d (fitOperand a (fitOperand b (fitOperand m (fitFixed (fitOperand c (fitNil))))))))
    (by simp [rowVfsub]) (by decide) rfl

/-- Where the row of vfmul stands. -/
theorem atVfmul : RowAt 0x40 [rowVfadd, rowVfsub] rowVfmul [rowVfmin, rowVfmax, rowVfdiv] :=
  ⟨rfl, by decide, by decide, by decide, rfl, by decide, by decide⟩

theorem vfmul : ∀ d a b m c, Statement (.vfmul d a b m c) :=
  fun d a b m c => vectorWord atVfmul rfl (fitFixed (fitOperand d (fitOperand a (fitOperand b (fitOperand m (fitFixed (fitOperand c (fitNil))))))))
    (by simp [rowVfmul]) (by decide) rfl

/-- Where the row of vfmin stands. -/
theorem atVfmin : RowAt 0x40 [rowVfadd, rowVfsub, rowVfmul] rowVfmin [rowVfmax, rowVfdiv] :=
  ⟨rfl, by decide, by decide, by decide, rfl, by decide, by decide⟩

theorem vfmin : ∀ d a b m c, Statement (.vfmin d a b m c) :=
  fun d a b m c => vectorWord atVfmin rfl (fitFixed (fitOperand d (fitOperand a (fitOperand b (fitOperand m (fitFixed (fitOperand c (fitNil))))))))
    (by simp [rowVfmin]) (by decide) rfl

/-- Where the row of vfmax stands. -/
theorem atVfmax : RowAt 0x40 [rowVfadd, rowVfsub, rowVfmul, rowVfmin] rowVfmax [rowVfdiv] :=
  ⟨rfl, by decide, by decide, by decide, rfl, by decide, by decide⟩

theorem vfmax : ∀ d a b m c, Statement (.vfmax d a b m c) :=
  fun d a b m c => vectorWord atVfmax rfl (fitFixed (fitOperand d (fitOperand a (fitOperand b (fitOperand m (fitFixed (fitOperand c (fitNil))))))))
    (by simp [rowVfmax]) (by decide) rfl

/-- Where the row of vfdiv stands. -/
theorem atVfdiv : RowAt 0x40 [rowVfadd, rowVfsub, rowVfmul, rowVfmin, rowVfmax] rowVfdiv [] :=
  ⟨rfl, by decide, by decide, by decide, rfl, by decide, by decide⟩

theorem vfdiv : ∀ d a b m c, Statement (.vfdiv d a b m c) :=
  fun d a b m c => vectorWord atVfdiv rfl (fitFixed (fitOperand d (fitOperand a (fitOperand b (fitOperand m (fitFixed (fitOperand c (fitNil))))))))
    (by simp [rowVfdiv]) (by decide) rfl

/-- Where the row of vfaddK stands. -/
theorem atVfaddK : RowAt 0x43 [] rowVfaddK [rowVfsubK, rowVfmulK, rowVfminK, rowVfmaxK, rowVfdivK] :=
  ⟨rfl, by decide, by decide, by decide, rfl, by decide, by decide⟩

theorem vfaddK : ∀ d a x k m c, Statement (.vfaddK d a x k m c) :=
  fun d a x k m c => vectorWord atVfaddK rfl (fitFixed (fitOperand d (fitOperand a (fitOperand x (fitFixed (fitOperand k (fitOperand m (fitFixed (fitOperand c (fitNil))))))))))
    (by simp [rowVfaddK]) (by decide) rfl

/-- Where the row of vfsubK stands. -/
theorem atVfsubK : RowAt 0x43 [rowVfaddK] rowVfsubK [rowVfmulK, rowVfminK, rowVfmaxK, rowVfdivK] :=
  ⟨rfl, by decide, by decide, by decide, rfl, by decide, by decide⟩

theorem vfsubK : ∀ d a x k m c, Statement (.vfsubK d a x k m c) :=
  fun d a x k m c => vectorWord atVfsubK rfl (fitFixed (fitOperand d (fitOperand a (fitOperand x (fitFixed (fitOperand k (fitOperand m (fitFixed (fitOperand c (fitNil))))))))))
    (by simp [rowVfsubK]) (by decide) rfl

/-- Where the row of vfmulK stands. -/
theorem atVfmulK : RowAt 0x43 [rowVfaddK, rowVfsubK] rowVfmulK [rowVfminK, rowVfmaxK, rowVfdivK] :=
  ⟨rfl, by decide, by decide, by decide, rfl, by decide, by decide⟩

theorem vfmulK : ∀ d a x k m c, Statement (.vfmulK d a x k m c) :=
  fun d a x k m c => vectorWord atVfmulK rfl (fitFixed (fitOperand d (fitOperand a (fitOperand x (fitFixed (fitOperand k (fitOperand m (fitFixed (fitOperand c (fitNil))))))))))
    (by simp [rowVfmulK]) (by decide) rfl

/-- Where the row of vfminK stands. -/
theorem atVfminK : RowAt 0x43 [rowVfaddK, rowVfsubK, rowVfmulK] rowVfminK [rowVfmaxK, rowVfdivK] :=
  ⟨rfl, by decide, by decide, by decide, rfl, by decide, by decide⟩

theorem vfminK : ∀ d a x k m c, Statement (.vfminK d a x k m c) :=
  fun d a x k m c => vectorWord atVfminK rfl (fitFixed (fitOperand d (fitOperand a (fitOperand x (fitFixed (fitOperand k (fitOperand m (fitFixed (fitOperand c (fitNil))))))))))
    (by simp [rowVfminK]) (by decide) rfl

/-- Where the row of vfmaxK stands. -/
theorem atVfmaxK : RowAt 0x43 [rowVfaddK, rowVfsubK, rowVfmulK, rowVfminK] rowVfmaxK [rowVfdivK] :=
  ⟨rfl, by decide, by decide, by decide, rfl, by decide, by decide⟩

theorem vfmaxK : ∀ d a x k m c, Statement (.vfmaxK d a x k m c) :=
  fun d a x k m c => vectorWord atVfmaxK rfl (fitFixed (fitOperand d (fitOperand a (fitOperand x (fitFixed (fitOperand k (fitOperand m (fitFixed (fitOperand c (fitNil))))))))))
    (by simp [rowVfmaxK]) (by decide) rfl

/-- Where the row of vfdivK stands. -/
theorem atVfdivK : RowAt 0x43 [rowVfaddK, rowVfsubK, rowVfmulK, rowVfminK, rowVfmaxK] rowVfdivK [] :=
  ⟨rfl, by decide, by decide, by decide, rfl, by decide, by decide⟩

theorem vfdivK : ∀ d a x k m c, Statement (.vfdivK d a x k m c) :=
  fun d a x k m c => vectorWord atVfdivK rfl (fitFixed (fitOperand d (fitOperand a (fitOperand x (fitFixed (fitOperand k (fitOperand m (fitFixed (fitOperand c (fitNil))))))))))
    (by simp [rowVfdivK]) (by decide) rfl

/-- Where the row of vfneg stands. -/
theorem atVfneg : RowAt 0x41 [] rowVfneg [rowVfabs, rowVfcpys, rowVfcpysn, rowVfkind] :=
  ⟨rfl, by decide, by decide, by decide, rfl, by decide, by decide⟩

theorem vfneg : ∀ d a m c, Statement (.vfneg d a m c) :=
  fun d a m c => vectorWord atVfneg rfl (fitFixed (fitOperand d (fitOperand a (fitFixed (fitOperand m (fitFixed (fitOperand c (fitNil))))))))
    (by simp [rowVfneg]) (by decide) rfl

/-- Where the row of vfabs stands. -/
theorem atVfabs : RowAt 0x41 [rowVfneg] rowVfabs [rowVfcpys, rowVfcpysn, rowVfkind] :=
  ⟨rfl, by decide, by decide, by decide, rfl, by decide, by decide⟩

theorem vfabs : ∀ d a m c, Statement (.vfabs d a m c) :=
  fun d a m c => vectorWord atVfabs rfl (fitFixed (fitOperand d (fitOperand a (fitFixed (fitOperand m (fitFixed (fitOperand c (fitNil))))))))
    (by simp [rowVfabs]) (by decide) rfl

/-- Where the row of vfcpys stands. -/
theorem atVfcpys : RowAt 0x41 [rowVfneg, rowVfabs] rowVfcpys [rowVfcpysn, rowVfkind] :=
  ⟨rfl, by decide, by decide, by decide, rfl, by decide, by decide⟩

theorem vfcpys : ∀ d a b m c, Statement (.vfcpys d a b m c) :=
  fun d a b m c => vectorWord atVfcpys rfl (fitFixed (fitOperand d (fitOperand a (fitOperand b (fitOperand m (fitFixed (fitOperand c (fitNil))))))))
    (by simp [rowVfcpys]) (by decide) rfl

/-- Where the row of vfcpysn stands. -/
theorem atVfcpysn : RowAt 0x41 [rowVfneg, rowVfabs, rowVfcpys] rowVfcpysn [rowVfkind] :=
  ⟨rfl, by decide, by decide, by decide, rfl, by decide, by decide⟩

theorem vfcpysn : ∀ d a b m c, Statement (.vfcpysn d a b m c) :=
  fun d a b m c => vectorWord atVfcpysn rfl (fitFixed (fitOperand d (fitOperand a (fitOperand b (fitOperand m (fitFixed (fitOperand c (fitNil))))))))
    (by simp [rowVfcpysn]) (by decide) rfl

/-- Where the row of vfkind stands. -/
theorem atVfkind : RowAt 0x41 [rowVfneg, rowVfabs, rowVfcpys, rowVfcpysn] rowVfkind [] :=
  ⟨rfl, by decide, by decide, by decide, rfl, by decide, by decide⟩

theorem vfkind : ∀ d a m c, Statement (.vfkind d a m c) :=
  fun d a m c => vectorWord atVfkind rfl (fitFixed (fitOperand d (fitOperand a (fitFixed (fitOperand m (fitFixed (fitOperand c (fitNil))))))))
    (by simp [rowVfkind]) (by decide) rfl

/-- Where the row of vfma stands. -/
theorem atVfma : RowAt 0x42 [] rowVfma [rowVfnma, rowVfms, rowVfnms] :=
  ⟨rfl, by decide, by decide, by decide, rfl, by decide, by decide⟩

theorem vfma : ∀ d a b m c, Statement (.vfma d a b m c) :=
  fun d a b m c => vectorWord atVfma rfl (fitFixed (fitOperand d (fitOperand a (fitOperand b (fitOperand m (fitFixed (fitOperand c (fitNil))))))))
    (by simp [rowVfma]) (by decide) rfl

/-- Where the row of vfnma stands. -/
theorem atVfnma : RowAt 0x42 [rowVfma] rowVfnma [rowVfms, rowVfnms] :=
  ⟨rfl, by decide, by decide, by decide, rfl, by decide, by decide⟩

theorem vfnma : ∀ d a b m c, Statement (.vfnma d a b m c) :=
  fun d a b m c => vectorWord atVfnma rfl (fitFixed (fitOperand d (fitOperand a (fitOperand b (fitOperand m (fitFixed (fitOperand c (fitNil))))))))
    (by simp [rowVfnma]) (by decide) rfl

/-- Where the row of vfms stands. -/
theorem atVfms : RowAt 0x42 [rowVfma, rowVfnma] rowVfms [rowVfnms] :=
  ⟨rfl, by decide, by decide, by decide, rfl, by decide, by decide⟩

theorem vfms : ∀ d a b m c, Statement (.vfms d a b m c) :=
  fun d a b m c => vectorWord atVfms rfl (fitFixed (fitOperand d (fitOperand a (fitOperand b (fitOperand m (fitFixed (fitOperand c (fitNil))))))))
    (by simp [rowVfms]) (by decide) rfl

/-- Where the row of vfnms stands. -/
theorem atVfnms : RowAt 0x42 [rowVfma, rowVfnma, rowVfms] rowVfnms [] :=
  ⟨rfl, by decide, by decide, by decide, rfl, by decide, by decide⟩

theorem vfnms : ∀ d a b m c, Statement (.vfnms d a b m c) :=
  fun d a b m c => vectorWord atVfnms rfl (fitFixed (fitOperand d (fitOperand a (fitOperand b (fitOperand m (fitFixed (fitOperand c (fitNil))))))))
    (by simp [rowVfnms]) (by decide) rfl

/-- Where the row of vfmaK stands. -/
theorem atVfmaK : RowAt 0x44 [] rowVfmaK [rowVfnmaK, rowVfmsK, rowVfnmsK] :=
  ⟨rfl, by decide, by decide, by decide, rfl, by decide, by decide⟩

theorem vfmaK : ∀ d a k m c, Statement (.vfmaK d a k m c) :=
  fun d a k m c => vectorWord atVfmaK rfl (fitFixed (fitOperand d (fitOperand a (fitFixed (fitOperand k (fitOperand m (fitFixed (fitOperand c (fitNil)))))))))
    (by simp [rowVfmaK]) (by decide) rfl

/-- Where the row of vfnmaK stands. -/
theorem atVfnmaK : RowAt 0x44 [rowVfmaK] rowVfnmaK [rowVfmsK, rowVfnmsK] :=
  ⟨rfl, by decide, by decide, by decide, rfl, by decide, by decide⟩

theorem vfnmaK : ∀ d a k m c, Statement (.vfnmaK d a k m c) :=
  fun d a k m c => vectorWord atVfnmaK rfl (fitFixed (fitOperand d (fitOperand a (fitFixed (fitOperand k (fitOperand m (fitFixed (fitOperand c (fitNil)))))))))
    (by simp [rowVfnmaK]) (by decide) rfl

/-- Where the row of vfmsK stands. -/
theorem atVfmsK : RowAt 0x44 [rowVfmaK, rowVfnmaK] rowVfmsK [rowVfnmsK] :=
  ⟨rfl, by decide, by decide, by decide, rfl, by decide, by decide⟩

theorem vfmsK : ∀ d a k m c, Statement (.vfmsK d a k m c) :=
  fun d a k m c => vectorWord atVfmsK rfl (fitFixed (fitOperand d (fitOperand a (fitFixed (fitOperand k (fitOperand m (fitFixed (fitOperand c (fitNil)))))))))
    (by simp [rowVfmsK]) (by decide) rfl

/-- Where the row of vfnmsK stands. -/
theorem atVfnmsK : RowAt 0x44 [rowVfmaK, rowVfnmaK, rowVfmsK] rowVfnmsK [] :=
  ⟨rfl, by decide, by decide, by decide, rfl, by decide, by decide⟩

theorem vfnmsK : ∀ d a k m c, Statement (.vfnmsK d a k m c) :=
  fun d a k m c => vectorWord atVfnmsK rfl (fitFixed (fitOperand d (fitOperand a (fitFixed (fitOperand k (fitOperand m (fitFixed (fitOperand c (fitNil)))))))))
    (by simp [rowVfnmsK]) (by decide) rfl

/-- Where the row of vfsqrt stands. -/
theorem atVfsqrt : RowAt 0x45 [] rowVfsqrt [rowVfrsqrt, rowVfrcp, rowVfexp2, rowVflog2, rowVfsinpi, rowVftanh, rowVfsigm] :=
  ⟨rfl, by decide, by decide, by decide, rfl, by decide, by decide⟩

theorem vfsqrt : ∀ d a m c, Statement (.vfsqrt d a m c) :=
  fun d a m c => vectorWord atVfsqrt rfl (fitFixed (fitOperand d (fitOperand a (fitFixed (fitOperand m (fitFixed (fitOperand c (fitNil))))))))
    (by simp [rowVfsqrt]) (by decide) rfl

/-- Where the row of vfrsqrt stands. -/
theorem atVfrsqrt : RowAt 0x45 [rowVfsqrt] rowVfrsqrt [rowVfrcp, rowVfexp2, rowVflog2, rowVfsinpi, rowVftanh, rowVfsigm] :=
  ⟨rfl, by decide, by decide, by decide, rfl, by decide, by decide⟩

theorem vfrsqrt : ∀ d a m c, Statement (.vfrsqrt d a m c) :=
  fun d a m c => vectorWord atVfrsqrt rfl (fitFixed (fitOperand d (fitOperand a (fitFixed (fitOperand m (fitFixed (fitOperand c (fitNil))))))))
    (by simp [rowVfrsqrt]) (by decide) rfl

/-- Where the row of vfrcp stands. -/
theorem atVfrcp : RowAt 0x45 [rowVfsqrt, rowVfrsqrt] rowVfrcp [rowVfexp2, rowVflog2, rowVfsinpi, rowVftanh, rowVfsigm] :=
  ⟨rfl, by decide, by decide, by decide, rfl, by decide, by decide⟩

theorem vfrcp : ∀ d a m c, Statement (.vfrcp d a m c) :=
  fun d a m c => vectorWord atVfrcp rfl (fitFixed (fitOperand d (fitOperand a (fitFixed (fitOperand m (fitFixed (fitOperand c (fitNil))))))))
    (by simp [rowVfrcp]) (by decide) rfl

/-- Where the row of vfexp2 stands. -/
theorem atVfexp2 : RowAt 0x45 [rowVfsqrt, rowVfrsqrt, rowVfrcp] rowVfexp2 [rowVflog2, rowVfsinpi, rowVftanh, rowVfsigm] :=
  ⟨rfl, by decide, by decide, by decide, rfl, by decide, by decide⟩

theorem vfexp2 : ∀ d a m c, Statement (.vfexp2 d a m c) :=
  fun d a m c => vectorWord atVfexp2 rfl (fitFixed (fitOperand d (fitOperand a (fitFixed (fitOperand m (fitFixed (fitOperand c (fitNil))))))))
    (by simp [rowVfexp2]) (by decide) rfl

/-- Where the row of vflog2 stands. -/
theorem atVflog2 : RowAt 0x45 [rowVfsqrt, rowVfrsqrt, rowVfrcp, rowVfexp2] rowVflog2 [rowVfsinpi, rowVftanh, rowVfsigm] :=
  ⟨rfl, by decide, by decide, by decide, rfl, by decide, by decide⟩

theorem vflog2 : ∀ d a m c, Statement (.vflog2 d a m c) :=
  fun d a m c => vectorWord atVflog2 rfl (fitFixed (fitOperand d (fitOperand a (fitFixed (fitOperand m (fitFixed (fitOperand c (fitNil))))))))
    (by simp [rowVflog2]) (by decide) rfl

/-- Where the row of vfsinpi stands. -/
theorem atVfsinpi : RowAt 0x45 [rowVfsqrt, rowVfrsqrt, rowVfrcp, rowVfexp2, rowVflog2] rowVfsinpi [rowVftanh, rowVfsigm] :=
  ⟨rfl, by decide, by decide, by decide, rfl, by decide, by decide⟩

theorem vfsinpi : ∀ d a m c, Statement (.vfsinpi d a m c) :=
  fun d a m c => vectorWord atVfsinpi rfl (fitFixed (fitOperand d (fitOperand a (fitFixed (fitOperand m (fitFixed (fitOperand c (fitNil))))))))
    (by simp [rowVfsinpi]) (by decide) rfl

/-- Where the row of vftanh stands. -/
theorem atVftanh : RowAt 0x45 [rowVfsqrt, rowVfrsqrt, rowVfrcp, rowVfexp2, rowVflog2, rowVfsinpi] rowVftanh [rowVfsigm] :=
  ⟨rfl, by decide, by decide, by decide, rfl, by decide, by decide⟩

theorem vftanh : ∀ d a m c, Statement (.vftanh d a m c) :=
  fun d a m c => vectorWord atVftanh rfl (fitFixed (fitOperand d (fitOperand a (fitFixed (fitOperand m (fitFixed (fitOperand c (fitNil))))))))
    (by simp [rowVftanh]) (by decide) rfl

/-- Where the row of vfsigm stands. -/
theorem atVfsigm : RowAt 0x45 [rowVfsqrt, rowVfrsqrt, rowVfrcp, rowVfexp2, rowVflog2, rowVfsinpi, rowVftanh] rowVfsigm [] :=
  ⟨rfl, by decide, by decide, by decide, rfl, by decide, by decide⟩

theorem vfsigm : ∀ d a m c, Statement (.vfsigm d a m c) :=
  fun d a m c => vectorWord atVfsigm rfl (fitFixed (fitOperand d (fitOperand a (fitFixed (fitOperand m (fitFixed (fitOperand c (fitNil))))))))
    (by simp [rowVfsigm]) (by decide) rfl

/-- Where the row of vadd stands. -/
theorem atVadd : RowAt 0x50 [] rowVadd [rowVsub, rowVmul, rowVmin, rowVmax, rowVdiv, rowVrem] :=
  ⟨rfl, by decide, by decide, by decide, rfl, by decide, by decide⟩

theorem vadd : ∀ d a b m c, Statement (.vadd d a b m c) :=
  fun d a b m c => vectorWord atVadd rfl (fitFixed (fitOperand d (fitOperand a (fitOperand b (fitOperand m (fitFixed (fitOperand c (fitNil))))))))
    (by simp [rowVadd]) (by decide) rfl

/-- Where the row of vsub stands. -/
theorem atVsub : RowAt 0x50 [rowVadd] rowVsub [rowVmul, rowVmin, rowVmax, rowVdiv, rowVrem] :=
  ⟨rfl, by decide, by decide, by decide, rfl, by decide, by decide⟩

theorem vsub : ∀ d a b m c, Statement (.vsub d a b m c) :=
  fun d a b m c => vectorWord atVsub rfl (fitFixed (fitOperand d (fitOperand a (fitOperand b (fitOperand m (fitFixed (fitOperand c (fitNil))))))))
    (by simp [rowVsub]) (by decide) rfl

/-- Where the row of vmul stands. -/
theorem atVmul : RowAt 0x50 [rowVadd, rowVsub] rowVmul [rowVmin, rowVmax, rowVdiv, rowVrem] :=
  ⟨rfl, by decide, by decide, by decide, rfl, by decide, by decide⟩

theorem vmul : ∀ d a b m c, Statement (.vmul d a b m c) :=
  fun d a b m c => vectorWord atVmul rfl (fitFixed (fitOperand d (fitOperand a (fitOperand b (fitOperand m (fitFixed (fitOperand c (fitNil))))))))
    (by simp [rowVmul]) (by decide) rfl

/-- Where the row of vmin stands. -/
theorem atVmin : RowAt 0x50 [rowVadd, rowVsub, rowVmul] rowVmin [rowVmax, rowVdiv, rowVrem] :=
  ⟨rfl, by decide, by decide, by decide, rfl, by decide, by decide⟩

theorem vmin : ∀ d a b m c, Statement (.vmin d a b m c) :=
  fun d a b m c => vectorWord atVmin rfl (fitFixed (fitOperand d (fitOperand a (fitOperand b (fitOperand m (fitFixed (fitOperand c (fitNil))))))))
    (by simp [rowVmin]) (by decide) rfl

/-- Where the row of vmax stands. -/
theorem atVmax : RowAt 0x50 [rowVadd, rowVsub, rowVmul, rowVmin] rowVmax [rowVdiv, rowVrem] :=
  ⟨rfl, by decide, by decide, by decide, rfl, by decide, by decide⟩

theorem vmax : ∀ d a b m c, Statement (.vmax d a b m c) :=
  fun d a b m c => vectorWord atVmax rfl (fitFixed (fitOperand d (fitOperand a (fitOperand b (fitOperand m (fitFixed (fitOperand c (fitNil))))))))
    (by simp [rowVmax]) (by decide) rfl

/-- Where the row of vdiv stands. -/
theorem atVdiv : RowAt 0x50 [rowVadd, rowVsub, rowVmul, rowVmin, rowVmax] rowVdiv [rowVrem] :=
  ⟨rfl, by decide, by decide, by decide, rfl, by decide, by decide⟩

theorem vdiv : ∀ d a b m c, Statement (.vdiv d a b m c) :=
  fun d a b m c => vectorWord atVdiv rfl (fitFixed (fitOperand d (fitOperand a (fitOperand b (fitOperand m (fitFixed (fitOperand c (fitNil))))))))
    (by simp [rowVdiv]) (by decide) rfl

/-- Where the row of vrem stands. -/
theorem atVrem : RowAt 0x50 [rowVadd, rowVsub, rowVmul, rowVmin, rowVmax, rowVdiv] rowVrem [] :=
  ⟨rfl, by decide, by decide, by decide, rfl, by decide, by decide⟩

theorem vrem : ∀ d a b m c, Statement (.vrem d a b m c) :=
  fun d a b m c => vectorWord atVrem rfl (fitFixed (fitOperand d (fitOperand a (fitOperand b (fitOperand m (fitFixed (fitOperand c (fitNil))))))))
    (by simp [rowVrem]) (by decide) rfl

/-- Where the row of vaddK stands. -/
theorem atVaddK : RowAt 0x51 [] rowVaddK [rowVsubK, rowVmulK, rowVminK, rowVmaxK, rowVdivK, rowVremK] :=
  ⟨rfl, by decide, by decide, by decide, rfl, by decide, by decide⟩

theorem vaddK : ∀ d a x k m c, Statement (.vaddK d a x k m c) :=
  fun d a x k m c => vectorWord atVaddK rfl (fitFixed (fitOperand d (fitOperand a (fitOperand x (fitFixed (fitOperand k (fitOperand m (fitFixed (fitOperand c (fitNil))))))))))
    (by simp [rowVaddK]) (by decide) rfl

/-- Where the row of vsubK stands. -/
theorem atVsubK : RowAt 0x51 [rowVaddK] rowVsubK [rowVmulK, rowVminK, rowVmaxK, rowVdivK, rowVremK] :=
  ⟨rfl, by decide, by decide, by decide, rfl, by decide, by decide⟩

theorem vsubK : ∀ d a x k m c, Statement (.vsubK d a x k m c) :=
  fun d a x k m c => vectorWord atVsubK rfl (fitFixed (fitOperand d (fitOperand a (fitOperand x (fitFixed (fitOperand k (fitOperand m (fitFixed (fitOperand c (fitNil))))))))))
    (by simp [rowVsubK]) (by decide) rfl

/-- Where the row of vmulK stands. -/
theorem atVmulK : RowAt 0x51 [rowVaddK, rowVsubK] rowVmulK [rowVminK, rowVmaxK, rowVdivK, rowVremK] :=
  ⟨rfl, by decide, by decide, by decide, rfl, by decide, by decide⟩

theorem vmulK : ∀ d a x k m c, Statement (.vmulK d a x k m c) :=
  fun d a x k m c => vectorWord atVmulK rfl (fitFixed (fitOperand d (fitOperand a (fitOperand x (fitFixed (fitOperand k (fitOperand m (fitFixed (fitOperand c (fitNil))))))))))
    (by simp [rowVmulK]) (by decide) rfl

/-- Where the row of vminK stands. -/
theorem atVminK : RowAt 0x51 [rowVaddK, rowVsubK, rowVmulK] rowVminK [rowVmaxK, rowVdivK, rowVremK] :=
  ⟨rfl, by decide, by decide, by decide, rfl, by decide, by decide⟩

theorem vminK : ∀ d a x k m c, Statement (.vminK d a x k m c) :=
  fun d a x k m c => vectorWord atVminK rfl (fitFixed (fitOperand d (fitOperand a (fitOperand x (fitFixed (fitOperand k (fitOperand m (fitFixed (fitOperand c (fitNil))))))))))
    (by simp [rowVminK]) (by decide) rfl

/-- Where the row of vmaxK stands. -/
theorem atVmaxK : RowAt 0x51 [rowVaddK, rowVsubK, rowVmulK, rowVminK] rowVmaxK [rowVdivK, rowVremK] :=
  ⟨rfl, by decide, by decide, by decide, rfl, by decide, by decide⟩

theorem vmaxK : ∀ d a x k m c, Statement (.vmaxK d a x k m c) :=
  fun d a x k m c => vectorWord atVmaxK rfl (fitFixed (fitOperand d (fitOperand a (fitOperand x (fitFixed (fitOperand k (fitOperand m (fitFixed (fitOperand c (fitNil))))))))))
    (by simp [rowVmaxK]) (by decide) rfl

/-- Where the row of vdivK stands. -/
theorem atVdivK : RowAt 0x51 [rowVaddK, rowVsubK, rowVmulK, rowVminK, rowVmaxK] rowVdivK [rowVremK] :=
  ⟨rfl, by decide, by decide, by decide, rfl, by decide, by decide⟩

theorem vdivK : ∀ d a x k m c, Statement (.vdivK d a x k m c) :=
  fun d a x k m c => vectorWord atVdivK rfl (fitFixed (fitOperand d (fitOperand a (fitOperand x (fitFixed (fitOperand k (fitOperand m (fitFixed (fitOperand c (fitNil))))))))))
    (by simp [rowVdivK]) (by decide) rfl

/-- Where the row of vremK stands. -/
theorem atVremK : RowAt 0x51 [rowVaddK, rowVsubK, rowVmulK, rowVminK, rowVmaxK, rowVdivK] rowVremK [] :=
  ⟨rfl, by decide, by decide, by decide, rfl, by decide, by decide⟩

theorem vremK : ∀ d a x k m c, Statement (.vremK d a x k m c) :=
  fun d a x k m c => vectorWord atVremK rfl (fitFixed (fitOperand d (fitOperand a (fitOperand x (fitFixed (fitOperand k (fitOperand m (fitFixed (fitOperand c (fitNil))))))))))
    (by simp [rowVremK]) (by decide) rfl

/-- Where the row of vaddi stands. -/
theorem atVaddi : RowAt 0x52 [] rowVaddi [rowVrsubi, rowVmuli, rowVmini, rowVmaxi] :=
  ⟨rfl, by decide, by decide, by decide, rfl, by decide, by decide⟩

theorem vaddi : ∀ d i m c, Statement (.vaddi d i m c) :=
  fun d i m c => vectorWord atVaddi rfl (fitFixed (fitOperand d (fitOperand i (fitOperand m (fitFixed (fitOperand c (fitNil)))))))
    (by simp [rowVaddi]) (by decide) rfl

/-- Where the row of vrsubi stands. -/
theorem atVrsubi : RowAt 0x52 [rowVaddi] rowVrsubi [rowVmuli, rowVmini, rowVmaxi] :=
  ⟨rfl, by decide, by decide, by decide, rfl, by decide, by decide⟩

theorem vrsubi : ∀ d i m c, Statement (.vrsubi d i m c) :=
  fun d i m c => vectorWord atVrsubi rfl (fitFixed (fitOperand d (fitOperand i (fitOperand m (fitFixed (fitOperand c (fitNil)))))))
    (by simp [rowVrsubi]) (by decide) rfl

/-- Where the row of vmuli stands. -/
theorem atVmuli : RowAt 0x52 [rowVaddi, rowVrsubi] rowVmuli [rowVmini, rowVmaxi] :=
  ⟨rfl, by decide, by decide, by decide, rfl, by decide, by decide⟩

theorem vmuli : ∀ d i m c, Statement (.vmuli d i m c) :=
  fun d i m c => vectorWord atVmuli rfl (fitFixed (fitOperand d (fitOperand i (fitOperand m (fitFixed (fitOperand c (fitNil)))))))
    (by simp [rowVmuli]) (by decide) rfl

/-- Where the row of vmini stands. -/
theorem atVmini : RowAt 0x52 [rowVaddi, rowVrsubi, rowVmuli] rowVmini [rowVmaxi] :=
  ⟨rfl, by decide, by decide, by decide, rfl, by decide, by decide⟩

theorem vmini : ∀ d i m c, Statement (.vmini d i m c) :=
  fun d i m c => vectorWord atVmini rfl (fitFixed (fitOperand d (fitOperand i (fitOperand m (fitFixed (fitOperand c (fitNil)))))))
    (by simp [rowVmini]) (by decide) rfl

/-- Where the row of vmaxi stands. -/
theorem atVmaxi : RowAt 0x52 [rowVaddi, rowVrsubi, rowVmuli, rowVmini] rowVmaxi [] :=
  ⟨rfl, by decide, by decide, by decide, rfl, by decide, by decide⟩

theorem vmaxi : ∀ d i m c, Statement (.vmaxi d i m c) :=
  fun d i m c => vectorWord atVmaxi rfl (fitFixed (fitOperand d (fitOperand i (fitOperand m (fitFixed (fitOperand c (fitNil)))))))
    (by simp [rowVmaxi]) (by decide) rfl

/-- Where the row of vand stands. -/
theorem atVand : RowAt 0x53 [] rowVand [rowVor, rowVxor, rowVandn, rowVsll, rowVsrl, rowVsra, rowVmov] :=
  ⟨rfl, by decide, by decide, by decide, rfl, by decide, by decide⟩

theorem vand : ∀ d a b m c, Statement (.vand d a b m c) :=
  fun d a b m c => vectorWord atVand rfl (fitFixed (fitOperand d (fitOperand a (fitOperand b (fitOperand m (fitFixed (fitOperand c (fitNil))))))))
    (by simp [rowVand]) (by decide) rfl

/-- Where the row of vor stands. -/
theorem atVor : RowAt 0x53 [rowVand] rowVor [rowVxor, rowVandn, rowVsll, rowVsrl, rowVsra, rowVmov] :=
  ⟨rfl, by decide, by decide, by decide, rfl, by decide, by decide⟩

theorem vor : ∀ d a b m c, Statement (.vor d a b m c) :=
  fun d a b m c => vectorWord atVor rfl (fitFixed (fitOperand d (fitOperand a (fitOperand b (fitOperand m (fitFixed (fitOperand c (fitNil))))))))
    (by simp [rowVor]) (by decide) rfl

/-- Where the row of vxor stands. -/
theorem atVxor : RowAt 0x53 [rowVand, rowVor] rowVxor [rowVandn, rowVsll, rowVsrl, rowVsra, rowVmov] :=
  ⟨rfl, by decide, by decide, by decide, rfl, by decide, by decide⟩

theorem vxor : ∀ d a b m c, Statement (.vxor d a b m c) :=
  fun d a b m c => vectorWord atVxor rfl (fitFixed (fitOperand d (fitOperand a (fitOperand b (fitOperand m (fitFixed (fitOperand c (fitNil))))))))
    (by simp [rowVxor]) (by decide) rfl

/-- Where the row of vandn stands. -/
theorem atVandn : RowAt 0x53 [rowVand, rowVor, rowVxor] rowVandn [rowVsll, rowVsrl, rowVsra, rowVmov] :=
  ⟨rfl, by decide, by decide, by decide, rfl, by decide, by decide⟩

theorem vandn : ∀ d a b m c, Statement (.vandn d a b m c) :=
  fun d a b m c => vectorWord atVandn rfl (fitFixed (fitOperand d (fitOperand a (fitOperand b (fitOperand m (fitFixed (fitOperand c (fitNil))))))))
    (by simp [rowVandn]) (by decide) rfl

/-- Where the row of vsll stands. -/
theorem atVsll : RowAt 0x53 [rowVand, rowVor, rowVxor, rowVandn] rowVsll [rowVsrl, rowVsra, rowVmov] :=
  ⟨rfl, by decide, by decide, by decide, rfl, by decide, by decide⟩

theorem vsll : ∀ d a b m c, Statement (.vsll d a b m c) :=
  fun d a b m c => vectorWord atVsll rfl (fitFixed (fitOperand d (fitOperand a (fitOperand b (fitOperand m (fitFixed (fitOperand c (fitNil))))))))
    (by simp [rowVsll]) (by decide) rfl

/-- Where the row of vsrl stands. -/
theorem atVsrl : RowAt 0x53 [rowVand, rowVor, rowVxor, rowVandn, rowVsll] rowVsrl [rowVsra, rowVmov] :=
  ⟨rfl, by decide, by decide, by decide, rfl, by decide, by decide⟩

theorem vsrl : ∀ d a b m c, Statement (.vsrl d a b m c) :=
  fun d a b m c => vectorWord atVsrl rfl (fitFixed (fitOperand d (fitOperand a (fitOperand b (fitOperand m (fitFixed (fitOperand c (fitNil))))))))
    (by simp [rowVsrl]) (by decide) rfl

/-- Where the row of vsra stands. -/
theorem atVsra : RowAt 0x53 [rowVand, rowVor, rowVxor, rowVandn, rowVsll, rowVsrl] rowVsra [rowVmov] :=
  ⟨rfl, by decide, by decide, by decide, rfl, by decide, by decide⟩

theorem vsra : ∀ d a b m c, Statement (.vsra d a b m c) :=
  fun d a b m c => vectorWord atVsra rfl (fitFixed (fitOperand d (fitOperand a (fitOperand b (fitOperand m (fitFixed (fitOperand c (fitNil))))))))
    (by simp [rowVsra]) (by decide) rfl

/-- Where the row of vmov stands. -/
theorem atVmov : RowAt 0x53 [rowVand, rowVor, rowVxor, rowVandn, rowVsll, rowVsrl, rowVsra] rowVmov [] :=
  ⟨rfl, by decide, by decide, by decide, rfl, by decide, by decide⟩

theorem vmov : ∀ d a m c, Statement (.vmov d a m c) :=
  fun d a m c => vectorWord atVmov rfl (fitFixed (fitOperand d (fitOperand a (fitFixed (fitOperand m (fitFixed (fitOperand c (fitNil))))))))
    (by simp [rowVmov]) (by decide) rfl

/-- Where the row of vandi stands. -/
theorem atVandi : RowAt 0x54 [] rowVandi [rowVori, rowVxori, rowVli, rowVslli, rowVsrli, rowVsrai] :=
  ⟨rfl, by decide, by decide, by decide, rfl, by decide, by decide⟩

theorem vandi : ∀ d i m c, Statement (.vandi d i m c) :=
  fun d i m c => vectorWord atVandi rfl (fitFixed (fitOperand d (fitOperand i (fitOperand m (fitFixed (fitOperand c (fitNil)))))))
    (by simp [rowVandi]) (by decide) rfl

/-- Where the row of vori stands. -/
theorem atVori : RowAt 0x54 [rowVandi] rowVori [rowVxori, rowVli, rowVslli, rowVsrli, rowVsrai] :=
  ⟨rfl, by decide, by decide, by decide, rfl, by decide, by decide⟩

theorem vori : ∀ d i m c, Statement (.vori d i m c) :=
  fun d i m c => vectorWord atVori rfl (fitFixed (fitOperand d (fitOperand i (fitOperand m (fitFixed (fitOperand c (fitNil)))))))
    (by simp [rowVori]) (by decide) rfl

/-- Where the row of vxori stands. -/
theorem atVxori : RowAt 0x54 [rowVandi, rowVori] rowVxori [rowVli, rowVslli, rowVsrli, rowVsrai] :=
  ⟨rfl, by decide, by decide, by decide, rfl, by decide, by decide⟩

theorem vxori : ∀ d i m c, Statement (.vxori d i m c) :=
  fun d i m c => vectorWord atVxori rfl (fitFixed (fitOperand d (fitOperand i (fitOperand m (fitFixed (fitOperand c (fitNil)))))))
    (by simp [rowVxori]) (by decide) rfl

/-- Where the row of vli stands. -/
theorem atVli : RowAt 0x54 [rowVandi, rowVori, rowVxori] rowVli [rowVslli, rowVsrli, rowVsrai] :=
  ⟨rfl, by decide, by decide, by decide, rfl, by decide, by decide⟩

theorem vli : ∀ d i m c, Statement (.vli d i m c) :=
  fun d i m c => vectorWord atVli rfl (fitFixed (fitOperand d (fitOperand i (fitOperand m (fitFixed (fitOperand c (fitNil)))))))
    (by simp [rowVli]) (by decide) rfl

/-- Where the row of vslli stands. -/
theorem atVslli : RowAt 0x54 [rowVandi, rowVori, rowVxori, rowVli] rowVslli [rowVsrli, rowVsrai] :=
  ⟨rfl, by decide, by decide, by decide, rfl, by decide, by decide⟩

theorem vslli : ∀ d i m c, Statement (.vslli d i m c) :=
  fun d i m c => vectorWord atVslli rfl (fitFixed (fitOperand d (fitOperand i (fitFixed (fitOperand m (fitFixed (fitOperand c (fitNil))))))))
    (by simp [rowVslli]) (by decide) rfl

/-- Where the row of vsrli stands. -/
theorem atVsrli : RowAt 0x54 [rowVandi, rowVori, rowVxori, rowVli, rowVslli] rowVsrli [rowVsrai] :=
  ⟨rfl, by decide, by decide, by decide, rfl, by decide, by decide⟩

theorem vsrli : ∀ d i m c, Statement (.vsrli d i m c) :=
  fun d i m c => vectorWord atVsrli rfl (fitFixed (fitOperand d (fitOperand i (fitFixed (fitOperand m (fitFixed (fitOperand c (fitNil))))))))
    (by simp [rowVsrli]) (by decide) rfl

/-- Where the row of vsrai stands. -/
theorem atVsrai : RowAt 0x54 [rowVandi, rowVori, rowVxori, rowVli, rowVslli, rowVsrli] rowVsrai [] :=
  ⟨rfl, by decide, by decide, by decide, rfl, by decide, by decide⟩

theorem vsrai : ∀ d i m c, Statement (.vsrai d i m c) :=
  fun d i m c => vectorWord atVsrai rfl (fitFixed (fitOperand d (fitOperand i (fitFixed (fitOperand m (fitFixed (fitOperand c (fitNil))))))))
    (by simp [rowVsrai]) (by decide) rfl

/-- Where the row of vsadd stands. -/
theorem atVsadd : RowAt 0x55 [] rowVsadd [rowVssub, rowVmulh, rowVavg] :=
  ⟨rfl, by decide, by decide, by decide, rfl, by decide, by decide⟩

theorem vsadd : ∀ d a b m c, Statement (.vsadd d a b m c) :=
  fun d a b m c => vectorWord atVsadd rfl (fitFixed (fitOperand d (fitOperand a (fitOperand b (fitOperand m (fitFixed (fitOperand c (fitNil))))))))
    (by simp [rowVsadd]) (by decide) rfl

/-- Where the row of vssub stands. -/
theorem atVssub : RowAt 0x55 [rowVsadd] rowVssub [rowVmulh, rowVavg] :=
  ⟨rfl, by decide, by decide, by decide, rfl, by decide, by decide⟩

theorem vssub : ∀ d a b m c, Statement (.vssub d a b m c) :=
  fun d a b m c => vectorWord atVssub rfl (fitFixed (fitOperand d (fitOperand a (fitOperand b (fitOperand m (fitFixed (fitOperand c (fitNil))))))))
    (by simp [rowVssub]) (by decide) rfl

/-- Where the row of vmulh stands. -/
theorem atVmulh : RowAt 0x55 [rowVsadd, rowVssub] rowVmulh [rowVavg] :=
  ⟨rfl, by decide, by decide, by decide, rfl, by decide, by decide⟩

theorem vmulh : ∀ d a b m c, Statement (.vmulh d a b m c) :=
  fun d a b m c => vectorWord atVmulh rfl (fitFixed (fitOperand d (fitOperand a (fitOperand b (fitOperand m (fitFixed (fitOperand c (fitNil))))))))
    (by simp [rowVmulh]) (by decide) rfl

/-- Where the row of vavg stands. -/
theorem atVavg : RowAt 0x55 [rowVsadd, rowVssub, rowVmulh] rowVavg [] :=
  ⟨rfl, by decide, by decide, by decide, rfl, by decide, by decide⟩

theorem vavg : ∀ d a b m c, Statement (.vavg d a b m c) :=
  fun d a b m c => vectorWord atVavg rfl (fitFixed (fitOperand d (fitOperand a (fitOperand b (fitOperand m (fitFixed (fitOperand c (fitNil))))))))
    (by simp [rowVavg]) (by decide) rfl

/-- Where the row of vceq stands. -/
theorem atVceq : RowAt 0x58 [] rowVceq [rowVcne, rowVclt, rowVcle, rowVcgt, rowVcge, rowVcun] :=
  ⟨rfl, by decide, by decide, by decide, rfl, by decide, by decide⟩

theorem vceq : ∀ d a b m c, Statement (.vceq d a b m c) :=
  fun d a b m c => vectorWord atVceq rfl (fitFixed (fitOperand d (fitFixed (fitOperand a (fitOperand b (fitOperand m (fitFixed (fitOperand c (fitNil)))))))))
    (by simp [rowVceq]) (by decide) rfl

/-- Where the row of vcne stands. -/
theorem atVcne : RowAt 0x58 [rowVceq] rowVcne [rowVclt, rowVcle, rowVcgt, rowVcge, rowVcun] :=
  ⟨rfl, by decide, by decide, by decide, rfl, by decide, by decide⟩

theorem vcne : ∀ d a b m c, Statement (.vcne d a b m c) :=
  fun d a b m c => vectorWord atVcne rfl (fitFixed (fitOperand d (fitFixed (fitOperand a (fitOperand b (fitOperand m (fitFixed (fitOperand c (fitNil)))))))))
    (by simp [rowVcne]) (by decide) rfl

/-- Where the row of vclt stands. -/
theorem atVclt : RowAt 0x58 [rowVceq, rowVcne] rowVclt [rowVcle, rowVcgt, rowVcge, rowVcun] :=
  ⟨rfl, by decide, by decide, by decide, rfl, by decide, by decide⟩

theorem vclt : ∀ d a b m c, Statement (.vclt d a b m c) :=
  fun d a b m c => vectorWord atVclt rfl (fitFixed (fitOperand d (fitFixed (fitOperand a (fitOperand b (fitOperand m (fitFixed (fitOperand c (fitNil)))))))))
    (by simp [rowVclt]) (by decide) rfl

/-- Where the row of vcle stands. -/
theorem atVcle : RowAt 0x58 [rowVceq, rowVcne, rowVclt] rowVcle [rowVcgt, rowVcge, rowVcun] :=
  ⟨rfl, by decide, by decide, by decide, rfl, by decide, by decide⟩

theorem vcle : ∀ d a b m c, Statement (.vcle d a b m c) :=
  fun d a b m c => vectorWord atVcle rfl (fitFixed (fitOperand d (fitFixed (fitOperand a (fitOperand b (fitOperand m (fitFixed (fitOperand c (fitNil)))))))))
    (by simp [rowVcle]) (by decide) rfl

/-- Where the row of vcgt stands. -/
theorem atVcgt : RowAt 0x58 [rowVceq, rowVcne, rowVclt, rowVcle] rowVcgt [rowVcge, rowVcun] :=
  ⟨rfl, by decide, by decide, by decide, rfl, by decide, by decide⟩

theorem vcgt : ∀ d a b m c, Statement (.vcgt d a b m c) :=
  fun d a b m c => vectorWord atVcgt rfl (fitFixed (fitOperand d (fitFixed (fitOperand a (fitOperand b (fitOperand m (fitFixed (fitOperand c (fitNil)))))))))
    (by simp [rowVcgt]) (by decide) rfl

/-- Where the row of vcge stands. -/
theorem atVcge : RowAt 0x58 [rowVceq, rowVcne, rowVclt, rowVcle, rowVcgt] rowVcge [rowVcun] :=
  ⟨rfl, by decide, by decide, by decide, rfl, by decide, by decide⟩

theorem vcge : ∀ d a b m c, Statement (.vcge d a b m c) :=
  fun d a b m c => vectorWord atVcge rfl (fitFixed (fitOperand d (fitFixed (fitOperand a (fitOperand b (fitOperand m (fitFixed (fitOperand c (fitNil)))))))))
    (by simp [rowVcge]) (by decide) rfl

/-- Where the row of vcun stands. -/
theorem atVcun : RowAt 0x58 [rowVceq, rowVcne, rowVclt, rowVcle, rowVcgt, rowVcge] rowVcun [] :=
  ⟨rfl, by decide, by decide, by decide, rfl, by decide, by decide⟩

theorem vcun : ∀ d a b m c, Statement (.vcun d a b m c) :=
  fun d a b m c => vectorWord atVcun rfl (fitFixed (fitOperand d (fitFixed (fitOperand a (fitOperand b (fitOperand m (fitFixed (fitOperand c (fitNil)))))))))
    (by simp [rowVcun]) (by decide) rfl

/-- Where the row of vceqK stands. -/
theorem atVceqK : RowAt 0x59 [] rowVceqK [rowVcneK, rowVcltK, rowVcleK, rowVcgtK, rowVcgeK, rowVcunK] :=
  ⟨rfl, by decide, by decide, by decide, rfl, by decide, by decide⟩

theorem vceqK : ∀ d a k m c, Statement (.vceqK d a k m c) :=
  fun d a k m c => vectorWord atVceqK rfl (fitFixed (fitOperand d (fitFixed (fitOperand a (fitFixed (fitOperand k (fitOperand m (fitFixed (fitOperand c (fitNil))))))))))
    (by simp [rowVceqK]) (by decide) rfl

/-- Where the row of vcneK stands. -/
theorem atVcneK : RowAt 0x59 [rowVceqK] rowVcneK [rowVcltK, rowVcleK, rowVcgtK, rowVcgeK, rowVcunK] :=
  ⟨rfl, by decide, by decide, by decide, rfl, by decide, by decide⟩

theorem vcneK : ∀ d a k m c, Statement (.vcneK d a k m c) :=
  fun d a k m c => vectorWord atVcneK rfl (fitFixed (fitOperand d (fitFixed (fitOperand a (fitFixed (fitOperand k (fitOperand m (fitFixed (fitOperand c (fitNil))))))))))
    (by simp [rowVcneK]) (by decide) rfl

/-- Where the row of vcltK stands. -/
theorem atVcltK : RowAt 0x59 [rowVceqK, rowVcneK] rowVcltK [rowVcleK, rowVcgtK, rowVcgeK, rowVcunK] :=
  ⟨rfl, by decide, by decide, by decide, rfl, by decide, by decide⟩

theorem vcltK : ∀ d a k m c, Statement (.vcltK d a k m c) :=
  fun d a k m c => vectorWord atVcltK rfl (fitFixed (fitOperand d (fitFixed (fitOperand a (fitFixed (fitOperand k (fitOperand m (fitFixed (fitOperand c (fitNil))))))))))
    (by simp [rowVcltK]) (by decide) rfl

/-- Where the row of vcleK stands. -/
theorem atVcleK : RowAt 0x59 [rowVceqK, rowVcneK, rowVcltK] rowVcleK [rowVcgtK, rowVcgeK, rowVcunK] :=
  ⟨rfl, by decide, by decide, by decide, rfl, by decide, by decide⟩

theorem vcleK : ∀ d a k m c, Statement (.vcleK d a k m c) :=
  fun d a k m c => vectorWord atVcleK rfl (fitFixed (fitOperand d (fitFixed (fitOperand a (fitFixed (fitOperand k (fitOperand m (fitFixed (fitOperand c (fitNil))))))))))
    (by simp [rowVcleK]) (by decide) rfl

/-- Where the row of vcgtK stands. -/
theorem atVcgtK : RowAt 0x59 [rowVceqK, rowVcneK, rowVcltK, rowVcleK] rowVcgtK [rowVcgeK, rowVcunK] :=
  ⟨rfl, by decide, by decide, by decide, rfl, by decide, by decide⟩

theorem vcgtK : ∀ d a k m c, Statement (.vcgtK d a k m c) :=
  fun d a k m c => vectorWord atVcgtK rfl (fitFixed (fitOperand d (fitFixed (fitOperand a (fitFixed (fitOperand k (fitOperand m (fitFixed (fitOperand c (fitNil))))))))))
    (by simp [rowVcgtK]) (by decide) rfl

/-- Where the row of vcgeK stands. -/
theorem atVcgeK : RowAt 0x59 [rowVceqK, rowVcneK, rowVcltK, rowVcleK, rowVcgtK] rowVcgeK [rowVcunK] :=
  ⟨rfl, by decide, by decide, by decide, rfl, by decide, by decide⟩

theorem vcgeK : ∀ d a k m c, Statement (.vcgeK d a k m c) :=
  fun d a k m c => vectorWord atVcgeK rfl (fitFixed (fitOperand d (fitFixed (fitOperand a (fitFixed (fitOperand k (fitOperand m (fitFixed (fitOperand c (fitNil))))))))))
    (by simp [rowVcgeK]) (by decide) rfl

/-- Where the row of vcunK stands. -/
theorem atVcunK : RowAt 0x59 [rowVceqK, rowVcneK, rowVcltK, rowVcleK, rowVcgtK, rowVcgeK] rowVcunK [] :=
  ⟨rfl, by decide, by decide, by decide, rfl, by decide, by decide⟩

theorem vcunK : ∀ d a k m c, Statement (.vcunK d a k m c) :=
  fun d a k m c => vectorWord atVcunK rfl (fitFixed (fitOperand d (fitFixed (fitOperand a (fitFixed (fitOperand k (fitOperand m (fitFixed (fitOperand c (fitNil))))))))))
    (by simp [rowVcunK]) (by decide) rfl

/-- Where the row of vmand stands. -/
theorem atVmand : RowAt 0x5A [] rowVmand [rowVmor, rowVmxor, rowVmandn, rowVmnot, rowVmset, rowVmclr] :=
  ⟨rfl, by decide, by decide, by decide, rfl, by decide, by decide⟩

theorem vmand : ∀ d a b m c, Statement (.vmand d a b m c) :=
  fun d a b m c => vectorWord atVmand rfl (fitFixed (fitOperand d (fitFixed (fitOperand a (fitFixed (fitOperand b (fitFixed (fitOperand m (fitFixed (fitOperand c (fitNil)))))))))))
    (by simp [rowVmand]) (by decide) rfl

/-- Where the row of vmor stands. -/
theorem atVmor : RowAt 0x5A [rowVmand] rowVmor [rowVmxor, rowVmandn, rowVmnot, rowVmset, rowVmclr] :=
  ⟨rfl, by decide, by decide, by decide, rfl, by decide, by decide⟩

theorem vmor : ∀ d a b m c, Statement (.vmor d a b m c) :=
  fun d a b m c => vectorWord atVmor rfl (fitFixed (fitOperand d (fitFixed (fitOperand a (fitFixed (fitOperand b (fitFixed (fitOperand m (fitFixed (fitOperand c (fitNil)))))))))))
    (by simp [rowVmor]) (by decide) rfl

/-- Where the row of vmxor stands. -/
theorem atVmxor : RowAt 0x5A [rowVmand, rowVmor] rowVmxor [rowVmandn, rowVmnot, rowVmset, rowVmclr] :=
  ⟨rfl, by decide, by decide, by decide, rfl, by decide, by decide⟩

theorem vmxor : ∀ d a b m c, Statement (.vmxor d a b m c) :=
  fun d a b m c => vectorWord atVmxor rfl (fitFixed (fitOperand d (fitFixed (fitOperand a (fitFixed (fitOperand b (fitFixed (fitOperand m (fitFixed (fitOperand c (fitNil)))))))))))
    (by simp [rowVmxor]) (by decide) rfl

/-- Where the row of vmandn stands. -/
theorem atVmandn : RowAt 0x5A [rowVmand, rowVmor, rowVmxor] rowVmandn [rowVmnot, rowVmset, rowVmclr] :=
  ⟨rfl, by decide, by decide, by decide, rfl, by decide, by decide⟩

theorem vmandn : ∀ d a b m c, Statement (.vmandn d a b m c) :=
  fun d a b m c => vectorWord atVmandn rfl (fitFixed (fitOperand d (fitFixed (fitOperand a (fitFixed (fitOperand b (fitFixed (fitOperand m (fitFixed (fitOperand c (fitNil)))))))))))
    (by simp [rowVmandn]) (by decide) rfl

/-- Where the row of vmnot stands. -/
theorem atVmnot : RowAt 0x5A [rowVmand, rowVmor, rowVmxor, rowVmandn] rowVmnot [rowVmset, rowVmclr] :=
  ⟨rfl, by decide, by decide, by decide, rfl, by decide, by decide⟩

theorem vmnot : ∀ d a m c, Statement (.vmnot d a m c) :=
  fun d a m c => vectorWord atVmnot rfl (fitFixed (fitOperand d (fitFixed (fitOperand a (fitFixed (fitOperand m (fitFixed (fitOperand c (fitNil)))))))))
    (by simp [rowVmnot]) (by decide) rfl

/-- Where the row of vmset stands. -/
theorem atVmset : RowAt 0x5A [rowVmand, rowVmor, rowVmxor, rowVmandn, rowVmnot] rowVmset [rowVmclr] :=
  ⟨rfl, by decide, by decide, by decide, rfl, by decide, by decide⟩

theorem vmset : ∀ d m c, Statement (.vmset d m c) :=
  fun d m c => vectorWord atVmset rfl (fitFixed (fitOperand d (fitFixed (fitOperand m (fitFixed (fitOperand c (fitNil)))))))
    (by simp [rowVmset]) (by decide) rfl

/-- Where the row of vmclr stands. -/
theorem atVmclr : RowAt 0x5A [rowVmand, rowVmor, rowVmxor, rowVmandn, rowVmnot, rowVmset] rowVmclr [] :=
  ⟨rfl, by decide, by decide, by decide, rfl, by decide, by decide⟩

theorem vmclr : ∀ d m c, Statement (.vmclr d m c) :=
  fun d m c => vectorWord atVmclr rfl (fitFixed (fitOperand d (fitFixed (fitOperand m (fitFixed (fitOperand c (fitNil)))))))
    (by simp [rowVmclr]) (by decide) rfl

/-- Where the row of vsel stands. -/
theorem atVsel : RowAt 0x5B [] rowVsel [rowVselz] :=
  ⟨rfl, by decide, by decide, by decide, rfl, by decide, by decide⟩

theorem vsel : ∀ d a b m c, Statement (.vsel d a b m c) :=
  fun d a b m c => vectorWord atVsel rfl (fitFixed (fitOperand d (fitOperand a (fitOperand b (fitOperand m (fitFixed (fitOperand c (fitNil))))))))
    (by simp [rowVsel]) (by decide) rfl

/-- Where the row of vselz stands. -/
theorem atVselz : RowAt 0x5B [rowVsel] rowVselz [] :=
  ⟨rfl, by decide, by decide, by decide, rfl, by decide, by decide⟩

theorem vselz : ∀ d a m c, Statement (.vselz d a m c) :=
  fun d a m c => vectorWord atVselz rfl (fitFixed (fitOperand d (fitOperand a (fitFixed (fitOperand m (fitFixed (fitOperand c (fitNil))))))))
    (by simp [rowVselz]) (by decide) rfl

/-- Where the row of vcvt stands. -/
theorem atVcvt : RowAt 0x5C [] rowVcvt [] :=
  ⟨rfl, by decide, by decide, by decide, rfl, by decide, by decide⟩

theorem vcvt : ∀ d a t m c, Statement (.vcvt d a t m c) :=
  fun d a t m c => vectorWord atVcvt rfl (fitFixed (fitOperand d (fitOperand a (fitOperand t (fitFixed (fitOperand m (fitFixed (fitOperand c (fitNil)))))))))
    (by simp [rowVcvt]) (by decide) rfl

/-- Where the row of vqnt stands. -/
theorem atVqnt : RowAt 0x5D [] rowVqnt [rowVdqnt] :=
  ⟨rfl, by decide, by decide, by decide, rfl, by decide, by decide⟩

theorem vqnt : ∀ d a t m c, Statement (.vqnt d a t m c) :=
  fun d a t m c => vectorWord atVqnt rfl (fitFixed (fitOperand d (fitOperand a (fitOperand t (fitFixed (fitOperand m (fitFixed (fitOperand c (fitNil)))))))))
    (by simp [rowVqnt]) (by decide) rfl

/-- Where the row of vdqnt stands. -/
theorem atVdqnt : RowAt 0x5D [rowVqnt] rowVdqnt [] :=
  ⟨rfl, by decide, by decide, by decide, rfl, by decide, by decide⟩

theorem vdqnt : ∀ d a t m c, Statement (.vdqnt d a t m c) :=
  fun d a t m c => vectorWord atVdqnt rfl (fitFixed (fitOperand d (fitOperand a (fitOperand t (fitFixed (fitOperand m (fitFixed (fitOperand c (fitNil)))))))))
    (by simp [rowVdqnt]) (by decide) rfl

/-- Where the row of vgath stands. -/
theorem atVgath : RowAt 0x60 [] rowVgath [rowVhead, rowVtail, rowVbcast] :=
  ⟨rfl, by decide, by decide, by decide, rfl, by decide, by decide⟩

theorem vgath : ∀ d a b m c, Statement (.vgath d a b m c) :=
  fun d a b m c => vectorWord atVgath rfl (fitFixed (fitOperand d (fitOperand a (fitOperand b (fitOperand m (fitFixed (fitOperand c (fitNil))))))))
    (by simp [rowVgath]) (by decide) rfl

/-- Where the row of vhead stands. -/
theorem atVhead : RowAt 0x60 [rowVgath] rowVhead [rowVtail, rowVbcast] :=
  ⟨rfl, by decide, by decide, by decide, rfl, by decide, by decide⟩

theorem vhead : ∀ d a b m c, Statement (.vhead d a b m c) :=
  fun d a b m c => vectorWord atVhead rfl (fitFixed (fitOperand d (fitOperand a (fitOperand b (fitOperand m (fitFixed (fitOperand c (fitNil))))))))
    (by simp [rowVhead]) (by decide) rfl

/-- Where the row of vtail stands. -/
theorem atVtail : RowAt 0x60 [rowVgath, rowVhead] rowVtail [rowVbcast] :=
  ⟨rfl, by decide, by decide, by decide, rfl, by decide, by decide⟩

theorem vtail : ∀ d a b m c, Statement (.vtail d a b m c) :=
  fun d a b m c => vectorWord atVtail rfl (fitFixed (fitOperand d (fitOperand a (fitOperand b (fitOperand m (fitFixed (fitOperand c (fitNil))))))))
    (by simp [rowVtail]) (by decide) rfl

/-- Where the row of vbcast stands. -/
theorem atVbcast : RowAt 0x60 [rowVgath, rowVhead, rowVtail] rowVbcast [] :=
  ⟨rfl, by decide, by decide, by decide, rfl, by decide, by decide⟩

theorem vbcast : ∀ d a m c, Statement (.vbcast d a m c) :=
  fun d a m c => vectorWord atVbcast rfl (fitFixed (fitOperand d (fitOperand a (fitFixed (fitOperand m (fitFixed (fitOperand c (fitNil))))))))
    (by simp [rowVbcast]) (by decide) rfl

/-- Where the row of vfredsum stands. -/
theorem atVfredsum : RowAt 0x61 [] rowVfredsum [rowVfredsumw, rowVfredmax, rowVfredmin, rowVredsum, rowVredmax, rowVredmin] :=
  ⟨rfl, by decide, by decide, by decide, rfl, by decide, by decide⟩

theorem vfredsum : ∀ d a m c, Statement (.vfredsum d a m c) :=
  fun d a m c => vectorWord atVfredsum rfl (fitFixed (fitOperand d (fitOperand a (fitFixed (fitOperand m (fitFixed (fitOperand c (fitNil))))))))
    (by simp [rowVfredsum]) (by decide) rfl

/-- Where the row of vfredsumw stands. -/
theorem atVfredsumw : RowAt 0x61 [rowVfredsum] rowVfredsumw [rowVfredmax, rowVfredmin, rowVredsum, rowVredmax, rowVredmin] :=
  ⟨rfl, by decide, by decide, by decide, rfl, by decide, by decide⟩

theorem vfredsumw : ∀ d a m c, Statement (.vfredsumw d a m c) :=
  fun d a m c => vectorWord atVfredsumw rfl (fitFixed (fitOperand d (fitOperand a (fitFixed (fitOperand m (fitFixed (fitOperand c (fitNil))))))))
    (by simp [rowVfredsumw]) (by decide) rfl

/-- Where the row of vfredmax stands. -/
theorem atVfredmax : RowAt 0x61 [rowVfredsum, rowVfredsumw] rowVfredmax [rowVfredmin, rowVredsum, rowVredmax, rowVredmin] :=
  ⟨rfl, by decide, by decide, by decide, rfl, by decide, by decide⟩

theorem vfredmax : ∀ d a m c, Statement (.vfredmax d a m c) :=
  fun d a m c => vectorWord atVfredmax rfl (fitFixed (fitOperand d (fitOperand a (fitFixed (fitOperand m (fitFixed (fitOperand c (fitNil))))))))
    (by simp [rowVfredmax]) (by decide) rfl

/-- Where the row of vfredmin stands. -/
theorem atVfredmin : RowAt 0x61 [rowVfredsum, rowVfredsumw, rowVfredmax] rowVfredmin [rowVredsum, rowVredmax, rowVredmin] :=
  ⟨rfl, by decide, by decide, by decide, rfl, by decide, by decide⟩

theorem vfredmin : ∀ d a m c, Statement (.vfredmin d a m c) :=
  fun d a m c => vectorWord atVfredmin rfl (fitFixed (fitOperand d (fitOperand a (fitFixed (fitOperand m (fitFixed (fitOperand c (fitNil))))))))
    (by simp [rowVfredmin]) (by decide) rfl

/-- Where the row of vredsum stands. -/
theorem atVredsum : RowAt 0x61 [rowVfredsum, rowVfredsumw, rowVfredmax, rowVfredmin] rowVredsum [rowVredmax, rowVredmin] :=
  ⟨rfl, by decide, by decide, by decide, rfl, by decide, by decide⟩

theorem vredsum : ∀ d a m c, Statement (.vredsum d a m c) :=
  fun d a m c => vectorWord atVredsum rfl (fitFixed (fitOperand d (fitOperand a (fitFixed (fitOperand m (fitFixed (fitOperand c (fitNil))))))))
    (by simp [rowVredsum]) (by decide) rfl

/-- Where the row of vredmax stands. -/
theorem atVredmax : RowAt 0x61 [rowVfredsum, rowVfredsumw, rowVfredmax, rowVfredmin, rowVredsum] rowVredmax [rowVredmin] :=
  ⟨rfl, by decide, by decide, by decide, rfl, by decide, by decide⟩

theorem vredmax : ∀ d a m c, Statement (.vredmax d a m c) :=
  fun d a m c => vectorWord atVredmax rfl (fitFixed (fitOperand d (fitOperand a (fitFixed (fitOperand m (fitFixed (fitOperand c (fitNil))))))))
    (by simp [rowVredmax]) (by decide) rfl

/-- Where the row of vredmin stands. -/
theorem atVredmin : RowAt 0x61 [rowVfredsum, rowVfredsumw, rowVfredmax, rowVfredmin, rowVredsum, rowVredmax] rowVredmin [] :=
  ⟨rfl, by decide, by decide, by decide, rfl, by decide, by decide⟩

theorem vredmin : ∀ d a m c, Statement (.vredmin d a m c) :=
  fun d a m c => vectorWord atVredmin rfl (fitFixed (fitOperand d (fitOperand a (fitFixed (fitOperand m (fitFixed (fitOperand c (fitNil))))))))
    (by simp [rowVredmin]) (by decide) rfl

/-- Where the row of vraise stands. -/
theorem atVraise : RowAt 0x62 [] rowVraise [rowVlower, rowVbcastk] :=
  ⟨rfl, by decide, by decide, by decide, rfl, by decide, by decide⟩

theorem vraise : ∀ d a k m c, Statement (.vraise d a k m c) :=
  fun d a k m c => vectorWord atVraise rfl (fitFixed (fitOperand d (fitOperand a (fitFixed (fitOperand k (fitOperand m (fitFixed (fitOperand c (fitNil)))))))))
    (by simp [rowVraise]) (by decide) rfl

/-- Where the row of vlower stands. -/
theorem atVlower : RowAt 0x62 [rowVraise] rowVlower [rowVbcastk] :=
  ⟨rfl, by decide, by decide, by decide, rfl, by decide, by decide⟩

theorem vlower : ∀ d a k m c, Statement (.vlower d a k m c) :=
  fun d a k m c => vectorWord atVlower rfl (fitFixed (fitOperand d (fitOperand a (fitFixed (fitOperand k (fitOperand m (fitFixed (fitOperand c (fitNil)))))))))
    (by simp [rowVlower]) (by decide) rfl

/-- Where the row of vbcastk stands. -/
theorem atVbcastk : RowAt 0x62 [rowVraise, rowVlower] rowVbcastk [] :=
  ⟨rfl, by decide, by decide, by decide, rfl, by decide, by decide⟩

theorem vbcastk : ∀ d k m c, Statement (.vbcastk d k m c) :=
  fun d k m c => vectorWord atVbcastk rfl (fitFixed (fitOperand d (fitFixed (fitOperand k (fitOperand m (fitFixed (fitOperand c (fitNil))))))))
    (by simp [rowVbcastk]) (by decide) rfl

/-- Where the row of vld stands. -/
theorem atVld : RowAt 0x64 [] rowVld [] :=
  ⟨rfl, by decide, by decide, by decide, rfl, by decide, by decide⟩

theorem vld : ∀ d i k m r c, Statement (.vld d i k m r c) :=
  fun d i k m r c => vectorWord atVld rfl (fitFixed (fitOperand d (fitOperand i (fitOperand k (fitOperand m (fitOperand r (fitFixed (fitOperand c (fitNil)))))))))
    (by simp [rowVld]) (by decide) rfl

/-- Where the row of vst stands. -/
theorem atVst : RowAt 0x65 [] rowVst [] :=
  ⟨rfl, by decide, by decide, by decide, rfl, by decide, by decide⟩

theorem vst : ∀ d i k m r c, Statement (.vst d i k m r c) :=
  fun d i k m r c => vectorWord atVst rfl (fitFixed (fitOperand d (fitOperand i (fitOperand k (fitOperand m (fitOperand r (fitFixed (fitOperand c (fitNil)))))))))
    (by simp [rowVst]) (by decide) rfl

/-- Where the row of vld2 stands. -/
theorem atVld2 : RowAt 0x66 [] rowVld2 [] :=
  ⟨rfl, by decide, by decide, by decide, rfl, by decide, by decide⟩

theorem vld2 : ∀ d i k m r c, Statement (.vld2 d i k m r c) :=
  fun d i k m r c => vectorWord atVld2 rfl (fitFixed (fitOperand d (fitOperand i (fitOperand k (fitOperand m (fitOperand r (fitFixed (fitOperand c (fitNil)))))))))
    (by simp [rowVld2]) (by decide) rfl

/-- Where the row of vst2 stands. -/
theorem atVst2 : RowAt 0x67 [] rowVst2 [] :=
  ⟨rfl, by decide, by decide, by decide, rfl, by decide, by decide⟩

theorem vst2 : ∀ d i k m r c, Statement (.vst2 d i k m r c) :=
  fun d i k m r c => vectorWord atVst2 rfl (fitFixed (fitOperand d (fitOperand i (fitOperand k (fitOperand m (fitOperand r (fitFixed (fitOperand c (fitNil)))))))))
    (by simp [rowVst2]) (by decide) rfl

/-- Where the row of vldx stands. -/
theorem atVldx : RowAt 0x68 [] rowVldx [] :=
  ⟨rfl, by decide, by decide, by decide, rfl, by decide, by decide⟩

theorem vldx : ∀ d a x k m r c, Statement (.vldx d a x k m r c) :=
  fun d a x k m r c => vectorWord atVldx rfl (fitFixed (fitOperand d (fitOperand a (fitOperand x (fitOperand k (fitOperand m (fitOperand r (fitFixed (fitOperand c (fitNil))))))))))
    (by simp [rowVldx]) (by decide) rfl

/-- Where the row of vstx stands. -/
theorem atVstx : RowAt 0x69 [] rowVstx [] :=
  ⟨rfl, by decide, by decide, by decide, rfl, by decide, by decide⟩

theorem vstx : ∀ d a x k m r c, Statement (.vstx d a x k m r c) :=
  fun d a x k m r c => vectorWord atVstx rfl (fitFixed (fitOperand d (fitOperand a (fitOperand x (fitOperand k (fitOperand m (fitOperand r (fitFixed (fitOperand c (fitNil))))))))))
    (by simp [rowVstx]) (by decide) rfl

/-- Where the row of vldslab stands. -/
theorem atVldslab : RowAt 0x6A [] rowVldslab [] :=
  ⟨rfl, by decide, by decide, by decide, rfl, by decide, by decide⟩

theorem vldslab : ∀ d a t k m c, Statement (.vldslab d a t k m c) :=
  fun d a t k m c => vectorWord atVldslab rfl (fitFixed (fitOperand d (fitOperand a (fitOperand t (fitOperand k (fitOperand m (fitFixed (fitOperand c (fitNil)))))))))
    (by simp [rowVldslab]) (by decide) rfl

/-- Where the row of vdef stands. -/
theorem atVdef : RowAt 0x6C [] rowVdef [] :=
  ⟨rfl, by decide, by decide, by decide, rfl, by decide, by decide⟩

theorem vdef : ∀ d k, Statement (.vdef d k) :=
  fun d k => vectorWord atVdef rfl (fitFixed (fitOperand d (fitFixed (fitOperand k (fitFixed (fitNil))))))
    (by simp [rowVdef]) (by decide) rfl

/-- Where the row of vtld stands. -/
theorem atVtld : RowAt 0x6D [] rowVtld [rowVtst] :=
  ⟨rfl, by decide, by decide, by decide, rfl, by decide, by decide⟩

theorem vtld : ∀ k, Statement (.vtld k) :=
  fun k => vectorWord atVtld rfl (fitFixed (fitFixed (fitOperand k (fitFixed (fitNil)))))
    (by simp [rowVtld]) (by decide) rfl

/-- Where the row of vtst stands. -/
theorem atVtst : RowAt 0x6D [rowVtld] rowVtst [] :=
  ⟨rfl, by decide, by decide, by decide, rfl, by decide, by decide⟩

theorem vtst : ∀ k, Statement (.vtst k) :=
  fun k => vectorWord atVtst rfl (fitFixed (fitFixed (fitOperand k (fitFixed (fitNil)))))
    (by simp [rowVtst]) (by decide) rfl

/-- Where the row of vsett stands. -/
theorem atVsett : RowAt 0x6E [] rowVsett [rowVlen, rowVlenShape, rowVsetmt, rowVsetmtImm] :=
  ⟨rfl, by decide, by decide, by decide, rfl, by decide, by decide⟩

theorem vsett : ∀ i, Statement (.vsett i) :=
  fun i => vectorWord atVsett rfl (fitFixed (fitFixed (fitOperand i (fitFixed (fitNil)))))
    (by simp [rowVsett]) (by decide) rfl

/-- Where the row of vlen stands. -/
theorem atVlen : RowAt 0x6E [rowVsett] rowVlen [rowVlenShape, rowVsetmt, rowVsetmtImm] :=
  ⟨rfl, by decide, by decide, by decide, rfl, by decide, by decide⟩

theorem vlen : ∀ k, Statement (.vlen k) :=
  fun k => vectorWord atVlen rfl (fitFixed (fitFixed (fitOperand k (fitFixed (fitNil)))))
    (by simp [rowVlen]) (by decide) rfl

/-- Where the row of vlenShape stands. -/
theorem atVlenShape : RowAt 0x6E [rowVsett, rowVlen] rowVlenShape [rowVsetmt, rowVsetmtImm] :=
  ⟨rfl, by decide, by decide, by decide, rfl, by decide, by decide⟩

theorem vlenShape : ∀ a k, Statement (.vlenShape a k) :=
  fun a k => vectorWord atVlenShape rfl (fitFixed (fitFixed (fitOperand a (fitFixed (fitOperand k (fitFixed (fitNil)))))))
    (by simp [rowVlenShape]) (by decide) rfl

/-- Where the row of vsetmt stands. -/
theorem atVsetmt : RowAt 0x6E [rowVsett, rowVlen, rowVlenShape] rowVsetmt [rowVsetmtImm] :=
  ⟨rfl, by decide, by decide, by decide, rfl, by decide, by decide⟩

theorem vsetmt : ∀ k, Statement (.vsetmt k) :=
  fun k => vectorWord atVsetmt rfl (fitFixed (fitFixed (fitOperand k (fitFixed (fitNil)))))
    (by simp [rowVsetmt]) (by decide) rfl

/-- Where the row of vsetmtImm stands. -/
theorem atVsetmtImm : RowAt 0x6E [rowVsett, rowVlen, rowVlenShape, rowVsetmt] rowVsetmtImm [] :=
  ⟨rfl, by decide, by decide, by decide, rfl, by decide, by decide⟩

theorem vsetmtImm : ∀ s, Statement (.vsetmtImm s) :=
  fun s => vectorWord atVsetmtImm rfl (fitFixed (fitFixed (fitOperand s (fitFixed (fitNil)))))
    (by simp [rowVsetmtImm]) (by decide) rfl

/-- Where the row of mma stands. -/
theorem atMma : RowAt 0x70 [] rowMma [rowMmas] :=
  ⟨rfl, by decide, by decide, by decide, rfl, by decide, by decide⟩

theorem mma : ∀ n a b c, Statement (.mma n a b c) :=
  fun n a b c => vectorWord atMma rfl (fitFixed (fitOperand n (fitFixed (fitOperand a (fitOperand b (fitFixed (fitOperand c (fitNil))))))))
    (by simp [rowMma]) (by decide) rfl

/-- Where the row of mmas stands. -/
theorem atMmas : RowAt 0x70 [rowMma] rowMmas [] :=
  ⟨rfl, by decide, by decide, by decide, rfl, by decide, by decide⟩

theorem mmas : ∀ n a b c, Statement (.mmas n a b c) :=
  fun n a b c => vectorWord atMmas rfl (fitFixed (fitOperand n (fitFixed (fitOperand a (fitOperand b (fitFixed (fitOperand c (fitNil))))))))
    (by simp [rowMmas]) (by decide) rfl

/-- Where the row of men stands. -/
theorem atMen : RowAt 0x71 [] rowMen [rowMdis, rowMzero, rowMshape, rowMscl] :=
  ⟨rfl, by decide, by decide, by decide, rfl, by decide, by decide⟩

theorem men : ∀ c, Statement (.men c) :=
  fun c => vectorWord atMen rfl (fitFixed (fitFixed (fitOperand c (fitNil))))
    (by simp [rowMen]) (by decide) rfl

/-- Where the row of mdis stands. -/
theorem atMdis : RowAt 0x71 [rowMen] rowMdis [rowMzero, rowMshape, rowMscl] :=
  ⟨rfl, by decide, by decide, by decide, rfl, by decide, by decide⟩

theorem mdis : ∀ c, Statement (.mdis c) :=
  fun c => vectorWord atMdis rfl (fitFixed (fitFixed (fitOperand c (fitNil))))
    (by simp [rowMdis]) (by decide) rfl

/-- Where the row of mzero stands. -/
theorem atMzero : RowAt 0x71 [rowMen, rowMdis] rowMzero [rowMshape, rowMscl] :=
  ⟨rfl, by decide, by decide, by decide, rfl, by decide, by decide⟩

theorem mzero : ∀ n c, Statement (.mzero n c) :=
  fun n c => vectorWord atMzero rfl (fitFixed (fitOperand n (fitFixed (fitOperand c (fitNil)))))
    (by simp [rowMzero]) (by decide) rfl

/-- Where the row of mshape stands. -/
theorem atMshape : RowAt 0x71 [rowMen, rowMdis, rowMzero] rowMshape [rowMscl] :=
  ⟨rfl, by decide, by decide, by decide, rfl, by decide, by decide⟩

theorem mshape : ∀ k c, Statement (.mshape k c) :=
  fun k c => vectorWord atMshape rfl (fitFixed (fitFixed (fitOperand k (fitFixed (fitOperand c (fitNil))))))
    (by simp [rowMshape]) (by decide) rfl

/-- Where the row of mscl stands. -/
theorem atMscl : RowAt 0x71 [rowMen, rowMdis, rowMzero, rowMshape] rowMscl [] :=
  ⟨rfl, by decide, by decide, by decide, rfl, by decide, by decide⟩

theorem mscl : ∀ k c, Statement (.mscl k c) :=
  fun k c => vectorWord atMscl rfl (fitFixed (fitFixed (fitOperand k (fitFixed (fitOperand c (fitNil))))))
    (by simp [rowMscl]) (by decide) rfl

/-- Where the row of mextRow stands. -/
theorem atMextRow : RowAt 0x72 [] rowMextRow [rowMextCol, rowMextRect, rowMinsRow, rowMinsCol, rowMinsRect] :=
  ⟨rfl, by decide, by decide, by decide, rfl, by decide, by decide⟩

theorem mextRow : ∀ d n s m c, Statement (.mextRow d n s m c) :=
  fun d n s m c => vectorWord atMextRow rfl (fitFixed (fitOperand d (fitOperand n (fitFixed (fitOperand s (fitOperand m (fitFixed (fitOperand c (fitNil)))))))))
    (by simp [rowMextRow]) (by decide) rfl

/-- Where the row of mextCol stands. -/
theorem atMextCol : RowAt 0x72 [rowMextRow] rowMextCol [rowMextRect, rowMinsRow, rowMinsCol, rowMinsRect] :=
  ⟨rfl, by decide, by decide, by decide, rfl, by decide, by decide⟩

theorem mextCol : ∀ d n s m c, Statement (.mextCol d n s m c) :=
  fun d n s m c => vectorWord atMextCol rfl (fitFixed (fitOperand d (fitOperand n (fitFixed (fitOperand s (fitOperand m (fitFixed (fitOperand c (fitNil)))))))))
    (by simp [rowMextCol]) (by decide) rfl

/-- Where the row of mextRect stands. -/
theorem atMextRect : RowAt 0x72 [rowMextRow, rowMextCol] rowMextRect [rowMinsRow, rowMinsCol, rowMinsRect] :=
  ⟨rfl, by decide, by decide, by decide, rfl, by decide, by decide⟩

theorem mextRect : ∀ d n m c, Statement (.mextRect d n m c) :=
  fun d n m c => vectorWord atMextRect rfl (fitFixed (fitOperand d (fitOperand n (fitFixed (fitOperand m (fitFixed (fitOperand c (fitNil))))))))
    (by simp [rowMextRect]) (by decide) rfl

/-- Where the row of minsRow stands. -/
theorem atMinsRow : RowAt 0x72 [rowMextRow, rowMextCol, rowMextRect] rowMinsRow [rowMinsCol, rowMinsRect] :=
  ⟨rfl, by decide, by decide, by decide, rfl, by decide, by decide⟩

theorem minsRow : ∀ d n s m c, Statement (.minsRow d n s m c) :=
  fun d n s m c => vectorWord atMinsRow rfl (fitFixed (fitOperand d (fitOperand n (fitFixed (fitOperand s (fitOperand m (fitFixed (fitOperand c (fitNil)))))))))
    (by simp [rowMinsRow]) (by decide) rfl

/-- Where the row of minsCol stands. -/
theorem atMinsCol : RowAt 0x72 [rowMextRow, rowMextCol, rowMextRect, rowMinsRow] rowMinsCol [rowMinsRect] :=
  ⟨rfl, by decide, by decide, by decide, rfl, by decide, by decide⟩

theorem minsCol : ∀ d n s m c, Statement (.minsCol d n s m c) :=
  fun d n s m c => vectorWord atMinsCol rfl (fitFixed (fitOperand d (fitOperand n (fitFixed (fitOperand s (fitOperand m (fitFixed (fitOperand c (fitNil)))))))))
    (by simp [rowMinsCol]) (by decide) rfl

/-- Where the row of minsRect stands. -/
theorem atMinsRect : RowAt 0x72 [rowMextRow, rowMextCol, rowMextRect, rowMinsRow, rowMinsCol] rowMinsRect [] :=
  ⟨rfl, by decide, by decide, by decide, rfl, by decide, by decide⟩

theorem minsRect : ∀ d n m c, Statement (.minsRect d n m c) :=
  fun d n m c => vectorWord atMinsRect rfl (fitFixed (fitOperand d (fitOperand n (fitFixed (fitOperand m (fitFixed (fitOperand c (fitNil))))))))
    (by simp [rowMinsRect]) (by decide) rfl

/-- Where the row of lstep stands. -/
theorem atLstep : RowAt 0x74 [] rowLstep [rowLblend] :=
  ⟨rfl, by decide, by decide, by decide, rfl, by decide, by decide⟩

theorem lstep : ∀ n c, Statement (.lstep n c) :=
  fun n c => vectorWord atLstep rfl (fitFixed (fitFixed (fitOperand n (fitFixed (fitOperand c (fitNil))))))
    (by simp [rowLstep]) (by decide) rfl

/-- Where the row of lblend stands. -/
theorem atLblend : RowAt 0x74 [rowLstep] rowLblend [] :=
  ⟨rfl, by decide, by decide, by decide, rfl, by decide, by decide⟩

theorem lblend : ∀ d c, Statement (.lblend d c) :=
  fun d c => vectorWord atLblend rfl (fitFixed (fitOperand d (fitFixed (fitOperand c (fitNil)))))
    (by simp [rowLblend]) (by decide) rfl

/-- Where the row of lrungLd stands. -/
theorem atLrungLd : RowAt 0x75 [] rowLrungLd [rowLrungSt, rowLrungLdK, rowLrungStK] :=
  ⟨rfl, by decide, by decide, by decide, rfl, by decide, by decide⟩

theorem lrungLd : ∀ d l c, Statement (.lrungLd d l c) :=
  fun d l c => vectorWord atLrungLd rfl (fitFixed (fitOperand d (fitOperand l (fitFixed (fitOperand c (fitNil))))))
    (by simp [rowLrungLd]) (by decide) rfl

/-- Where the row of lrungSt stands. -/
theorem atLrungSt : RowAt 0x75 [rowLrungLd] rowLrungSt [rowLrungLdK, rowLrungStK] :=
  ⟨rfl, by decide, by decide, by decide, rfl, by decide, by decide⟩

theorem lrungSt : ∀ d l c, Statement (.lrungSt d l c) :=
  fun d l c => vectorWord atLrungSt rfl (fitFixed (fitOperand d (fitOperand l (fitFixed (fitOperand c (fitNil))))))
    (by simp [rowLrungSt]) (by decide) rfl

/-- Where the row of lrungLdK stands. -/
theorem atLrungLdK : RowAt 0x75 [rowLrungLd, rowLrungSt] rowLrungLdK [rowLrungStK] :=
  ⟨rfl, by decide, by decide, by decide, rfl, by decide, by decide⟩

theorem lrungLdK : ∀ d k c, Statement (.lrungLdK d k c) :=
  fun d k c => vectorWord atLrungLdK rfl (fitFixed (fitOperand d (fitFixed (fitOperand k (fitFixed (fitOperand c (fitNil)))))))
    (by simp [rowLrungLdK]) (by decide) rfl

/-- Where the row of lrungStK stands. -/
theorem atLrungStK : RowAt 0x75 [rowLrungLd, rowLrungSt, rowLrungLdK] rowLrungStK [] :=
  ⟨rfl, by decide, by decide, by decide, rfl, by decide, by decide⟩

theorem lrungStK : ∀ d k c, Statement (.lrungStK d k c) :=
  fun d k c => vectorWord atLrungStK rfl (fitFixed (fitOperand d (fitFixed (fitOperand k (fitFixed (fitOperand c (fitNil)))))))
    (by simp [rowLrungStK]) (by decide) rfl

/-- Where the row of lcfg stands. -/
theorem atLcfg : RowAt 0x76 [] rowLcfg [rowLstatCnt, rowLstatCarry, rowLreset] :=
  ⟨rfl, by decide, by decide, by decide, rfl, by decide, by decide⟩

theorem lcfg : ∀ k c, Statement (.lcfg k c) :=
  fun k c => vectorWord atLcfg rfl (fitFixed (fitFixed (fitOperand k (fitFixed (fitOperand c (fitNil))))))
    (by simp [rowLcfg]) (by decide) rfl

/-- Where the row of lstatCnt stands. -/
theorem atLstatCnt : RowAt 0x76 [rowLcfg] rowLstatCnt [rowLstatCarry, rowLreset] :=
  ⟨rfl, by decide, by decide, by decide, rfl, by decide, by decide⟩

theorem lstatCnt : ∀ k c, Statement (.lstatCnt k c) :=
  fun k c => vectorWord atLstatCnt rfl (fitFixed (fitFixed (fitOperand k (fitFixed (fitOperand c (fitNil))))))
    (by simp [rowLstatCnt]) (by decide) rfl

/-- Where the row of lstatCarry stands. -/
theorem atLstatCarry : RowAt 0x76 [rowLcfg, rowLstatCnt] rowLstatCarry [rowLreset] :=
  ⟨rfl, by decide, by decide, by decide, rfl, by decide, by decide⟩

theorem lstatCarry : ∀ k c, Statement (.lstatCarry k c) :=
  fun k c => vectorWord atLstatCarry rfl (fitFixed (fitFixed (fitOperand k (fitFixed (fitOperand c (fitNil))))))
    (by simp [rowLstatCarry]) (by decide) rfl

/-- Where the row of lreset stands. -/
theorem atLreset : RowAt 0x76 [rowLcfg, rowLstatCnt, rowLstatCarry] rowLreset [] :=
  ⟨rfl, by decide, by decide, by decide, rfl, by decide, by decide⟩

theorem lreset : ∀ c, Statement (.lreset c) :=
  fun c => vectorWord atLreset rfl (fitFixed (fitFixed (fitOperand c (fitNil))))
    (by simp [rowLreset]) (by decide) rfl

/-- Where the row of vissue stands. -/
theorem atVissue : RowAt 0x78 [] rowVissue [] :=
  ⟨rfl, by decide, by decide, by decide, rfl, by decide, by decide⟩

theorem vissue : ∀ d a m, Statement (.vissue d a m) :=
  fun d a m => vectorWord atVissue rfl (fitFixed (fitOperand d (fitFixed (fitOperand a (fitFixed (fitOperand m (fitFixed (fitNil))))))))
    (by simp [rowVissue]) (by decide) rfl

/-- Where the row of vcapp stands. -/
theorem atVcapp : RowAt 0x79 [] rowVcapp [rowVcappK] :=
  ⟨rfl, by decide, by decide, by decide, rfl, by decide, by decide⟩

theorem vcapp : ∀ q a m c, Statement (.vcapp q a m c) :=
  fun q a m c => vectorWord atVcapp rfl (fitFixed (fitOperand q (fitFixed (fitOperand a (fitFixed (fitOperand m (fitFixed (fitOperand c (fitNil)))))))))
    (by simp [rowVcapp]) (by decide) rfl

/-- Where the row of vcappK stands. -/
theorem atVcappK : RowAt 0x79 [rowVcapp] rowVcappK [] :=
  ⟨rfl, by decide, by decide, by decide, rfl, by decide, by decide⟩

theorem vcappK : ∀ q k m c, Statement (.vcappK q k m c) :=
  fun q k m c => vectorWord atVcappK rfl (fitFixed (fitOperand q (fitFixed (fitOperand k (fitOperand m (fitFixed (fitOperand c (fitNil))))))))
    (by simp [rowVcappK]) (by decide) rfl

/-- Where the row of vwait stands. -/
theorem atVwait : RowAt 0x7A [] rowVwait [] :=
  ⟨rfl, by decide, by decide, by decide, rfl, by decide, by decide⟩

theorem vwait : ∀ d a e k m, Statement (.vwait d a e k m) :=
  fun d a e k m => vectorWord atVwait rfl (fitFixed (fitOperand d (fitOperand a (fitOperand e (fitFixed (fitOperand k (fitOperand m (fitFixed (fitNil)))))))))
    (by simp [rowVwait]) (by decide) rfl

/-- Where the row of gmma stands. -/
theorem atGmma : RowAt 0x7B [] rowGmma [] :=
  ⟨rfl, by decide, by decide, by decide, rfl, by decide, by decide⟩

theorem gmma : ∀ n a b c, Statement (.gmma n a b c) :=
  fun n a b c => vectorWord atGmma rfl (fitFixed (fitOperand n (fitFixed (fitOperand a (fitOperand b (fitFixed (fitOperand c (fitNil))))))))
    (by simp [rowGmma]) (by decide) rfl

/-- Where the row of vbend stands. -/
theorem atVbend : RowAt 0x7C [] rowVbend [] :=
  ⟨rfl, by decide, by decide, by decide, rfl, by decide, by decide⟩

theorem vbend : Statement .vbend :=
  vectorWord atVbend rfl (fitFixed (fitFixed (fitNil)))
    (by simp [rowVbend]) (by decide) rfl

/-- Where the row of vkadd stands. -/
theorem atVkadd : RowAt 0x7D [] rowVkadd [rowVkaddK, rowVkpop, rowVkget] :=
  ⟨rfl, by decide, by decide, by decide, rfl, by decide, by decide⟩

theorem vkadd : ∀ d i k c, Statement (.vkadd d i k c) :=
  fun d i k c => vectorWord atVkadd rfl (fitFixed (fitOperand d (fitFixed (fitOperand i (fitOperand k (fitFixed (fitOperand c (fitNil))))))))
    (by simp [rowVkadd]) (by decide) rfl

/-- Where the row of vkaddK stands. -/
theorem atVkaddK : RowAt 0x7D [rowVkadd] rowVkaddK [rowVkpop, rowVkget] :=
  ⟨rfl, by decide, by decide, by decide, rfl, by decide, by decide⟩

theorem vkaddK : ∀ d t k c, Statement (.vkaddK d t k c) :=
  fun d t k c => vectorWord atVkaddK rfl (fitFixed (fitOperand d (fitFixed (fitOperand t (fitFixed (fitOperand k (fitFixed (fitOperand c (fitNil)))))))))
    (by simp [rowVkaddK]) (by decide) rfl

/-- Where the row of vkpop stands. -/
theorem atVkpop : RowAt 0x7D [rowVkadd, rowVkaddK] rowVkpop [rowVkget] :=
  ⟨rfl, by decide, by decide, by decide, rfl, by decide, by decide⟩

theorem vkpop : ∀ d c, Statement (.vkpop d c) :=
  fun d c => vectorWord atVkpop rfl (fitFixed (fitOperand d (fitFixed (fitOperand c (fitNil)))))
    (by simp [rowVkpop]) (by decide) rfl

/-- Where the row of vkget stands. -/
theorem atVkget : RowAt 0x7D [rowVkadd, rowVkaddK, rowVkpop] rowVkget [] :=
  ⟨rfl, by decide, by decide, by decide, rfl, by decide, by decide⟩

theorem vkget : ∀ d a c, Statement (.vkget d a c) :=
  fun d a c => vectorWord atVkget rfl (fitFixed (fitOperand d (fitFixed (fitOperand a (fitFixed (fitOperand c (fitNil)))))))
    (by simp [rowVkget]) (by decide) rfl

/-- Where the row of vkpush stands. -/
theorem atVkpush : RowAt 0x7E [] rowVkpush [rowVmpushCount, rowVmpushFirst] :=
  ⟨rfl, by decide, by decide, by decide, rfl, by decide, by decide⟩

theorem vkpush : ∀ k c, Statement (.vkpush k c) :=
  fun k c => vectorWord atVkpush rfl (fitFixed (fitFixed (fitOperand k (fitFixed (fitOperand c (fitNil))))))
    (by simp [rowVkpush]) (by decide) rfl

/-- Where the row of vmpushCount stands. -/
theorem atVmpushCount : RowAt 0x7E [rowVkpush] rowVmpushCount [rowVmpushFirst] :=
  ⟨rfl, by decide, by decide, by decide, rfl, by decide, by decide⟩

theorem vmpushCount : ∀ a c, Statement (.vmpushCount a c) :=
  fun a c => vectorWord atVmpushCount rfl (fitFixed (fitFixed (fitOperand a (fitFixed (fitOperand c (fitNil))))))
    (by simp [rowVmpushCount]) (by decide) rfl

/-- Where the row of vmpushFirst stands. -/
theorem atVmpushFirst : RowAt 0x7E [rowVkpush, rowVmpushCount] rowVmpushFirst [] :=
  ⟨rfl, by decide, by decide, by decide, rfl, by decide, by decide⟩

theorem vmpushFirst : ∀ a c, Statement (.vmpushFirst a c) :=
  fun a c => vectorWord atVmpushFirst rfl (fitFixed (fitFixed (fitOperand a (fitFixed (fitOperand c (fitNil))))))
    (by simp [rowVmpushFirst]) (by decide) rfl

theorem blockPop : Statement .blockPop := event rfl

theorem convoyIssue : Statement .convoyIssue := event rfl

theorem convoyRetire : Statement .convoyRetire := event rfl

theorem trapEntry : Statement .trapEntry := event rfl

theorem queueDeadlock : Statement .queueDeadlock := event rfl

theorem debugStop : Statement .debugStop := event rfl

theorem preemptionRequest : Statement .preemptionRequest := event rfl

theorem contextSave : Statement .contextSave := event rfl

theorem contextRestore : Statement .contextRestore := event rfl

theorem completionWordUpdate : Statement .completionWordUpdate := event rfl

theorem endReport : Statement .endReport := event rfl

theorem taskAbandon : Statement .taskAbandon := event rfl

theorem loadDataArrival : ∀ n, Statement (.loadDataArrival n) := fun _ => event rfl

theorem storeAcknowledged : ∀ n, Statement (.storeAcknowledged n) := fun _ => event rfl

theorem vectorElementArrival : Statement .vectorElementArrival := event rfl

theorem tableWalk : ∀ va vec, Statement (.tableWalk va vec) := fun _ _ => event rfl

theorem monitoredLineWrite : ∀ line, Statement (.monitoredLineWrite line) := fun _ => event rfl

theorem waitLimitExpiry : Statement .waitLimitExpiry := event rfl

theorem timelineAdvance : ∀ h, Statement (.timelineAdvance h) := fun _ => event rfl

theorem commandFailed : ∀ h err, Statement (.commandFailed h err) := fun _ _ => event rfl

theorem carryChain : Statement .carryChain := event rfl

theorem entryReady : ∀ e, Statement (.entryReady e) := fun _ => event rfl

theorem fantailRun : Statement .fantailRun := event rfl

theorem overdue : ∀ e, Statement (.overdue e) := fun _ => event rfl

theorem priorityPreemption : ∀ e, Statement (.priorityPreemption e) := fun _ => event rfl

theorem streamPumpTransfer : ∀ e, Statement (.streamPumpTransfer e) := fun _ => event rfl

theorem streamOutCopy : ∀ e, Statement (.streamOutCopy e) := fun _ => event rfl

theorem tcmClear : Statement .tcmClear := event rfl

theorem feedCrossing : ∀ q, Statement (.feedCrossing q) := fun _ => event rfl

theorem gmmaMulticast : Statement .gmmaMulticast := event rfl

theorem gmmaShareCompletion : Statement .gmmaShareCompletion := event rfl

theorem planepwrWrite : ∀ v, Statement (.planepwrWrite v) := fun _ => event rfl

theorem lcntWrite : ∀ v, Statement (.lcntWrite v) := fun _ => event rfl

theorem lcarryWrite : ∀ v, Statement (.lcarryWrite v) := fun _ => event rfl

theorem gselWrite : ∀ v, Statement (.gselWrite v) := fun _ => event rfl

theorem tlbinv : ∀ v, Statement (.tlbinv v) := fun _ => event rfl

theorem fqadv : ∀ v, Statement (.fqadv v) := fun _ => event rfl

theorem clreset : ∀ v, Statement (.clreset v) := fun _ => event rfl

theorem csrWrite : ∀ c v, Statement (.csrWrite c v) := fun _ _ => event rfl

theorem clusterReset : ∀ v, Statement (.clusterReset v) := fun _ => event rfl

theorem hostPreemptionRequest : ∀ v, Statement (.hostPreemptionRequest v) := fun _ => event rfl

theorem preqComplete : Statement .preqComplete := event rfl

theorem clholdWrite : ∀ v, Statement (.clholdWrite v) := fun _ => event rfl

theorem plimitWrite : ∀ v, Statement (.plimitWrite v) := fun _ => event rfl

theorem freeze : ∀ v, Statement (.freeze v) := fun _ => event rfl

theorem thaw : ∀ v, Statement (.thaw v) := fun _ => event rfl

theorem freezeSignal : ∀ v, Statement (.freezeSignal v) := fun _ => event rfl

theorem debugPortAccess : ∀ write addr v, Statement (.debugPortAccess write addr v) := fun _ _ _ => event rfl

theorem attest : Statement .attest := event rfl

theorem recover : ∀ v, Statement (.recover v) := fun _ => event rfl

theorem commitSvn : Statement .commitSvn := event rfl

theorem cert : Statement .cert := event rfl

theorem cllog : ∀ v, Statement (.cllog v) := fun _ => event rfl

theorem dbgen : ∀ v, Statement (.dbgen v) := fun _ => event rfl

theorem packageReset : Statement .packageReset := event rfl

theorem grantCycle : Statement .grantCycle := event rfl

theorem grantDelivery : ∀ d, Statement (.grantDelivery d) := fun _ => event rfl

theorem missedGrants : ∀ d, Statement (.missedGrants d) := fun _ => event rfl

theorem thermalThrottle : ∀ d, Statement (.thermalThrottle d) := fun _ => event rfl

theorem thermalCutoff : Statement .thermalCutoff := event rfl

theorem dieStoreScrub : ∀ d, Statement (.dieStoreScrub d) := fun _ => event rfl

theorem hbmScrub : Statement .hbmScrub := event rfl

theorem flitReceive : ∀ port seq crcOk, Statement (.flitReceive port seq crcOk) := fun _ _ _ => event rfl

theorem nakReplay : ∀ port seq, Statement (.nakReplay port seq) := fun _ _ => event rfl

theorem portRetrain : ∀ port, Statement (.portRetrain port) := fun _ => event rfl

theorem portDown : ∀ port, Statement (.portDown port) := fun _ => event rfl

theorem offloadPromotion : Statement .offloadPromotion := event rfl

theorem remoteAccess : ∀ n, Statement (.remoteAccess n) := fun _ => event rfl

theorem remoteAccessTimeout : ∀ n, Statement (.remoteAccessTimeout n) := fun _ => event rfl

theorem collectiveMatch : ∀ h, Statement (.collectiveMatch h) := fun _ => event rfl

theorem collectiveTimeout : ∀ h, Statement (.collectiveTimeout h) := fun _ => event rfl

theorem memberUnreachable : ∀ h, Statement (.memberUnreachable h) := fun _ => event rfl

theorem timeMessage : ∀ v, Statement (.timeMessage v) := fun _ => event rfl

theorem powerLoss : Statement .powerLoss := event rfl

theorem unknownCommand : ∀ c, Statement (.unknownCommand c) := fun _ => event rfl

theorem cxlMemAccess : ∀ write addr v, Statement (.cxlMemAccess write addr v) := fun _ _ _ => event rfl

theorem spuriousWake : Statement .spuriousWake := event rfl

/-- Where the number of a control register stands in its word. -/
theorem csrField_pack {w : IWord} {d a c z : Nat} (hd : d < 2 ^ 5) (ha : a < 2 ^ 5) (hc : c < 2 ^ 12)
    (h : w.toNat = 0x38 + 2 ^ 7 * (d + 2 ^ 5 * (a + 2 ^ 5 * (c + 2 ^ 12 * z)))) : csrField w = c := by
  simp only [csrField, h]; omega

/-- The form field of an EPOP word. -/
theorem epopForm_pack {w : IWord} {d k : Nat} (hd : d < 2 ^ 5) (h : w.toNat = 0x23 + 2 ^ 7 * (d + 2 ^ 5 * (k + 2 ^ 20 * 0))) :
    w.toNat / 2 ^ 22 = k / 2 ^ 10 := by
  rw [h]; omega


/-- Where the row of crget stands. -/
theorem atCrget : RowAt 0x38 [] rowCrget [rowCrput, rowCrset, rowCrclr] :=
  ⟨rfl, by decide, by decide, by decide, rfl, by decide, by decide⟩

theorem crget : ∀ d c, Statement (.crget d c) :=
  fun d c => csrWord atCrget rfl (fitFixed (fitOperand d (fitFixed (fitOperand c (fitFixed (fitNil)))))) (by simp [rowCrget]) (c := c) (csrField_pack d.isLt (by decide) c.isLt (encode_toNat (i := .crget d c) rfl atCrget.ok (fitFixed (fitOperand d (fitFixed (fitOperand c (fitFixed (fitNil)))))) atCrget.width)) rfl (fun _ => rfl)

/-- Where the row of crput stands. -/
theorem atCrput : RowAt 0x38 [rowCrget] rowCrput [rowCrset, rowCrclr] :=
  ⟨rfl, by decide, by decide, by decide, rfl, by decide, by decide⟩

theorem crput : ∀ a c, Statement (.crput a c) :=
  fun a c => csrWord atCrput rfl (fitFixed (fitFixed (fitOperand a (fitOperand c (fitFixed (fitNil)))))) (by simp [rowCrput]) (c := c) (csrField_pack (by decide) a.isLt c.isLt (encode_toNat (i := .crput a c) rfl atCrput.ok (fitFixed (fitFixed (fitOperand a (fitOperand c (fitFixed (fitNil)))))) atCrput.width)) rfl (fun _ => rfl)

/-- Where the row of crset stands. -/
theorem atCrset : RowAt 0x38 [rowCrget, rowCrput] rowCrset [rowCrclr] :=
  ⟨rfl, by decide, by decide, by decide, rfl, by decide, by decide⟩

theorem crset : ∀ a c, Statement (.crset a c) :=
  fun a c => csrWord atCrset rfl (fitFixed (fitFixed (fitOperand a (fitOperand c (fitFixed (fitNil)))))) (by simp [rowCrset]) (c := c) (csrField_pack (by decide) a.isLt c.isLt (encode_toNat (i := .crset a c) rfl atCrset.ok (fitFixed (fitFixed (fitOperand a (fitOperand c (fitFixed (fitNil)))))) atCrset.width)) rfl (fun _ => rfl)

/-- Where the row of crclr stands. -/
theorem atCrclr : RowAt 0x38 [rowCrget, rowCrput, rowCrset] rowCrclr [] :=
  ⟨rfl, by decide, by decide, by decide, rfl, by decide, by decide⟩

theorem crclr : ∀ a c, Statement (.crclr a c) :=
  fun a c => csrWord atCrclr rfl (fitFixed (fitFixed (fitOperand a (fitOperand c (fitFixed (fitNil)))))) (by simp [rowCrclr]) (c := c) (csrField_pack (by decide) a.isLt c.isLt (encode_toNat (i := .crclr a c) rfl atCrclr.ok (fitFixed (fitFixed (fitOperand a (fitOperand c (fitFixed (fitNil)))))) atCrclr.width)) rfl (fun _ => rfl)

/-- Where the row of add stands. -/
theorem atAdd : RowAt 0x1 [] rowAdd [rowSub, rowAnd, rowOr, rowXor, rowSll, rowSrl, rowSra, rowSlt, rowSltn, rowMul, rowMulhs, rowMulhn, rowDiv, rowDivn, rowRem, rowRemn] :=
  ⟨rfl, by decide, by decide, by decide, rfl, by decide, by decide⟩

theorem add : ∀ d a b, Statement (.add d a b) :=
  fun d a b => taskWord atAdd rfl (fitFixed (fitOperand d (fitOperand a (fitOperand b (fitFixed (fitNil)))))) (by simp [rowAdd]) (by decide) rfl rfl

/-- Where the row of sub stands. -/
theorem atSub : RowAt 0x1 [rowAdd] rowSub [rowAnd, rowOr, rowXor, rowSll, rowSrl, rowSra, rowSlt, rowSltn, rowMul, rowMulhs, rowMulhn, rowDiv, rowDivn, rowRem, rowRemn] :=
  ⟨rfl, by decide, by decide, by decide, rfl, by decide, by decide⟩

theorem sub : ∀ d a b, Statement (.sub d a b) :=
  fun d a b => taskWord atSub rfl (fitFixed (fitOperand d (fitOperand a (fitOperand b (fitFixed (fitNil)))))) (by simp [rowSub]) (by decide) rfl rfl

/-- Where the row of and stands. -/
theorem atAnd : RowAt 0x1 [rowAdd, rowSub] rowAnd [rowOr, rowXor, rowSll, rowSrl, rowSra, rowSlt, rowSltn, rowMul, rowMulhs, rowMulhn, rowDiv, rowDivn, rowRem, rowRemn] :=
  ⟨rfl, by decide, by decide, by decide, rfl, by decide, by decide⟩

theorem and : ∀ d a b, Statement (.and d a b) :=
  fun d a b => taskWord atAnd rfl (fitFixed (fitOperand d (fitOperand a (fitOperand b (fitFixed (fitNil)))))) (by simp [rowAnd]) (by decide) rfl rfl

/-- Where the row of or stands. -/
theorem atOr : RowAt 0x1 [rowAdd, rowSub, rowAnd] rowOr [rowXor, rowSll, rowSrl, rowSra, rowSlt, rowSltn, rowMul, rowMulhs, rowMulhn, rowDiv, rowDivn, rowRem, rowRemn] :=
  ⟨rfl, by decide, by decide, by decide, rfl, by decide, by decide⟩

theorem or : ∀ d a b, Statement (.or d a b) :=
  fun d a b => taskWord atOr rfl (fitFixed (fitOperand d (fitOperand a (fitOperand b (fitFixed (fitNil)))))) (by simp [rowOr]) (by decide) rfl rfl

/-- Where the row of xor stands. -/
theorem atXor : RowAt 0x1 [rowAdd, rowSub, rowAnd, rowOr] rowXor [rowSll, rowSrl, rowSra, rowSlt, rowSltn, rowMul, rowMulhs, rowMulhn, rowDiv, rowDivn, rowRem, rowRemn] :=
  ⟨rfl, by decide, by decide, by decide, rfl, by decide, by decide⟩

theorem xor : ∀ d a b, Statement (.xor d a b) :=
  fun d a b => taskWord atXor rfl (fitFixed (fitOperand d (fitOperand a (fitOperand b (fitFixed (fitNil)))))) (by simp [rowXor]) (by decide) rfl rfl

/-- Where the row of sll stands. -/
theorem atSll : RowAt 0x1 [rowAdd, rowSub, rowAnd, rowOr, rowXor] rowSll [rowSrl, rowSra, rowSlt, rowSltn, rowMul, rowMulhs, rowMulhn, rowDiv, rowDivn, rowRem, rowRemn] :=
  ⟨rfl, by decide, by decide, by decide, rfl, by decide, by decide⟩

theorem sll : ∀ d a b, Statement (.sll d a b) :=
  fun d a b => taskWord atSll rfl (fitFixed (fitOperand d (fitOperand a (fitOperand b (fitFixed (fitNil)))))) (by simp [rowSll]) (by decide) rfl rfl

/-- Where the row of srl stands. -/
theorem atSrl : RowAt 0x1 [rowAdd, rowSub, rowAnd, rowOr, rowXor, rowSll] rowSrl [rowSra, rowSlt, rowSltn, rowMul, rowMulhs, rowMulhn, rowDiv, rowDivn, rowRem, rowRemn] :=
  ⟨rfl, by decide, by decide, by decide, rfl, by decide, by decide⟩

theorem srl : ∀ d a b, Statement (.srl d a b) :=
  fun d a b => taskWord atSrl rfl (fitFixed (fitOperand d (fitOperand a (fitOperand b (fitFixed (fitNil)))))) (by simp [rowSrl]) (by decide) rfl rfl

/-- Where the row of sra stands. -/
theorem atSra : RowAt 0x1 [rowAdd, rowSub, rowAnd, rowOr, rowXor, rowSll, rowSrl] rowSra [rowSlt, rowSltn, rowMul, rowMulhs, rowMulhn, rowDiv, rowDivn, rowRem, rowRemn] :=
  ⟨rfl, by decide, by decide, by decide, rfl, by decide, by decide⟩

theorem sra : ∀ d a b, Statement (.sra d a b) :=
  fun d a b => taskWord atSra rfl (fitFixed (fitOperand d (fitOperand a (fitOperand b (fitFixed (fitNil)))))) (by simp [rowSra]) (by decide) rfl rfl

/-- Where the row of slt stands. -/
theorem atSlt : RowAt 0x1 [rowAdd, rowSub, rowAnd, rowOr, rowXor, rowSll, rowSrl, rowSra] rowSlt [rowSltn, rowMul, rowMulhs, rowMulhn, rowDiv, rowDivn, rowRem, rowRemn] :=
  ⟨rfl, by decide, by decide, by decide, rfl, by decide, by decide⟩

theorem slt : ∀ d a b, Statement (.slt d a b) :=
  fun d a b => taskWord atSlt rfl (fitFixed (fitOperand d (fitOperand a (fitOperand b (fitFixed (fitNil)))))) (by simp [rowSlt]) (by decide) rfl rfl

/-- Where the row of sltn stands. -/
theorem atSltn : RowAt 0x1 [rowAdd, rowSub, rowAnd, rowOr, rowXor, rowSll, rowSrl, rowSra, rowSlt] rowSltn [rowMul, rowMulhs, rowMulhn, rowDiv, rowDivn, rowRem, rowRemn] :=
  ⟨rfl, by decide, by decide, by decide, rfl, by decide, by decide⟩

theorem sltn : ∀ d a b, Statement (.sltn d a b) :=
  fun d a b => taskWord atSltn rfl (fitFixed (fitOperand d (fitOperand a (fitOperand b (fitFixed (fitNil)))))) (by simp [rowSltn]) (by decide) rfl rfl

/-- Where the row of mul stands. -/
theorem atMul : RowAt 0x1 [rowAdd, rowSub, rowAnd, rowOr, rowXor, rowSll, rowSrl, rowSra, rowSlt, rowSltn] rowMul [rowMulhs, rowMulhn, rowDiv, rowDivn, rowRem, rowRemn] :=
  ⟨rfl, by decide, by decide, by decide, rfl, by decide, by decide⟩

theorem mul : ∀ d a b, Statement (.mul d a b) :=
  fun d a b => taskWord atMul rfl (fitFixed (fitOperand d (fitOperand a (fitOperand b (fitFixed (fitNil)))))) (by simp [rowMul]) (by decide) rfl rfl

/-- Where the row of mulhs stands. -/
theorem atMulhs : RowAt 0x1 [rowAdd, rowSub, rowAnd, rowOr, rowXor, rowSll, rowSrl, rowSra, rowSlt, rowSltn, rowMul] rowMulhs [rowMulhn, rowDiv, rowDivn, rowRem, rowRemn] :=
  ⟨rfl, by decide, by decide, by decide, rfl, by decide, by decide⟩

theorem mulhs : ∀ d a b, Statement (.mulhs d a b) :=
  fun d a b => taskWord atMulhs rfl (fitFixed (fitOperand d (fitOperand a (fitOperand b (fitFixed (fitNil)))))) (by simp [rowMulhs]) (by decide) rfl rfl

/-- Where the row of mulhn stands. -/
theorem atMulhn : RowAt 0x1 [rowAdd, rowSub, rowAnd, rowOr, rowXor, rowSll, rowSrl, rowSra, rowSlt, rowSltn, rowMul, rowMulhs] rowMulhn [rowDiv, rowDivn, rowRem, rowRemn] :=
  ⟨rfl, by decide, by decide, by decide, rfl, by decide, by decide⟩

theorem mulhn : ∀ d a b, Statement (.mulhn d a b) :=
  fun d a b => taskWord atMulhn rfl (fitFixed (fitOperand d (fitOperand a (fitOperand b (fitFixed (fitNil)))))) (by simp [rowMulhn]) (by decide) rfl rfl

/-- Where the row of div stands. -/
theorem atDiv : RowAt 0x1 [rowAdd, rowSub, rowAnd, rowOr, rowXor, rowSll, rowSrl, rowSra, rowSlt, rowSltn, rowMul, rowMulhs, rowMulhn] rowDiv [rowDivn, rowRem, rowRemn] :=
  ⟨rfl, by decide, by decide, by decide, rfl, by decide, by decide⟩

theorem div : ∀ d a b, Statement (.div d a b) :=
  fun d a b => taskWord atDiv rfl (fitFixed (fitOperand d (fitOperand a (fitOperand b (fitFixed (fitNil)))))) (by simp [rowDiv]) (by decide) rfl rfl

/-- Where the row of divn stands. -/
theorem atDivn : RowAt 0x1 [rowAdd, rowSub, rowAnd, rowOr, rowXor, rowSll, rowSrl, rowSra, rowSlt, rowSltn, rowMul, rowMulhs, rowMulhn, rowDiv] rowDivn [rowRem, rowRemn] :=
  ⟨rfl, by decide, by decide, by decide, rfl, by decide, by decide⟩

theorem divn : ∀ d a b, Statement (.divn d a b) :=
  fun d a b => taskWord atDivn rfl (fitFixed (fitOperand d (fitOperand a (fitOperand b (fitFixed (fitNil)))))) (by simp [rowDivn]) (by decide) rfl rfl

/-- Where the row of rem stands. -/
theorem atRem : RowAt 0x1 [rowAdd, rowSub, rowAnd, rowOr, rowXor, rowSll, rowSrl, rowSra, rowSlt, rowSltn, rowMul, rowMulhs, rowMulhn, rowDiv, rowDivn] rowRem [rowRemn] :=
  ⟨rfl, by decide, by decide, by decide, rfl, by decide, by decide⟩

theorem rem : ∀ d a b, Statement (.rem d a b) :=
  fun d a b => taskWord atRem rfl (fitFixed (fitOperand d (fitOperand a (fitOperand b (fitFixed (fitNil)))))) (by simp [rowRem]) (by decide) rfl rfl

/-- Where the row of remn stands. -/
theorem atRemn : RowAt 0x1 [rowAdd, rowSub, rowAnd, rowOr, rowXor, rowSll, rowSrl, rowSra, rowSlt, rowSltn, rowMul, rowMulhs, rowMulhn, rowDiv, rowDivn, rowRem] rowRemn [] :=
  ⟨rfl, by decide, by decide, by decide, rfl, by decide, by decide⟩

theorem remn : ∀ d a b, Statement (.remn d a b) :=
  fun d a b => taskWord atRemn rfl (fitFixed (fitOperand d (fitOperand a (fitOperand b (fitFixed (fitNil)))))) (by simp [rowRemn]) (by decide) rfl rfl

/-- Where the row of addi stands. -/
theorem atAddi : RowAt 0x2 [] rowAddi [] :=
  ⟨rfl, by decide, by decide, by decide, rfl, by decide, by decide⟩

theorem addi : ∀ d a i, Statement (.addi d a i) :=
  fun d a i => taskWord atAddi rfl (fitFixed (fitOperand d (fitOperand a (fitOperand i (fitNil))))) (by simp [rowAddi]) (by decide) rfl rfl

/-- Where the row of andi stands. -/
theorem atAndi : RowAt 0x3 [] rowAndi [] :=
  ⟨rfl, by decide, by decide, by decide, rfl, by decide, by decide⟩

theorem andi : ∀ d a i, Statement (.andi d a i) :=
  fun d a i => taskWord atAndi rfl (fitFixed (fitOperand d (fitOperand a (fitOperand i (fitNil))))) (by simp [rowAndi]) (by decide) rfl rfl

/-- Where the row of ori stands. -/
theorem atOri : RowAt 0x4 [] rowOri [] :=
  ⟨rfl, by decide, by decide, by decide, rfl, by decide, by decide⟩

theorem ori : ∀ d a i, Statement (.ori d a i) :=
  fun d a i => taskWord atOri rfl (fitFixed (fitOperand d (fitOperand a (fitOperand i (fitNil))))) (by simp [rowOri]) (by decide) rfl rfl

/-- Where the row of xori stands. -/
theorem atXori : RowAt 0x5 [] rowXori [] :=
  ⟨rfl, by decide, by decide, by decide, rfl, by decide, by decide⟩

theorem xori : ∀ d a i, Statement (.xori d a i) :=
  fun d a i => taskWord atXori rfl (fitFixed (fitOperand d (fitOperand a (fitOperand i (fitNil))))) (by simp [rowXori]) (by decide) rfl rfl

/-- Where the row of slli stands. -/
theorem atSlli : RowAt 0x6 [] rowSlli [rowSrli, rowSrai] :=
  ⟨rfl, by decide, by decide, by decide, rfl, by decide, by decide⟩

theorem slli : ∀ d a n, Statement (.slli d a n) :=
  fun d a n => taskWord atSlli rfl (fitFixed (fitOperand d (fitOperand a (fitOperand n (fitFixed (fitNil)))))) (by simp [rowSlli]) (by decide) rfl rfl

/-- Where the row of srli stands. -/
theorem atSrli : RowAt 0x6 [rowSlli] rowSrli [rowSrai] :=
  ⟨rfl, by decide, by decide, by decide, rfl, by decide, by decide⟩

theorem srli : ∀ d a n, Statement (.srli d a n) :=
  fun d a n => taskWord atSrli rfl (fitFixed (fitOperand d (fitOperand a (fitOperand n (fitFixed (fitNil)))))) (by simp [rowSrli]) (by decide) rfl rfl

/-- Where the row of srai stands. -/
theorem atSrai : RowAt 0x6 [rowSlli, rowSrli] rowSrai [] :=
  ⟨rfl, by decide, by decide, by decide, rfl, by decide, by decide⟩

theorem srai : ∀ d a n, Statement (.srai d a n) :=
  fun d a n => taskWord atSrai rfl (fitFixed (fitOperand d (fitOperand a (fitOperand n (fitFixed (fitNil)))))) (by simp [rowSrai]) (by decide) rfl rfl

/-- Where the row of slti stands. -/
theorem atSlti : RowAt 0x7 [] rowSlti [] :=
  ⟨rfl, by decide, by decide, by decide, rfl, by decide, by decide⟩

theorem slti : ∀ d a i, Statement (.slti d a i) :=
  fun d a i => taskWord atSlti rfl (fitFixed (fitOperand d (fitOperand a (fitOperand i (fitNil))))) (by simp [rowSlti]) (by decide) rfl rfl

/-- Where the row of sltin stands. -/
theorem atSltin : RowAt 0x8 [] rowSltin [] :=
  ⟨rfl, by decide, by decide, by decide, rfl, by decide, by decide⟩

theorem sltin : ∀ d a i, Statement (.sltin d a i) :=
  fun d a i => taskWord atSltin rfl (fitFixed (fitOperand d (fitOperand a (fitOperand i (fitNil))))) (by simp [rowSltin]) (by decide) rfl rfl

/-- Where the row of lui stands. -/
theorem atLui : RowAt 0x9 [] rowLui [] :=
  ⟨rfl, by decide, by decide, by decide, rfl, by decide, by decide⟩

theorem lui : ∀ d i, Statement (.lui d i) :=
  fun d i => taskWord atLui rfl (fitFixed (fitOperand d (fitOperand i (fitNil)))) (by simp [rowLui]) (by decide) rfl rfl

/-- Where the row of sext stands. -/
theorem atSext : RowAt 0xA [] rowSext [rowZext, rowExtr, rowIns, rowClz, rowCtz, rowPopc] :=
  ⟨rfl, by decide, by decide, by decide, rfl, by decide, by decide⟩

theorem sext : ∀ d a w, Statement (.sext d a w) :=
  fun d a w => taskWord atSext rfl (fitFixed (fitOperand d (fitOperand a (fitFixed (fitOperand w (fitFixed (fitNil))))))) (by simp [rowSext]) (by decide) rfl rfl

/-- Where the row of zext stands. -/
theorem atZext : RowAt 0xA [rowSext] rowZext [rowExtr, rowIns, rowClz, rowCtz, rowPopc] :=
  ⟨rfl, by decide, by decide, by decide, rfl, by decide, by decide⟩

theorem zext : ∀ d a w, Statement (.zext d a w) :=
  fun d a w => taskWord atZext rfl (fitFixed (fitOperand d (fitOperand a (fitFixed (fitOperand w (fitFixed (fitNil))))))) (by simp [rowZext]) (by decide) rfl rfl

/-- Where the row of extr stands. -/
theorem atExtr : RowAt 0xA [rowSext, rowZext] rowExtr [rowIns, rowClz, rowCtz, rowPopc] :=
  ⟨rfl, by decide, by decide, by decide, rfl, by decide, by decide⟩

theorem extr : ∀ d a b w, Statement (.extr d a b w) :=
  fun d a b w => taskWord atExtr rfl (fitFixed (fitOperand d (fitOperand a (fitOperand b (fitOperand w (fitFixed (fitNil))))))) (by simp [rowExtr]) (by decide) rfl rfl

/-- Where the row of ins stands. -/
theorem atIns : RowAt 0xA [rowSext, rowZext, rowExtr] rowIns [rowClz, rowCtz, rowPopc] :=
  ⟨rfl, by decide, by decide, by decide, rfl, by decide, by decide⟩

theorem ins : ∀ d a b w, Statement (.ins d a b w) :=
  fun d a b w => taskWord atIns rfl (fitFixed (fitOperand d (fitOperand a (fitOperand b (fitOperand w (fitFixed (fitNil))))))) (by simp [rowIns]) (by decide) rfl rfl

/-- Where the row of clz stands. -/
theorem atClz : RowAt 0xA [rowSext, rowZext, rowExtr, rowIns] rowClz [rowCtz, rowPopc] :=
  ⟨rfl, by decide, by decide, by decide, rfl, by decide, by decide⟩

theorem clz : ∀ d a, Statement (.clz d a) :=
  fun d a => taskWord atClz rfl (fitFixed (fitOperand d (fitOperand a (fitFixed (fitNil))))) (by simp [rowClz]) (by decide) rfl rfl

/-- Where the row of ctz stands. -/
theorem atCtz : RowAt 0xA [rowSext, rowZext, rowExtr, rowIns, rowClz] rowCtz [rowPopc] :=
  ⟨rfl, by decide, by decide, by decide, rfl, by decide, by decide⟩

theorem ctz : ∀ d a, Statement (.ctz d a) :=
  fun d a => taskWord atCtz rfl (fitFixed (fitOperand d (fitOperand a (fitFixed (fitNil))))) (by simp [rowCtz]) (by decide) rfl rfl

/-- Where the row of popc stands. -/
theorem atPopc : RowAt 0xA [rowSext, rowZext, rowExtr, rowIns, rowClz, rowCtz] rowPopc [] :=
  ⟨rfl, by decide, by decide, by decide, rfl, by decide, by decide⟩

theorem popc : ∀ d a, Statement (.popc d a) :=
  fun d a => taskWord atPopc rfl (fitFixed (fitOperand d (fitOperand a (fitFixed (fitNil))))) (by simp [rowPopc]) (by decide) rfl rfl

/-- Where the row of ldb stands. -/
theorem atLdb : RowAt 0x10 [] rowLdb [] :=
  ⟨rfl, by decide, by decide, by decide, rfl, by decide, by decide⟩

theorem ldb : ∀ d a s i, Statement (.ldb d a s i) :=
  fun d a s i => taskWord atLdb rfl (fitFixed (fitOperand d (fitOperand a (fitOperand s (fitOperand i (fitNil)))))) (by simp [rowLdb]) (by decide) rfl rfl

/-- Where the row of ldw stands. -/
theorem atLdw : RowAt 0x11 [] rowLdw [] :=
  ⟨rfl, by decide, by decide, by decide, rfl, by decide, by decide⟩

theorem ldw : ∀ d a s i, Statement (.ldw d a s i) :=
  fun d a s i => taskWord atLdw rfl (fitFixed (fitOperand d (fitOperand a (fitOperand s (fitOperand i (fitNil)))))) (by simp [rowLdw]) (by decide) rfl rfl

/-- Where the row of ldd stands. -/
theorem atLdd : RowAt 0x12 [] rowLdd [] :=
  ⟨rfl, by decide, by decide, by decide, rfl, by decide, by decide⟩

theorem ldd : ∀ d a s i, Statement (.ldd d a s i) :=
  fun d a s i => taskWord atLdd rfl (fitFixed (fitOperand d (fitOperand a (fitOperand s (fitOperand i (fitNil)))))) (by simp [rowLdd]) (by decide) rfl rfl

/-- Where the row of stb stands. -/
theorem atStb : RowAt 0x13 [] rowStb [] :=
  ⟨rfl, by decide, by decide, by decide, rfl, by decide, by decide⟩

theorem stb : ∀ d a s i, Statement (.stb d a s i) :=
  fun d a s i => taskWord atStb rfl (fitFixed (fitOperand d (fitOperand a (fitOperand s (fitOperand i (fitNil)))))) (by simp [rowStb]) (by decide) rfl rfl

/-- Where the row of stw stands. -/
theorem atStw : RowAt 0x14 [] rowStw [] :=
  ⟨rfl, by decide, by decide, by decide, rfl, by decide, by decide⟩

theorem stw : ∀ d a s i, Statement (.stw d a s i) :=
  fun d a s i => taskWord atStw rfl (fitFixed (fitOperand d (fitOperand a (fitOperand s (fitOperand i (fitNil)))))) (by simp [rowStw]) (by decide) rfl rfl

/-- Where the row of std stands. -/
theorem atStd : RowAt 0x15 [] rowStd [] :=
  ⟨rfl, by decide, by decide, by decide, rfl, by decide, by decide⟩

theorem std : ∀ d a s i, Statement (.std d a s i) :=
  fun d a s i => taskWord atStd rfl (fitFixed (fitOperand d (fitOperand a (fitOperand s (fitOperand i (fitNil)))))) (by simp [rowStd]) (by decide) rfl rfl

/-- Where the row of amoswap stands. -/
theorem atAmoswap : RowAt 0x16 [] rowAmoswap [rowAmoadd, rowAmoand, rowAmoor, rowAmoxor, rowAmomax, rowAmomin, rowAmomaxu] :=
  ⟨rfl, by decide, by decide, by decide, rfl, by decide, by decide⟩

theorem amoswap : ∀ d a b e o s, Statement (.amoswap d a b e o s) :=
  fun d a b e o s => taskWord atAmoswap rfl (fitFixed (fitOperand d (fitOperand a (fitOperand b (fitOperand e (fitOperand o (fitOperand s (fitFixed (fitNil))))))))) (by simp [rowAmoswap]) (by decide) rfl rfl

/-- Where the row of amoadd stands. -/
theorem atAmoadd : RowAt 0x16 [rowAmoswap] rowAmoadd [rowAmoand, rowAmoor, rowAmoxor, rowAmomax, rowAmomin, rowAmomaxu] :=
  ⟨rfl, by decide, by decide, by decide, rfl, by decide, by decide⟩

theorem amoadd : ∀ d a b e o s, Statement (.amoadd d a b e o s) :=
  fun d a b e o s => taskWord atAmoadd rfl (fitFixed (fitOperand d (fitOperand a (fitOperand b (fitOperand e (fitOperand o (fitOperand s (fitFixed (fitNil))))))))) (by simp [rowAmoadd]) (by decide) rfl rfl

/-- Where the row of amoand stands. -/
theorem atAmoand : RowAt 0x16 [rowAmoswap, rowAmoadd] rowAmoand [rowAmoor, rowAmoxor, rowAmomax, rowAmomin, rowAmomaxu] :=
  ⟨rfl, by decide, by decide, by decide, rfl, by decide, by decide⟩

theorem amoand : ∀ d a b e o s, Statement (.amoand d a b e o s) :=
  fun d a b e o s => taskWord atAmoand rfl (fitFixed (fitOperand d (fitOperand a (fitOperand b (fitOperand e (fitOperand o (fitOperand s (fitFixed (fitNil))))))))) (by simp [rowAmoand]) (by decide) rfl rfl

/-- Where the row of amoor stands. -/
theorem atAmoor : RowAt 0x16 [rowAmoswap, rowAmoadd, rowAmoand] rowAmoor [rowAmoxor, rowAmomax, rowAmomin, rowAmomaxu] :=
  ⟨rfl, by decide, by decide, by decide, rfl, by decide, by decide⟩

theorem amoor : ∀ d a b e o s, Statement (.amoor d a b e o s) :=
  fun d a b e o s => taskWord atAmoor rfl (fitFixed (fitOperand d (fitOperand a (fitOperand b (fitOperand e (fitOperand o (fitOperand s (fitFixed (fitNil))))))))) (by simp [rowAmoor]) (by decide) rfl rfl

/-- Where the row of amoxor stands. -/
theorem atAmoxor : RowAt 0x16 [rowAmoswap, rowAmoadd, rowAmoand, rowAmoor] rowAmoxor [rowAmomax, rowAmomin, rowAmomaxu] :=
  ⟨rfl, by decide, by decide, by decide, rfl, by decide, by decide⟩

theorem amoxor : ∀ d a b e o s, Statement (.amoxor d a b e o s) :=
  fun d a b e o s => taskWord atAmoxor rfl (fitFixed (fitOperand d (fitOperand a (fitOperand b (fitOperand e (fitOperand o (fitOperand s (fitFixed (fitNil))))))))) (by simp [rowAmoxor]) (by decide) rfl rfl

/-- Where the row of amomax stands. -/
theorem atAmomax : RowAt 0x16 [rowAmoswap, rowAmoadd, rowAmoand, rowAmoor, rowAmoxor] rowAmomax [rowAmomin, rowAmomaxu] :=
  ⟨rfl, by decide, by decide, by decide, rfl, by decide, by decide⟩

theorem amomax : ∀ d a b e o s, Statement (.amomax d a b e o s) :=
  fun d a b e o s => taskWord atAmomax rfl (fitFixed (fitOperand d (fitOperand a (fitOperand b (fitOperand e (fitOperand o (fitOperand s (fitFixed (fitNil))))))))) (by simp [rowAmomax]) (by decide) rfl rfl

/-- Where the row of amomin stands. -/
theorem atAmomin : RowAt 0x16 [rowAmoswap, rowAmoadd, rowAmoand, rowAmoor, rowAmoxor, rowAmomax] rowAmomin [rowAmomaxu] :=
  ⟨rfl, by decide, by decide, by decide, rfl, by decide, by decide⟩

theorem amomin : ∀ d a b e o s, Statement (.amomin d a b e o s) :=
  fun d a b e o s => taskWord atAmomin rfl (fitFixed (fitOperand d (fitOperand a (fitOperand b (fitOperand e (fitOperand o (fitOperand s (fitFixed (fitNil))))))))) (by simp [rowAmomin]) (by decide) rfl rfl

/-- Where the row of amomaxu stands. -/
theorem atAmomaxu : RowAt 0x16 [rowAmoswap, rowAmoadd, rowAmoand, rowAmoor, rowAmoxor, rowAmomax, rowAmomin] rowAmomaxu [] :=
  ⟨rfl, by decide, by decide, by decide, rfl, by decide, by decide⟩

theorem amomaxu : ∀ d a b e o s, Statement (.amomaxu d a b e o s) :=
  fun d a b e o s => taskWord atAmomaxu rfl (fitFixed (fitOperand d (fitOperand a (fitOperand b (fitOperand e (fitOperand o (fitOperand s (fitFixed (fitNil))))))))) (by simp [rowAmomaxu]) (by decide) rfl rfl

/-- Where the row of cas stands. -/
theorem atCas : RowAt 0x17 [] rowCas [rowFence] :=
  ⟨rfl, by decide, by decide, by decide, rfl, by decide, by decide⟩

theorem cas : ∀ d a b e o s, Statement (.cas d a b e o s) :=
  fun d a b e o s => taskWord atCas rfl (fitFixed (fitOperand d (fitOperand a (fitOperand b (fitOperand e (fitOperand o (fitOperand s (fitFixed (fitNil))))))))) (by simp [rowCas]) (by decide) rfl rfl

/-- Where the row of fence stands. -/
theorem atFence : RowAt 0x17 [rowCas] rowFence [] :=
  ⟨rfl, by decide, by decide, by decide, rfl, by decide, by decide⟩

theorem fence : ∀ e q p, Statement (.fence e q p) :=
  fun e q p => taskWord atFence rfl (fitFixed (fitFixed (fitOperand e (fitOperand q (fitOperand p (fitFixed (fitNil))))))) (by simp [rowFence]) (by decide) rfl rfl

/-- Where the row of cjEq stands. -/
theorem atCjEq : RowAt 0x18 [] rowCjEq [] :=
  ⟨rfl, by decide, by decide, by decide, rfl, by decide, by decide⟩

theorem cjEq : ∀ b a i, Statement (.cjEq b a i) :=
  fun b a i => taskWord atCjEq rfl (fitFixed (fitOperand b (fitOperand a (fitOperand i (fitNil))))) (by simp [rowCjEq]) (by decide) rfl rfl

/-- Where the row of cjNe stands. -/
theorem atCjNe : RowAt 0x19 [] rowCjNe [] :=
  ⟨rfl, by decide, by decide, by decide, rfl, by decide, by decide⟩

theorem cjNe : ∀ b a i, Statement (.cjNe b a i) :=
  fun b a i => taskWord atCjNe rfl (fitFixed (fitOperand b (fitOperand a (fitOperand i (fitNil))))) (by simp [rowCjNe]) (by decide) rfl rfl

/-- Where the row of cjLt stands. -/
theorem atCjLt : RowAt 0x1A [] rowCjLt [] :=
  ⟨rfl, by decide, by decide, by decide, rfl, by decide, by decide⟩

theorem cjLt : ∀ b a i, Statement (.cjLt b a i) :=
  fun b a i => taskWord atCjLt rfl (fitFixed (fitOperand b (fitOperand a (fitOperand i (fitNil))))) (by simp [rowCjLt]) (by decide) rfl rfl

/-- Where the row of cjGe stands. -/
theorem atCjGe : RowAt 0x1B [] rowCjGe [] :=
  ⟨rfl, by decide, by decide, by decide, rfl, by decide, by decide⟩

theorem cjGe : ∀ b a i, Statement (.cjGe b a i) :=
  fun b a i => taskWord atCjGe rfl (fitFixed (fitOperand b (fitOperand a (fitOperand i (fitNil))))) (by simp [rowCjGe]) (by decide) rfl rfl

/-- Where the row of cjLtn stands. -/
theorem atCjLtn : RowAt 0x1C [] rowCjLtn [] :=
  ⟨rfl, by decide, by decide, by decide, rfl, by decide, by decide⟩

theorem cjLtn : ∀ b a i, Statement (.cjLtn b a i) :=
  fun b a i => taskWord atCjLtn rfl (fitFixed (fitOperand b (fitOperand a (fitOperand i (fitNil))))) (by simp [rowCjLtn]) (by decide) rfl rfl

/-- Where the row of cjGen stands. -/
theorem atCjGen : RowAt 0x1D [] rowCjGen [] :=
  ⟨rfl, by decide, by decide, by decide, rfl, by decide, by decide⟩

theorem cjGen : ∀ b a i, Statement (.cjGen b a i) :=
  fun b a i => taskWord atCjGen rfl (fitFixed (fitOperand b (fitOperand a (fitOperand i (fitNil))))) (by simp [rowCjGen]) (by decide) rfl rfl

/-- Where the row of jal stands. -/
theorem atJal : RowAt 0x1E [] rowJal [] :=
  ⟨rfl, by decide, by decide, by decide, rfl, by decide, by decide⟩

theorem jal : ∀ d i, Statement (.jal d i) :=
  fun d i => taskWord atJal rfl (fitFixed (fitOperand d (fitOperand i (fitNil)))) (by simp [rowJal]) (by decide) rfl rfl

/-- Where the row of jr stands. -/
theorem atJr : RowAt 0x1F [] rowJr [] :=
  ⟨rfl, by decide, by decide, by decide, rfl, by decide, by decide⟩

theorem jr : ∀ d a, Statement (.jr d a) :=
  fun d a => taskWord atJr rfl (fitFixed (fitOperand d (fitOperand a (fitFixed (fitNil))))) (by simp [rowJr]) (by decide) rfl rfl

/-- Where the row of bpush stands. -/
theorem atBpush : RowAt 0x20 [] rowBpush [] :=
  ⟨rfl, by decide, by decide, by decide, rfl, by decide, by decide⟩

theorem bpush : ∀ a b, Statement (.bpush a b) :=
  fun a b => taskWord atBpush rfl (fitFixed (fitFixed (fitOperand a (fitOperand b (fitFixed (fitNil)))))) (by simp [rowBpush]) (by decide) rfl rfl

/-- Where the row of dpush stands. -/
theorem atDpush : RowAt 0x21 [] rowDpush [] :=
  ⟨rfl, by decide, by decide, by decide, rfl, by decide, by decide⟩

theorem dpush : ∀ a, Statement (.dpush a) :=
  fun a => taskWord atDpush rfl (fitFixed (fitFixed (fitOperand a (fitFixed (fitNil))))) (by simp [rowDpush]) (by decide) rfl rfl

/-- Where the row of rpop stands. -/
theorem atRpop : RowAt 0x22 [] rowRpop [] :=
  ⟨rfl, by decide, by decide, by decide, rfl, by decide, by decide⟩

theorem rpop : ∀ d, Statement (.rpop d) :=
  fun d => taskWord atRpop rfl (fitFixed (fitOperand d (fitFixed (fitNil)))) (by simp [rowRpop]) (by decide) rfl rfl

/-- Where the row of epop stands. -/
theorem atEpop : RowAt 0x23 [] rowEpop [rowEpopTry, rowEpopMsg, rowEpopMsgTry] :=
  ⟨rfl, by decide, by decide, by decide, rfl, by decide, by decide⟩

theorem epop : ∀ d, Statement (.epop d) :=
  fun d => steeringWord (j := .epop d) atEpop rfl (fitFixed (fitOperand d (fitFixed (fitNil)))) (by simp [rowEpop]) (by decide) rfl (by
    have h1 := encode_mod (i := .epop d) atEpop rfl (fitFixed (fitOperand d (fitFixed (fitNil))))
    have h2 := epopForm_pack d.isLt (encode_toNat (i := .epop d) rfl atEpop.ok (fitFixed (fitOperand d (fitFixed (fitNil)))) atEpop.width)
    simp only [outsideSet, h1, h2]
    simp [procSteer]) rfl rfl

/-- Where the row of epopTry stands. -/
theorem atEpopTry : RowAt 0x23 [rowEpop] rowEpopTry [rowEpopMsg, rowEpopMsgTry] :=
  ⟨rfl, by decide, by decide, by decide, rfl, by decide, by decide⟩

theorem epopTry : ∀ d, Statement (.epopTry d) :=
  fun d => steeringWord (j := .epopTry d) atEpopTry rfl (fitFixed (fitOperand d (fitFixed (fitNil)))) (by simp [rowEpopTry]) (by decide) rfl (by
    have h1 := encode_mod (i := .epopTry d) atEpopTry rfl (fitFixed (fitOperand d (fitFixed (fitNil))))
    have h2 := epopForm_pack d.isLt (encode_toNat (i := .epopTry d) rfl atEpopTry.ok (fitFixed (fitOperand d (fitFixed (fitNil)))) atEpopTry.width)
    simp only [outsideSet, h1, h2]
    simp [procSteer]) rfl rfl

/-- Where the row of epopMsg stands. -/
theorem atEpopMsg : RowAt 0x23 [rowEpop, rowEpopTry] rowEpopMsg [rowEpopMsgTry] :=
  ⟨rfl, by decide, by decide, by decide, rfl, by decide, by decide⟩

theorem epopMsg : ∀ d, Statement (.epopMsg d) :=
  fun d => steeringWord (j := .epopMsg d) atEpopMsg rfl (fitFixed (fitOperand d (fitFixed (fitNil)))) (by simp [rowEpopMsg]) (by decide) rfl (by
    have h1 := encode_mod (i := .epopMsg d) atEpopMsg rfl (fitFixed (fitOperand d (fitFixed (fitNil))))
    have h2 := epopForm_pack d.isLt (encode_toNat (i := .epopMsg d) rfl atEpopMsg.ok (fitFixed (fitOperand d (fitFixed (fitNil)))) atEpopMsg.width)
    simp only [outsideSet, h1, h2]
    simp [procSteer]) rfl rfl

/-- Where the row of epopMsgTry stands. -/
theorem atEpopMsgTry : RowAt 0x23 [rowEpop, rowEpopTry, rowEpopMsg] rowEpopMsgTry [] :=
  ⟨rfl, by decide, by decide, by decide, rfl, by decide, by decide⟩

theorem epopMsgTry : ∀ d, Statement (.epopMsgTry d) :=
  fun d => steeringWord (j := .epopMsgTry d) atEpopMsgTry rfl (fitFixed (fitOperand d (fitFixed (fitNil)))) (by simp [rowEpopMsgTry]) (by decide) rfl (by
    have h1 := encode_mod (i := .epopMsgTry d) atEpopMsgTry rfl (fitFixed (fitOperand d (fitFixed (fitNil))))
    have h2 := epopForm_pack d.isLt (encode_toNat (i := .epopMsgTry d) rfl atEpopMsgTry.ok (fitFixed (fitOperand d (fitFixed (fitNil)))) atEpopMsgTry.width)
    simp only [outsideSet, h1, h2]
    simp [procSteer]) rfl rfl

/-- Where the row of waitw stands. -/
theorem atWaitw : RowAt 0x24 [] rowWaitw [] :=
  ⟨rfl, by decide, by decide, by decide, rfl, by decide, by decide⟩

theorem waitw : ∀ d a b s m t, Statement (.waitw d a b s m t) :=
  fun d a b s m t => taskWord atWaitw rfl (fitFixed (fitOperand d (fitOperand a (fitOperand b (fitOperand s (fitOperand m (fitOperand t (fitNil)))))))) (by simp [rowWaitw]) (by decide) rfl rfl

/-- Where the row of endTask stands. -/
theorem atEndTask : RowAt 0x25 [] rowEndTask [] :=
  ⟨rfl, by decide, by decide, by decide, rfl, by decide, by decide⟩

theorem endTask : Statement .endTask :=
  taskWord atEndTask rfl (fitFixed (fitFixed (fitNil))) (by simp [rowEndTask]) (by decide) rfl rfl

/-- Where the row of dcoll stands. -/
theorem atDcoll : RowAt 0x26 [] rowDcoll [] :=
  ⟨rfl, by decide, by decide, by decide, rfl, by decide, by decide⟩

theorem dcoll : ∀ d a b, Statement (.dcoll d a b) :=
  fun d a b => taskWord atDcoll rfl (fitFixed (fitOperand d (fitOperand a (fitOperand b (fitFixed (fitNil)))))) (by simp [rowDcoll]) (by decide) rfl rfl

/-- Where the row of copy stands. -/
theorem atCopy : RowAt 0x28 [] rowCopy [rowCopyRst] :=
  ⟨rfl, by decide, by decide, by decide, rfl, by decide, by decide⟩

theorem copy : ∀ d a b, Statement (.copy d a b) :=
  fun d a b => taskWord atCopy rfl (fitFixed (fitOperand d (fitOperand a (fitOperand b (fitFixed (fitNil)))))) (by simp [rowCopy]) (by decide) rfl rfl

/-- Where the row of copyRst stands. -/
theorem atCopyRst : RowAt 0x28 [rowCopy] rowCopyRst [] :=
  ⟨rfl, by decide, by decide, by decide, rfl, by decide, by decide⟩

theorem copyRst : ∀ d a, Statement (.copyRst d a) :=
  fun d a => taskWord atCopyRst rfl (fitFixed (fitOperand d (fitOperand a (fitFixed (fitNil))))) (by simp [rowCopyRst]) (by decide) rfl rfl

/-- Where the row of copy2 stands. -/
theorem atCopy2 : RowAt 0x29 [] rowCopy2 [] :=
  ⟨rfl, by decide, by decide, by decide, rfl, by decide, by decide⟩

theorem copy2 : ∀ d a b, Statement (.copy2 d a b) :=
  fun d a b => taskWord atCopy2 rfl (fitFixed (fitOperand d (fitOperand a (fitOperand b (fitFixed (fitNil)))))) (by simp [rowCopy2]) (by decide) rfl rfl

/-- Where the row of fill stands. -/
theorem atFill : RowAt 0x2A [] rowFill [] :=
  ⟨rfl, by decide, by decide, by decide, rfl, by decide, by decide⟩

theorem fill : ∀ d a b, Statement (.fill d a b) :=
  fun d a b => taskWord atFill rfl (fitFixed (fitOperand d (fitOperand a (fitOperand b (fitFixed (fitNil)))))) (by simp [rowFill]) (by decide) rfl rfl

/-- Where the row of slabmov stands. -/
theorem atSlabmov : RowAt 0x2B [] rowSlabmov [] :=
  ⟨rfl, by decide, by decide, by decide, rfl, by decide, by decide⟩

theorem slabmov : ∀ d a b, Statement (.slabmov d a b) :=
  fun d a b => taskWord atSlabmov rfl (fitFixed (fitOperand d (fitOperand a (fitOperand b (fitFixed (fitNil)))))) (by simp [rowSlabmov]) (by decide) rfl rfl

/-- Where the row of mdec stands. -/
theorem atMdec : RowAt 0x2C [] rowMdec [rowMrsz, rowMdecRst] :=
  ⟨rfl, by decide, by decide, by decide, rfl, by decide, by decide⟩

theorem mdec : ∀ d a b, Statement (.mdec d a b) :=
  fun d a b => taskWord atMdec rfl (fitFixed (fitOperand d (fitOperand a (fitOperand b (fitFixed (fitNil)))))) (by simp [rowMdec]) (by decide) rfl rfl

/-- Where the row of mrsz stands. -/
theorem atMrsz : RowAt 0x2C [rowMdec] rowMrsz [rowMdecRst] :=
  ⟨rfl, by decide, by decide, by decide, rfl, by decide, by decide⟩

theorem mrsz : ∀ d a b, Statement (.mrsz d a b) :=
  fun d a b => taskWord atMrsz rfl (fitFixed (fitOperand d (fitOperand a (fitOperand b (fitFixed (fitNil)))))) (by simp [rowMrsz]) (by decide) rfl rfl

/-- Where the row of mdecRst stands. -/
theorem atMdecRst : RowAt 0x2C [rowMdec, rowMrsz] rowMdecRst [] :=
  ⟨rfl, by decide, by decide, by decide, rfl, by decide, by decide⟩

theorem mdecRst : ∀ d a, Statement (.mdecRst d a) :=
  fun d a => taskWord atMdecRst rfl (fitFixed (fitOperand d (fitOperand a (fitFixed (fitNil))))) (by simp [rowMdecRst]) (by decide) rfl rfl

/-- Where the row of cred stands. -/
theorem atCred : RowAt 0x2D [] rowCred [rowCbcast, rowCredRst] :=
  ⟨rfl, by decide, by decide, by decide, rfl, by decide, by decide⟩

theorem cred : ∀ d a b, Statement (.cred d a b) :=
  fun d a b => taskWord atCred rfl (fitFixed (fitOperand d (fitOperand a (fitOperand b (fitFixed (fitNil)))))) (by simp [rowCred]) (by decide) rfl rfl

/-- Where the row of cbcast stands. -/
theorem atCbcast : RowAt 0x2D [rowCred] rowCbcast [rowCredRst] :=
  ⟨rfl, by decide, by decide, by decide, rfl, by decide, by decide⟩

theorem cbcast : ∀ d a b, Statement (.cbcast d a b) :=
  fun d a b => taskWord atCbcast rfl (fitFixed (fitOperand d (fitOperand a (fitOperand b (fitFixed (fitNil)))))) (by simp [rowCbcast]) (by decide) rfl rfl

/-- Where the row of credRst stands. -/
theorem atCredRst : RowAt 0x2D [rowCred, rowCbcast] rowCredRst [] :=
  ⟨rfl, by decide, by decide, by decide, rfl, by decide, by decide⟩

theorem credRst : ∀ d a, Statement (.credRst d a) :=
  fun d a => taskWord atCredRst rfl (fitFixed (fitOperand d (fitOperand a (fitFixed (fitNil))))) (by simp [rowCredRst]) (by decide) rfl rfl

/-- Where the row of tlwait stands. -/
theorem atTlwait : RowAt 0x2E [] rowTlwait [rowTlreadCount, rowTlreadStatus] :=
  ⟨rfl, by decide, by decide, by decide, rfl, by decide, by decide⟩

theorem tlwait : ∀ d a b t, Statement (.tlwait d a b t) :=
  fun d a b t => taskWord atTlwait rfl (fitFixed (fitOperand d (fitOperand a (fitOperand b (fitOperand t (fitFixed (fitNil))))))) (by simp [rowTlwait]) (by decide) rfl rfl

/-- Where the row of tlreadCount stands. -/
theorem atTlreadCount : RowAt 0x2E [rowTlwait] rowTlreadCount [rowTlreadStatus] :=
  ⟨rfl, by decide, by decide, by decide, rfl, by decide, by decide⟩

theorem tlreadCount : ∀ d a, Statement (.tlreadCount d a) :=
  fun d a => taskWord atTlreadCount rfl (fitFixed (fitOperand d (fitOperand a (fitFixed (fitNil))))) (by simp [rowTlreadCount]) (by decide) rfl rfl

/-- Where the row of tlreadStatus stands. -/
theorem atTlreadStatus : RowAt 0x2E [rowTlwait, rowTlreadCount] rowTlreadStatus [] :=
  ⟨rfl, by decide, by decide, by decide, rfl, by decide, by decide⟩

theorem tlreadStatus : ∀ d a, Statement (.tlreadStatus d a) :=
  fun d a => taskWord atTlreadStatus rfl (fitFixed (fitOperand d (fitOperand a (fitFixed (fitNil))))) (by simp [rowTlreadStatus]) (by decide) rfl rfl

/-- Where the row of strin stands. -/
theorem atStrin : RowAt 0x30 [] rowStrin [] :=
  ⟨rfl, by decide, by decide, by decide, rfl, by decide, by decide⟩

theorem strin : ∀ d a b x c, Statement (.strin d a b x c) :=
  fun d a b x c => controlWord atStrin rfl (fitFixed (fitOperand d (fitOperand a (fitOperand b (fitOperand x (fitFixed (fitOperand c (fitNil)))))))) (by simp [rowStrin]) (by decide) rfl rfl

/-- Where the row of strout stands. -/
theorem atStrout : RowAt 0x31 [] rowStrout [] :=
  ⟨rfl, by decide, by decide, by decide, rfl, by decide, by decide⟩

theorem strout : ∀ d a b x c, Statement (.strout d a b x c) :=
  fun d a b x c => controlWord atStrout rfl (fitFixed (fitOperand d (fitOperand a (fitOperand b (fitOperand x (fitFixed (fitOperand c (fitNil)))))))) (by simp [rowStrout]) (by decide) rfl rfl

/-- Where the row of launch stands. -/
theorem atLaunch : RowAt 0x32 [] rowLaunchRequest [] :=
  ⟨rfl, by decide, by decide, by decide, rfl, by decide, by decide⟩

theorem launch : ∀ d a b x, Statement (.launch d a b x) :=
  fun d a b x =>
    have hf : segsFit segsLaunchRequest [d.toNat, a.toNat, b.toNat, (x.setWidth 5).toNat, (0 : BitVec 5).toNat] = true :=
      fitFixed (fitOperand d (fitOperand a (fitOperand b (fitOperand (x.setWidth 5) (fitOperand 0 (fitNil))))))
    have hb : rowLaunchRequest.build [d.toNat, a.toNat, b.toNat, (x.setWidth 5).toNat, (0 : BitVec 5).toNat]
        = some (.launchRequest d a b (x.setWidth 5) 0) := by
      show some (Instr.launchRequest _ _ _ _ _) = _
      simp only [BitVec.ofNat_toNat, BitVec.setWidth_eq]
    steeringWord atLaunch rfl hf hb (by decide) (p := .control) rfl
      (outside_control (encode_mod atLaunch rfl hf) (by decide)) (by simp [legalOn, Instr.wf]) (by simp [forProc])

theorem launchRequest : ∀ d a b x c, Statement (.launchRequest d a b x c) :=
  fun d a b x c => taskWord atLaunch rfl (fitFixed (fitOperand d (fitOperand a (fitOperand b (fitOperand x (fitOperand c (fitNil))))))) (by simp [rowLaunchRequest]) (by decide) rfl rfl

/-- Where the row of barv stands. -/
theorem atBarv : RowAt 0x33 [] rowBarv [rowBarw] :=
  ⟨rfl, by decide, by decide, by decide, rfl, by decide, by decide⟩

theorem barv : ∀ d a b, Statement (.barv d a b) :=
  fun d a b => taskWord atBarv rfl (fitFixed (fitOperand d (fitOperand a (fitOperand b (fitFixed (fitNil)))))) (by simp [rowBarv]) (by decide) rfl rfl

/-- Where the row of barw stands. -/
theorem atBarw : RowAt 0x33 [rowBarv] rowBarw [] :=
  ⟨rfl, by decide, by decide, by decide, rfl, by decide, by decide⟩

theorem barw : ∀ d a b t, Statement (.barw d a b t) :=
  fun d a b t => taskWord atBarw rfl (fitFixed (fitOperand d (fitOperand a (fitOperand b (fitOperand t (fitFixed (fitNil))))))) (by simp [rowBarw]) (by decide) rfl rfl

/-- Where the row of garm stands. -/
theorem atGarm : RowAt 0x34 [] rowGarm [rowGarmOff] :=
  ⟨rfl, by decide, by decide, by decide, rfl, by decide, by decide⟩

theorem garm : ∀ a b, Statement (.garm a b) :=
  fun a b => taskWord atGarm rfl (fitFixed (fitFixed (fitOperand a (fitOperand b (fitFixed (fitNil)))))) (by simp [rowGarm]) (by decide) rfl rfl

/-- Where the row of garmOff stands. -/
theorem atGarmOff : RowAt 0x34 [rowGarm] rowGarmOff [] :=
  ⟨rfl, by decide, by decide, by decide, rfl, by decide, by decide⟩

theorem garmOff : ∀ d, Statement (.garmOff d) :=
  fun d => taskWord atGarmOff rfl (fitFixed (fitOperand d (fitFixed (fitNil)))) (by simp [rowGarmOff]) (by decide) rfl rfl

/-- Where the row of fqset stands. -/
theorem atFqset : RowAt 0x35 [] rowFqset [rowFqsetRd, rowFqsetAdv] :=
  ⟨rfl, by decide, by decide, by decide, rfl, by decide, by decide⟩

theorem fqset : ∀ a b q, Statement (.fqset a b q) :=
  fun a b q => controlWord atFqset rfl (fitFixed (fitFixed (fitOperand a (fitOperand b (fitOperand q (fitFixed (fitNil))))))) (by simp [rowFqset]) (by decide) rfl rfl

/-- Where the row of fqsetRd stands. -/
theorem atFqsetRd : RowAt 0x35 [rowFqset] rowFqsetRd [rowFqsetAdv] :=
  ⟨rfl, by decide, by decide, by decide, rfl, by decide, by decide⟩

theorem fqsetRd : ∀ d q, Statement (.fqsetRd d q) :=
  fun d q => controlWord atFqsetRd rfl (fitFixed (fitOperand d (fitFixed (fitOperand q (fitFixed (fitNil)))))) (by simp [rowFqsetRd]) (by decide) rfl rfl

/-- Where the row of fqsetAdv stands. -/
theorem atFqsetAdv : RowAt 0x35 [rowFqset, rowFqsetRd] rowFqsetAdv [] :=
  ⟨rfl, by decide, by decide, by decide, rfl, by decide, by decide⟩

theorem fqsetAdv : ∀ a q, Statement (.fqsetAdv a q) :=
  fun a q => controlWord atFqsetAdv rfl (fitFixed (fitFixed (fitOperand a (fitFixed (fitOperand q (fitFixed (fitNil))))))) (by simp [rowFqsetAdv]) (by decide) rfl rfl

/-- Where the row of hcall stands. -/
theorem atHcall : RowAt 0x39 [] rowHcall [rowHret, rowNap] :=
  ⟨rfl, by decide, by decide, by decide, rfl, by decide, by decide⟩

theorem hcall : Statement .hcall :=
  taskWord atHcall rfl (fitFixed (fitFixed (fitNil))) (by simp [rowHcall]) (by decide) rfl rfl

/-- Where the row of hret stands. -/
theorem atHret : RowAt 0x39 [rowHcall] rowHret [rowNap] :=
  ⟨rfl, by decide, by decide, by decide, rfl, by decide, by decide⟩

theorem hret : Statement .hret :=
  taskWord atHret rfl (fitFixed (fitFixed (fitNil))) (by simp [rowHret]) (by decide) rfl rfl

/-- Where the row of nap stands. -/
theorem atNap : RowAt 0x39 [rowHcall, rowHret] rowNap [] :=
  ⟨rfl, by decide, by decide, by decide, rfl, by decide, by decide⟩

theorem nap : Statement .nap :=
  taskWord atNap rfl (fitFixed (fitFixed (fitNil))) (by simp [rowNap]) (by decide) rfl rfl

/-- Where the row of brk stands. -/
theorem atBrk : RowAt 0x3A [] rowBrk [] :=
  ⟨rfl, by decide, by decide, by decide, rfl, by decide, by decide⟩

theorem brk : ∀ i, Statement (.brk i) :=
  fun i => taskWord atBrk rfl (fitFixed (fitFixed (fitOperand i (fitNil)))) (by simp [rowBrk]) (by decide) rfl rfl

end RoundTrip

end Sys2Proof.Laws
end

