-- ==== Sys2Proof/Tests/Slice0.lean ====
section
/-! SUPPORT. Tests: ill-formed terms, words of the spec's encodings, single steps, and a state and operands that meet the
hypotheses of each statement. Expected values come from the spec's tables and examples, or are worked out from its rules. -/

namespace Sys2Proof.Tests
open Sys2Proof Sys2Proof.Machine

/-! ## Ill-formed terms (Sys2Proof/WellFormed.lean) -/

/-- Each check refuses a term. -/
theorem test_ill_formed : ∀ i ∈ ([
    .vceq 0 1 2 0 0, .vcne 0 1 2 0 0, .vclt 0 1 2 0 0, .vcle 0 1 2 0 0, .vcgt 0 1 2 0 0, .vcge 0 1 2 0 0, .vcun 0 1 2 0 0,
    .vceqK 0 1 2 0 0, .vcneK 0 1 2 0 0, .vcltK 0 1 2 0 0, .vcleK 0 1 2 0 0, .vcgtK 0 1 2 0 0, .vcgeK 0 1 2 0 0,
    .vcunK 0 1 2 0 0, .vmand 0 1 2 0 0, .vmor 0 1 2 0 0, .vmxor 0 1 2 0 0, .vmandn 0 1 2 0 0, .vmnot 0 1 0 0, .vmset 0 0 0,
    .vmclr 0 0 0, .vcvt 1 2 14 0 0, .vqnt 1 2 14 0 0, .vdqnt 1 2 15 0 0, .vld2 1 0 7 0 0 0, .vst2 1 0 7 0 0 0,
    .vldslab 1 2 0 3 0 0, .vldslab 1 2 3 3 3 0, .vsett 0x0E, .vissue 0 1 0, .vwait 1 2 0 3 0, .vwait 1 2 3 3 1,
    .crget 1 0x00C, .crput 1 0x019, .crset 1 0x035, .crclr 1 0x07F, .amoswap 1 2 3 6 0 0, .amoadd 1 2 3 6 0 0,
    .amoand 1 2 3 7 0 0, .amoor 1 2 3 6 0 0, .amoxor 1 2 3 7 0 0, .amomax 1 2 3 6 0 0, .amomin 1 2 3 6 0 0,
    .amomaxu 1 2 3 7 0 0, .cas 1 2 3 6 0 0, .fence 6 1 1, .fence 0 0 1, .fence 0 1 0, .waitw 1 2 3 0 3 0] : List Instr),
    i.wf = false := by decide

/-- The word of an ill-formed term is ILLEGAL-WORD (R36). -/
theorem test_ill_formed_refused :
    decode .task (encode (.fence 6 1 1)) = .bad .illegalWord ∧ decode .convoy (encode (.vissue 0 1 0)) = .bad .illegalWord
    ∧ decode .convoy (encode (.vcvt 1 2 14 0 0)) = .bad .illegalWord := by decide

/-! ## Words printed in the spec -/

/-- Words printed in 02_encoding.md and 08_core_steering.md, with the operands of their "Fields" columns. -/
theorem test_printed_steering : ∀ x ∈ ([
    (.task, 0x000C5201, .add 4 5 6), (.task, 0x00203282, .addi 5 3 16), (.task, 0x00803392, .ldd 7 3 0 16),
    (.task, 0xFFC22494, .stw 9 2 1 0x1FF8), (.task, 0xFFF45319, .cjNe 6 5 0x7FFA), (.task, 0x00028F9E, .jal 31 40),
    (.task, 0x000A4020, .bpush 4 5), (.task, 0x00000025, .endTask), (.task, 0xFCCC23A4, .waitw 7 2 6 3 0 63),
    (.task, 0x00083426, .dcoll 8 3 4), (.task, 0x00060138, .crget 2 0x003), (.task, 0x40286038, .crput 6 0x014),
    (.task, 0x00007021, .dpush 7), (.task, 0x000004A2, .rpop 9), (.task, 0x00400523, .epopTry 10)]
    : List (Proc × IWord × Instr)), decode x.1 x.2.1 = .instr x.2.2 := by decide

/-- Words printed in 09_core_memory.md, 14_cluster.md, 16_die.md and 19_fabric.md. -/
theorem test_printed_memory_cluster : ∀ x ∈ ([
    (.task, 0x001E2210, .ldb 4 2 3 3), (.task, 0x3C8C2396, .amoadd 7 2 6 2 2 3), (.task, 0x0A523417, .cas 8 3 9 1 1 1),
    (.task, 0x3D400017, .fence 5 2 3), (.task, 0x104044AE, .tlreadStatus 9 4), (.control, 0x380A6530, .strin 10 6 5 0 7),
    (.control, 0x00949631, .strout 12 9 10 2 0), (.control, 0x00564632, .launch 12 4 11 1),
    (.task, 0x00564632, .launchRequest 12 4 11 1 0), (.control, 0x00800523, .epopMsg 10), (.control, 0x00CA4035, .fqset 4 5 3),
    (.control, 0x04C004B5, .fqsetRd 9 3), (.task, 0x000A44B3, .barv 9 4 5), (.task, 0x1FCC44B3, .barw 9 4 6 63),
    (.task, 0x000A4034, .garm 4 5), (.task, 0x100004B4, .garmOff 9)]
    : List (Proc × IWord × Instr)), decode x.1 x.2.1 = .instr x.2.2 := by decide

/-- Engine words printed in 16_die.md and 19_fabric.md. -/
theorem test_printed_engines : ∀ x ∈ ([
    (.task, 0x000A44A8, .copy 9 4 5), (.task, 0x040044A8, .copyRst 9 4), (.task, 0x000A44A9, .copy2 9 4 5),
    (.task, 0x000A44AA, .fill 9 4 5), (.task, 0x000A44AB, .slabmov 9 4 5), (.task, 0x000A44AC, .mdec 9 4 5),
    (.task, 0x004A44AC, .mrsz 9 4 5), (.task, 0x008044AC, .mdecRst 9 4), (.control, 0x000A44AD, .cred 9 4 5),
    (.control, 0x004A44AD, .cbcast 9 4 5), (.control, 0x008044AD, .credRst 9 4)]
    : List (Proc × IWord × Instr)), decode x.1 x.2.1 = .instr x.2.2 := by decide

/-- Vector words printed in 02_encoding.md, 03_plane.md and 05_convoy.md. -/
theorem test_printed_vector : ∀ x ∈ ([
    (0x0000206E, .vsett 0x01), (0x000A406E, .vsett 0x52), (0x00080140, .vfadd 2 0 1 0 0), (0x02080140, .vfadd 2 0 1 1 0),
    (0x00C00143, .vfaddK 2 0 0 3 0 0), (0x01FFE1D2, .vaddi 3 0xFFF 0 0), (0xA0184240, .vfmul 4 2 3 0 1), (0x0000007C, .vbend),
    (0x1080006E, .vlen 2), (0x1088E06E, .vlenShape 7 2), (0x20C0006E, .vsetmt 3), (0x2028006E, .vsetmtImm 1),
    (0x008002EC, .vdef 5 2), (0x00184342, .vfma 6 2 3 0 0), (0x00404344, .vfmaK 6 2 1 0 0), (0x10C80143, .vfsubK 2 0 1 3 0 0),
    (0x000083C5, .vfsqrt 7 4 0 0), (0x500081D4, .vsrli 3 4 0 0), (0x22080158, .vclt 2 0 1 1 0), (0x001021DA, .vmand 3 1 2 0 0),
    (0x0610225B, .vsel 4 1 2 3 0), (0x001041DC, .vcvt 3 2 2 0 0), (0x0000855D, .vqnt 10 4 0 0 0), (0x001022E0, .vgath 5 1 2 0 0),
    (0x20802362, .vlower 6 1 2 0 0), (0x04008461, .vfredsum 8 4 2 0)]
    : List (IWord × Instr)), decode .convoy x.1 = .instr x.2 := by decide

/-- Vector words printed in 05_convoy.md, 06_issue.md, 09_core_memory.md and 16_die.md. -/
theorem test_printed_scalars_memory : ∀ x ∈ ([
    (0x004800FD, .vkadd 1 64 1 0), (0x1040617D, .vkaddK 2 3 1 0), (0x200002FD, .vkpop 5 0), (0x3001227D, .vkget 4 9 0),
    (0x0080007E, .vkpush 2 0), (0x1008607E, .vmpushFirst 3 0), (0x020282F8, .vissue 5 20 1), (0x080181F9, .vcapp 3 12 4 0),
    (0x008801F9, .vcappK 3 2 0 0), (0x04C5157A, .vwait 42 40 0 3 2), (0x004000E4, .vld 1 0 1 0 0 0), (0x168102E4, .vld 5 8 2 3 1 0),
    (0x010000E5, .vst 1 0 4 0 0 0), (0x00800366, .vld2 6 0 2 0 0 0), (0x005123E8, .vldx 7 9 2 1 0 0 0),
    (0x007123E9, .vstx 7 9 6 1 0 0 0), (0x02A8C46A, .vldslab 8 6 5 2 1 0)]
    : List (IWord × Instr)), decode .convoy x.1 = .instr x.2 := by decide

/-- Words printed in 10_core_matrix.md, 11_core_ladder.md and 14_cluster.md. -/
theorem test_printed_matrix_ladder : ∀ x ∈ ([
    (0x00000071, .men 0), (0x10000071, .mdis 0), (0x20000171, .mzero 2 0), (0x30C00071, .mshape 3 0), (0x41000071, .mscl 4 0),
    (0x200004F2, .mextRect 9 0 0 0), (0x50506372, .minsCol 6 3 10 0 0), (0xA0000572, .mextRect 10 0 0 1), (0x00002074, .lstep 1 0),
    (0x10000674, .lblend 12 0), (0x00006375, .lrungLd 6 3 0), (0x10006375, .lrungSt 6 3 0), (0x20800375, .lrungLdK 6 2 0),
    (0x30800375, .lrungStK 6 2 0), (0x00400076, .lcfg 1 0), (0x10800076, .lstatCnt 2 0), (0x10880076, .lstatCarry 2 0),
    (0x20000076, .lreset 0), (0x0018407B, .gmma 0 2 3 0)]
    : List (IWord × Instr)), decode .convoy x.1 = .instr x.2 := by decide
theorem test_decode_steer_register_1 : ∀ x ∈ ([
    (.task, 0b00000000000101101000001010000001, .add 5 8 11),
    (.task, 0b00000000010101101000001010000001, .sub 5 8 11),
    (.task, 0b00000000100101101000001010000001, .and 5 8 11),
    (.task, 0b00000000110101101000001010000001, .or 5 8 11),
    (.task, 0b00000001000101101000001010000001, .xor 5 8 11),
    (.task, 0b00000001010101101000001010000001, .sll 5 8 11),
    (.task, 0b00000001100101101000001010000001, .srl 5 8 11),
    (.task, 0b00000001110101101000001010000001, .sra 5 8 11),
    (.task, 0b00000010000101101000001010000001, .slt 5 8 11),
    (.task, 0b00000010010101101000001010000001, .sltn 5 8 11),
    (.task, 0b00000010100101101000001010000001, .mul 5 8 11),
    (.task, 0b00000010110101101000001010000001, .mulhs 5 8 11),
    (.task, 0b00000011000101101000001010000001, .mulhn 5 8 11),
    (.task, 0b00000011010101101000001010000001, .div 5 8 11)] : List (Proc × IWord × Instr)),
    decode x.1 x.2.1 = .instr x.2.2 := by decide

theorem test_decode_steer_register_2 : ∀ x ∈ ([
    (.task, 0b00000011100101101000001010000001, .divn 5 8 11),
    (.task, 0b00000011110101101000001010000001, .rem 5 8 11),
    (.task, 0b00000100000101101000001010000001, .remn 5 8 11)] : List (Proc × IWord × Instr)),
    decode x.1 x.2.1 = .instr x.2.2 := by decide

theorem test_decode_steer_immediate : ∀ x ∈ ([
    (.task, 0b00000010110110101000001010000010, .addi 5 8 365),
    (.task, 0b00000010110110101000001010000011, .andi 5 8 365),
    (.task, 0b00000010110110101000001010000100, .ori 5 8 365),
    (.task, 0b00000010110110101000001010000101, .xori 5 8 365),
    (.task, 0b00000000000101101000001010000110, .slli 5 8 11),
    (.task, 0b00000000100101101000001010000110, .srli 5 8 11),
    (.task, 0b00000001000101101000001010000110, .srai 5 8 11),
    (.task, 0b00000010110110101000001010000111, .slti 5 8 365),
    (.task, 0b00000010110110101000001010001000, .sltin 5 8 365),
    (.task, 0b00000000000101101010001010001001, .lui 5 362)] : List (Proc × IWord × Instr)),
    decode x.1 x.2.1 = .instr x.2.2 := by decide

theorem test_decode_steer_fields : ∀ x ∈ ([
    (.task, 0b00000010110000001000001010001010, .sext 5 8 11),
    (.task, 0b00010010110000001000001010001010, .zext 5 8 11),
    (.task, 0b00100011100101101000001010001010, .extr 5 8 11 14),
    (.task, 0b00110011100101101000001010001010, .ins 5 8 11 14),
    (.task, 0b01000000000000001000001010001010, .clz 5 8),
    (.task, 0b01010000000000001000001010001010, .ctz 5 8),
    (.task, 0b01100000000000001000001010001010, .popc 5 8)] : List (Proc × IWord × Instr)),
    decode x.1 x.2.1 = .instr x.2.2 := by decide

theorem test_decode_steer_memory_1 : ∀ x ∈ ([
    (.task, 0b00001011100000101000001010010000, .ldb 5 8 1 368),
    (.task, 0b00001011100000101000001010010001, .ldw 5 8 1 368),
    (.task, 0b00001011100000101000001010010010, .ldd 5 8 1 368),
    (.task, 0b00001011100000101000001010010011, .stb 5 8 1 368),
    (.task, 0b00001011100000101000001010010100, .stw 5 8 1 368),
    (.task, 0b00001011100000101000001010010101, .std 5 8 1 368),
    (.task, 0b00011101010101101000001010010110, .amoswap 5 8 11 5 2 3),
    (.task, 0b00111101010101101000001010010110, .amoadd 5 8 11 5 2 3),
    (.task, 0b01011101010101101000001010010110, .amoand 5 8 11 5 2 3),
    (.task, 0b01111101010101101000001010010110, .amoor 5 8 11 5 2 3),
    (.task, 0b10011101010101101000001010010110, .amoxor 5 8 11 5 2 3),
    (.task, 0b10111101010101101000001010010110, .amomax 5 8 11 5 2 3),
    (.task, 0b11011101010101101000001010010110, .amomin 5 8 11 5 2 3),
    (.task, 0b11111101010101101000001010010110, .amomaxu 5 8 11 5 2 3)] : List (Proc × IWord × Instr)),
    decode x.1 x.2.1 = .instr x.2.2 := by decide

theorem test_decode_steer_memory_2 : ∀ x ∈ ([
    (.task, 0b00011101010101101000001010010111, .cas 5 8 11 5 2 3),
    (.task, 0b00110011010000000000000000010111, .fence 5 1 2)] : List (Proc × IWord × Instr)),
    decode x.1 x.2.1 = .instr x.2.2 := by decide

theorem test_decode_steer_jumps : ∀ x ∈ ([
    (.task, 0b00000010110110101000001010011000, .cjEq 5 8 365),
    (.task, 0b00000010110110101000001010011001, .cjNe 5 8 365),
    (.task, 0b00000010110110101000001010011010, .cjLt 5 8 365),
    (.task, 0b00000010110110101000001010011011, .cjGe 5 8 365),
    (.task, 0b00000010110110101000001010011100, .cjLtn 5 8 365),
    (.task, 0b00000010110110101000001010011101, .cjGen 5 8 365),
    (.task, 0b00000000000101101010001010011110, .jal 5 362),
    (.task, 0b00000000000000001000001010011111, .jr 5 8)] : List (Proc × IWord × Instr)),
    decode x.1 x.2.1 = .instr x.2.2 := by decide

theorem test_decode_steer_queues_engines_1 : ∀ x ∈ ([
    (.task, 0b00000000000100000101000000100000, .bpush 5 8),
    (.task, 0b00000000000000000101000000100001, .dpush 5),
    (.task, 0b00000000000000000000001010100010, .rpop 5),
    (.task, 0b00000000000000000000001010100011, .epop 5),
    (.task, 0b00000000010000000000001010100011, .epopTry 5),
    (.control, 0b00000000100000000000001010100011, .epopMsg 5),
    (.control, 0b00000000110000000000001010100011, .epopMsgTry 5),
    (.task, 0b01010001100101101000001010100100, .waitw 5 8 11 2 1 20),
    (.task, 0b00000000000000000000000000100101, .endTask),
    (.task, 0b00000000000101101000001010100110, .dcoll 5 8 11),
    (.task, 0b00000000000101101000001010101000, .copy 5 8 11),
    (.task, 0b00000100000000001000001010101000, .copyRst 5 8),
    (.task, 0b00000000000101101000001010101001, .copy2 5 8 11),
    (.task, 0b00000000000101101000001010101010, .fill 5 8 11)] : List (Proc × IWord × Instr)),
    decode x.1 x.2.1 = .instr x.2.2 := by decide

theorem test_decode_steer_queues_engines_2 : ∀ x ∈ ([
    (.task, 0b00000000000101101000001010101011, .slabmov 5 8 11),
    (.task, 0b00000000000101101000001010101100, .mdec 5 8 11),
    (.task, 0b00000000010101101000001010101100, .mrsz 5 8 11),
    (.task, 0b00000000100000001000001010101100, .mdecRst 5 8),
    (.task, 0b00000000000101101000001010101101, .cred 5 8 11),
    (.task, 0b00000000010101101000001010101101, .cbcast 5 8 11),
    (.task, 0b00000000100000001000001010101101, .credRst 5 8),
    (.task, 0b00000011100101101000001010101110, .tlwait 5 8 11 14),
    (.task, 0b00010000000000001000001010101110, .tlreadCount 5 8),
    (.task, 0b00010000010000001000001010101110, .tlreadStatus 5 8),
    (.control, 0b10001001010101101000001010110000, .strin 5 8 11 5 17),
    (.control, 0b10001001010101101000001010110001, .strout 5 8 11 5 17),
    (.control, 0b00000001010101101000001010110010, .launch 5 8 11 5),
    (.task, 0b00000001010101101000001010110010, .launchRequest 5 8 11 5 0), (.task, 0b10001101010101101000001010110010, .launchRequest 5 8 11 21 17)] : List (Proc × IWord × Instr)),
    decode x.1 x.2.1 = .instr x.2.2 := by decide

theorem test_decode_steer_queues_engines_3 : ∀ x ∈ ([
    (.task, 0b00000000000101101000001010110011, .barv 5 8 11),
    (.task, 0b00010011100101101000001010110011, .barw 5 8 11 14),
    (.task, 0b00000000000100000101000000110100, .garm 5 8),
    (.task, 0b00010000000000000000001010110100, .garmOff 5),
    (.control, 0b00000001000100000101000000110101, .fqset 5 8 4),
    (.control, 0b00000100110000000000001010110101, .fqsetRd 5 3),
    (.control, 0b00001000110000000101000000110101, .fqsetAdv 5 3)] : List (Proc × IWord × Instr)),
    decode x.1 x.2.1 = .instr x.2.2 := by decide

theorem test_decode_steer_control : ∀ x ∈ ([
    (.task, 0b00000000010110000000001010111000, .crget 5 44),
    (.task, 0b01000000010110000101000000111000, .crput 5 44),
    (.task, 0b10000000010110000101000000111000, .crset 5 44),
    (.task, 0b11000000010110000101000000111000, .crclr 5 44),
    (.task, 0b00000000000000000000000000111001, .hcall),
    (.task, 0b00000000010000000000000000111001, .hret),
    (.task, 0b00000000100000000000000000111001, .nap),
    (.task, 0b00000010110011100000000000111010, .brk 359)] : List (Proc × IWord × Instr)),
    decode x.1 x.2.1 = .instr x.2.2 := by decide

theorem test_decode_float_1 : ∀ x ∈ ([
    (.convoy, 0b10001010010110010000001011000000, .vfadd 5 8 11 5 1),
    (.convoy, 0b10011010010110010000001011000000, .vfsub 5 8 11 5 1),
    (.convoy, 0b10101010010110010000001011000000, .vfmul 5 8 11 5 1),
    (.convoy, 0b10111010010110010000001011000000, .vfmin 5 8 11 5 1),
    (.convoy, 0b11001010010110010000001011000000, .vfmax 5 8 11 5 1),
    (.convoy, 0b11011010010110010000001011000000, .vfdiv 5 8 11 5 1),
    (.convoy, 0b10001000000000010000001011000001, .vfneg 5 8 4 1),
    (.convoy, 0b10011000000000010000001011000001, .vfabs 5 8 4 1),
    (.convoy, 0b10101010010110010000001011000001, .vfcpys 5 8 11 5 1),
    (.convoy, 0b10111010010110010000001011000001, .vfcpysn 5 8 11 5 1),
    (.convoy, 0b11001000000000010000001011000001, .vfkind 5 8 4 1),
    (.convoy, 0b10001010010110010000001011000010, .vfma 5 8 11 5 1),
    (.convoy, 0b10011010010110010000001011000010, .vfnma 5 8 11 5 1),
    (.convoy, 0b10101010010110010000001011000010, .vfms 5 8 11 5 1)] : List (Proc × IWord × Instr)),
    decode x.1 x.2.1 = .instr x.2.2 := by decide

theorem test_decode_float_2 : ∀ x ∈ ([
    (.convoy, 0b10111010010110010000001011000010, .vfnms 5 8 11 5 1),
    (.convoy, 0b10001000000000010000001011000101, .vfsqrt 5 8 4 1),
    (.convoy, 0b10011000000000010000001011000101, .vfrsqrt 5 8 4 1),
    (.convoy, 0b10101000000000010000001011000101, .vfrcp 5 8 4 1),
    (.convoy, 0b10111000000000010000001011000101, .vfexp2 5 8 4 1),
    (.convoy, 0b11001000000000010000001011000101, .vflog2 5 8 4 1),
    (.convoy, 0b11011000000000010000001011000101, .vfsinpi 5 8 4 1),
    (.convoy, 0b11101000000000010000001011000101, .vftanh 5 8 4 1),
    (.convoy, 0b11111000000000010000001011000101, .vfsigm 5 8 4 1)] : List (Proc × IWord × Instr)),
    decode x.1 x.2.1 = .instr x.2.2 := by decide

theorem test_decode_float_scalar : ∀ x ∈ ([
    (.convoy, 0b10001101010010010000001011000011, .vfaddK 5 8 1 5 6 1),
    (.convoy, 0b10011101010010010000001011000011, .vfsubK 5 8 1 5 6 1),
    (.convoy, 0b10101101010010010000001011000011, .vfmulK 5 8 1 5 6 1),
    (.convoy, 0b10111101010010010000001011000011, .vfminK 5 8 1 5 6 1),
    (.convoy, 0b11001101010010010000001011000011, .vfmaxK 5 8 1 5 6 1),
    (.convoy, 0b11011101010010010000001011000011, .vfdivK 5 8 1 5 6 1),
    (.convoy, 0b10001011000000010000001011000100, .vfmaK 5 8 4 5 1),
    (.convoy, 0b10011011000000010000001011000100, .vfnmaK 5 8 4 5 1),
    (.convoy, 0b10101011000000010000001011000100, .vfmsK 5 8 4 5 1),
    (.convoy, 0b10111011000000010000001011000100, .vfnmsK 5 8 4 5 1)] : List (Proc × IWord × Instr)),
    decode x.1 x.2.1 = .instr x.2.2 := by decide

theorem test_decode_integer : ∀ x ∈ ([
    (.convoy, 0b10001010010110010000001011010000, .vadd 5 8 11 5 1),
    (.convoy, 0b10011010010110010000001011010000, .vsub 5 8 11 5 1),
    (.convoy, 0b10101010010110010000001011010000, .vmul 5 8 11 5 1),
    (.convoy, 0b10111010010110010000001011010000, .vmin 5 8 11 5 1),
    (.convoy, 0b11001010010110010000001011010000, .vmax 5 8 11 5 1),
    (.convoy, 0b11011010010110010000001011010000, .vdiv 5 8 11 5 1),
    (.convoy, 0b11101010010110010000001011010000, .vrem 5 8 11 5 1)] : List (Proc × IWord × Instr)),
    decode x.1 x.2.1 = .instr x.2.2 := by decide

theorem test_decode_integer_scalar : ∀ x ∈ ([
    (.convoy, 0b10001101010010010000001011010001, .vaddK 5 8 1 5 6 1),
    (.convoy, 0b10011101010010010000001011010001, .vsubK 5 8 1 5 6 1),
    (.convoy, 0b10101101010010010000001011010001, .vmulK 5 8 1 5 6 1),
    (.convoy, 0b10111101010010010000001011010001, .vminK 5 8 1 5 6 1),
    (.convoy, 0b11001101010010010000001011010001, .vmaxK 5 8 1 5 6 1),
    (.convoy, 0b11011101010010010000001011010001, .vdivK 5 8 1 5 6 1),
    (.convoy, 0b11101101010010010000001011010001, .vremK 5 8 1 5 6 1),
    (.convoy, 0b10001000001011010100001011010010, .vaddi 5 362 4 1),
    (.convoy, 0b10011000001011010100001011010010, .vrsubi 5 362 4 1),
    (.convoy, 0b10101000001011010100001011010010, .vmuli 5 362 4 1),
    (.convoy, 0b10111000001011010100001011010010, .vmini 5 362 4 1),
    (.convoy, 0b11001000001011010100001011010010, .vmaxi 5 362 4 1)] : List (Proc × IWord × Instr)),
    decode x.1 x.2.1 = .instr x.2.2 := by decide

theorem test_decode_bits_1 : ∀ x ∈ ([
    (.convoy, 0b10001010010110010000001011010011, .vand 5 8 11 5 1),
    (.convoy, 0b10011010010110010000001011010011, .vor 5 8 11 5 1),
    (.convoy, 0b10101010010110010000001011010011, .vxor 5 8 11 5 1),
    (.convoy, 0b10111010010110010000001011010011, .vandn 5 8 11 5 1),
    (.convoy, 0b11001010010110010000001011010011, .vsll 5 8 11 5 1),
    (.convoy, 0b11011010010110010000001011010011, .vsrl 5 8 11 5 1),
    (.convoy, 0b11101010010110010000001011010011, .vsra 5 8 11 5 1),
    (.convoy, 0b11111000000000010000001011010011, .vmov 5 8 4 1),
    (.convoy, 0b10001000001011010100001011010100, .vandi 5 362 4 1),
    (.convoy, 0b10011000001011010100001011010100, .vori 5 362 4 1),
    (.convoy, 0b10101000001011010100001011010100, .vxori 5 362 4 1),
    (.convoy, 0b10111000001011010100001011010100, .vli 5 362 4 1),
    (.convoy, 0b11001000000000010000001011010100, .vslli 5 8 4 1),
    (.convoy, 0b11011000000000010000001011010100, .vsrli 5 8 4 1)] : List (Proc × IWord × Instr)),
    decode x.1 x.2.1 = .instr x.2.2 := by decide

theorem test_decode_bits_2 : ∀ x ∈ ([
    (.convoy, 0b11101000000000010000001011010100, .vsrai 5 8 4 1),
    (.convoy, 0b10001010010110010000001011010101, .vsadd 5 8 11 5 1),
    (.convoy, 0b10011010010110010000001011010101, .vssub 5 8 11 5 1),
    (.convoy, 0b10101010010110010000001011010101, .vmulh 5 8 11 5 1),
    (.convoy, 0b10111010010110010000001011010101, .vavg 5 8 11 5 1)] : List (Proc × IWord × Instr)),
    decode x.1 x.2.1 = .instr x.2.2 := by decide

theorem test_decode_compare : ∀ x ∈ ([
    (.convoy, 0b10001010010110010000000101011000, .vceq 2 8 11 5 1),
    (.convoy, 0b10011010010110010000000101011000, .vcne 2 8 11 5 1),
    (.convoy, 0b10101010010110010000000101011000, .vclt 2 8 11 5 1),
    (.convoy, 0b10111010010110010000000101011000, .vcle 2 8 11 5 1),
    (.convoy, 0b11001010010110010000000101011000, .vcgt 2 8 11 5 1),
    (.convoy, 0b11011010010110010000000101011000, .vcge 2 8 11 5 1),
    (.convoy, 0b11101010010110010000000101011000, .vcun 2 8 11 5 1),
    (.convoy, 0b10001011000000010000000101011001, .vceqK 2 8 4 5 1),
    (.convoy, 0b10011011000000010000000101011001, .vcneK 2 8 4 5 1),
    (.convoy, 0b10101011000000010000000101011001, .vcltK 2 8 4 5 1),
    (.convoy, 0b10111011000000010000000101011001, .vcleK 2 8 4 5 1),
    (.convoy, 0b11001011000000010000000101011001, .vcgtK 2 8 4 5 1),
    (.convoy, 0b11011011000000010000000101011001, .vcgeK 2 8 4 5 1),
    (.convoy, 0b11101011000000010000000101011001, .vcunK 2 8 4 5 1)] : List (Proc × IWord × Instr)),
    decode x.1 x.2.1 = .instr x.2.2 := by decide

theorem test_decode_masks_conversions : ∀ x ∈ ([
    (.convoy, 0b10001010001000000110000101011010, .vmand 2 3 4 5 1),
    (.convoy, 0b10011010001000000110000101011010, .vmor 2 3 4 5 1),
    (.convoy, 0b10101010001000000110000101011010, .vmxor 2 3 4 5 1),
    (.convoy, 0b10111010001000000110000101011010, .vmandn 2 3 4 5 1),
    (.convoy, 0b11001000000000000110000101011010, .vmnot 2 3 4 1),
    (.convoy, 0b11010110000000000000000101011010, .vmset 2 3 1),
    (.convoy, 0b11100110000000000000000101011010, .vmclr 2 3 1),
    (.convoy, 0b10001010010110010000001011011011, .vsel 5 8 11 5 1),
    (.convoy, 0b10011000000000010000001011011011, .vselz 5 8 4 1),
    (.convoy, 0b10001010010010010000001011011100, .vcvt 5 8 9 5 1),
    (.convoy, 0b10001010010010010000001011011101, .vqnt 5 8 9 5 1),
    (.convoy, 0b10011010010010010000001011011101, .vdqnt 5 8 9 5 1)] : List (Proc × IWord × Instr)),
    decode x.1 x.2.1 = .instr x.2.2 := by decide

theorem test_decode_permute_reduce : ∀ x ∈ ([
    (.convoy, 0b10001010010110010000001011100000, .vgath 5 8 11 5 1),
    (.convoy, 0b10011010010110010000001011100000, .vhead 5 8 11 5 1),
    (.convoy, 0b10101010010110010000001011100000, .vtail 5 8 11 5 1),
    (.convoy, 0b10111000000000010000001011100000, .vbcast 5 8 4 1),
    (.convoy, 0b10001000000000010000001011100001, .vfredsum 5 8 4 1),
    (.convoy, 0b10011000000000010000001011100001, .vfredsumw 5 8 4 1),
    (.convoy, 0b10101000000000010000001011100001, .vfredmax 5 8 4 1),
    (.convoy, 0b10111000000000010000001011100001, .vfredmin 5 8 4 1),
    (.convoy, 0b11001000000000010000001011100001, .vredsum 5 8 4 1),
    (.convoy, 0b11011000000000010000001011100001, .vredmax 5 8 4 1),
    (.convoy, 0b11101000000000010000001011100001, .vredmin 5 8 4 1),
    (.convoy, 0b10011011000000010000001011100010, .vraise 5 8 4 5 1),
    (.convoy, 0b10101011000000010000001011100010, .vlower 5 8 4 5 1),
    (.convoy, 0b10111000110000000000001011100010, .vbcastk 5 3 4 1)] : List (Proc × IWord × Instr)),
    decode x.1 x.2.1 = .instr x.2.2 := by decide

theorem test_decode_vector_memory : ∀ x ∈ ([
    (.convoy, 0b10011011001011010100001011100100, .vld 5 362 4 5 1 1),
    (.convoy, 0b10011011001011010100001011100101, .vst 5 362 4 5 1 1),
    (.convoy, 0b10011011011011010100001011100110, .vld2 5 362 5 5 1 1),
    (.convoy, 0b10011011011011010100001011100111, .vst2 5 362 5 5 1 1),
    (.convoy, 0b10011101011000010000001011101000, .vldx 5 8 4 5 6 1 1),
    (.convoy, 0b10011101011000010000001011101001, .vstx 5 8 4 5 6 1 1),
    (.convoy, 0b10001101011000010000001011101010, .vldslab 5 8 4 5 6 1)] : List (Proc × IWord × Instr)),
    decode x.1 x.2.1 = .instr x.2.2 := by decide

theorem test_decode_settings_scalars_1 : ∀ x ∈ ([
    (.convoy, 0b00000000110000000000001011101100, .vdef 5 3),
    (.convoy, 0b00000000100000000000000001101101, .vtld 2),
    (.convoy, 0b00010000100000000000000001101101, .vtst 2),
    (.convoy, 0b00000000000101100100000001101110, .vsett 178),
    (.convoy, 0b00010000100000000000000001101110, .vlen 2),
    (.convoy, 0b00010000110010001010000001101110, .vlenShape 5 3),
    (.convoy, 0b00100000100000000000000001101110, .vsetmt 2),
    (.convoy, 0b00100000001100000000000001101110, .vsetmtImm 2),
    (.convoy, 0b00000000000000000000000001111100, .vbend),
    (.convoy, 0b10000001001011010100000101111101, .vkadd 2 362 4 1),
    (.convoy, 0b10010001000000000110000101111101, .vkaddK 2 3 4 1),
    (.convoy, 0b10100000000000000000000101111101, .vkpop 2 1),
    (.convoy, 0b10110000000000010000000101111101, .vkget 2 8 1),
    (.convoy, 0b10000000100000000000000001111110, .vkpush 2 1)] : List (Proc × IWord × Instr)),
    decode x.1 x.2.1 = .instr x.2.2 := by decide

theorem test_decode_settings_scalars_2 : ∀ x ∈ ([
    (.convoy, 0b10010000000000000100000001111110, .vmpushCount 2 1),
    (.convoy, 0b10010000000010000100000001111110, .vmpushFirst 2 1)] : List (Proc × IWord × Instr)),
    decode x.1 x.2.1 = .instr x.2.2 := by decide

theorem test_decode_matrix : ∀ x ∈ ([
    (.convoy, 0b10000000010110010000000101110000, .mma 2 8 11 1),
    (.convoy, 0b10010000010110010000000101110000, .mmas 2 8 11 1),
    (.convoy, 0b10000000000000000000000001110001, .men 1),
    (.convoy, 0b10010000000000000000000001110001, .mdis 1),
    (.convoy, 0b10100000000000000000000101110001, .mzero 2 1),
    (.convoy, 0b10110000100000000000000001110001, .mshape 2 1),
    (.convoy, 0b11000000100000000000000001110001, .mscl 2 1),
    (.convoy, 0b10001010010110000110001011110010, .mextRow 5 3 11 5 1),
    (.convoy, 0b10011010010110000110001011110010, .mextCol 5 3 11 5 1),
    (.convoy, 0b10101000000000000110001011110010, .mextRect 5 3 4 1),
    (.convoy, 0b11001010010110000110001011110010, .minsRow 5 3 11 5 1),
    (.convoy, 0b11011010010110000110001011110010, .minsCol 5 3 11 5 1),
    (.convoy, 0b11101000000000000110001011110010, .minsRect 5 3 4 1)] : List (Proc × IWord × Instr)),
    decode x.1 x.2.1 = .instr x.2.2 := by decide

theorem test_decode_ladder : ∀ x ∈ ([
    (.convoy, 0b10000000000000000100000001110100, .lstep 2 1),
    (.convoy, 0b10010000000000000000001011110100, .lblend 5 1),
    (.convoy, 0b10000000000000010000001011110101, .lrungLd 5 8 1),
    (.convoy, 0b10010000000000010000001011110101, .lrungSt 5 8 1),
    (.convoy, 0b10100000110000000000001011110101, .lrungLdK 5 3 1),
    (.convoy, 0b10110000110000000000001011110101, .lrungStK 5 3 1),
    (.convoy, 0b10000000100000000000000001110110, .lcfg 2 1),
    (.convoy, 0b10010000100000000000000001110110, .lstatCnt 2 1),
    (.convoy, 0b10010000100010000000000001110110, .lstatCarry 2 1),
    (.convoy, 0b10100000000000000000000001110110, .lreset 1)] : List (Proc × IWord × Instr)),
    decode x.1 x.2.1 = .instr x.2.2 := by decide

theorem test_decode_issue_feed_gang : ∀ x ∈ ([
    (.convoy, 0b00001000000000010000000101111000, .vissue 2 8 4),
    (.convoy, 0b10001000000000010000000101111001, .vcapp 2 8 4 1),
    (.convoy, 0b10001000110010000000000101111001, .vcappK 2 3 4 1),
    (.convoy, 0b00001101010100010000001011111010, .vwait 5 8 2 5 6),
    (.convoy, 0b10000000010110010000000101111011, .gmma 2 8 11 1)] : List (Proc × IWord × Instr)),
    decode x.1 x.2.1 = .instr x.2.2 := by decide
/-! ## States -/

/-- A task core that runs a task, its steering stream to move. -/
def task : State := { State.reset with agent := .steer, core := { Core.reset with run := .running } }

/-- A control core to move. -/
def control : State := { State.reset with agent := .control, pkg := { Pkg.reset with bootState := 2 } }

/-- The same state, in supervisor mode. -/
def super (s : State) : State := s.modCur (fun c => { c with mode := true })

/-- Two registers given: s2 and s3. -/
def with23 (x y : Nat) (s : State) : State := writeReg 3 (.ofNat 64 y) (writeReg 2 (.ofNat 64 x) s)

/-- The first GiB of GLOB addresses lies on the first GiB of this package's HBM, in every TLB. -/
def mapped (s : State) : State :=
  let e : TlbEntry := ⟨0, 0, 30, .ofNat 64 (0xFFF * 2 ^ 42 + 7)⟩
  { s with core := { s.core with tlbS := [e], tlbV := [e] }, cluster := { s.cluster with tlb := [e] } }

/-- The key of a GLOB address of the mapped GiB. -/
def globKey (a : Nat) : Nat := 0xFFF * 2 ^ 42 + a

/-- The state after an instruction. -/
def after (i : Instr) (s : State) : State :=
  match exec i s with
  | .next t => t
  | _ => s

/-! ## Single steps, by the rules' own numbers -/

/-- R170: −2^63 / −1 is 2^63 − 1 with remainder 0; a division by zero gives the nearest quotient, and the dividend. -/
theorem test_division_corners :
    readReg 1 (after (.div 1 2 3) (with23 (2 ^ 63) (2 ^ 64 - 1) task)) = 0x7FFFFFFFFFFFFFFF
    ∧ readReg 1 (after (.rem 1 2 3) (with23 (2 ^ 63) (2 ^ 64 - 1) task)) = 0
    ∧ readReg 1 (after (.div 1 2 3) (with23 (2 ^ 64 - 5) 0 task)) = 0x8000000000000000
    ∧ readReg 1 (after (.divn 1 2 3) (with23 7 0 task)) = 0xFFFFFFFFFFFFFFFF
    ∧ readReg 1 (after (.rem 1 2 3) (with23 7 0 task)) = 7 := by decide

/-- R170: MULHS and MULHN of 2^64 − 1 by itself; SRA fills with the sign. -/
theorem test_product_high :
    readReg 1 (after (.mulhs 1 2 3) (with23 (2 ^ 64 - 1) (2 ^ 64 - 1) task)) = 0
    ∧ readReg 1 (after (.mulhn 1 2 3) (with23 (2 ^ 64 - 1) (2 ^ 64 - 1) task)) = 0xFFFFFFFFFFFFFFFE
    ∧ readReg 1 (after (.sra 1 2 3) (with23 (2 ^ 63) 66 task)) = 0xE000000000000000 := by decide

/-- R171: SLTIN compares with the sign-extended immediate as unsigned; ORI extends by zeros. -/
theorem test_immediates :
    readReg 1 (after (.sltin 1 2 0x7FFF) (with23 5 0 task)) = 1
    ∧ readReg 1 (after (.ori 1 2 0x7FFF) (with23 0 0 task)) = 0x7FFF
    ∧ readReg 1 (after (.addi 1 2 0x7FFF) (with23 0 0 task)) = 0xFFFFFFFFFFFFFFFF := by decide

/-- R174: EXTR reads 0 above bit 63; INS stops at bit 63; CLZ of 0 is 64. -/
theorem test_fields :
    readReg 1 (after (.extr 1 2 3 11) (with23 (2 ^ 63) 60 task)) = 8
    ∧ readReg 2 (after (.ins 2 3 3 7) (with23 0 61 task)) = 0xA000000000000000
    ∧ readReg 1 (after (.clz 1 2) task) = 64 := by decide

/-- R177: JR reads sa before it writes sd, and clears bits 1:0. -/
theorem test_jr_same_register :
    (after (.jr 2 2) (with23 0x107 0 task)).cur.pc = 0x104 ∧ readReg 2 (after (.jr 2 2) (with23 0x107 0 task)) = 4 := by decide

/-- R167: a write of s0 is discarded. -/
theorem test_zero_register : readReg 0 (after (.addi 0 0 5) task) = 0 := by decide

/-- R196, R200: HCALL saves the next word's address, and enters the handler at TVEC. -/
theorem test_hcall :
    let t := after .hcall (task.modCur (fun c => { c with pc := 0x40, tvec := 0x80 }))
    t.cur.pc = 0x80 ∧ t.cur.epc = 0x44 ∧ t.cur.causeCode = 0x32 ∧ t.cur.mode = true ∧ t.cur.chalt = true := by decide

/-- R215: bytes stand with the lowest at the lowest address; a load extends by zeros. -/
theorem test_little_endian :
    readReg 1 (after (.ldb 1 0 0 1) (after (.stw 2 0 0 0) (with23 0x11223380 0 task))) = 0x33 := by decide

/-- R217: AMOMAX compares as signed, AMOMAXU as unsigned. -/
theorem test_amo_max :
    readMem (after (.amomax 1 0 2 0 0 0) (with23 (2 ^ 64 - 1) 0 task)) (spaceKey task 0 0) 8 = 0
    ∧ readMem (after (.amomaxu 1 0 2 0 0 0) (with23 (2 ^ 64 - 1) 0 task)) (spaceKey task 0 0) 8 = 2 ^ 64 - 1 := by decide

/-! ## Witnesses: encoding and integer words -/

/-- DecodeOfEncode: a word of each processor. -/
theorem test_witness_decode_of_encode : ∀ i ∈ ([.add 31 0 31, .vadd 63 0 63 7 1, .strin 31 1 2 15 31, .epopMsg 0] : List Instr),
    i.isWord = true ∧ i.wf = true := by decide

/-- EncodeOfDecode. -/
theorem test_witness_encode_of_decode : decode .task 0x004C5201 = .instr (.sub 4 5 6) := by decide

/-- RejectedWords: words for each premise, at the ends of the opcode ranges. -/
theorem test_witness_rejected_words : ∀ n ∈ [0x00000001, 0x0000003F, 0x00000040, 0xFFFFFF7E, 0x00000030, 0x00000031,
    0x00000035, 0x00000020, 0x00000021, 0x00000022, 0x00000025, 0x00000034],
    (BitVec.ofNat 32 n) ≠ 0 ∧ (BitVec.ofNat 32 n) ≠ 0xFFFFFFFF ∧ (BitVec.ofNat 32 n).toNat % 128 ≠ 0x7F := by decide

/-- RegisterWords and IntegerFrame: each three-register word has a result. -/
theorem test_witness_register_words : ∀ i ∈ ([
    .add 1 2 3, .sub 1 2 3, .and 1 2 3, .or 1 2 3, .xor 1 2 3, .sll 1 2 3, .srl 1 2 3, .sra 1 2 3, .slt 1 2 3, .sltn 1 2 3,
    .mul 1 2 3, .mulhs 1 2 3, .mulhn 1 2 3, .div 1 2 3, .divn 1 2 3, .rem 1 2 3, .remn 0 2 3] : List Instr),
    ∃ d v, registerResult i (readReg 2 task) (readReg 3 task) = some (d, 2, 3, v) ∧ ∃ t, exec i task = .next t := by
  simp only [List.forall_mem_cons, List.not_mem_nil, false_implies, implies_true, and_true]
  refine ⟨?_, ?_, ?_, ?_, ?_, ?_, ?_, ?_, ?_, ?_, ?_, ?_, ?_, ?_, ?_, ?_, ?_⟩ <;> exact ⟨_, _, rfl, _, rfl⟩

/-- ImmediateAndFieldWords and IntegerFrame. -/
theorem test_witness_immediate_words :
    (∀ i ∈ ([.addi 1 2 3, .andi 1 2 3, .ori 1 2 3, .xori 1 2 3, .slti 1 2 3, .sltin 1 2 3, .slli 1 2 3, .srli 1 2 3,
      .srai 1 2 3, .lui 1 3] : List Instr), ∃ d v, immediateResult i (fun r => readReg r task) = some (d, v)
        ∧ ∃ t, exec i task = .next t)
    ∧ ∀ i ∈ ([.sext 1 2 63, .zext 1 2 0, .extr 1 2 3 5, .popc 1 2] : List Instr),
      ∃ d v, fieldResult i (fun r => readReg r task) = some (d, v) ∧ ∃ t, exec i task = .next t := by
  simp only [List.forall_mem_cons, List.not_mem_nil, false_implies, implies_true, and_true]
  refine ⟨⟨?_, ?_, ?_, ?_, ?_, ?_, ?_, ?_, ?_, ?_⟩, ?_, ?_, ?_, ?_⟩ <;> exact ⟨_, _, rfl, _, rfl⟩

/-- BranchWords and IntegerFrame: each branch, taken or not. -/
theorem test_witness_branch_words : ∀ i ∈ ([
    .cjEq 2 3 0x4000, .cjNe 2 3 1, .cjLt 2 3 1, .cjGe 2 3 1, .cjLtn 2 3 1, .cjGen 2 3 1] : List Instr),
    ∃ taken off, branchTaken i (fun r => readReg r task) = some (taken, off) ∧ ∃ t, exec i task = .next t := by
  simp only [List.forall_mem_cons, List.not_mem_nil, false_implies, implies_true, and_true]
  refine ⟨?_, ?_, ?_, ?_, ?_, ?_⟩ <;> exact ⟨_, _, rfl, _, rfl⟩

/-- IntegerFrame: the words that its other clauses name. -/
theorem test_witness_integer_frame : ∀ i ∈ ([.ins 1 2 3 4, .clz 1 2, .ctz 1 2, .jr 1 2, .jal 1 8] : List Instr),
    ∃ t, exec i task = .next t := by
  simp only [List.forall_mem_cons, List.not_mem_nil, false_implies, implies_true, and_true]
  refine ⟨?_, ?_, ?_, ?_, ?_⟩ <;> exact ⟨_, rfl⟩

/-- RegisterZero: registers as its premises ask. -/
theorem test_witness_register_zero : (31 : BitVec 5) ≠ 0 ∧ (1 : BitVec 5) ≠ 31 := by decide

/-! ## Witnesses: the step, traps and control registers -/

/-- A steering turn with a word placed at PC. -/
def placed (w : Nat) : State :=
  { State.reset.withFetchWord 32 w with agenda := [], agent := placeAgent (.ofNat 32 w) }

/-- StepRunsDecoded: a steering word of a task core, and one of a control core. -/
theorem test_witness_step_steering : ∀ p ∈ ([(placed 0x004C5201, 0x004C5201, .sub 4 5 6),
    (placed 0x00800523, 0x00800523, .epopMsg 10)] : List (State × IWord × Instr)),
    let s := p.1
    s.agenda = [] ∧ decode s.proc p.2.1 = .instr p.2.2
    ∧ (s.agent = .steer ∨ (s.agent = .control ∧ s.cluster.dispatch = none)) ∧ processorRuns s = true
    ∧ s.cur.stepped = false ∧ convoyOwes s = false ∧ ladDue s = false ∧ breakDue s = false
    ∧ fetchWord s.cur.pc s = some p.2.1
    ∧ requested s = false ∧ holdWord p.2.1 s = false := by decide

/-- StepRunsDecoded: a convoy word. -/
theorem test_witness_step_convoy :
    let s := placed 0x0000007C
    s.agenda = [] ∧ decode s.proc 0x0000007C = .instr .vbend ∧ s.agent = .convoy ∧ clocksStopped s = false
    ∧ unparks s = false ∧ s.core.convoyLive = true ∧ s.inFlight = false ∧ boundaryHeld s = false
    ∧ s.core.conv.formed = false ∧ s.core.conv.st ≠ .idle ∧ (s.core.conv.forming = [] → convoyBreakDue s = false)
    ∧ fetchWord (convoyFetch s) s = some 0x0000007C := by decide

/-- BadWordTraps: a word that is none, and a PC at the end of the text. -/
theorem test_witness_bad_word :
    let s := placed 0x00000026 |> fun s => writeMem (globKey 0) 4 0x3F s
    let u := s.modCur (fun c => { c with pc := 4 })
    (s.agenda = [] ∧ processorRuns s = true ∧ s.cur.stepped = false ∧ convoyOwes s = false ∧ ladDue s = false
      ∧ breakDue s = false
      ∧ convoyBusy s = false ∧ fetchWord s.cur.pc s = some 0x0000003F ∧ decode s.proc 0x0000003F = .bad .illegalWord)
    ∧ u.agenda = [] ∧ processorRuns u = true ∧ u.cur.stepped = false ∧ convoyOwes u = false ∧ ladDue u = false
    ∧ breakDue u = false
    ∧ convoyBusy u = false ∧ fetchWord u.cur.pc u = none := by decide

/-- CanonicalKept: the state after reset, whose step answers. -/
theorem test_witness_canonical_kept : State.reset.MemoryCanonical ∧ ∃ t, step State.reset = .next t :=
  ⟨rfl, _, rfl⟩

/-- TrapEntry, DoubleTrapHalts and RequestRecordsTrap, on a task core and on a control core. -/
theorem test_witness_traps :
    (task.cur.mode = false ∧ task.agent ≠ .control ∧ task.core.preq = false) ∧ control.cur.mode = false
    ∧ ((super task).cur.mode = true ∧ (super task).agent ≠ .control) ∧ (super control).cur.mode = true
    ∧ (let s := task.modCore (fun c => { c with preq := true })
      s.agent ≠ .control ∧ s.core.steer.mode = false ∧ s.core.preq = true) := by decide

/-- CallAndReturn: a state for each clause. -/
theorem test_witness_call_and_return :
    ((super task).cur.mode = true ∧ (super task).cur.tpend = false ∧ (super control).cur.tpend = false)
    ∧ (let s := (super task).modCur (fun c => { c with tpend := true })
      s.cur.mode = true ∧ s.cur.tpend = true ∧ s.cur.pmode = false)
    ∧ (task.cur.mode = false ∧ convoyBusy task = false) ∧ task.cur.sdbg.getLsbD 1 = false
    ∧ (task.modCur (fun c => { c with sdbg := 2 })).cur.sdbg.getLsbD 1 = true := by decide

/-- RegisterReads: an open register, a supervisor register in either mode, and one that waits for the convoy stream. -/
theorem test_witness_register_reads :
    (csrSupervisor 0x003 = false ∧ csrWaits 0x003 task = false)
    ∧ (csrSupervisor 0x02C = true ∧ (super task).cur.mode = true ∧ csrWaits 0x02C (super task) = false)
    ∧ (task.cur.mode = false ∧ convoyBusy task = false)
    ∧ (csrSupervisor 0x010 = false ∧ csrWaits 0x010 (task.modQ (fun q => { q with bq := [⟨0, 1⟩] })) = true) := by decide

/-- RegisterWrites: a register that reads back, one that waits, one that task mode may not write, a write-only one, and a
field that task mode may not change, changed and unchanged. -/
theorem test_witness_register_writes :
    (csrSupervisor 0x014 = false ∧ csrWaits 0x014 task = false ∧ csrGuarded 0x014 = 0 ∧ csrWriteOnly 0x014 = false)
    ∧ csrWaits 0x014 (task.modQ (fun q => { q with bq := [⟨0, 1⟩] })) = true
    ∧ (csrSupervisor 0x02C = true ∧ task.cur.mode = false ∧ convoyBusy task = false)
    ∧ ((super task).cur.mode = true ∧ csrWriteOnly 0x04A = true ∧ tlbinvWaits (readReg 0 (super task)) (super task) = false)
    ∧ (csrSupervisor 0x07E = false ∧ csrWriteOnly 0x07E = true)
    ∧ (csrRead 0x049 task ^^^ readReg 2 (with23 0xE5 0 task)) &&& csrGuarded 0x049 = 0
    ∧ (csrSupervisor 0x049 = false ∧ csrWaits 0x049 task = false ∧ task.cur.mode = false
      ∧ (csrRead 0x049 task ^^^ readReg 0 task) &&& csrGuarded 0x049 ≠ 0 ∧ convoyBusy task = false) := by decide

/-! ## Witnesses: memory, atomics and waits -/

/-- Two outstanding-access fields as `State.released` asks. -/
theorem task_released : task.released := ⟨rfl, rfl⟩

/-- LoadWords and StoreWords: no access of a device page waits. -/
theorem test_witness_no_device : ∀ (p : BitVec 2) (x : Word), deviceHeld (mapped task) p x = false ∧ deviceHeld task p x = false :=
  fun _ _ => ⟨rfl, rfl⟩

/-- LoadWords: each load, at the last address of TCM, in SPAD, in the die store and in GLOB. -/
theorem test_witness_load_words : ∀ p ∈ ([
    (.ldb 1 2 0 0, 262143, tcmKey 0 262143, 1), (.ldw 1 2 1 0x1FFC, 8, spadKey 0 4, 4),
    (.ldd 1 2 2 8, 0, dieKey 0 8, 8), (.ldd 1 2 3 0, 16, globKey 16, 8)] : List (Instr × Nat × Nat × Nat)),
    ∃ d a m o, scalarAccess p.1 = some (p.2.2.2, d, a, m, o)
      ∧ resolve (with23 p.2.1 0 (mapped task)) m (readReg a (with23 p.2.1 0 (mapped task)) + .ofInt 64 o.toInt)
        ⟨p.2.2.2, false, false, false, false⟩ = .ok (.mem p.2.2.1 false)
      ∧ locPoisoned (with23 p.2.1 0 (mapped task)) (.mem p.2.2.1 false) p.2.2.2 = false := by
  simp only [List.forall_mem_cons, List.not_mem_nil, false_implies, implies_true, and_true]
  refine ⟨?_, ?_, ?_, ?_⟩ <;> exact ⟨_, _, _, _, rfl, by decide +kernel, by decide +kernel⟩

/-- StoreWords: each store. -/
theorem test_witness_store_words : ∀ p ∈ ([
    (.stb 1 2 0 0, 262143, tcmKey 0 262143, 1), (.stw 1 2 1 0x1FFC, 8, spadKey 0 4, 4),
    (.std 1 2 3 0, 16, globKey 16, 8)] : List (Instr × Nat × Nat × Nat)),
    ∃ d a m o, scalarAccess p.1 = some (p.2.2.2, d, a, m, o)
      ∧ resolve (with23 p.2.1 0 (mapped task)) m (readReg a (with23 p.2.1 0 (mapped task)) + .ofInt 64 o.toInt)
        ⟨p.2.2.2, true, false, false, false⟩ = .ok (.mem p.2.2.1 false)
      ∧ storePoisoned (with23 p.2.1 0 (mapped task)) p.2.2.1 p.2.2.2 = false := by
  simp only [List.forall_mem_cons, List.not_mem_nil, false_implies, implies_true, and_true]
  refine ⟨?_, ?_, ?_⟩ <;> exact ⟨_, _, _, _, rfl, by decide +kernel, by decide +kernel⟩

/-- AccessFaults: a misaligned access, and one of uncorrectable data. -/
theorem test_witness_access_faults :
    (scalarAccess (.ldw 1 2 0 1) = some (4, 1, 2, 0, 1) ∧ convoyBusy task = false
      ∧ resolve task 0 (readReg 2 task + 1) ⟨4, false, false, false, false⟩ = .error ⟨.memAlign, 7⟩)
    ∧ (let s : State := { task with poison := [tcmKey 0 0] }
      resolve s 0 (readReg 2 s) ⟨8, false, false, false, false⟩ = .ok (.mem (tcmKey 0 0) false)
        ∧ poisoned s (tcmKey 0 0) 8 = true) := ⟨⟨rfl, rfl, rfl⟩, rfl, by decide⟩

/-- AccessFaults: addresses at the edges where its last four clauses meet. -/
theorem test_witness_access_edges :
    (3 % 4 ≠ 0) ∧ (262140 % 8 ≠ 0) ∧ (262144 % 8 = 0 ∧ spaceSize 0 < 262144 + 8) ∧ (262136 % 8 = 0 ∧ 262136 + 8 ≤ spaceSize 0)
    ∧ (0x6000000 + 8 ≤ 0xC000000 ∧ 0x6000000 ≤ 0x6000000 ∧ task.cur.mode = false)
    ∧ (0x5FFFFF8 + 8 ≤ spaceSize 2 ∧ ¬0x6000000 ≤ 0x5FFFFF8) ∧ (super task).cur.mode = true := by decide

/-- AtomicWords: each operation, and a release that waits for nothing. -/
theorem test_witness_atomic_words :
    (resolve task 0 (readReg 2 task) ⟨8, true, true, false, false⟩ = .ok (.mem (tcmKey 0 0) false)
      ∧ poisoned task (tcmKey 0 0) 8 = false ∧ task.released)
    ∧ ∀ i ∈ ([.amoswap 1 2 3 0 3 0, .amoadd 1 2 3 0 3 0, .amoand 1 2 3 0 3 0, .amoor 1 2 3 0 3 0, .amoxor 1 2 3 0 3 0,
      .amomax 1 2 3 0 3 0, .amomin 1 2 3 0 3 0, .amomaxu 1 2 3 0 3 0] : List Instr),
      ∃ v d a b o p, atomicResult i 5 7 = some (v, d, a, b, o, p) := by
  refine ⟨⟨rfl, by decide, rfl, rfl⟩, ?_⟩
  simp only [List.forall_mem_cons, List.not_mem_nil, false_implies, implies_true, and_true]
  refine ⟨?_, ?_, ?_, ?_, ?_, ?_, ?_, ?_⟩ <;> exact ⟨_, _, _, _, _, _, rfl⟩

/-- FenceAndWait: WAITW whose condition holds, whose limit is 0, whose limit has passed, and that waits. -/
theorem test_witness_fence_and_wait :
    task.released
    ∧ (resolve task 0 (readReg 2 task) ⟨8, false, false, false, false⟩ = .ok (.mem (tcmKey 0 0) false)
      ∧ poisoned task (tcmKey 0 0) 8 = false)
    ∧ readMem task (tcmKey 0 0) 8 = (readReg 3 task).toNat ∧ (63 : BitVec 6) ≠ 0
    ∧ ¬readMem task (tcmKey 0 0) 8 = (readReg 3 (with23 0 1 task)).toNat ∧ task.cur.expired = false
    ∧ (task.modCur (fun c => { c with expired := true })).cur.expired = true :=
  ⟨task_released, ⟨rfl, by decide⟩, by decide, by decide, by decide, rfl, rfl⟩

/-- A walk descriptor at TCM 64: bytes, one dimension of two elements, the first `done` of them past. -/
def walking (done : Nat) : State :=
  writeMem (tcmKey 0 (64 + 0x28)) 4 done (writeMem (tcmKey 0 (64 + 0x38)) 8 1
    (writeMem (tcmKey 0 (64 + 0x18)) 4 2 (writeMem (tcmKey 0 (64 + 0x11)) 1 1 (with23 64 0 task))))

/-- CollectWord: a walk that is complete, and one that is not. -/
theorem test_witness_collect_word : ∀ n ∈ [0, 2],
    (readReg 2 (walking n)).toNat % 8 = 0 ∧ (readReg 2 (walking n)).toNat + 88 ≤ 262144
    ∧ poisoned (walking n) (spaceKey (walking n) 0 64) 88 = false ∧ (readWalk (walking n) (spaceKey (walking n) 0 64)).valid = true
    ∧ (readWalk (walking n) (spaceKey (walking n) 0 64)).complete = decide (n = 2) := by decide +kernel

/-- R164: a walk of two contiguous bytes gives one run of two. -/
theorem test_dcoll_run : readReg 1 (after (.dcoll 1 2 0) (walking 0)) = 2 := by decide +kernel

/-! ## Witnesses: queues, the end of a task, timelines, barriers, arms and feeds -/

/-- QueueWords: an entry in range and aligned with room or without, and operands out of range. -/
theorem test_witness_queue_words :
    ((readReg 2 (with23 0xFFFFFFFC 0xFFFFFFFF task)).toNat < 2 ^ 32 ∧ (readReg 2 (with23 0xFFFFFFFC 0 task)).toNat % 4 = 0
      ∧ (readReg 3 (with23 0 0xFFFFFFFF task)).toNat < 2 ^ 32 ∧ task.core.q.bq.length < 16)
    ∧ task.core.q.dq.length < 32 ∧ task.core.q.eq = [] ∧ task.cluster.cq = [] ∧ task.core.q.rq = []
    ∧ (let s := task.modQ (fun _ => ⟨List.replicate 16 ⟨0, 1⟩, List.replicate 32 0, [7], [8], []⟩)
      16 ≤ s.core.q.bq.length ∧ 32 ≤ s.core.q.dq.length ∧ s.released ∧ s.core.q.rq = [7] ∧ s.core.q.eq = [8] ∧ s.core.q.posts = [])
    ∧ (let s := control.modCluster (fun c => { c with cq := [1, 2, 3, 4] })
      s.cluster.cq = [1, 2, 3, 4] ∧ s.cluster.cqPosts = [])
    ∧ 2 ^ 32 ≤ (readReg 2 (with23 (2 ^ 32) 0 task)).toNat ∧ (readReg 2 (with23 2 0 task)).toNat % 4 ≠ 0
    ∧ 2 ^ 32 ≤ (readReg 3 (with23 0 (2 ^ 32) task)).toNat ∧ convoyBusy task = false := by
  unfold State.released; decide

/-- EndOfTask: END at PC, in either mode, with its completion word at GLOB 8. -/
theorem test_witness_end_of_task : ∀ sup ∈ [false, true],
    let s := (mapped (placed 0x00000025)).modCore (fun c => { c with
      task := { c.task with cwaddr := 8 }, steer := { c.steer with mode := sup, ptroot := 0 } })
    s.agent = .steer ∧ (s.core.steer.mode = true ∨ (s.core.drained = true ∧ s.core.chainRuns = false))
    ∧ (s.cur.outs = [] ∧ s.cur.failedStore = none) ∧ s.core.conv.failedStore = none
    ∧ resolve s 3 s.core.task.cwaddr ⟨8, true, true, false, false⟩ = .ok (.mem (globKey 8) false)
    ∧ poisoned s (globKey 8) 8 = false ∧ s.core.live = true ∧ s.core.preq = false ∧ executes s = true
    ∧ fetchWord s.core.steer.pc s = some 0x00000025 := by
  decide +kernel

/-- R191, R192: COUNT wraps at 2^40, the flags gain VFLAGS, and bit 56 tells an END in supervisor mode. -/
theorem test_completion_word :
    completionNext 0x000000FFFFFFFFFF 0x05 false = 0x0005000000000000
    ∧ completionNext 0x0002000000000001 0x01 true = 0x0103000000000002 := by decide

/-- TimelineWords: a handle of each class at its limits, one past them, and the ways a TLWAIT ends. -/
theorem test_witness_timeline_words :
    (∀ h ∈ [0x10050F0700000000, 0x20070F0300000000, 0x3007000700000000, 0x4005030F00000000], handleOk (.ofNat 64 h) = true)
    ∧ (∀ h ∈ [0, 0x1006000000000000, 0x2005000000000000, 0x3007010000000000, 0x4005040000000000],
      handleOk (.ofNat 64 h) = false)
    ∧ convoyBusy task = false
    ∧ (readReg 3 task).toNat ≤ (task.context (ctxKey 0x1000000000000000)).count.toNat
    ∧ (let c : Context := { Context.reset with failed := true, err := 1, finished := [(1, 1)], next := 2 }
      c.failed = true ∧ c.stoppedAt = true) := by decide

/-- BarrierWords: absolute and relative numbers, at the ends of their ranges, and a BARW that waits. -/
theorem test_witness_barrier_words :
    control.agent = .control ∧ task.agent = .steer
    ∧ barrierOf 31 control = some 31 ∧ barrierOf 32 control = none
    ∧ (let s := task.modCore (fun c => { c with task := { c.task with barwin := 0x21F } })
      barrierOf 1 s = some 0 ∧ barrierOf 2 s = none)
    ∧ (with23 0 1 task).cur.expired = false ∧ (spGet 0 task.cluster.barriers 0).toNat < (readReg 3 (with23 0 1 task)).toNat
    ∧ convoyBusy task = false := by decide

/-- ArmAndFeedWords: an arm of slot 1 of a gang of two, the own slot, and a queue that is free and empty. -/
theorem test_witness_arm_and_feed :
    (let s := task.modCore (fun c => { c with task := { c.task with gslot := 0x200, barwin := 0x200 } });
      orderedReady s = true ∧ armFaults 1 0x103 s = false ∧ armFaults 0 0x103 s = true ∧ armFaults 2 0x103 s = true
      ∧ armFaults 1 0x200 s = true ∧ convoyBusy s = false)
    ∧ feedFaults 0x800000040 0x10002 (control.cluster.feed 3) = false ∧ (control.cluster.feed 3).written = [] := by decide

/-! ## Witnesses: launches and engines -/

/-- LaunchWords: a copy with arguments in range, at the least and at the greatest length, and arguments out of range. -/
theorem test_witness_stream_words :
    control.cluster.freeIndex = some 0
    ∧ (copyArgsBad 64 64 = false ∧ copyArgsBad 64 (.ofNat 64 (2 ^ 32 - 64)) = false ∧ (readReg 2 (with23 128 64 control)).toNat % 64 = 0)
    ∧ copyArgsBad 64 0 = true ∧ copyArgsBad 64 (.ofNat 64 (2 ^ 32)) = true ∧ copyArgsBad 8 64 = true
    ∧ streamLive control.cluster 63 = false ∧ 64 ≤ (readReg 2 (with23 64 0 control)).toNat := by decide

/-- A scoreboard whose 64 entries are live stream-ins. -/
def fullBoard (s : State) : State :=
  s.modCluster (fun c => { c with entries := (List.range 64).map (fun i => (i, Entry.fresh .streamIn .done 0 i)) })

/-- LaunchWords: a full scoreboard. -/
theorem test_witness_full :
    (fullBoard control).cluster.freeIndex = none ∧ streamLive (fullBoard control).cluster 5 = true := by decide +kernel

/-- LaunchWords: a live stream-in entry to be released. -/
theorem test_witness_release :
    let e := Entry.fresh .streamIn .done 3 1
    let s := (with23 64 0 control).modCluster (fun c => { c with entries := [(0, e)] })
    s.cluster.freeIndex = some 1 ∧ (readReg 3 s).toNat < 64 ∧ s.cluster.entry? (readReg 3 s).toNat = some e
    ∧ streamLive s.cluster (readReg 3 s).toNat = true ∧ readReg 0 s = 0 := by decide

/-- A control core with a launch block at GLOB 0: ENTRY 0, STLEN 4, one task. -/
def launcher : State := writeMem (globKey 0x4C) 4 4 (mapped control)

/-- The block at a register's address is read and is valid. -/
def blockGood (s : State) : Bool :=
  match readBlock s (readReg 2 s) 128 with
  | .ok n => decide (launchCode (parseBlock n) (n / 2 ^ (8 * 0x5D)) (readReg 2 s) (readReg 3 s) s.cluster = 0)
  | .error _ => false

/-- LaunchWords: the block is read, and it is valid; one of zeros is not; and the scoreboard may be full. -/
theorem test_witness_launch :
    blockGood launcher = true ∧ blockHeld launcher (readReg 2 launcher) = false ∧ blockGood (mapped control) = false
    ∧ (readBlock (mapped control) (readReg 2 (mapped control)) 128).isOk = true
    ∧ blockGood (fullBoard launcher) = true ∧ launcher.frozenAt launcher.clusterId = false
    ∧ launcher.cluster.freeIndex = some 0 ∧ launcher.cur.outs = [] ∧ launcher.cur.failedStore = none
    ∧ launcher.cluster.cqPosts = [] ∧ launcher.cluster.cq.length + 4 ≤ 64 := by decide +kernel

/-- EngineWords: each command word names its class and operation. -/
theorem test_witness_engine_words : ∀ i ∈ ([.copy 1 2 3, .copy2 1 2 3, .fill 1 2 3, .slabmov 1 2 3, .mdec 1 2 3, .mrsz 1 2 3,
    .cred 1 2 3, .cbcast 1 2 3] : List Instr), ∃ cls op, engineWord i = some (cls, op, 1, 2, 3)
      ∧ (let s := with23 (cls * 2 ^ 60 + 6 * 2 ^ 48 * (if cls = 1 then 0 else 1)) 262080 task
        handleOk (readReg 2 s) = true ∧ handleClass (readReg 2 s) = cls ∧ (readReg 3 s).toNat % 64 = 0
        ∧ (readReg 3 s).toNat + 64 ≤ 262144 ∧ (s.context (ctxKey (readReg 2 s))).cmds = []) := by
  simp only [List.forall_mem_cons, List.not_mem_nil, false_implies, implies_true, and_true]
  refine ⟨?_, ?_, ?_, ?_, ?_, ?_, ?_, ?_⟩ <;> exact ⟨_, _, rfl, by decide⟩

/-- EngineWords: a place that holds no uncorrectable data, and handles that name no context of the word's class. -/
theorem test_witness_engine_premises :
    poisoned task (spaceKey task 0 262080) 64 = false ∧ task.released ∧ convoyBusy task = false
    ∧ handleOk (readReg 2 task) = false ∧ handleClass 0x2006000000000000 ≠ 1
    ∧ 16 ≤ ((task.modContext 0x10000000 (fun c => { c with cmds := List.replicate 16 default })).context 0x10000000).cmds.length
    := by
  refine ⟨by decide, task_released, by decide, by decide, by decide, by decide⟩

/-! ## Witnesses: the convoy stream -/

/-- A core that runs its convoy stream: VL = 2, v1 to v6 are rows of two cells or more, v62 and v63 rows of sixteen; the
matrix unit is on, with M = N = K = 1, and the ladder is configured with two rungs of one cell. -/
def vec (type : Nat) : State :=
  let desc := fun (r w : Nat) => (.ofNat 64 (1 + r * 2 ^ 8 + 2 ^ 32 + w * 2 ^ 48) : Word)
  { task with
    agent := .convoy
    core := { task.core with
      conv := { Conv.reset with
        vtype := .ofNat 8 type, vl := 2, vmt := 0, st := .run, lc := 1, planepwr := 0xAAAA
        table := [(1, desc 1 4), (2, desc 2 4), (3, desc 3 4), (4, desc 4 4), (5, desc 5 8), (6, desc 6 8),
          (62, desc 62 16), (63, desc 63 16)]
        plane := [(64 * 2, 5), (64 * 2 + 1, 7), (64 * 3, 3)] }
      mat := { Matrix.reset with en := true, msize := 0x010101, mrowp := 1, mcolp := 1 }
      lad := { Ladder.reset with lcfgr := .ofNat 64 (2 ^ 32 + 2 ^ 40 + 2 * 2 ^ 48 + 4 * 2 ^ 56) } } }

theorem vec_boundary (t : Nat) : (vec t).Boundary :=
  ⟨rfl, rfl, rfl, rfl, by simp [vec, task, State.reset, Core.reset, Trace.reset], rfl, rfl, rfl⟩

/-- Every shape of a list holds, as a computation. -/
def allHold (l : List Named) (s : State) : Bool :=
  l.all (fun n =>
    let v := shapeAt n.shape s
    decide (v.kind ≠ 0) && !shapeTypeBad v n.ew && decide (n.need ≤ v.cap n.ew) && !shapeGated s.core.conv.planepwr v)

theorem vec_holds {l : List Named} {s : State} (h : allHold l s = true) : ∀ n ∈ l, n.holds s := by
  intro n hn
  have := List.all_eq_true.mp h n hn
  simp only [Bool.and_eq_true, decide_eq_true_eq, Bool.not_eq_true'] at this
  exact ⟨this.1.1.1, this.1.1.2, this.1.2, this.2⟩

/-- What `CompletesElements` asks of a word in a state. -/
def MeetsElements (word : Instr → State → Option ElementWord) (s : State) (i : Instr) : Prop :=
  ∃ w, word i s = some w ∧ s.Boundary ∧ endsConvoy i ∧ w.issues ∧ s.core.conv.vctl = 0 ∧ (∀ n ∈ w.named, n.holds s)
    ∧ ∀ n, n < s.vl - s.core.conv.startK.toNat →
      w.fits (s.core.conv.startK.toNat + n) (w.running i n s)

/-- What `CompletesWhole` asks of a word in a state. -/
def MeetsWhole (word : Instr → State → Option WholeWord) (s : State) (i : Instr) : Prop :=
  ∃ w, word i s = some w ∧ s.Boundary ∧ endsConvoy i ∧ w.fits ∧ s.core.conv.vctl = 0 ∧ ∀ n ∈ w.named, n.holds s

/-- IntegerElements: every integer word, under a 32-bit type. -/
theorem test_witness_integer_elements : ∀ i ∈ ([
    .vadd 1 2 3 0 0, .vsub 1 2 3 0 0, .vmul 1 2 3 0 0, .vmin 1 2 3 0 0, .vmax 1 2 3 0 0, .vdiv 1 2 3 0 0, .vrem 1 2 3 0 0,
    .vaddK 1 2 0 3 0 0, .vsubK 1 2 1 3 0 0, .vmulK 1 2 0 3 0 0, .vminK 1 2 0 3 0 0, .vmaxK 1 2 0 3 0 0, .vdivK 1 2 1 3 0 0,
    .vremK 1 2 0 3 0 0, .vaddi 1 2 0 0, .vrsubi 1 2 0 0, .vmuli 1 2 0 0, .vmini 1 2 0 0, .vmaxi 1 2 0 0, .vsadd 1 2 3 0 0,
    .vssub 1 2 3 0 0, .vmulh 1 2 3 0 0, .vavg 1 2 3 0 0, .vsll 1 2 3 0 0, .vsrl 1 2 3 0 0, .vsra 1 2 3 0 0, .vslli 1 2 0 0,
    .vsrli 1 2 0 0, .vsrai 1 2 0 0] : List Instr), MeetsElements integerWord (vec 12) i := by
  simp only [List.forall_mem_cons, List.not_mem_nil, false_implies, implies_true, and_true]
  refine ⟨?_, ?_, ?_, ?_, ?_, ?_, ?_, ?_, ?_, ?_, ?_, ?_, ?_, ?_, ?_, ?_, ?_, ?_, ?_, ?_, ?_, ?_, ?_, ?_, ?_, ?_, ?_, ?_, ?_⟩
  all_goals exact ⟨_, rfl, vec_boundary 12, by unfold endsConvoy; decide, by simp only [onElements]; decide, rfl,
    vec_holds (by decide), fun _ _ => trivial⟩

/-- IntegerElements: every bitwise word. -/
theorem test_witness_bits_elements : ∀ i ∈ ([
    .vand 1 2 3 0 0, .vor 1 2 3 0 0, .vxor 1 2 3 0 0, .vandn 1 2 3 0 0, .vmov 1 2 0 0, .vandi 1 2 0 0, .vori 1 2 0 0,
    .vxori 1 2 0 0, .vli 1 2 0 0] : List Instr), MeetsElements bitsWord (vec 0) i := by
  simp only [List.forall_mem_cons, List.not_mem_nil, false_implies, implies_true, and_true]
  refine ⟨?_, ?_, ?_, ?_, ?_, ?_, ?_, ?_, ?_⟩
  all_goals exact ⟨_, rfl, vec_boundary 0, by unfold endsConvoy; decide, trivial, rfl, vec_holds (by decide),
    fun _ _ => trivial⟩

/-- FloatElements: every floating-point word, under f32. -/
theorem test_witness_float_elements : ∀ i ∈ ([
    .vfadd 1 2 3 0 0, .vfsub 1 2 3 0 0, .vfmul 1 2 3 0 0, .vfdiv 1 2 3 0 0, .vfmin 1 2 3 0 0, .vfmax 1 2 3 0 0,
    .vfaddK 1 2 0 3 0 0, .vfsubK 1 2 1 3 0 0, .vfmulK 1 2 0 3 0 0, .vfdivK 1 2 1 3 0 0, .vfminK 1 2 0 3 0 0,
    .vfmaxK 1 2 0 3 0 0, .vfneg 1 2 0 0, .vfabs 1 2 0 0, .vfcpys 1 2 3 0 0, .vfcpysn 1 2 3 0 0, .vfkind 1 2 0 0,
    .vfma 1 2 3 0 0, .vfnma 1 2 3 0 0, .vfms 1 2 3 0 0, .vfnms 1 2 3 0 0, .vfmaK 1 2 3 0 0, .vfnmaK 1 2 3 0 0,
    .vfmsK 1 2 3 0 0, .vfnmsK 1 2 3 0 0, .vfsqrt 1 2 0 0, .vfrsqrt 1 2 0 0, .vfrcp 1 2 0 0, .vfexp2 1 2 0 0,
    .vflog2 1 2 0 0, .vfsinpi 1 2 0 0, .vftanh 1 2 0 0, .vfsigm 1 2 0 0] : List Instr),
    MeetsElements floatWord (vec 0) i := by
  simp only [List.forall_mem_cons, List.not_mem_nil, false_implies, implies_true, and_true]
  refine ⟨?_, ?_, ?_, ?_, ?_, ?_, ?_, ?_, ?_, ?_, ?_, ?_, ?_, ?_, ?_, ?_, ?_, ?_, ?_, ?_, ?_, ?_, ?_, ?_, ?_, ?_, ?_, ?_, ?_,
    ?_, ?_, ?_, ?_⟩
  all_goals exact ⟨_, rfl, vec_boundary 0, by unfold endsConvoy; decide, by simp only [onElements]; decide, rfl,
    vec_holds (by decide), fun _ _ => trivial⟩

/-- CompareConvertPermute: the compares. -/
theorem test_witness_compares : ∀ i ∈ ([
    .vceq 1 2 3 0 0, .vcne 1 2 3 0 0, .vclt 1 2 3 0 0, .vcle 1 2 3 0 0, .vcgt 1 2 3 0 0, .vcge 1 2 3 0 0, .vcun 1 2 3 0 0,
    .vceqK 1 2 3 0 0, .vcneK 1 2 3 0 0, .vcltK 1 2 3 0 0, .vcleK 1 2 3 0 0, .vcgtK 1 2 3 0 0, .vcgeK 1 2 3 0 0,
    .vcunK 1 2 3 0 0] : List Instr), MeetsElements compareWord (vec 0) i := by
  simp only [List.forall_mem_cons, List.not_mem_nil, false_implies, implies_true, and_true]
  refine ⟨?_, ?_, ?_, ?_, ?_, ?_, ?_, ?_, ?_, ?_, ?_, ?_, ?_, ?_⟩
  all_goals exact ⟨_, rfl, vec_boundary 0, by unfold endsConvoy; decide, by simp only [onCompare]; decide, rfl,
    vec_holds (by decide), fun _ _ => trivial⟩

/-- CompareConvertPermute: mask words, selects and permutes. -/
theorem test_witness_masks_permutes :
    (∀ i ∈ ([.vmand 1 2 3 0 0, .vmor 1 2 3 0 0, .vmxor 1 2 3 0 0, .vmandn 1 2 3 0 0, .vmnot 1 2 0 0, .vmset 7 0 0,
      .vmclr 1 0 0, .vsel 1 2 3 0 0, .vselz 1 2 0 0] : List Instr), MeetsElements compareWord (vec 0) i)
    ∧ ∀ i ∈ ([.vgath 1 2 3 0 0, .vhead 1 2 3 0 0, .vtail 1 2 3 0 0, .vbcast 1 2 0 0, .vbcastk 1 2 0 0, .vlower 1 2 3 0 0,
      .vraise 1 2 3 0 0] : List Instr), MeetsElements permuteWord (vec 0) i := by
  simp only [List.forall_mem_cons, List.not_mem_nil, false_implies, implies_true, and_true]
  refine ⟨⟨?_, ?_, ?_, ?_, ?_, ?_, ?_, ?_, ?_⟩, ?_, ?_, ?_, ?_, ?_, ?_, ?_⟩
  all_goals exact ⟨_, rfl, vec_boundary 0, by unfold endsConvoy; decide, trivial, rfl, vec_holds (by decide),
    fun _ _ => trivial⟩

/-- CompareConvertPermute: the conversions, from f16 to f32, from f32 to E4M3 and back. -/
theorem test_witness_conversions : MeetsElements convertWord (vec 0) (.vcvt 1 2 1 0 0)
    ∧ MeetsElements convertWord (vec 3) (.vqnt 1 2 0 0 0) ∧ MeetsElements convertWord (vec 0) (.vdqnt 1 2 3 0 0) :=
  ⟨⟨_, rfl, vec_boundary 0, by unfold endsConvoy; decide, by decide, rfl, vec_holds (by decide), fun _ _ => trivial⟩,
    ⟨_, rfl, vec_boundary 3, by unfold endsConvoy; decide, by decide, rfl, vec_holds (by decide), fun _ _ => trivial⟩,
    ⟨_, rfl, vec_boundary 0, by unfold endsConvoy; decide, by decide, rfl, vec_holds (by decide), fun _ _ => trivial⟩⟩

/-- The convoy stream's state with convoy scalars, queues and a view of B by columns. -/
def vecMore (type : Nat) : State :=
  let s := mapped (vec type)
  { s with core := { s.core with
    conv := { s.core.conv with table := spPut 0 s.core.conv.table 6 (.ofNat 64 (1 + 4 + 6 * 2 ^ 8 + 2 ^ 32 + 8 * 2 ^ 48)) }
    q := { s.core.q with dq := [9] } } }

theorem vecMore_boundary (t : Nat) : (vecMore t).Boundary :=
  ⟨rfl, rfl, rfl, rfl, by simp [vecMore, mapped, vec, task, State.reset, Core.reset, Trace.reset], rfl, rfl, rfl⟩

/-- Element n of two is element 0 or element 1. -/
theorem vec_two {s : State} {p : Nat → Prop} (h : s.vl - s.core.conv.startK.toNat ≤ 2) (h0 : p 0) (h1 : p 1) :
    ∀ n, n < s.vl - s.core.conv.startK.toNat → p n := by
  intro n hn
  have : n = 0 ∨ n = 1 := by omega
  rcases this with rfl | rfl <;> assumption

/-- VectorAccess: each load and store, of TCM, of two elements. -/
theorem test_witness_vector_access : ∀ i ∈ ([.vld 1 2 0 0 0 0, .vst 1 2 0 0 1 0, .vld2 1 2 0 0 1 0, .vst2 1 2 0 0 0 0,
    .vldx 1 2 2 0 0 0 0, .vstx 1 2 2 0 0 0 0] : List Instr), MeetsElements accessWord (vecMore 10) i := by
  simp only [List.forall_mem_cons, List.not_mem_nil, false_implies, implies_true, and_true]
  refine ⟨?_, ?_, ?_, ?_, ?_, ?_⟩
  all_goals exact ⟨_, rfl, vecMore_boundary 10, by unfold endsConvoy; decide, by simp only [onAccess] <;> decide, rfl,
    vec_holds (by decide), vec_two (by decide) (fun _ => ⟨_, rfl, by decide, by decide⟩)
      (fun _ => ⟨_, rfl, by decide, by decide⟩)⟩

/-- An entry of a key-value slab at GLOB 0: 2^8 bytes a token, and no page resident. -/
def slabbed (type : Nat) : State := (writeMem (globKey 9) 1 8 (vecMore type)).modConv (fun c => { c with vmt := 3 })

/-- VectorAccess: VLDSLAB of a page that is missing. -/
theorem test_witness_slab : MeetsElements slabWord (slabbed 10) (.vldslab 1 2 3 0 0 0) :=
  ⟨_, rfl, ⟨rfl, rfl, rfl, rfl, rfl, rfl, rfl, rfl⟩, by unfold endsConvoy; decide, by decide, rfl, vec_holds (by decide),
    vec_two (by decide)
      ⟨by decide +kernel, fun _ => ⟨slabEntry (2 ^ 75), by decide +kernel, by decide, by decide +kernel,
        .inr ⟨0, by decide +kernel⟩⟩⟩
      ⟨by decide +kernel, fun _ => ⟨slabEntry (2 ^ 75), by decide +kernel, by decide, by decide +kernel,
        .inr ⟨0, by decide +kernel⟩⟩⟩⟩

/-- VectorAccess: a store's address, for its clause on memory. -/
theorem test_witness_store_address : ∀ i ∈ ([.vst 1 2 0 0 1 0, .vst2 1 2 0 0 0 0, .vstx 1 2 2 0 0 0 0] : List Instr),
    ∃ r m x, storeAddr i 1 (vecMore 10) = some (r, m, x) := by
  simp only [List.forall_mem_cons, List.not_mem_nil, false_implies, implies_true, and_true]
  refine ⟨?_, ?_, ?_⟩ <;> exact ⟨_, _, _, rfl⟩

/-- ReductionScalarSetting: the reductions. -/
theorem test_witness_reductions :
    (∀ i ∈ ([.vredsum 1 2 0 0, .vredmax 1 2 0 0, .vredmin 1 2 0 0] : List Instr), MeetsWhole reductionWord (vecMore 12) i)
    ∧ ∀ i ∈ ([.vfredsum 1 2 0 0, .vfredmax 1 2 0 0, .vfredmin 1 2 0 0, .vfredsumw 1 2 0 0] : List Instr),
      MeetsWhole reductionWord (vecMore 0) i := by
  simp only [List.forall_mem_cons, List.not_mem_nil, false_implies, implies_true, and_true]
  refine ⟨⟨?_, ?_, ?_⟩, ?_, ?_, ?_, ?_⟩
  all_goals exact ⟨_, rfl, vecMore_boundary _, by unfold endsConvoy; decide, by simp only [onReduce] <;> decide, rfl,
    vec_holds (by decide)⟩

/-- ReductionScalarSetting: the words of convoy scalars, of rq and of masks. -/
theorem test_witness_scalars : ∀ i ∈ ([.vkadd 1 2 3 0, .vkaddK 1 2 3 0, .vkpop 1 0, .vkget 1 2 0, .vkpush 1 0,
    .vmpushCount 1 0, .vmpushFirst 1 0] : List Instr), MeetsWhole scalarWord (vecMore 0) i := by
  simp only [List.forall_mem_cons, List.not_mem_nil, false_implies, implies_true, and_true]
  refine ⟨?_, ?_, ?_, ?_, ?_, ?_, ?_⟩
  all_goals exact ⟨_, rfl, vecMore_boundary _, by unfold endsConvoy; decide,
    by simp only [onScalar, onEntry, WholeWord.plain] <;> decide, rfl, vec_holds (by decide)⟩

/-- ReductionScalarSetting: the settings. -/
theorem test_witness_settings : ∀ i ∈ ([.vsett 12, .vlen 1, .vlenShape 1 2, .vsetmt 1, .vsetmtImm 3, .vdef 1 2, .vtld 0,
    .vtst 0, .vbend] : List Instr), MeetsWhole settingWord (vecMore 0) i := by
  simp only [List.forall_mem_cons, List.not_mem_nil, false_implies, implies_true, and_true]
  refine ⟨?_, ?_, ?_, ?_, ?_, ?_, ?_, ?_, ?_⟩
  all_goals exact ⟨_, rfl, vecMore_boundary _, by unfold endsConvoy; decide,
    by simp only [onSetting, onLength, onScalar, WholeWord.plain, tableReaches] <;> decide, rfl, vec_holds (by decide)⟩

/-- MatrixWords: the words of one product and of the unit, the scaled product, and the inserts. -/
theorem test_witness_matrix :
    (∀ i ∈ ([.mma 1 2 3 0, .men 0, .mdis 0, .mzero 1 0, .mshape 1 0, .mscl 1 0, .minsRow 1 2 3 0 0, .minsCol 1 2 3 0 0,
      .minsRect 1 2 0 0] : List Instr), MeetsWhole matrixWord (vecMore 0) i)
    ∧ MeetsWhole matrixWord (vecMore 4) (.mmas 1 5 6 0) := by
  simp only [List.forall_mem_cons, List.not_mem_nil, false_implies, implies_true, and_true]
  refine ⟨⟨?_, ?_, ?_, ?_, ?_, ?_, ?_, ?_, ?_⟩, ?_⟩
  all_goals exact ⟨_, rfl, vecMore_boundary _, by unfold endsConvoy; decide,
    by simp only [WholeWord.plain, slabFree, viewsHold] <;> decide, rfl, vec_holds (by decide)⟩

/-- MatrixWords: the extracts. -/
theorem test_witness_extracts : ∀ i ∈ ([.mextRow 1 2 0 0 0, .mextCol 1 2 0 0 0, .mextRect 1 2 0 0] : List Instr),
    MeetsElements extractWord (vecMore 0) i := by
  simp only [List.forall_mem_cons, List.not_mem_nil, false_implies, implies_true, and_true]
  refine ⟨?_, ?_, ?_⟩
  all_goals exact ⟨_, rfl, vecMore_boundary _, by unfold endsConvoy; decide, by simp only [slabFree] <;> decide, rfl,
    vec_holds (by decide), fun _ _ => trivial⟩

/-- LadderWords: the configuration word, with a valid configuration in k2, and the others. -/
theorem test_witness_ladder : ∀ i ∈ ([.lcfg 2 0, .lreset 0, .lstatCnt 1 0, .lstatCarry 1 0, .lstep 1 0, .lblend 1 0,
    .lrungLd 1 1 0, .lrungSt 1 0 0, .lrungLdK 1 0 0, .lrungStK 1 0 0] : List Instr),
    MeetsWhole ladderWord ((vecMore 0).modConv (fun c => { c with k := [(2, .ofNat 64 (2 ^ 32 + 2 ^ 40 + 2 ^ 48))] })) i := by
  simp only [List.forall_mem_cons, List.not_mem_nil, false_implies, implies_true, and_true]
  refine ⟨?_, ?_, ?_, ?_, ?_, ?_, ?_, ?_, ?_, ?_⟩
  all_goals exact ⟨_, rfl, ⟨rfl, rfl, rfl, rfl, rfl, rfl, rfl, rfl⟩, by unfold endsConvoy; decide,
    by simp only [WholeWord.plain, slabFree, ladderStill, ladderOn, onRung, onScalar, onStatus] <;> decide, rfl, vec_holds (by decide)⟩

/-- BesideWords: appends to a feed queue of four, VWAIT with conditions that hold, and a ganged product with no other slot. -/
theorem test_witness_beside : ∀ i ∈ ([.vcapp 1 2 0 0, .vcappK 1 2 0 0, 
    .vwait 5 6 0 1 1, .gmma 1 2 3 0] : List Instr),
    MeetsWhole besideWord ((writeMaskBit 1 0 true (vecMore 0)).modCluster (·.modFeed 1 (fun f => { f with cap := 4, vlfeed := 4 }))) i := by
  simp only [List.forall_mem_cons, List.not_mem_nil, false_implies, implies_true, and_true]
  refine ⟨?_, ?_, ?_, ?_⟩
  all_goals exact ⟨_, rfl, ⟨rfl, rfl, rfl, rfl, rfl, rfl, rfl, rfl⟩, by unfold endsConvoy; decide,
    by simp only [slabFree, viewsHold] <;> decide, rfl, vec_holds (by decide)⟩

/-- ElementFrame: VL is in its bound, and a word of each family answers a next state (its other premises hold, as above). -/
theorem test_witness_element_frame :
    ((vec 12).vl ≤ 8192 ∧ (vec 0).vl ≤ 8192 ∧ (vec 3).vl ≤ 8192) ∧ (∃ t, exec (.vadd 1 2 3 0 0) (vec 12) = .next t) ∧ (∃ t, exec (.vxor 1 2 3 0 0) (vec 0) = .next t)
    ∧ (∃ t, exec (.vfadd 1 2 3 0 0) (vec 0) = .next t) ∧ (∃ t, exec (.vceq 1 2 3 0 0) (vec 0) = .next t)
    ∧ (∃ t, exec (.vqnt 1 2 0 0 0) (vec 3) = .next t) ∧ ∃ t, exec (.vgath 1 2 3 0 0) (vec 0) = .next t :=
  ⟨by decide, ⟨_, rfl⟩, ⟨_, rfl⟩, ⟨_, rfl⟩, ⟨_, rfl⟩, ⟨_, rfl⟩, ⟨_, rfl⟩⟩

/-- A state with so many words in the convoy that forms. -/
def formed (n : Nat) : State := (vec 12).modConv (fun c => { c with forming := List.replicate n (.vadd 1 2 3 0 1) })

/-- ConvoyForms: a word that goes on the convoy, with room for it or without, and one of the wrong type. -/
theorem test_witness_convoy_forms :
    (∃ w, integerWord (.vadd 1 2 3 0 1) (formed 2) = some w ∧ w.issues ∧ ¬endsConvoy (.vadd 1 2 3 0 1)
      ∧ (formed 2).core.conv.forming.length < 3)
    ∧ (∃ w, integerWord (.vadd 1 2 3 0 1) (formed 3) = some w ∧ w.issues ∧ ¬endsConvoy (.vadd 1 2 3 0 1)
      ∧ (formed 3).core.conv.forming.length = 3 ∧ (formed 3).core.steer.mode = false ∧ (formed 3).core.preq = false
      ∧ (formed 3).core.steer.stepped = false ∧ (formed 3).core.conv.parked = [])
    ∧ (∃ w, floatWord (.vfadd 1 2 3 0 0) (formed 1) = some w ∧ ¬w.issues)
    ∧ (∃ w, floatWord (.vfadd 1 2 3 0 0) ((formed 1).modConv (fun c => { c with parked := [⟨0, [], []⟩] })) = some w ∧ ¬w.issues)
    ∧ (∃ w, convertWord (.vcvt 1 2 1 0 0) (vec 0) = some w) ∧ ∃ w, compareWord (.vceq 1 2 3 0 0) (vec 0) = some w :=
  ⟨⟨_, rfl, by simp only [onElements]; decide, by unfold endsConvoy; decide, by decide⟩,
    ⟨_, rfl, by simp only [onElements]; decide, by unfold endsConvoy; decide, rfl, rfl, rfl, rfl, rfl⟩,
    ⟨_, rfl, by simp only [onElements]; decide⟩, ⟨_, rfl, by simp only [onElements]; decide⟩, ⟨_, rfl⟩, ⟨_, rfl⟩⟩

/-- Rows 4 and 5 under names of other widths too: v7 and v8. -/
def aliased : State := (vec 12).modConv (fun c => { c with
  table := spPut 0 (spPut 0 c.table 7 (.ofNat 64 (1 + 4 * 2 ^ 8 + 2 ^ 32 + 8 * 2 ^ 48))) 8 (.ofNat 64 (1 + 5 * 2 ^ 8 + 2 ^ 32 + 4 * 2 ^ 48)) })

theorem aliased_boundary : aliased.Boundary :=
  ⟨rfl, rfl, rfl, rfl, (vec_boundary 12).trace, rfl, rfl, rfl⟩

/-- Two words that ConvoyForms is about, in the state above. -/
def MeetsPair (i j : Instr) (w v : ElementWord) : Prop :=
  arithmeticWord i aliased = some w ∧ arithmeticWord j aliased = some v ∧ endsConvoy j ∧ w.issues ∧ v.issues
    ∧ (∀ n ∈ w.named ++ v.named, n.holds aliased) ∧ aliased.core.conv.vctl = 0 ∧ aliased.core.steer.mode = false
    ∧ aliased.core.preq = false

/-- ConvoyForms: a second word that reads the first word's result, with every touching pair of one geometry. -/
theorem test_witness_chained : ∃ w v, MeetsPair (.vadd 4 2 3 0 1) (.vmul 5 4 4 0 0) w v ∧ onSfu (.vadd 4 2 3 0 1) = false
    ∧ ∀ x y, touch w v x y aliased → agree x y aliased := by
  refine ⟨_, _, ⟨rfl, rfl, by unfold endsConvoy; decide, by simp only [onElements]; decide, by simp only [onElements]; decide,
    vec_holds (by decide), rfl, rfl, rfl⟩, rfl, ?_⟩
  rintro x y ⟨hx, hy, -, hm⟩
  simp only [onElements, srcNamed, vSrc, List.filterMap_cons, List.filterMap_nil, List.mem_cons, List.not_mem_nil, or_false] at hx hy
  rcases hx with rfl | rfl | rfl <;> rcases hy with rfl | rfl | rfl <;> first | exact absurd hm (by decide) | (unfold agree; decide)

/-- ConvoyForms: a second word that reads the first word's result under a name of another width. -/
theorem test_witness_alias : ∃ w v, MeetsPair (.vadd 4 2 3 0 1) (.vmul 5 7 7 0 0) w v ∧ onSfu (.vadd 4 2 3 0 1) = false
    ∧ ∃ l y r x, v.named = l ++ y :: r ∧ (∀ p, ∀ q ∈ l, touch w v p q aliased → agree p q aliased)
      ∧ touch w v x y aliased ∧ ¬agree x y aliased := by
  refine ⟨_, _, ⟨rfl, rfl, by unfold endsConvoy; decide, by simp only [onElements]; decide, by simp only [onElements]; decide,
    vec_holds (by decide), rfl, rfl, rfl⟩, rfl, [⟨5, 32, 2⟩], ⟨7, 32, 2⟩, [⟨7, 32, 2⟩], ⟨4, 32, 2⟩, rfl, ?_,
    ⟨.head _, .tail _ (.head _), .inl rfl, by decide⟩, by unfold agree; decide⟩
  rintro x y hq ⟨hx, -, -, hm⟩
  simp only [onElements, srcNamed, vSrc, List.filterMap_cons, List.filterMap_nil, List.mem_cons, List.not_mem_nil, or_false] at hx hq
  subst hq
  rcases hx with rfl | rfl | rfl <;> exact absurd hm (by decide)

/-- ConvoyForms: two words of the SFU, and three of the VALU. -/
theorem test_witness_structure :
    (∃ w v, MeetsPair (.vdiv 4 2 3 0 1) (.vrem 5 2 3 0 0) w v) ∧ onSfu (.vdiv 4 2 3 0 1) = true ∧ onSfu (.vrem 5 2 3 0 0) = true
    ∧ (∃ w v, MeetsPair (.vadd 4 2 3 0 1) (.vmul 5 2 3 0 0) w v) ∧ onSfu (.vmul 5 2 3 0 0) = false :=
  ⟨⟨_, _, ⟨rfl, rfl, by unfold endsConvoy; decide, by simp only [onElements]; decide, by simp only [onElements]; decide,
    vec_holds (by decide), rfl, rfl, rfl⟩⟩, rfl, rfl,
   ⟨_, _, ⟨rfl, rfl, by unfold endsConvoy; decide, by simp only [onElements]; decide, by simp only [onElements]; decide,
    vec_holds (by decide), rfl, rfl, rfl⟩⟩, rfl⟩

/-- R112 and R113: the convoys shown after R114, of two SFU words and of a pair whose geometry differs. -/
theorem test_convoy_faults :
    (let t := after (.vrem 5 2 3 0 0) (aliased.modConv (fun c => { c with forming := [.vdiv 4 2 3 0 1] }));
      t.core.steer.causeCode = 0x06 ∧ t.core.conv.cmem = 1 ∧ t.core.steer.tval = 1)
    ∧ (let t := after (.vmul 5 7 7 0 0) (aliased.modConv (fun c => { c with forming := [.vadd 4 2 3 0 1] }));
      t.core.steer.causeCode = 0x07 ∧ t.core.conv.cmem = 1 ∧ t.core.steer.tval = 7) := by decide +kernel

/-- R114: the convoy shown after R117, v5 = v1 + v1 before v1 = v1 + 1, element by element. -/
theorem test_convoy_chains :
    let s := (vec 12).modConv (fun c => { c with plane := [(64, 5), (65, 5)], forming := [.vadd 5 1 1 0 1] })
    let t := after (.vaddi 1 1 0 0) s
    [readCell 5 0 t, readCell 5 1 t, readCell 1 0 t, readCell 1 1 t] = [10, 10, 6, 6] ∧ t.core.conv.cpc = 8 := by decide +kernel

/-- A word that ShapeTraps is about, in a state that meets its premises. -/
def MeetsTrap (s : State) (i : Instr) (named : List (Nat × Nat × Nat)) : Prop :=
  ∃ w, integerWord i s = some w ∧ s.Boundary ∧ endsConvoy i ∧ w.issues ∧ s.core.steer.mode = false ∧ s.core.preq = false
    ∧ w.named = named.map (fun n => ⟨n.1, n.2.1, n.2.2⟩)

/-- ShapeTraps: the second shape is OFF, v1 is too short for VL = 5, and v1 lies in a gated band. -/
theorem test_witness_shape_traps :
    (MeetsTrap (vec 12) (.vadd 1 9 3 0 0) [(1, 32, 2), (9, 32, 2), (3, 32, 2)]
      ∧ (shapeAt 1 (vec 12)).kind ≠ 0 ∧ (shapeAt 9 (vec 12)).kind = 0)
    ∧ (let s := (vec 12).modConv (fun c => { c with vl := 5 })
      MeetsTrap s (.vadd 1 2 3 0 0) [(1, 32, 5), (2, 32, 5), (3, 32, 5)]
      ∧ (∀ n ∈ [1, 2, 3], (shapeAt n s).kind ≠ 0 ∧ shapeTypeBad (shapeAt n s) 32 = false) ∧ (shapeAt 1 s).cap 32 < 5)
    ∧ (let s := (vec 12).modConv (fun c => { c with planepwr := 0 })
      MeetsTrap s (.vadd 1 2 3 0 0) [(1, 32, 2), (2, 32, 2), (3, 32, 2)]
      ∧ (∀ n ∈ [1, 2, 3], (shapeAt n s).kind ≠ 0 ∧ shapeTypeBad (shapeAt n s) 32 = false ∧ 2 ≤ (shapeAt n s).cap 32)
      ∧ shapeGated s.core.conv.planepwr (shapeAt 1 s) = true) := by
  refine ⟨⟨?_, by decide⟩, ⟨?_, by decide⟩, ?_, by decide⟩
  all_goals exact ⟨_, rfl, ⟨rfl, rfl, rfl, rfl, rfl, rfl, rfl, rfl⟩, by unfold endsConvoy; decide, by simp only [onElements]; decide, rfl, rfl, rfl⟩

/-- ShapeTraps: a LANES shape under a 64-bit type. -/
theorem test_witness_shape_type :
    let s := (vec 13).modConv (fun c => { c with table := [(1, .ofNat 64 (2 + 2 ^ 32)), (5, .ofNat 64 (1 + 2 ^ 32 + 8 * 2 ^ 48))] })
    MeetsTrap s (.vadd 5 1 5 0 0) [(5, 64, 2), (1, 64, 2), (5, 64, 2)]
      ∧ (∀ n ∈ [1, 5], (shapeAt n s).kind ≠ 0) ∧ shapeTypeBad (shapeAt 5 s) 64 = false ∧ shapeTypeBad (shapeAt 1 s) 64 = true :=
  ⟨⟨_, rfl, ⟨rfl, rfl, rfl, rfl, rfl, rfl, rfl, rfl⟩, by unfold endsConvoy; decide, by simp only [onElements]; decide, rfl, rfl, rfl⟩, by decide⟩

/-- VissueWord: elements of v4 that hold no legal lane word (0), and elements that hold a word of the integer family. -/
theorem test_witness_vissue :
    (let s := vec 12;
      s.Boundary ∧ s.core.conv.vctl = 0 ∧ s.core.conv.vispos = 0 ∧ s.core.conv.startK = 0 ∧ (⟨4, 32, s.vl⟩ : Named).holds s
      ∧ (∀ p ∈ s.core.conv.masks, p.1 < 65536)
      ∧ ∀ e ∈ (List.range s.vl).filter (fun e => maskBit 0 e s),
        laneInstr 1 [⟨(shapeAt 4 s).box, 0, 1⟩] (elemGet (shapeAt 4 s) 32 e s) s = none)
    ∧ (let j := Instr.vadd 1 2 3 0 0
      let s := (vec 12).modConv (fun c => { c with
        plane := [(64 * 2, 5), (64 * 4, .ofNat 32 (encode j).toNat), (64 * 4 + 1, .ofNat 32 (encode j).toNat)] });
      ∃ w, integerWord j s = some w ∧ w.issues ∧ endsConvoy j ∧ j.wf = true ∧ laneOpcode 1 ((encode j).toNat % 128) = true
        ∧ (∀ n ∈ w.named, n.holds s)
        ∧ (∀ n ∈ w.named.head?, ∀ b ∈ cellBoxes (shapeAt n.shape s), boxesMeet b (shapeAt 4 s).box = false)
        ∧ ∀ e ∈ (List.range s.vl).filter (fun e => maskBit 0 e s), elemGet (shapeAt 4 s) 32 e s = (encode j).toNat) :=
  ⟨⟨vec_boundary 12, rfl, rfl, rfl, ⟨by decide, by decide, by decide, by decide⟩, by decide, by decide⟩,
    ⟨_, rfl, by simp only [onElements]; decide, by unfold endsConvoy; decide, by decide, by decide, vec_holds (by decide),
      by decide, by decide⟩⟩

/-- ArithmeticTrap: the second element is the first that divides by zero. -/
theorem test_witness_arithmetic_trap :
    let s := (vec 12).modConv (fun c => { c with vctl := flagDZ })
    ∃ w, integerWord (.vdiv 1 2 3 0 0) s = some w ∧ w.issues ∧ s.Boundary ∧ (∀ x ∈ w.named, x.holds s)
      ∧ s.core.conv.vctl = flagDZ ∧ s.core.steer.mode = false ∧ s.core.preq = false
      ∧ (let u := w.before (.vdiv 1 2 3 0 0) 1 s
        1 < s.vl ∧ maskBit 0 1 s = true ∧ elemGet (shapeAt 3 u) u.core.conv.ew 1 u = 0
          ∧ elemGet (shapeAt 2 u) u.core.conv.ew 1 u ≠ 0)
      ∧ elemGet (shapeAt 3 s) s.core.conv.ew 0 s ≠ 0 :=
  ⟨_, rfl, by simp only [onElements]; decide, ⟨rfl, rfl, rfl, rfl, rfl, rfl, rfl, rfl⟩, vec_holds (by decide), rfl, rfl, rfl, by decide, by decide⟩

/-- FormatsRoundTrip: the least and the greatest finite numbers of f32 and of E5M2. -/
theorem test_witness_formats : ∀ p ∈ [(0, 1), (0, 0x7F7FFFFF), (4, 1), (4, 0x7B)],
    p.2 < 2 ^ ewOf p.1 ∧ (match (fmtOf p.1).decode p.2 with
      | .fin _ _ _ => true
      | _ => false) = true := by decide

/-! ## Witnesses: events -/

/-- ConvoyEvents: a block to pop. -/
theorem test_witness_block_pop :
    let s := task.modQ (fun q => { q with bq := [⟨64, 3⟩] })
    s.core.convoyLive = true ∧ s.inFlight = false ∧ s.core.conv.st = .idle ∧ s.core.q.bq = [⟨64, 3⟩] := by decide

/-- ConvoyEvents: a convoy of one word to issue. -/
theorem test_witness_convoy_issue : MeetsElements integerWord (vec 12) (.vadd 1 2 3 0 0) ∧ (vec 12).core.live = true
    ∧ (vec 12).core.steer.chalt = false ∧ (vec 12).core.conv.st ≠ .halted ∧ (vec 12).inFlight = false
    ∧ boundaryHeld (vec 12) = false :=
  ⟨⟨_, rfl, vec_boundary 12, by unfold endsConvoy; decide, by simp only [onElements]; decide, rfl,
    vec_holds (by decide), fun _ _ => trivial⟩, by decide, by decide, by decide, by decide, by decide⟩

/-- ConvoyEvents: a VWAIT in flight watches its buoy's line. -/
theorem test_witness_vwait_event :
    let s := writeMaskBit 1 0 true (vec 0)
    s.core.live = true ∧ watches (tcmKey 0 0 / 64) (issued (.vwait 5 6 0 1 1) s) = true := by decide

/-- ConvoyEvents: waits with a limit at PC. -/
theorem test_witness_limit : ∀ i ∈ ([.waitw 1 2 3 0 2 5, .tlwait 1 2 3 62, .barw 1 2 3 1] : List Instr),
    let s := placed (encode i).toNat
    fetchWord s.cur.pc s = some (encode i) ∧ s.agent ≠ .convoy := by
  simp only [List.forall_mem_cons, List.not_mem_nil, false_implies, implies_true, and_true]
  decide +kernel

/-- ConvoyEvents: a chain that met uncorrectable data. -/
theorem test_witness_lad_mem :
    let s := task.modLad (fun l => { l with act := true, err := true, fault := 5 })
    s.core.convoyLive = true ∧ s.inFlight = false ∧ s.core.lad.act = true ∧ s.core.lad.err = true ∧ s.core.steer.mode = false
      ∧ s.core.preq = false ∧ s.core.steer.stepped = false := by decide

/-- ConvoyEvents: RPOP and EPOP that nothing can end. -/
theorem test_witness_queue_deadlock : ∀ i ∈ ([.rpop 1, .epop 1] : List Instr),
    let s := placed (encode i).toNat
    s.agent = .steer ∧ s.core.convoyLive = true ∧ s.core.preq = false ∧ s.core.conv.st = .idle ∧ s.core.q.bq = []
    ∧ s.inFlight = false ∧ s.core.chainRuns = false ∧ ladPending s = false ∧ breakDue s = false
    ∧ s.core.conv.parked = [] ∧ s.core.steer.stepped = false ∧ s.core.conv.trapDue = none ∧ s.core.steer.outs = []
    ∧ s.pkg.contexts = []
    ∧ fetchWord s.core.steer.pc s = some (encode i) ∧ s.core.q.rq = [] ∧ s.core.q.eq = [] := by
  simp only [List.forall_mem_cons, List.not_mem_nil, false_implies, implies_true, and_true]
  decide +kernel

/-- A cluster that runs one group of entry 3, a task on this core and one on the next. -/
def ganged : State :=
  let s := task.modCluster (fun c => { c with
    entries := [(3, { Entry.fresh .kernel .running 1 1 with ended := 0 })]
    groups := [{ entry := 3, index := 0, order := 0, bars := [], nbar := 0, perBar := 1, power := 0, overdue := false
                 tasks := [.placed 0 0 1, .placed 1 0 2] }] })
  { s with core := { s.core with task := { s.core.task with serial := 1 } }, cores := [(1, { Core.reset with run := .running })] }

/-- ConvoyEvents: DEBUG_STOP of each processor, and a gang that runs. -/
theorem test_witness_stop_and_request :
    control.agent = .control ∧ task.agent ≠ .control ∧ task.inFlight = false ∧ task.core.run = .running
    ∧ ganged.core.run = .running ∧ (ganged.taskOf ganged.coreId).isSome = true ∧ (ganged.coreAt 1).run = .running := by decide

/-- ContextEvents: a halted core to save, and one to restore. -/
theorem test_witness_save_restore :
    (let s := task.modCore (fun c => { c with
        run := .halted, conv := { c.conv with masks := [(65535, true)] }, mat := { c.mat with acc := [(16383, 1)] }
        q := { c.q with bq := List.replicate 16 ⟨0, 1⟩, dq := List.replicate 32 0, rq := List.replicate 32 0, eq := List.replicate 16 0 } });
      saveReady s = true ∧ (∀ p ∈ s.core.conv.masks, p.1 < 65536) ∧ (∀ p ∈ s.core.mat.acc, p.1 < 16384)
      ∧ s.core.q.bq.length ≤ 16 ∧ s.core.q.dq.length ≤ 32 ∧ s.core.q.rq.length ≤ 32 ∧ s.core.q.eq.length ≤ 16)
    ∧ (let s := task.modCore (fun c => { c with run := .restoring });
      s.core.run = .restoring ∧ (readMem64 s (slotKey s.coreId + 0x32680 + 8 * 0x028)).getLsbD 4 = false) := by decide +kernel

/-- ContextEvents: reports that leave a task to come, of a feed launch too, and that are the last. -/
theorem test_witness_end_report :
    (let s := ganged.modCluster (fun c => 
        { c with reports := [⟨3, 0, false⟩] }.modEntry 3 (fun e => { e with
          block := { e.block with widlayout := 1, widmax := 1, flags := 2 } }))
      ∃ e, s.cluster.entry? 3 = some e ∧ e.kind = .kernel ∧ e.block.feed = true ∧ e.ended + 1 + e.abandoned ≠ e.block.total)
    ∧ ∃ e, ganged.cluster.entry? 3 = some e ∧ e.kind = .kernel ∧ e.block.feed = false ∧ e.ended + 1 + e.abandoned = e.block.total :=
  ⟨⟨_, rfl, by decide⟩, _, rfl, by decide⟩

/-- ContextEvents: a double trap of a task of a live entry, and a core that clears its TCM. -/
theorem test_witness_abandon_clear :
    (let s := ganged.modCore (fun c => { c with steer := { c.steer with dead := some ⟨5, 6, 8⟩ } });
      s.core.steer.dead = some ⟨5, 6, 8⟩ ∧ s.core.run = .running ∧ (s.taskOf s.coreId).isSome = true
      ∧ (s.cluster.entry? 3).isSome = true ∧ s.frozenAt s.clusterId = false ∧ s.cluster.cqPosts = []
      ∧ s.cluster.cq.length + 4 ≤ 64)
    ∧ (task.modCore (fun c => { c with run := .clearing })).core.run = .clearing := by decide

/-- A task core with one outstanding access. -/
def waitsFor (k : AccKind) (performed : Bool) : State :=
  task.modCur (fun c => { c with outs := [
    { kind := k, rd := 1, key := globKey 64, size := 8, data := 5, expect := 0, va := 64, pc := 0, device := false, via := default
      performed := performed, value := 7 }] })

/-- AccessEvents: a load, a store and a CAS to perform, a load and a store to answer, and a load and a store that time
out. -/
theorem test_witness_outstanding : ∀ k ∈ [AccKind.load, .store, .cas, .amo 1],
    ((waitsFor k true).cur.outs[0]?.map (·.performed) = some true)
    ∧ (let s := waitsFor k false
      s.cur.outs[0]?.map (·.performed) = some false
      ∧ s.cur.outs[0]?.map (fun a => accessPoisoned a s) = some false ∧ s.inFlight = false
      ∧ (∀ b ∈ s.cur.outs.take 0, b.performed = true)) := by decide

/-- AccessEvents: a load whose home holds uncorrectable data, and a second access behind one to another line. -/
theorem test_witness_outstanding_more :
    (let s : State := { waitsFor .load false with poison := [globKey 64] };
      s.cur.outs[0]?.map (fun a => accessPoisoned a s) = some true ∧ s.inFlight = false)
    ∧ (let s := (waitsFor .load false).modCur (fun c => { c with outs := c.outs ++ c.outs.map (fun a => { a with key := a.key + 64 }) });
      s.cur.outs[1]?.map (fun a => (s.cur.outs.take 1).all (fun b =>
        b.performed || (a.device == false && b.key / 64 != a.key / 64))) = some true) := by decide

/-- RegisterWrites and RegisterEvents: a write of TLBINV that waits for an access in flight. -/
theorem test_witness_tlbinv_waits :
    let s := super (mapped (waitsFor .load false))
    tlbinvWaits (.ofNat 64 (2 ^ 62 + 2 ^ 63)) s = true ∧ s.cur.mode = true ∧ csrHeld 0x04A (.ofNat 64 (2 ^ 62 + 2 ^ 63)) s = true := by
  decide

/-- RegisterEvents: each write comes about, and each is held. -/
theorem test_witness_register_events :
    (∀ n ∈ [0x013, 0x061, 0x062, 0x071, 0x04A], csrHeld n 0 (super task) = false)
    ∧ ∀ n ∈ [0x013, 0x061, 0x062, 0x071], csrHeld n 0 (task.modQ (fun q => { q with bq := [⟨0, 1⟩] })) = true := by decide

/-- Tables that map the first GiB of GLOB addresses. -/
def tabled (s : State) : State := placeTables (s.modCur (fun c => { c with ptroot := placedRoot }))

/-- AccessEvents: a table whose leaf maps the first GiB. -/
theorem test_witness_table_walk : tableWalk (tabled task) placedRoot 64 = .leaf (.ofNat 64 (0xFFF * 2 ^ 42 + 7)) 30 := by decide +kernel

/-- AccessEvents: the host's access and the debug port's, at the ends of their ranges. -/
theorem test_witness_host_access :
    0xBFFFFFFFF8 + 8 ≤ 0xC000000000 ∧ (2 ^ 56 ≤ 2 ^ 56 + 2 ^ 52 - 8 ∧ 2 ^ 56 + 2 ^ 52 - 8 + 8 ≤ 2 ^ 56 + 2 ^ 52)
    ∧ 262136 + 8 ≤ 262144
    ∧ task.pkg.frozen = false ∧ task.pkg.unpowered = false
    ∧ (let s := (task.modCluster (fun c => { c with frozen := true })).modPkg (fun p => { p with debugEn := true })
      s.pkg.debugEn = true ∧ s.pkg.frozen = false ∧ s.cluster.frozen = true ∧ s.coreId < 2304) := by decide

/-- AccessEvents: a vector load in flight. -/
theorem test_witness_arrival : MeetsElements accessWord (vecMore 10) (.vld 1 2 0 0 0 0) ∧ (vecMore 10).core.live = true :=
  ⟨test_witness_vector_access _ (.head _), by decide⟩

/-- R391: in a frozen cluster the debug port writes CPC, and of the convoy in flight the next element. -/
theorem test_debug_raw :
    let s := ((vec 0).modCluster (fun c => { c with frozen := true })).modPkg (fun p => { p with debugEn := true })
    (after (.debugPortAccess true (2 ^ 80 + 0x020) 0x40) s).core.conv.cpc = 0x40
    ∧ (after (.debugPortAccess true (2 ^ 80 + 36 * 2 ^ 28) 3) s).core.conv.flight.map (·.next) = some 3
    ∧ (after (.debugPortAccess true (2 ^ 80 + 0x020) 0x40) (vec 0)).core.conv.cpc = (vec 0).core.conv.cpc := by decide +kernel

/-- R166, R198: a BRK under BRKH stops with TVAL its code; the debugger's return goes on after it. -/
theorem test_debug_resume :
    let s := (task.modPkg (fun p => { p with debugEn := true })).modCur (fun c => { c with sdbg := 2, pc := 0x40, tvec := 0x80 })
    let t := after (.brk 5) s
    let u := after (.debugPortAccess true (2 ^ 80 + 8 * 2 ^ 28) 1) t
    t.cur.stopped = true ∧ t.cur.tval = 5 ∧ u.cur.stopped = false ∧ u.cur.pc = 0x44 ∧ u.cur.mode = false
      ∧ u.cur.chalt = false := by decide +kernel

/-- GangAndChainEvents: a chain at rung 0 of an empty ladder of two. -/
theorem test_witness_carry_chain :
    let s := (vec 0).modLad (fun l => { l with act := true, tile := some [(0, 5)] })
    s.core.chainRuns = true ∧ s.core.lad.tile = some [(0, 5)] ∧ s.core.lad.lvl = 0 ∧ 2 ≤ lcfgMax s.core.lad.lcfgr
      ∧ s.core.lad.lcnt.getLsbD 0 = false := by decide

/-- R268, R277, R285: LCNT may name a rung that stood in the area before LCFG, and no rung that nothing has written; a
store of another in the area leaves its rungs to any value. -/
theorem test_rung_area :
    let w : Word := .ofNat 64 (2 ^ 32 + 2 ^ 40 + 2 * 2 ^ 48)
    let s := configureLadder w (storeMem (spadKey 0 0) 4 9 task)
    (after (.lcntWrite 1) s).core.lad.wild = false ∧ readRung (after (.lcntWrite 1) s) 0 0 = 9
    ∧ (after (.lcntWrite 1) (configureLadder w task)).core.lad.wild = true
    ∧ s.areaBroken = false ∧ (storeMem (spadKey 0 4) 4 7 s).areaBroken = true
    ∧ (breakAreas (storeMem (spadKey 0 4) 4 7 s)).areaBroken = true ∧ (breakAreas s).watches = s.watches := by decide +kernel

/-- A share of a ganged product of one element, with A in v2. -/
def oneShare : Share :=
  { issuer := 1, issuerTask := 2, events := [], issuerSlot := 1, pos := 7, a := 2, slab := 0, bar := some 3, vtype := 0, msize := 0x010101, mrowp := 1
    mcolp := 1, b := [(0, 7)], head := 0, mark := 0, ended := false }

/-- GangAndChainEvents: a share to perform, the issuer's own, and shares that are done, with a barrier and without. -/
theorem test_witness_shares :
    (let s := (vec 0).modGang (fun g => { g with shares := [oneShare] })
      let v := shapeAt oneShare.a.toNat s
      s.core.gang.shares = [oneShare] ∧ oneShare.ended = false ∧ oneShare ∉ ([] : List Share) ∧ oneShare.pos < 8
      ∧ s.core.mat.en = true
      ∧ v.kind ≠ 0 ∧ oneShare.vtype.toNat % 16 ≤ 4 ∧ shapeGated s.core.conv.planepwr v = false
      ∧ viewHolds v 32 (sizeM oneShare.msize) (sizeK oneShare.msize) = true)
    ∧ multicastPending ((vec 0).modGang (fun g => { g with shares := [{ oneShare with pos := 8 }] })) = false
    ∧ (let h := { oneShare with ended := true }
      h.ended = true ∧ eventsIn ((vec 0).modGang (fun g => { g with shares := [h] })) h = true) ∧ oneShare.bar = some 3
    ∧ ({ oneShare with bar := none } : Share).bar = none := by decide

/-- SchedulerEvents: a dependency that failed. -/
theorem test_witness_dependency :
    let s := control.modContext 0x40000000 (fun c => { c with failed := true, err := 1, finished := [(1, 1)], next := 2 })
    let b := { LaunchBlock.zero with deph := 0x4000000000000000, depv := 1 }
    b.deph ≠ 0 ∧ (s.context (ctxKey b.deph)).settled b.depv = some false := by decide

/-- SchedulerEvents: a kernel whose stream is in place, and one whose stream failed. -/
theorem test_witness_entry_ready : ∀ err ∈ [0, 4],
    let s := control.modCluster (fun c => { c with entries :=
      [(1, { Entry.fresh .kernel .waiting 1 1 with streams := [4] }), (4, { Entry.fresh .streamIn .done 1 1 with err := err })] })
    (s.cluster.entry? 1).map (fun e => (e.kind, e.st, e.streams, e.block.deph)) = some (.kernel, .waiting, [4], 0)
      ∧ (s.cluster.entry? 4).map (fun y => (y.st, y.err)) = some (.done, err) := by decide

/-- A cluster with one kernel entry of one task that is ready. -/
def readyKernel : Entry := { Entry.fresh .kernel .ready 1 1 with upTo := 1 }

/-- SchedulerEvents: the kernel may be placed on core 0. -/
theorem test_witness_fantail :
    let s := control.modCluster (fun c => { c with entries := [(2, readyKernel)], grant := 100000 });
    s.cluster.entries = [(2, readyKernel)] ∧ readyKernel.block.cmask = 0 ∧ readyKernel.block.gang = 1
    ∧ readyKernel.block.nbar = 0 ∧ readyKernel.block.prio.toNat ≤ 3 ∧ readyKernel.block.feed = false ∧ readyKernel.next + 1 = readyKernel.upTo ∧ readyKernel.overdue = false
    ∧ s.cluster.groups = [] ∧ s.cluster.reserved = [] ∧ clusterHeld s s.clusterId = false
    ∧ readyKernel.block.power.toNat ≤ s.cluster.grant.toNat ∧ (freeCores s s.clusterId 2).head? = some 0
    ∧ placeable s.cluster 2 readyKernel = true := by decide +kernel

/-- A kernel of priority 2 that may pre-empt, and one of priority 0 that runs on core 0 while the other cores are busy. -/
def crowded : State :=
  let low : PlacedGroup := { entry := 5, index := 0, order := 0, bars := [], nbar := 0, perBar := 1, power := 0, overdue := false
                             tasks := [.placed 0 0 1] }
  let high := { readyKernel with block := { readyKernel.block with prio := 2, flags := 1 } }
  let s := control.modCluster (fun c => { c with
    entries := [(2, high), (5, { Entry.fresh .kernel .running 1 1 with upTo := 1, next := 1 })]
    groups := [low], grant := 100000, cparkN := 4 })
  { s with core := { s.core with run := .running }
           cores := (List.range 95).map (fun n => (n + 1, { Core.reset with run := .running })) }

/-- SchedulerEvents: pre-emption frees the one core that the kernel lacks. -/
theorem test_witness_preemption :
    (crowded.cluster.entry? 2).isSome = true
    ∧ (let s := crowded
      let e := { readyKernel with block := { readyKernel.block with prio := 2, flags := 1 } }
      let lack := coresLacked s s.clusterId 2 e
      let cores := (chooseGroups (lowerGroups s.cluster e.block.prio.toNat) lack).flatMap PlacedGroup.cores
      s.cluster.entry? 2 = some e ∧ placeable s.cluster 2 e = true ∧ clusterHeld s s.clusterId = false
      ∧ e.block.preempt = true ∧ lack ≠ 0 ∧ powerFits s s.clusterId (nextSize s.cluster 2 e) e = true
      ∧ lack ≤ cores.length ∧ slotsPromised s s.cluster + cores.length ≤ (freeSlots s.cluster).length) := by decide +kernel

/-- A stream of 64 bytes of host memory in hand, for the shipped dispatcher. -/
def hostStream (k : EntryKind) : Entry :=
  { Entry.fresh k .running 1 1 with direct := true, src := .ofNat 64 (2 ^ 56), dst := .ofNat 64 (2 ^ 56 + 64), len := 64 }

/-- SchedulerEvents: the places of that stream, none of which is both read and written. -/
theorem test_witness_copy_places (k : EntryKind) :
    CopyPlaces control (hostStream k) (2 ^ 56 + ·) (2 ^ 56 + 64 + ·)
    ∧ (∀ i j, i < (hostStream k).len → j < (hostStream k).len → 2 ^ 56 + i ≠ 2 ^ 56 + 64 + j
      ∧ (2 ^ 56 + 64 + i = 2 ^ 56 + 64 + j → i = j)) := by
  refine ⟨?_, fun i j hi hj => by simp only [hostStream, Entry.fresh] at hi hj; omega⟩
  intro u _ _ _ _ i hi
  have hi : i < 64 := hi
  have h1 : (BitVec.ofNat 64 ((hostStream k).src.toNat + i)).toNat = 2 ^ 56 + i := by
    simp [hostStream]; omega
  have h2 : (BitVec.ofNat 64 ((hostStream k).dst.toNat + i)).toNat = 2 ^ 56 + 64 + i := by
    simp [hostStream]; omega
  have hd : (pumpCmd (hostStream k) false).direct = true := rfl
  have p1 : paLoc u (2 ^ 56 + i) = .mem (2 ^ 56 + i) false := by
    unfold paLoc; rw [if_pos (by omega), if_pos (by omega)]; congr 1; omega
  have p2 : paLoc u (2 ^ 56 + 64 + i) = .mem (2 ^ 56 + 64 + i) false := by
    unfold paLoc; rw [if_pos (by omega), if_pos (by omega)]; congr 1; omega
  constructor
  · simp only [engineLoc, h1, hd, if_neg (show ¬2 ^ 57 ≤ 2 ^ 56 + i by omega), if_true, p1, PaLoc.bytes]
  · simp only [engineLoc, h2, hd, if_neg (show ¬2 ^ 57 ≤ 2 ^ 56 + 64 + i by omega), if_true, p2, PaLoc.bytes]

/-- SchedulerEvents: a stream-in and a stream-out in hand, of length 64 and of length 0, and a crossing of an attached
queue. -/
theorem test_witness_pump_and_feed :
    (∀ k ∈ [EntryKind.streamIn, .streamOut], ∀ n ∈ [0, 64],
      let e := { hostStream k with len := n, target := 6 }
      let s := control.modCluster (fun c => { c with entries := [(6, Entry.fresh .streamIn .done 1 1), (7, e)] })
      s.cluster.entry? 7 = some e ∧ e.st = .running ∧ (s.cluster.entries.map (·.1)).Nodup ∧ e.kind = k ∧ s.poison = []
      ∧ (s.context (entryCtx s.clusterId e)).failedBelow e.num = false)
    ∧ (let f : FeedQueue := { FeedQueue.reset with cap := 8, written := [0], attached := some 3 }
      let s := control.modCluster (fun c => { c with entries := [(3, Entry.fresh .kernel .running 1 1)], feeds := [(5, f)] })
      (s.cluster.feed 5).written = [0] ∧ (s.cluster.feed 5).attached = some 3
        ∧ (s.cluster.entry? 3).isSome = true) := by decide +kernel

/-- A command at the head of a context. -/
def withCommand (h : Nat) (op : CmdOp) (desc : Nat) (s : State) : State :=
  (tabled s).modContext h (fun c => { c with next := 2, cmds := [
    { op := op, num := 1, desc := desc, ptroot := placedRoot, super := true, promoted := false, task := none, deadline := 0, since := 1, clash := false, move := none }] })

/-- EngineEvents: FILL of one row of eight bytes at the end of the die store; its failure. -/
theorem test_witness_fill :
    let desc := 0x5FFFFF8 * 2 ^ 64 + 8 * 2 ^ 128 + 8 * 2 ^ 160 + 2 ^ 192
    let s := withCommand 0x10000000 .fill desc task
    let d := copyDesc desc
    (headCommand s 0x10000000).map (fun c => (c.op, commandHeld 0x10000000 c s)) = some (.fill, false)
    ∧ (s.context 0x10000000).failed = false ∧ 3 ∈ CmdOp.fill.codes ∧ 7 ∉ CmdOp.fill.codes
    ∧ d.valid .fill = true ∧ d.esz = 0 ∧ d.n1 = 1 ∧ d.swzD = false ∧ d.spcD = 2 ∧ d.dst + d.n0 ≤ 0x6000000 ∧ d.n0 = 8
    ∧ s.poison = [] := by decide +kernel

/-- A collective of packages 5 and 9, this one the member of rank 0 that only sends. -/
def collecting (op : CmdOp) (root : Nat) : State :=
  let desc := 64 + 0x2000 * 2 ^ 128 + 4 * 2 ^ 192 + 2 * 2 ^ 240 + root * 2 ^ 272 + 77 * 2 ^ 320
  let s := withCommand 0x30060000 op desc task
  writeMem (globKey 0x2000) 2 5 (writeMem (globKey 0x2002) 2 9 { s with fab := { s.fab with pkg := 5, dmax := 2048 } })

/-- The head command of a context is of an operation, has no destination, no fault, and a source that can be read. -/
def collectReady (h : Nat) (op : CmdOp) (s : State) : Bool :=
  match headCommand s h with
  | none => false
  | some c =>
    let d := collDesc c.desc
    let u := walkPages h c s
    decide (c.op = op) && !d.needsDst c.op && decide (collFault h c s = none) && decide (collFault h c u = none)
      && (engineWords (c.plain h) d.src d.elem d.count u).isOk

/-- EngineEvents: CRED to the root of rank 1, with every member in reach. -/
theorem test_witness_collective : collectReady 0x30060000 .cred (collecting .cred 1) = true := by decide +kernel

/-- EngineEvents: a collective whose descriptor is invalid. -/
theorem test_witness_collective_fault :
    let s := withCommand 0x30060000 .cbcast 0 task
    (headCommand s 0x30060000).map (fun c => collFault 0x30060000 c (walkPages 0x30060000 c s)) = some (some 1) := by
  decide +kernel

/-- HostEvents: no request and a settled one, and the scopes at the ends of their ranges. -/
theorem test_witness_host_events :
    task.pkg.preqBusy = false
    ∧ (let s := task.modPkg (fun p => { p with preqBusy := true, preqTasks := [7], debugEn := true });
      s.pkg.preqBusy = true ∧ (∀ n ∈ s.pkg.preqTasks, preqSettled s n = true) ∧ s.pkg.debugEn = true)
    ∧ task.pkg.debugEn = false
    ∧ preqMatches 0xFF 0xFF 0xFF 0 = true
    ∧ ((0x2A0 : BitVec 64).toNat / 2 ^ 8 % 4 < 3 ∧ (0x2A0 : BitVec 64).toNat / 2 ^ 5 % 8 < 6)
    ∧ ((0x1A0 : BitVec 64).toNat / 2 ^ 8 % 4 < 2 ∧ (0x1A0 : BitVec 64).toNat / 2 ^ 5 % 8 < 6)
    ∧ (∀ l, l < 24 → (task.clusterAt l).eqPosts = []) := by decide +kernel

/-- MailboxEvents: a package in READY, and one in RECOVERY whose window holds no image. -/
theorem test_witness_mailbox :
    control.pkg.bootState = 2 ∧ control.pkg.mbBusy = false ∧ control.pkg.unpowered = false
    ∧ (let s := control.modPkg (fun p => { p with bootState := 3 });
      s.pkg.bootState = 3 ∧ s.pkg.mbBusy = false ∧ s.pkg.unpowered = false ∧ s.mem.wf = true
        ∧ (0 : BitVec 64).toNat % 2 ^ 32 ≠ 0x2000 + readMem s (recoveryKey 12) 4) := by decide +kernel

/-- PowerAndLinkEvents: a grant that is pending, a port that is up, with a flit to replay and without, one in training and
one that is down, and one master. -/
theorem test_witness_power_and_links :
    (task.pkg.frozen = false ∧ task.pkg.unpowered = false)
    ∧ (({ task with die := { task.die with pending := some 500 } } : State).dieAt 0).pending = some 500
    ∧ (let s : State := { task with fab := { task.fab with ports := [(17, { Port.reset with state := 2, width := 8 })] } };
      (s.port 17).isUp = true ∧ (s.port 17).heldFrom 5 = [] ∧ (s.port 16).trains = true)
    ∧ ({ Port.reset with state := 3, replays := 16 } : Port).trains = true ∧ ({ Port.reset with state := 1 } : Port).state = 1
    ∧ (let q : Port := { Port.reset with state := 2, held := [⟨5, 0, false, 0, 0, 0⟩] };
      q.heldFrom 5 ≠ [] ∧ q.held.length ≤ 512)
    ∧ task.fab.master = false ∧ (0x1FFFFFFFF : BitVec 64).toNat / 2 ^ 32 = 1
    ∧ ({ task.fab with master := true } : Fab).master = true ∧ (0xFFFFFFFF : BitVec 64).toNat / 2 ^ 32 = 0 := by decide +kernel

/-- SHA3-512 of the empty string: the first bytes that FIPS 202 gives (18_package.md R387). -/
theorem test_sha3_empty : (sha3 []).take 8 = [0xA6, 0x9F, 0x73, 0xCC, 0xA2, 0x3A, 0x9A, 0xC5] := by decide +kernel

end Sys2Proof.Tests
end

/-! ## Memory stays canonical (00_scope.md R6, 09_core_memory.md R240)

Every write of memory goes through `writeByte` or `clearMem`, or is the reset of the package, and each of these keeps the
canonical form (Laws/Memory.lean). What follows says, for each operation in the order of the model's files, that it keeps the
form too: an operation that leaves memory alone by `h` itself, another by the lemmas of the operations that it calls. -/

namespace Sys2Proof.Machine

/-- The memory of the state that an outcome carries is canonical. -/
@[simp] def ResultCanonical : Result → Prop
  | .next t => t.MemoryCanonical
  | _ => True

/-- A state that may be there has canonical memory. -/
def OptionCanonical (o : Option State) : Prop := ∀ t, o = some t → t.MemoryCanonical

theorem ResultCanonical.of_eq {r r' : Result} (e : r = r') (h : ResultCanonical r) : ResultCanonical r' := e ▸ h

section Operations

variable {s : State}

/-! ### Updates that leave memory alone -/

theorem modCore_canonical {f : Core → Core} (h : s.MemoryCanonical) : (s.modCore f).MemoryCanonical := h
theorem modSteer_canonical {f : Steer → Steer} (h : s.MemoryCanonical) : (s.modSteer f).MemoryCanonical := h
theorem modConv_canonical {f : Conv → Conv} (h : s.MemoryCanonical) : (s.modConv f).MemoryCanonical := h
theorem modQ_canonical {f : Queues → Queues} (h : s.MemoryCanonical) : (s.modQ f).MemoryCanonical := h
theorem modMat_canonical {f : Matrix → Matrix} (h : s.MemoryCanonical) : (s.modMat f).MemoryCanonical := h
theorem modLad_canonical {f : Ladder → Ladder} (h : s.MemoryCanonical) : (s.modLad f).MemoryCanonical := h
theorem modGang_canonical {f : Gang → Gang} (h : s.MemoryCanonical) : (s.modGang f).MemoryCanonical := h
theorem modTrace_canonical {f : Trace → Trace} (h : s.MemoryCanonical) : (s.modTrace f).MemoryCanonical := h
theorem modCluster_canonical {f : Cluster → Cluster} (h : s.MemoryCanonical) : (s.modCluster f).MemoryCanonical := h
theorem modDie_canonical {f : Die → Die} (h : s.MemoryCanonical) : (s.modDie f).MemoryCanonical := h
theorem modPkg_canonical {f : Pkg → Pkg} (h : s.MemoryCanonical) : (s.modPkg f).MemoryCanonical := h
theorem modFab_canonical {f : Fab → Fab} (h : s.MemoryCanonical) : (s.modFab f).MemoryCanonical := h
theorem modContext_canonical {key : Nat} {f : Context → Context} (h : s.MemoryCanonical) :
    (s.modContext key f).MemoryCanonical := h
theorem tickUp_canonical (h : s.MemoryCanonical) : s.tickUp.MemoryCanonical := h
theorem clockRead_canonical (h : s.MemoryCanonical) : s.clockRead.MemoryCanonical := h
theorem useUp_canonical {key n : Nat} (h : s.MemoryCanonical) : (useUp key n s).MemoryCanonical := h
theorem endWatch_canonical {entry : Nat} (h : s.MemoryCanonical) : (endWatch entry s).MemoryCanonical := h

/-! ### Focus, registers and traps -/

theorem ite_canonical {c : Prop} {_ : Decidable c} {t : State} (h : s.MemoryCanonical) (h' : t.MemoryCanonical) :
    (if c then s else t).MemoryCanonical := by
  split
  · exact h
  · exact h'

theorem setCoreAt_canonical {c : Nat} {v : Core} (h : s.MemoryCanonical) : (s.setCoreAt c v).MemoryCanonical := by
  unfold State.setCoreAt
  split <;> exact h

theorem setClusterAt_canonical {l : Nat} {v : Cluster} (h : s.MemoryCanonical) :
    (s.setClusterAt l v).MemoryCanonical := by
  unfold State.setClusterAt
  split <;> exact h

theorem setDieAt_canonical {d : Nat} {v : Die} (h : s.MemoryCanonical) : (s.setDieAt d v).MemoryCanonical := by
  unfold State.setDieAt
  split <;> exact h

theorem modCoreAt_canonical {c : Nat} {f : Core → Core} (h : s.MemoryCanonical) :
    (s.modCoreAt c f).MemoryCanonical := setCoreAt_canonical h

theorem modClusterAt_canonical {l : Nat} {f : Cluster → Cluster} (h : s.MemoryCanonical) :
    (s.modClusterAt l f).MemoryCanonical :=
  setClusterAt_canonical h

theorem modDieAt_canonical {d : Nat} {f : Die → Die} (h : s.MemoryCanonical) :
    (s.modDieAt d f).MemoryCanonical := setDieAt_canonical h

theorem focus_canonical {c : Nat} (h : s.MemoryCanonical) : (s.focus c).MemoryCanonical := by
  unfold State.focus
  split <;> exact h

theorem modCur_canonical {f : Steer → Steer} (h : s.MemoryCanonical) :
    (s.modCur f).MemoryCanonical := canonical_of_mem h (by simp)

theorem writeReg_canonical {r : BitVec 5} {v : Word} (h : s.MemoryCanonical) :
    (writeReg r v s).MemoryCanonical := canonical_of_mem h (by simp)

theorem setPc_canonical {pc : BitVec 32} (h : s.MemoryCanonical) :
    (setPc pc s).MemoryCanonical := canonical_of_mem h (by simp)

theorem advance_canonical (h : s.MemoryCanonical) : (advance s).MemoryCanonical := canonical_of_mem h (by simp)

theorem retire_canonical {r : BitVec 5} {v : Word} (h : s.MemoryCanonical) : ResultCanonical (retire r v s) :=
  advance_canonical (writeReg_canonical h)

theorem takeTrapTask_canonical {t : Trap} (h : s.MemoryCanonical) : (takeTrapTask t s).MemoryCanonical := by
  unfold takeTrapTask
  split
  · exact h
  · split <;> exact h

theorem takeTrapControl_canonical {t : Trap} (h : s.MemoryCanonical) : (takeTrapControl t s).MemoryCanonical := by
  unfold takeTrapControl
  split <;> exact h

theorem takeTrap_canonical {t : Trap} (h : s.MemoryCanonical) : (takeTrap t s).MemoryCanonical := by
  unfold takeTrap
  split
  · exact takeTrapControl_canonical h
  · exact takeTrapTask_canonical h

theorem trapReturn_canonical (h : s.MemoryCanonical) : (trapReturn s).MemoryCanonical := by
  unfold trapReturn
  split <;> exact h

theorem steerFault_canonical {c : Cause} {tval : Word} (h : s.MemoryCanonical) :
    ResultCanonical (steerFault c tval s) := by
  unfold steerFault
  split
  · exact h
  · exact takeTrap_canonical (modCur_canonical h)

theorem steerTrapNext_canonical {c : Cause} {tval : Word} (h : s.MemoryCanonical) :
    ResultCanonical (steerTrapNext c tval s) := by
  unfold steerTrapNext
  split
  · exact h
  · exact takeTrap_canonical (modCur_canonical h)

theorem steerMemFault_canonical {f : MemFault} {w : Want} {space : BitVec 2} {tval : Word} (h : s.MemoryCanonical) :
    ResultCanonical (steerMemFault f w space tval s) := by
  unfold steerMemFault
  split
  · exact h
  · exact steerFault_canonical (modCur_canonical h)

theorem elemSet_canonical {v : Shape} {ew i x : Nat} (h : s.MemoryCanonical) :
    (elemSet v ew i x s).MemoryCanonical := by
  unfold elemSet
  split
  split <;> exact h

/-! ### Events, messages and the scoreboard of a cluster -/

theorem postSaved_canonical {l : Nat} {t : GangTask} {ev : Word} (h : s.MemoryCanonical) :
    (postSaved l t ev s).MemoryCanonical := by
  have hwait := fun ps => modClusterAt_canonical (l := l) (f := fun c => { c with eqPosts := c.eqPosts ++ ps }) h
  unfold postSaved
  split
  · exact hwait _
  · split
    · exact hwait _
    · dsimp only
      split
      · exact ite_canonical (writeMem_canonical _ _ _ (writeMem_canonical _ _ _ h)) (hwait _)
      · exact hwait _

theorem postTask_canonical {serial : Nat} {ev : Word} (h : s.MemoryCanonical) :
    (postTask serial ev s).MemoryCanonical := by
  unfold postTask
  split
  · exact h
  · split
    · exact postSaved_canonical h
    · split
      · exact modCoreAt_canonical h
      · exact postSaved_canonical h
      · exact h

theorem cqSettle_canonical {l : Nat} (h : s.MemoryCanonical) :
    (cqSettle l s).MemoryCanonical := modClusterAt_canonical h

theorem cqPost_canonical {l : Nat} {m : List Word} (h : s.MemoryCanonical) : (cqPost l m s).MemoryCanonical :=
  ite_canonical (modClusterAt_canonical h) (cqSettle_canonical (modClusterAt_canonical h))

theorem entryDone_canonical {l i : Nat} {err : BitVec 8} (h : s.MemoryCanonical) :
    (entryDone l i err s).MemoryCanonical := by
  unfold entryDone
  split
  · exact h
  · apply modClusterAt_canonical
    exact h

theorem refreshHome_canonical {l i : Nat} (h : s.MemoryCanonical) : (refreshHome l i s).MemoryCanonical :=
  ite_canonical h (modClusterAt_canonical h)

theorem refreshProxy_canonical (u : State) (p : Nat × Entry) (hu : u.MemoryCanonical) :
    (if p.2.kind = .proxy then refreshHome p.2.home.1 p.2.home.2 u else u).MemoryCanonical :=
  ite_canonical (refreshHome_canonical hu) hu

theorem refreshEntries_canonical {l : Nat} (h : s.MemoryCanonical) : (refreshEntries l s).MemoryCanonical :=
  foldl_canonical _ refreshProxy_canonical _
    (foldl_canonical _ (fun _ _ hu => refreshHome_canonical hu) _ (modClusterAt_canonical h))

theorem placeTask_canonical {l serial : Nat} {p : TaskPlace} (h : s.MemoryCanonical) :
    (s.placeTask l serial p).MemoryCanonical :=
  refreshEntries_canonical (modClusterAt_canonical h)

theorem proxyCount_canonical {l i : Nat} (h : s.MemoryCanonical) : (proxyCount l i s).MemoryCanonical := by
  unfold proxyCount
  split
  · exact h
  · exact ite_canonical (modClusterAt_canonical h) h

/-! ### The end of tasks, and pre-emption -/

theorem releaseCore_canonical {core : Nat} (h : s.MemoryCanonical) :
    (releaseCore core s).MemoryCanonical := modCoreAt_canonical h

theorem withdrawSaved_canonical {l : Nat} {t : GangTask} {slot : Nat} (h : s.MemoryCanonical) :
    (withdrawSaved l t slot s).MemoryCanonical := by
  unfold withdrawSaved
  split
  · exact h
  · exact ite_canonical (writeMem_canonical _ _ _ h) h

theorem tellGang_canonical {l : Nat} {g : PlacedGroup} {slot : Nat} {code : BitVec 8} (h : s.MemoryCanonical) :
    (tellGang l g slot code s).MemoryCanonical :=
  foldl_canonical _ (fun _ _ ht => ite_canonical (modCoreAt_canonical (postTask_canonical ht))
    (withdrawSaved_canonical (postTask_canonical ht))) _ h

theorem endTaskOn_canonical {core : Nat} {aborted : Bool} (h : s.MemoryCanonical) :
    (endTaskOn core aborted s).MemoryCanonical := by
  unfold endTaskOn
  split
  · exact releaseCore_canonical h
  · have h1 : ∀ serial, (releaseCore core (endWatch (ladderWatch serial)
        (s.placeTask (clusterOf core) serial .ended))).MemoryCanonical :=
      fun _ => releaseCore_canonical (endWatch_canonical (placeTask_canonical h))
    exact proxyCount_canonical (ite_canonical (modClusterAt_canonical (h1 _)) (h1 _))

theorem kernelCount_canonical {l i : Nat} (h : s.MemoryCanonical) : (kernelCount l i s).MemoryCanonical := by
  unfold kernelCount
  split
  · exact h
  · exact ite_canonical (entryDone_canonical h) h

theorem countLost_canonical {l i n : Nat} (h : s.MemoryCanonical) : (countLost l i n s).MemoryCanonical :=
  ite_canonical (modClusterAt_canonical h) (kernelCount_canonical (modClusterAt_canonical h))

theorem settleLost_canonical {l : Nat} (h : s.MemoryCanonical) : (settleLost l s).MemoryCanonical :=
  refreshEntries_canonical (foldl_canonical _ (fun _ _ ht => countLost_canonical ht) _ (modClusterAt_canonical h))

theorem abandonTask_canonical {core : Nat} {d : DoubleTrap} (h : s.MemoryCanonical) :
    (abandonTask core d s).MemoryCanonical := by
  unfold abandonTask
  split
  · exact releaseCore_canonical h
  · have h1 : ∀ serial p, (releaseCore core (endWatch (ladderWatch serial)
        (s.placeTask (clusterOf core) serial p))).MemoryCanonical :=
      fun _ _ => releaseCore_canonical (endWatch_canonical (placeTask_canonical h))
    refine proxyCount_canonical (ite_canonical ?_ (countLost_canonical ?_)) <;>
      exact cqPost_canonical (ite_canonical (h1 _ _) (tellGang_canonical (h1 _ _)))

theorem requestGroup_canonical {g : PlacedGroup} (h : s.MemoryCanonical) : (requestGroup g s).MemoryCanonical :=
  foldl_canonical _ (fun _ _ ht => modCoreAt_canonical ht) _ h

theorem requestCore_canonical {core : Nat} (h : s.MemoryCanonical) : (requestCore core s).MemoryCanonical := by
  unfold requestCore
  split
  · exact h
  · split
    · exact modCoreAt_canonical h
    · exact requestGroup_canonical h

/-! ### Lantern's records -/

theorem closeFrame_canonical {core : Nat} (h : s.MemoryCanonical) : (closeFrame core s).MemoryCanonical := by
  unfold closeFrame
  dsimp only
  split
  · exact h
  · exact modCoreAt_canonical (ite_canonical (writeBytes_canonical _ _ (clearMem_canonical _ _ h)) h)

theorem appendRecord_canonical {now : Word} {delta key : Nat} {header : Byte} {head : BitVec 32} (h : s.MemoryCanonical) :
    (appendRecord now delta key header head s).MemoryCanonical :=
  ite_canonical h (closeFrame_canonical h)

theorem emitRecord_canonical {isEnd : Bool} {pipe mem cnt : Nat} (h : s.MemoryCanonical) :
    (emitRecord isEnd pipe mem cnt s).MemoryCanonical := by
  unfold emitRecord
  dsimp only
  split
  · exact h
  · split
    · exact h
    · apply appendRecord_canonical
      exact h

end Operations

section Package

variable {s : State}

/-! ### Resets and the boot -/

theorem abandonShares_canonical {l : Nat} (h : s.MemoryCanonical) : (abandonShares l s).MemoryCanonical :=
  foldl_canonical _ (fun _ _ ht => ite_canonical (countLost_canonical ht) ht) _ h

theorem releaseCores_canonical {l : Nat} (h : s.MemoryCanonical) : (releaseCores l s).MemoryCanonical :=
  foldl_canonical _ (fun _ _ ht => ite_canonical ht (modCoreAt_canonical (releaseCore_canonical ht))) _ h

theorem forgetAreas_canonical {l : Nat} (h : s.MemoryCanonical) : (forgetAreas l s).MemoryCanonical := useUp_canonical h

theorem resetCluster_canonical {l : Nat} (h : s.MemoryCanonical) : (resetCluster l s).MemoryCanonical := by
  have h1 : (forgetAreas l (releaseCores l (abandonShares l s))).MemoryCanonical :=
    forgetAreas_canonical (releaseCores_canonical (abandonShares_canonical h))
  have h2 := clearMem_canonical (ctlTcmKey l 0) (2 ^ 18) (clearMem_canonical (spadKey l 0) (2 ^ 25) h1)
  exact modPkg_canonical (foldl_canonical _ (fun _ _ ht => modContext_canonical ht) _ (modClusterAt_canonical h2))

theorem resetClusters_canonical {mask : BitVec 24} (h : s.MemoryCanonical) : (resetClusters mask s).MemoryCanonical :=
  foldl_canonical _ (fun _ _ ht => ite_canonical (resetCluster_canonical ht) ht) _ h

theorem loadDispatcher_canonical (h : s.MemoryCanonical) : (loadDispatcher s).MemoryCanonical :=
  foldl_canonical _ (fun _ _ ht => modClusterAt_canonical ht) _ h

theorem startFirmware_canonical (h : s.MemoryCanonical) : (startFirmware s).MemoryCanonical := by
  have h1 : (modPorts (trainPort s.tick) { s with tick := s.tick + 18 }).MemoryCanonical := h
  exact loadDispatcher_canonical h1

theorem bootFrom_canonical {base : Nat} (h : s.MemoryCanonical) : (bootFrom base s).MemoryCanonical := by
  unfold bootFrom
  dsimp only
  split <;> exact h

theorem resetPackage_canonical : (resetPackage s).MemoryCanonical := memAfterReset_wf _ _

/-! ### The mailbox -/

theorem mbDone_canonical {code len : Nat} (h : s.MemoryCanonical) : (mbDone code len s).MemoryCanonical := h

theorem writtenFlash_canonical (h : s.MemoryCanonical) : (writtenFlash s).MemoryCanonical := h

theorem mbResult_canonical {bytes : List Byte} (h : s.MemoryCanonical) : (mbResult bytes s).MemoryCanonical :=
  writeBytes_canonical _ _ (clearMem_canonical _ _ h)

theorem mbAttest_canonical (h : s.MemoryCanonical) :
    (mbAttest s).MemoryCanonical := ite_canonical (mbResult_canonical h) h

theorem mbRecover_canonical {len : Nat} (h : s.MemoryCanonical) : (mbRecover len s).MemoryCanonical := by
  unfold mbRecover
  split
  · exact h
  · split
    · exact h
    · exact mbDone_canonical (bootFrom_canonical (writtenFlash_canonical (modPkg_canonical (copyMem_canonical _ _ _ h))))

theorem mbCommitSvn_canonical (h : s.MemoryCanonical) : (mbCommitSvn s).MemoryCanonical := ite_canonical h h

theorem mbCert_canonical (h : s.MemoryCanonical) : (mbCert s).MemoryCanonical := ite_canonical (mbResult_canonical h) h

theorem mbCllog_canonical {cluster : Nat} (h : s.MemoryCanonical) : (mbCllog cluster s).MemoryCanonical := by
  unfold mbCllog
  split
  · exact h
  · split
    · exact h
    · exact mbResult_canonical (modClusterAt_canonical h)

theorem mbDbgen_canonical {arg : Nat} (h : s.MemoryCanonical) : (mbDbgen arg s).MemoryCanonical := by
  unfold mbDbgen
  split
  · exact h
  · split <;> exact h

theorem mbUnknown_canonical (h : s.MemoryCanonical) : (mbUnknown s).MemoryCanonical := ite_canonical h h

theorem mbPost_canonical {cmd : BitVec 8} {arg : BitVec 32} {run : State → State}
    (hrun : ∀ t, t.MemoryCanonical → (run t).MemoryCanonical) (h : s.MemoryCanonical) :
    (mbPost cmd arg run s).MemoryCanonical := by
  unfold mbPost
  split
  · exact h
  · exact ite_canonical h (hrun _ h)

theorem mbRun_canonical {cmd arg : Nat} (h : s.MemoryCanonical) : (mbRun cmd arg s).MemoryCanonical := by
  unfold mbRun
  split
  · exact mbAttest_canonical h
  · exact mbRecover_canonical h
  · exact mbCommitSvn_canonical h
  · exact mbCert_canonical h
  · exact mbCllog_canonical h
  · exact mbDbgen_canonical h
  · exact mbUnknown_canonical h

theorem writeMbcmd_canonical {v : Word} (h : s.MemoryCanonical) : (writeMbcmd v s).MemoryCanonical :=
  ite_canonical (mbPost_canonical (fun _ ht => mbRun_canonical ht) h) h

/-! ### Host requests, freezes and power -/

theorem writePreq_canonical {v : Word} (h : s.MemoryCanonical) : (writePreq v s).MemoryCanonical :=
  ite_canonical (foldl_canonical (fun t g => requestGroup g t) (fun _ _ ht => requestGroup_canonical ht) _ h) h

theorem preqFinish_canonical (h : s.MemoryCanonical) : (preqFinish s).MemoryCanonical := ite_canonical h h

theorem freezeScope_canonical {scope die clus : Nat} (h : s.MemoryCanonical) :
    (freezeScope scope die clus s).MemoryCanonical := by
  have hframes : ∀ l : List Nat, (l.foldl (fun t c => closeFrame c t) s).MemoryCanonical :=
    fun _ => foldl_canonical _ (fun _ _ ht => closeFrame_canonical ht) _ h
  unfold freezeScope
  split
  · exact h
  · dsimp only
    split
    · exact modClusterAt_canonical (hframes _)
    · exact modDieAt_canonical (hframes _)
    · exact hframes _

theorem settleSaved_canonical {l : Nat} (h : s.MemoryCanonical) : (settleSaved l s).MemoryCanonical :=
  foldl_canonical _ (fun _ _ ht => postTask_canonical ht) _ (modClusterAt_canonical h)

theorem settleScope_canonical {scope die clus : Nat} (h : s.MemoryCanonical) :
    (settleScope scope die clus s).MemoryCanonical :=
  foldl_canonical _ (fun _ _ ht => settleLost_canonical (settleSaved_canonical (cqSettle_canonical ht))) _
    (foldl_canonical _ (fun _ _ ht => modCoreAt_canonical ht) _ h)

theorem thawScope_canonical {scope die clus : Nat} (h : s.MemoryCanonical) :
    (thawScope scope die clus s).MemoryCanonical := by
  unfold thawScope
  split
  · exact ite_canonical (settleScope_canonical (modClusterAt_canonical h)) h
  · exact ite_canonical (settleScope_canonical (modDieAt_canonical h)) h
  · exact h

theorem writeFrz_canonical {v : Word} (h : s.MemoryCanonical) : (writeFrz v s).MemoryCanonical := by
  unfold writeFrz
  dsimp only
  split
  · exact h
  · split
    · apply freezeScope_canonical
      exact h
    · refine ite_canonical (thawScope_canonical ?_) ?_ <;> exact h

theorem grantCycle_canonical (h : s.MemoryCanonical) : (grantCycle s).MemoryCanonical := by
  refine tickUp_canonical (modPkg_canonical (foldl_canonical _ (fun t p ht => ?_) _ h))
  exact ite_canonical (modPkg_canonical ht) (modDieAt_canonical (modPkg_canonical ht))

theorem splitGrant_canonical {d grant : Nat} (h : s.MemoryCanonical) : (splitGrant d grant s).MemoryCanonical :=
  foldl_canonical _ (fun _ _ ht => ite_canonical ht
    (foldl_canonical _ (fun _ _ hu => foldl_canonical _ (fun _ _ hv => ite_canonical (modCoreAt_canonical hv) hv) _ hu) _
      (modClusterAt_canonical ht))) _ h

theorem showGrant_canonical {d grant : Nat} (h : s.MemoryCanonical) : (showGrant d grant s).MemoryCanonical :=
  modPkg_canonical h

theorem deliverGrant_canonical {d : Nat} (h : s.MemoryCanonical) : (deliverGrant d s).MemoryCanonical := by
  unfold deliverGrant
  split
  · exact h
  · split
    · exact h
    · exact splitGrant_canonical (showGrant_canonical (modDieAt_canonical h))

theorem missGrant_canonical {d : Nat} (h : s.MemoryCanonical) : (missGrant d s).MemoryCanonical := by
  unfold missGrant
  split
  · exact h
  · exact ite_canonical (splitGrant_canonical (showGrant_canonical (modDieAt_canonical (modDieAt_canonical h))))
      (modDieAt_canonical h)

/-! ### Register blocks and physical places -/

theorem pkgWrite_canonical {off : Nat} {v : Word} (h : s.MemoryCanonical) : (pkgWrite off v s).MemoryCanonical := by
  unfold pkgWrite
  split
  · exact h
  · exact resetClusters_canonical h
  · exact writePreq_canonical h
  · exact h
  · exact h
  · exact writeFrz_canonical h
  · exact writeMbcmd_canonical h
  · exact h
  · exact ite_canonical h (ite_canonical (writeMem_canonical _ _ _ h) h)

theorem modPort_canonical {n : Nat} {f : Port → Port} (h : s.MemoryCanonical) :
    (modPort n f s).MemoryCanonical := ite_canonical h h

theorem fabWrite_canonical {off : Nat} {v : Word} (h : s.MemoryCanonical) : (fabWrite off v s).MemoryCanonical := by
  unfold fabWrite
  split <;> exact h

theorem writeLoc_canonical {loc : PaLoc} {n v : Nat} (h : s.MemoryCanonical) :
    (writeLoc loc n v s).MemoryCanonical := by
  unfold writeLoc
  split
  · exact storeMem_canonical _ _ _ h
  · exact ite_canonical (pkgWrite_canonical h) h
  · exact ite_canonical (fabWrite_canonical h) h
  · exact h

theorem afterRead_canonical {loc : PaLoc} (h : s.MemoryCanonical) : (s.afterRead loc).MemoryCanonical := by
  unfold State.afterRead
  split
  · exact ite_canonical h h
  · exact h

end Package

/-! ### What an element or a member comes to -/

/-- The memory of the state that a step of a member carries is canonical. -/
@[simp] def Step.Canonical : Step → Prop
  | .ok t _ _ => t.MemoryCanonical
  | .trap .. => True
  | .stop t .. => t.MemoryCanonical
  | .wait t => t.MemoryCanonical

/-- A member keeps memory canonical, in each of its elements and as a whole. -/
structure Member.Canonical (m : Member) : Prop where
  elem : ∀ e s, s.MemoryCanonical → (m.elem e s).Canonical
  run : ∀ s, s.MemoryCanonical → (m.run s).Canonical

theorem stepIte_canonical {c : Prop} {_ : Decidable c} {a b : Step} (ha : a.Canonical) (hb : b.Canonical) :
    (if c then a else b).Canonical := by
  split
  · exact ha
  · exact hb

section Convoy

variable {s : State}

theorem raiseFlags_canonical {f : FlagSet} (h : s.MemoryCanonical) :
    (raiseFlags f s).MemoryCanonical := modConv_canonical h
theorem writeK_canonical {n : Nat} {v : Word} (h : s.MemoryCanonical) :
    (writeK n v s).MemoryCanonical := modConv_canonical h
theorem writeMaskBit_canonical {m i : Nat} {v : Bool} (h : s.MemoryCanonical) :
    (writeMaskBit m i v s).MemoryCanonical :=
  modConv_canonical h
theorem writeCell_canonical {r c : Nat} {v : Cell32} (h : s.MemoryCanonical) : (writeCell r c v s).MemoryCanonical :=
  modConv_canonical h
theorem writeAcc_canonical {n i j : Nat} {v : BitVec 32} (h : s.MemoryCanonical) :
    (writeAcc n i j v s).MemoryCanonical :=
  modMat_canonical h
theorem wake_canonical {l : List Access} (h : s.MemoryCanonical) : (wake l s).MemoryCanonical := modConv_canonical h

theorem finishElem_canonical {dest : Nat} {fl : FlagSet} {write : State → State} (h : (write s).MemoryCanonical) :
    (finishElem dest fl write s).Canonical := by
  unfold finishElem
  split
  · trivial
  · exact raiseFlags_canonical h

/-! ### Members that go element by element in the plane -/

theorem base_canonical {cls : Cls} {pipe : Pipe} : (Member.base cls pipe).Canonical := ⟨fun _ _ h => h, fun _ h => h⟩

theorem elementwise_canonical {s0 : State} {pipe : Pipe} {paired : Bool} {d : Nat} {x y : Src} {readsD : Bool} {m : Nat}
    {op : ElemOp} : (elementwise s0 pipe paired d x y readsD m op).Canonical where
  elem _ _ h := stepIte_canonical h (finishElem_canonical (elemSet_canonical h))
  run _ h := h

theorem compareMember_canonical {s0 : State} {cmp : Cmp} {md : Nat} {x y : Src} {m : Nat} :
    (compareMember s0 cmp md x y m).Canonical where
  elem _ _ h := stepIte_canonical h (finishElem_canonical (writeMaskBit_canonical h))
  run _ h := h

theorem maskLogic_canonical {md : Nat} {srcs : List Nat} {m : Nat} {f : Nat → State → Bool} :
    (maskLogic md srcs m f).Canonical where
  elem _ _ h := stepIte_canonical h (writeMaskBit_canonical h)
  run _ h := h

theorem selectMember_canonical {s0 : State} {d a : Nat} {other : Src} {m : Nat} :
    (selectMember s0 d a other m).Canonical where
  elem _ _ h := elemSet_canonical h
  run _ h := h

theorem convertMember_canonical {s0 : State} {d a src m : Nat} : (convertMember s0 d a src m).Canonical where
  elem _ _ h := stepIte_canonical h (finishElem_canonical (elemSet_canonical h))
  run _ h := h

theorem latchBlock_canonical {block : Nat → State → Option Block} {e : Nat} (h : s.MemoryCanonical) :
    (latchBlock block e s).MemoryCanonical := modConv_canonical h

theorem blockWrite_canonical {d : Nat} {block : Nat → State → Option Block} {e : Nat} (h : s.MemoryCanonical) :
    (blockWrite d block e s).MemoryCanonical := by
  unfold blockWrite
  dsimp only
  split
  · exact raiseFlags_canonical (elemSet_canonical (latchBlock_canonical h))
  · exact latchBlock_canonical h

theorem blockElem_canonical {d start vl : Nat} {block : Nat → State → Option Block} {e : Nat} (h : s.MemoryCanonical) :
    (blockElem d start vl block e s).Canonical := by
  unfold blockElem
  dsimp only
  split
  · trivial
  · show State.MemoryCanonical _
    split
    · exact elemSet_canonical (blockWrite_canonical h)
    · exact blockWrite_canonical h

theorem quantizeMember_canonical {s0 : State} {d a src m : Nat} : (quantizeMember s0 d a src m).Canonical where
  elem _ _ h := blockElem_canonical h
  run _ h := h

theorem dequantizeMember_canonical {s0 : State} {d a src m : Nat} : (dequantizeMember s0 d a src m).Canonical where
  elem e s h := by
    unfold dequantizeMember
    dsimp only
    split
    · trivial
    · exact stepIte_canonical h (raiseFlags_canonical (elemSet_canonical h))
  run _ h := h

theorem permute_canonical {s0 : State} {d : Nat} {srcs : List Use} {m : Nat} {f : Nat → State → Option (Nat × FlagSet)}
    {touch : List Nat → State → List Access} : (permute s0 d srcs m f touch).Canonical where
  elem e s h := by
    refine stepIte_canonical h ?_
    split
    · exact h
    · exact finishElem_canonical (elemSet_canonical h)
  run _ h := h

theorem gatherMember_canonical {s0 : State} {d a b m : Nat} : (gatherMember s0 d a b m).Canonical :=
  ⟨(permute_canonical (s0 := s0) (srcs := []) (touch := fun _ _ => [])).elem, fun _ h => h⟩

theorem headMember_canonical {s0 : State} {d a b m : Nat} : (headMember s0 d a b m).Canonical := by
  unfold headMember
  exact permute_canonical

theorem tailMember_canonical {s0 : State} {d a b m : Nat} : (tailMember s0 d a b m).Canonical := by
  unfold tailMember
  exact permute_canonical

theorem broadcastMember_canonical {s0 : State} {d a m : Nat} : (broadcastMember s0 d a m).Canonical := by
  unfold broadcastMember
  exact permute_canonical

theorem raiseMember_canonical {s0 : State} {d a k m : Nat} : (raiseMember s0 d a k m).Canonical := by
  unfold raiseMember
  exact permute_canonical

theorem lowerMember_canonical {s0 : State} {d a k m : Nat} : (lowerMember s0 d a k m).Canonical := by
  unfold lowerMember
  exact permute_canonical

theorem broadcastScalarMember_canonical {s0 : State} {d k m : Nat} : (broadcastScalarMember s0 d k m).Canonical :=
  permute_canonical

theorem reduction_canonical {s0 : State} {d a m : Nat} {paired tree : Bool} {op : Conv → Nat → Nat → Nat × FlagSet}
    {get : Conv → Nat → Nat × FlagSet} {empty : Conv → Nat} {put : Nat → State → State}
    (hput : ∀ raw t, t.MemoryCanonical → (put raw t).MemoryCanonical) :
    (reduction s0 d a m paired tree op get empty put).Canonical where
  elem _ _ h := h
  run _ h := finishElem_canonical (hput _ _ h)

theorem putFirst_canonical {d raw : Nat} (h : s.MemoryCanonical) :
    (putFirst d raw s).MemoryCanonical := elemSet_canonical h

theorem fsumMember_canonical {s0 : State} {d a m : Nat} : (fsumMember s0 d a m).Canonical :=
  reduction_canonical (fun _ _ h => putFirst_canonical h)

theorem fsumWideMember_canonical {s0 : State} {d a m : Nat} : (fsumWideMember s0 d a m).Canonical :=
  reduction_canonical (fun _ _ h => writeCell_canonical h)

theorem fextremeMember_canonical {s0 : State} {d a m : Nat} {greater : Bool} :
    (fextremeMember s0 d a m greater).Canonical :=
  reduction_canonical (fun _ _ h => putFirst_canonical h)

theorem isumMember_canonical {s0 : State} {d a m : Nat} : (isumMember s0 d a m).Canonical :=
  reduction_canonical (fun _ _ h => putFirst_canonical h)

theorem iextremeMember_canonical {s0 : State} {d a m : Nat} {greater : Bool} :
    (iextremeMember s0 d a m greater).Canonical :=
  reduction_canonical (fun _ _ h => putFirst_canonical h)

/-! ### Scalar members and those that stand alone -/

theorem scalarMember_canonical {kd : Nat} {f : State → Word} : (scalarMember kd f).Canonical := ⟨fun _ _ h => h, fun _ h => h⟩

theorem kpopMember_canonical {kd : Nat} : (kpopMember kd).Canonical := ⟨fun _ _ h => h, fun _ h => modQ_canonical h⟩

theorem kgetMember_canonical {s0 : State} {kd a : Nat} : (kgetMember s0 kd a).Canonical := ⟨fun _ _ h => h, fun _ h => h⟩

theorem pushMember_canonical {reads : List Nat} {f : State → Word} : (pushMember reads f).Canonical :=
  ⟨fun _ _ h => h, fun _ h => h⟩

theorem aloneMember_canonical {uses : List Use} {run : State → Step}
    (hrun : ∀ t, t.MemoryCanonical → (run t).Canonical) : (aloneMember uses run).Canonical :=
  ⟨fun _ _ h => h, hrun⟩

theorem vsettMember_canonical {i : BitVec 8} : (vsettMember i).Canonical :=
  aloneMember_canonical (fun _ h => modConv_canonical h)

theorem grantLength_canonical {k want : Nat} (h : s.MemoryCanonical) : (grantLength k want s).Canonical :=
  modConv_canonical h

theorem vlenMember_canonical {k : Nat} : (vlenMember k).Canonical :=
  aloneMember_canonical (fun _ h => grantLength_canonical h)

theorem vlenShapeMember_canonical {s0 : State} {k a : Nat} : (vlenShapeMember s0 k a).Canonical :=
  aloneMember_canonical (fun _ h => grantLength_canonical h)

theorem vsetmtMember_canonical {f : State → BitVec 2} : (vsetmtMember f).Canonical :=
  aloneMember_canonical (fun _ h => modConv_canonical h)

theorem vdefMember_canonical {d k : Nat} : (vdefMember d k).Canonical :=
  aloneMember_canonical (fun _ h => stepIte_canonical (modConv_canonical h) trivial)

theorem vtldMember_canonical {k : Nat} : (vtldMember k).Canonical := by
  refine aloneMember_canonical (fun t h => ?_)
  dsimp only
  split
  · trivial
  · split
    · trivial
    · exact modConv_canonical h

theorem vtstMember_canonical {k : Nat} : (vtstMember k).Canonical := by
  refine aloneMember_canonical (fun t h => ?_)
  dsimp only
  split
  · trivial
  · exact foldl_canonical _ (fun _ _ hu => storeMem_canonical _ _ _ hu) _ h

/-! ### Members that access memory -/

theorem noteWrite_canonical {key n : Nat} (h : s.MemoryCanonical) : (noteWrite key n s).MemoryCanonical := h

theorem storeUnordered_canonical {bpe key v : Nat} (h : s.MemoryCanonical) :
    (storeUnordered bpe key v s).MemoryCanonical := by
  refine tickUp_canonical (modConv_canonical (ite_canonical (noteWrite_canonical ?_) (storeMem_canonical _ _ _ h)))
  exact foldl_canonical _ (fun _ _ ht => ite_canonical ht (writeByte_canonical _ _ ht)) _ h

theorem loadElem_canonical {ordered : Bool} {d i : Nat} {addr : Word} (h : s.MemoryCanonical) :
    (loadElem ordered d i addr s).Canonical := by
  unfold loadElem
  dsimp only
  split
  · trivial
  · exact stepIte_canonical trivial (tickUp_canonical (afterRead_canonical (elemSet_canonical h)))

theorem noteFailedStore_canonical {addr : Word} (h : s.MemoryCanonical) : (noteFailedStore addr s).MemoryCanonical :=
  modConv_canonical h

theorem storeElem_canonical {ordered : Bool} {d i : Nat} {addr : Word} (h : s.MemoryCanonical) :
    (storeElem ordered d i addr s).Canonical := by
  unfold storeElem
  dsimp only
  split
  · trivial
  · next loc _ =>
    have hstored : ∀ (bpe v : Nat) (o : Bool), (match loc with
        | .mem key _ => if o then (storeMem key bpe v s).tickUp else storeUnordered bpe key v s
        | _ => (writeLoc loc bpe v s).tickUp).MemoryCanonical := by
      intro bpe v o
      split
      · exact ite_canonical (tickUp_canonical (storeMem_canonical _ _ _ h)) (storeUnordered_canonical h)
      · exact tickUp_canonical (writeLoc_canonical h)
    refine stepIte_canonical trivial (stepIte_canonical (noteFailedStore_canonical (ite_canonical ?_ h)) ?_)
    · exact tickUp_canonical (hstored _ _ _)
    · exact hstored _ _ _

theorem vmemMember_canonical {s0 : State} {load ordered : Bool} {d : Nat} {index : List Use} {m : Nat} {paired : Bool}
    {addr : Nat → State → Word} : (vmemMember s0 load ordered d index m paired addr).Canonical where
  elem _ _ h := stepIte_canonical h (stepIte_canonical (loadElem_canonical h) (storeElem_canonical h))
  run _ h := h

theorem vldMember_canonical {s0 : State} {load : Bool} {d k : Nat} {imm : BitVec 9} {m : Nat} {o : BitVec 1} :
    (vldMember s0 load d k imm m o).Canonical := vmemMember_canonical

theorem vld2Member_canonical {s0 : State} {load : Bool} {d k : Nat} {imm : BitVec 9} {m : Nat} {o : BitVec 1} :
    (vld2Member s0 load d k imm m o).Canonical := vmemMember_canonical

theorem vldxMember_canonical {s0 : State} {load : Bool} {d k a : Nat} {fx : BitVec 3} {m : Nat} {o : BitVec 1} :
    (vldxMember s0 load d k a fx m o).Canonical := vmemMember_canonical

theorem slabElem_canonical {d a t k i : Nat} (h : s.MemoryCanonical) : (slabElem d a t k i s).Canonical := by
  unfold slabElem
  dsimp only
  split
  · trivial
  · refine stepIte_canonical trivial (stepIte_canonical trivial ?_)
    split
    · trivial
    · exact tickUp_canonical h
    · exact modConv_canonical (writeMaskBit_canonical (tickUp_canonical h))
    · next addr _ =>
      have hload := loadElem_canonical (ordered := false) (d := d) (i := i) (addr := addr) (tickUp_canonical h)
      generalize loadElem false d i addr s.tickUp = r at hload ⊢
      cases r with
      | ok => exact writeMaskBit_canonical hload
      | _ => exact hload

theorem vldslabMember_canonical {s0 : State} {d a t k m : Nat} : (vldslabMember s0 d a t k m).Canonical where
  elem _ _ h := stepIte_canonical h (slabElem_canonical h)
  run _ h := h

theorem feedWrite_canonical {q task v : Nat} (h : s.MemoryCanonical) : (feedWrite q task v s).MemoryCanonical :=
  modCluster_canonical (storeMem_canonical _ _ _ h)

theorem feedRun_canonical {q m : Nat} {value : Nat → State → Nat} (h : s.MemoryCanonical) :
    (feedRun q m value s).Canonical := by
  have hfed : ∀ l : List Nat, (l.foldl (fun t i => feedWrite q t.core.task.serial (value i s) t) s).MemoryCanonical :=
    fun l => foldl_canonical _ (fun _ _ ht => feedWrite_canonical ht) l h
  exact stepIte_canonical (modConv_canonical (hfed _)) (modConv_canonical (hfed _))

theorem vcappMember_canonical {s0 : State} {q m : Nat} {uses : List Use} {value : Nat → State → Nat} :
    (vcappMember s0 q m uses value).Canonical :=
  ⟨fun _ _ h => h, fun _ h => feedRun_canonical h⟩

theorem vcappShape_canonical {s0 : State} {q a m : Nat} : (vcappShape s0 q a m).Canonical := vcappMember_canonical

theorem vcappScalar_canonical {s0 : State} {q k m : Nat} : (vcappScalar s0 q k m).Canonical := vcappMember_canonical

theorem waitPass_canonical {a d mode m : Nat} (l : List Nat) {s : State} (h : s.MemoryCanonical) :
    (waitPass a d mode m l s).1.MemoryCanonical := by
  induction l generalizing s with
  | nil => exact h
  | cons i l ih =>
    unfold waitPass
    dsimp only
    split
    · exact ih h
    · split
      · exact h
      · have hread := fun loc => tickUp_canonical (afterRead_canonical (loc := loc) h)
        split
        · exact h
        · exact ih (ite_canonical (writeMaskBit_canonical (hread _)) (hread _))

theorem waitRun_canonical {d a mode k m : Nat} (h : s.MemoryCanonical) : (waitRun d a mode k m s).Canonical := by
  have hpass := waitPass_canonical (a := a) (d := d) (mode := mode) (m := m) (List.range s.vl) h
  unfold waitRun
  dsimp only
  refine stepIte_canonical h ?_
  split
  · exact tickUp_canonical (writeK_canonical hpass)
  · exact stepIte_canonical (tickUp_canonical hpass) (stepIte_canonical (tickUp_canonical hpass) hpass)

theorem vwaitMember_canonical {s0 : State} {d a mode k m : Nat} : (vwaitMember s0 d a mode k m).Canonical :=
  ⟨fun _ _ h => h, fun _ h => waitRun_canonical h⟩

end Convoy

section Units

variable {s : State}

/-! ### The matrix unit -/

theorem productInto_canonical {n : Nat} {z : BitVec 26} {rowp colp : Word} {kc : Nat}
    {p : Nat → Nat → Nat → FVal × FlagSet} (h : s.MemoryCanonical) :
    (productInto n z rowp colp kc p s).MemoryCanonical :=
  foldl_canonical _ (fun _ _ ht => foldl_canonical _
    (fun _ _ hu => raiseFlags_canonical (writeAcc_canonical hu)) _ ht) _ h

theorem product2_canonical {n : Nat} {z : BitVec 26} {rowp colp : Word} {kc : Nat} {a b : Nat → Nat → FVal}
    (h : s.MemoryCanonical) : (product2 n z rowp colp kc a b s).MemoryCanonical := productInto_canonical h

theorem mmaMember_canonical {s0 : State} {n : BitVec 2} {a b : Nat} : (mmaMember s0 n a b).Canonical :=
  ⟨fun _ _ h => h, fun _ h => product2_canonical h⟩

theorem mmasMember_canonical {s0 : State} {n : BitVec 2} {a b : Nat} : (mmasMember s0 n a b).Canonical :=
  ⟨fun _ _ h => h, fun _ h => productInto_canonical h⟩

theorem menMember_canonical : menMember.Canonical := ⟨fun _ _ h => h, fun _ h => modMat_canonical h⟩

theorem mdisMember_canonical {s0 : State} : (mdisMember s0).Canonical := ⟨fun _ _ h => h, fun _ h => h⟩

theorem mzeroMember_canonical {s0 : State} {n : BitVec 2} : (mzeroMember s0 n).Canonical :=
  ⟨fun _ _ h => h, fun _ h => modMat_canonical h⟩

theorem mshapeMember_canonical {s0 : State} {k : Nat} : (mshapeMember s0 k).Canonical := ⟨fun _ _ h => h, fun _ h => h⟩

theorem msclMember_canonical {k : Nat} : (msclMember k).Canonical := ⟨fun _ _ h => h, fun _ h => h⟩

theorem landWrite_canonical {p : Nat × Word} (h : s.MemoryCanonical) : (landWrite p s).MemoryCanonical := by
  unfold landWrite
  split
  · exact writeK_canonical h
  · split
    · exact modMat_canonical h
    · exact ite_canonical (modMat_canonical h) (modMat_canonical h)

theorem mextMember_canonical {s0 : State} {d : Nat} {n : BitVec 2} {k : Slice} {m : Nat} :
    (mextMember s0 d n k m).Canonical where
  elem _ _ h := stepIte_canonical (blockElem_canonical h)
    (stepIte_canonical h (finishElem_canonical (elemSet_canonical h)))
  run _ h := h

theorem minsMember_canonical {s0 : State} {d : Nat} {n : BitVec 2} {k : Slice} {m : Nat} :
    (minsMember s0 d n k m).Canonical where
  elem _ _ h := h
  run _ h := foldl_canonical _ (fun _ _ ht => raiseFlags_canonical (writeAcc_canonical ht)) _ h

/-! ### Gangs -/

theorem multicastTo_canonical {share : Share} {p : Nat × Nat} (h : s.MemoryCanonical) :
    (multicastTo share p s).MemoryCanonical := by
  unfold multicastTo
  split
  · exact modCoreAt_canonical h
  · split
    · exact modQ_canonical (modGang_canonical h)
    · exact h

theorem gmmaMember_canonical {s0 : State} {n : BitVec 2} {a b : BitVec 6} : (gmmaMember s0 n a b).Canonical where
  elem _ _ h := h
  run s h := by
    have hbase := (mmaMember_canonical (s0 := s0) (n := n) (a := a.toNat) (b := b.toNat)).run s h
    unfold gmmaMember
    dsimp only
    split
    · trivial
    · generalize (mmaMember s0 n a.toNat b.toNat).run s = r at hbase ⊢
      cases r with
      | ok t => exact modGang_canonical (foldl_canonical _ (fun _ _ ht => multicastTo_canonical ht) _ hbase)
      | _ => exact hbase

theorem failAtIssuer_canonical {sh : Share} (h : s.MemoryCanonical) : (failAtIssuer sh s).MemoryCanonical :=
  modCoreAt_canonical h

theorem performShare_canonical {sh : Share} (h : s.MemoryCanonical) : (performShare sh s).1.MemoryCanonical := by
  unfold performShare
  split
  · exact product2_canonical (tickUp_canonical (modConv_canonical h))
  · exact modQ_canonical (postTask_canonical (failAtIssuer_canonical (modGang_canonical h)))

theorem endShare_canonical {sh : Share} (h : s.MemoryCanonical) : (endShare sh s).MemoryCanonical := by
  refine modGang_canonical ?_
  show (if sh.pos < 8 then performShare sh s else (s, [])).1.MemoryCanonical
  split
  · exact performShare_canonical h
  · exact h

theorem multicastArrives_canonical (h : s.MemoryCanonical) : (multicastArrives s).MemoryCanonical := by
  unfold multicastArrives
  split
  · exact h
  · exact endShare_canonical h

theorem arrive_canonical {bar : BitVec 5} (h : s.MemoryCanonical) :
    (arrive bar s).MemoryCanonical := modCluster_canonical h

theorem arrivalMade_canonical (h : s.MemoryCanonical) : (arrivalMade s).MemoryCanonical := by
  unfold arrivalMade
  split
  · exact h
  · exact modCluster_canonical h

theorem disarmPlane_canonical (h : s.MemoryCanonical) : (disarmPlane s).MemoryCanonical :=
  ite_canonical h (modConv_canonical h)

theorem completeShare_canonical {sh : Share} (h : s.MemoryCanonical) : (completeShare sh s).MemoryCanonical := by
  have hdisarmed := fun g => disarmPlane_canonical (modGang_canonical (f := g) h)
  unfold completeShare
  dsimp only
  split
  · exact arrive_canonical (hdisarmed _)
  · exact hdisarmed _

theorem shareCompletes_canonical (h : s.MemoryCanonical) : (shareCompletes s).MemoryCanonical := by
  unfold shareCompletes
  split
  · exact arrivalMade_canonical h
  · exact completeShare_canonical h

theorem endShares_canonical (h : s.MemoryCanonical) : (endShares s).MemoryCanonical :=
  modCluster_canonical (foldl_canonical _ (fun _ _ ht => completeShare_canonical ht) _
    (foldl_canonical _ (fun _ _ ht => endShare_canonical ht) _ h))

theorem leaveShares_canonical (h : s.MemoryCanonical) : (leaveShares s).MemoryCanonical :=
  endShares_canonical (focus_canonical (foldl_canonical _ (fun _ _ ht =>
    foldl_canonical _ (fun _ _ hu => endShare_canonical hu) _ (focus_canonical ht)) _ h))

/-! ### The ladder -/

theorem ownWrites_canonical {entry : Nat} {s0 : State} (h : s.MemoryCanonical) :
    (ownWrites entry s0 s).MemoryCanonical := h

theorem writeCells_canonical {r lo hi : Nat} {t : Nat → Nat} (h : s.MemoryCanonical) :
    (writeCells r lo hi t s).MemoryCanonical :=
  tickUp_canonical (ownWrites_canonical (storeMem_canonical _ _ _ h))

theorem writeTile_canonical {r : Nat} {t : Nat → Nat} (h : s.MemoryCanonical) : (writeTile r t s).MemoryCanonical :=
  writeCells_canonical h

theorem spareGranule_canonical {off : Option Nat} (h : s.MemoryCanonical) : (spareGranule off s).MemoryCanonical := h

theorem consumeRung_canonical {r : Nat} (h : s.MemoryCanonical) : (consumeRung r s).MemoryCanonical := useUp_canonical h

theorem rewritten_canonical (h : s.MemoryCanonical) : (rewritten s).MemoryCanonical := modLad_canonical h

theorem chainDone_canonical (h : s.MemoryCanonical) : (chainDone s).MemoryCanonical := modLad_canonical h

theorem chainStops_canonical {off : Nat} (h : s.MemoryCanonical) : (chainStops off s).MemoryCanonical := by
  refine spareGranule_canonical (modLad_canonical ?_)
  split
  · exact writeTile_canonical h
  · exact h

theorem chainStage_canonical {t : Sp (BitVec 32)} (h : s.MemoryCanonical) : (chainStage t s).MemoryCanonical := by
  unfold chainStage
  dsimp only
  split
  · split
    · exact chainStops_canonical h
    · have hmerged : ∀ f (c : Prop) [Decidable c] r, (if c then consumeRung r (raiseFlags f s.tickUp)
          else raiseFlags f s.tickUp).MemoryCanonical := fun f c _ r =>
        ite_canonical (consumeRung_canonical (raiseFlags_canonical (tickUp_canonical h)))
          (raiseFlags_canonical (tickUp_canonical h))
      split
      · exact modLad_canonical (writeTile_canonical (hmerged _ _ _))
      · exact chainDone_canonical (consumeRung_canonical (writeTile_canonical (hmerged _ _ _)))
  · exact chainDone_canonical (writeTile_canonical h)

theorem chainNext_canonical (h : s.MemoryCanonical) : (chainNext s).MemoryCanonical := by
  unfold chainNext
  split
  · exact chainStage_canonical h
  · split
    · exact chainStops_canonical h
    · exact chainStage_canonical (modLad_canonical (tickUp_canonical h))

theorem ladderMember_canonical {s0 : State} {waits : Bool} {check : Option (Cause × Word)} {run : State → Step}
    (hrun : ∀ t, t.MemoryCanonical → (run t).Canonical) : (ladderMember s0 waits check run).Canonical :=
  ⟨fun _ _ h => h, hrun⟩

theorem lstepMember_canonical {s0 : State} {n : BitVec 2} : (lstepMember s0 n).Canonical :=
  ⟨fun _ _ h => h, fun _ h => modLad_canonical h⟩

theorem putElem_canonical {d e v : Nat} (h : s.MemoryCanonical) :
    (putElem d e v s).MemoryCanonical := elemSet_canonical h

theorem putFp32_canonical {d e raw : Nat} (h : s.MemoryCanonical) : (putFp32 d e raw s).MemoryCanonical :=
  ite_canonical (putElem_canonical h) (raiseFlags_canonical (putElem_canonical h))

theorem ladderGoes_canonical {t : State} (h : t.MemoryCanonical) : (ladderGoes s t).Canonical :=
  stepIte_canonical (modConv_canonical h) h

theorem lblendMember_canonical {s0 : State} {d : Nat} : (lblendMember s0 d).Canonical where
  elem _ _ h := h
  run s h := by
    unfold lblendMember ladderMember
    dsimp only
    split
    · trivial
    · exact ladderGoes_canonical (tickUp_canonical
        (foldl_canonical _ (fun _ _ ht => putFp32_canonical (raiseFlags_canonical ht)) _ h))

theorem lrungMember_canonical {s0 : State} {load : Bool} {d : Nat} {level : State → Word} :
    (lrungMember s0 load d level).Canonical where
  elem _ _ h := h
  run s h := by
    refine stepIte_canonical ?_ (ladderGoes_canonical (raiseFlags_canonical (writeCells_canonical h)))
    split
    · trivial
    · exact ladderGoes_canonical (tickUp_canonical (foldl_canonical _ (fun _ _ ht => putFp32_canonical ht) _ h))

theorem configureLadder_canonical {w : Word} (h : s.MemoryCanonical) : (configureLadder w s).MemoryCanonical :=
  modLad_canonical h

theorem emptyLadder_canonical (h : s.MemoryCanonical) : (emptyLadder s).MemoryCanonical :=
  modLad_canonical (endWatch_canonical h)

theorem lcfgMember_canonical {s0 : State} {k : Nat} : (lcfgMember s0 k).Canonical :=
  ladderMember_canonical (fun _ h => configureLadder_canonical h)

theorem lresetMember_canonical {s0 : State} : (lresetMember s0).Canonical :=
  ladderMember_canonical (fun _ h => emptyLadder_canonical h)

theorem lstatMember_canonical {s0 : State} {k : Nat} {carry : Bool} : (lstatMember s0 k carry).Canonical :=
  ladderMember_canonical (fun _ h => tickUp_canonical h)

theorem vissueMember_canonical {s0 : State} {d a m : Nat} : (vissueMember s0 d a m).Canonical :=
  ⟨fun _ _ h => h, fun _ h => h⟩

end Units

/-! ### What a word describes -/

theorem floatMember_canonical {s0 : State} {pipe : Pipe} {d : Nat} {x y : Src} {readsD : Bool} {m : Nat} {op : ElemOp} :
    (floatMember s0 pipe d x y readsD m op).Canonical := elementwise_canonical

theorem specialMember_canonical {s0 : State} {d a m : Nat} {f : Rnd → FVal → Nat × FlagSet} :
    (specialMember s0 d a m f).Canonical := floatMember_canonical

theorem floatScalar_canonical {s0 : State} {pipe : Pipe} {d a k : Nat} {x : BitVec 1} {m : Nat} {op : ElemOp} :
    (floatScalar s0 pipe d a k x m op).Canonical := floatMember_canonical

theorem intMember_canonical {s0 : State} {pipe : Pipe} {d : Nat} {x y : Src} {m : Nat} {op : ElemOp} :
    (intMember s0 pipe d x y m op).Canonical := elementwise_canonical

theorem intScalar_canonical {s0 : State} {pipe : Pipe} {d a k : Nat} {x : BitVec 1} {m : Nat} {op : ElemOp} :
    (intScalar s0 pipe d a k x m op).Canonical := intMember_canonical

theorem bitsMember_canonical {s0 : State} {d : Nat} {x y : Src} {m : Nat} {op : ElemOp} :
    (bitsMember s0 d x y m op).Canonical := elementwise_canonical

theorem elementwiseImm_canonical {s0 : State} {paired : Bool} {d : Nat} {y : Src} {readsD : Bool} {m : Nat} {op : ElemOp} :
    (elementwiseImm s0 paired d y readsD m op).Canonical := elementwise_canonical

/-- Every word describes a member that keeps memory canonical; what is no vector word describes the member that does
nothing. -/
theorem describe_canonical {g : Nat → Nat} (i : Instr) {s0 : State} : (describe g i s0).Canonical := by
  cases i with
  | vfadd | vfsub | vfmul | vfmin | vfmax | vfdiv | vfneg | vfabs | vfkind | vfcpys | vfcpysn | vfma | vfmaK | vfnma | vfnmaK
  | vfms | vfmsK | vfnms | vfnmsK => exact floatMember_canonical
  | vfaddK | vfsubK | vfmulK | vfminK | vfmaxK | vfdivK => exact floatScalar_canonical
  | vfsqrt | vfrsqrt | vfrcp | vfexp2 | vflog2 | vfsinpi | vftanh | vfsigm => exact specialMember_canonical
  | vadd | vsub | vmul | vmin | vmax | vdiv | vrem | vsll | vsrl | vsra | vsadd | vssub | vmulh | vavg =>
    exact intMember_canonical
  | vaddK | vsubK | vmulK | vminK | vmaxK | vdivK | vremK => exact intScalar_canonical
  | vaddi | vrsubi | vmuli | vmini | vmaxi | vandi | vori | vxori | vli | vslli | vsrli | vsrai =>
    exact elementwiseImm_canonical
  | vand | vor | vxor | vandn | vmov => exact bitsMember_canonical
  | vceq | vcne | vclt | vcle | vcgt | vcge | vcun | vceqK | vcneK | vcltK | vcleK | vcgtK | vcgeK | vcunK =>
    exact compareMember_canonical
  | vmand | vmor | vmxor | vmandn | vmnot | vmset | vmclr => exact maskLogic_canonical
  | vsel | vselz => exact selectMember_canonical
  | vcvt => exact convertMember_canonical
  | vqnt => exact quantizeMember_canonical
  | vdqnt => exact dequantizeMember_canonical
  | vgath => exact gatherMember_canonical
  | vhead => exact headMember_canonical
  | vtail => exact tailMember_canonical
  | vbcast => exact broadcastMember_canonical
  | vraise => exact raiseMember_canonical
  | vlower => exact lowerMember_canonical
  | vbcastk => exact broadcastScalarMember_canonical
  | vfredsum => exact fsumMember_canonical
  | vfredsumw => exact fsumWideMember_canonical
  | vfredmax | vfredmin => exact fextremeMember_canonical
  | vredsum => exact isumMember_canonical
  | vredmax | vredmin => exact iextremeMember_canonical
  | vld | vst => exact vldMember_canonical
  | vld2 | vst2 => exact vld2Member_canonical
  | vldx | vstx => exact vldxMember_canonical
  | vldslab => exact vldslabMember_canonical
  | vdef => exact vdefMember_canonical
  | vtld => exact vtldMember_canonical
  | vtst => exact vtstMember_canonical
  | vsett => exact vsettMember_canonical
  | vlen => exact vlenMember_canonical
  | vlenShape => exact vlenShapeMember_canonical
  | vsetmt | vsetmtImm => exact vsetmtMember_canonical
  | mma => exact mmaMember_canonical
  | mmas => exact mmasMember_canonical
  | men => exact menMember_canonical
  | mdis => exact mdisMember_canonical
  | mzero => exact mzeroMember_canonical
  | mshape => exact mshapeMember_canonical
  | mscl => exact msclMember_canonical
  | mextRow | mextCol | mextRect => exact mextMember_canonical
  | minsRow | minsCol | minsRect =>
    unfold describe
    exact minsMember_canonical
  | lstep => exact lstepMember_canonical
  | lblend => exact lblendMember_canonical
  | lrungLd | lrungSt | lrungLdK | lrungStK =>
    unfold describe
    exact lrungMember_canonical
  | lcfg => exact lcfgMember_canonical
  | lstatCnt | lstatCarry => exact lstatMember_canonical
  | lreset => exact lresetMember_canonical
  | vissue => exact vissueMember_canonical
  | vcapp => exact vcappShape_canonical
  | vcappK => exact vcappScalar_canonical
  | vwait => exact vwaitMember_canonical
  | gmma => exact gmmaMember_canonical
  | vkadd | vkaddK => exact scalarMember_canonical
  | vkpop => exact kpopMember_canonical
  | vkget => exact kgetMember_canonical
  | vkpush | vmpushCount | vmpushFirst => exact pushMember_canonical
  | _ => exact base_canonical

/-- The memory of the state at the end of a run of elements is canonical. -/
@[simp] def RunEnd.Canonical : RunEnd → Prop
  | .done t => t.MemoryCanonical
  | .trap t .. => t.MemoryCanonical
  | .wait t _ => t.MemoryCanonical

/-- The memory of the state at the end of VISSUE's words is canonical. -/
@[simp] def VisEnd.Canonical : VisEnd → Prop
  | .done t _ => t.MemoryCanonical
  | .pause t .. => t.MemoryCanonical
  | .stop t .. => t.MemoryCanonical

theorem Step.canonical_of_eq {r r' : Step} (e : r = r') (h : r.Canonical) : r'.Canonical := e ▸ h

theorem RunEnd.canonical_of_eq {r r' : RunEnd} (e : r = r') (h : r.Canonical) : r'.Canonical := e ▸ h

theorem VisEnd.canonical_of_eq {r r' : VisEnd} (e : r = r') (h : r.Canonical) : r'.Canonical := e ▸ h

/-- Every member of the list keeps memory canonical. -/
def SlotsCanonical (l : List Slot) : Prop := ∀ x ∈ l, x.mem.Canonical

theorem visIte_canonical {c : Prop} {_ : Decidable c} {a b : VisEnd} (ha : a.Canonical) (hb : b.Canonical) :
    (if c then a else b).Canonical := by
  split
  · exact ha
  · exact hb

theorem resultIte_canonical {c : Prop} {_ : Decidable c} {a b : Result} (ha : ResultCanonical a) (hb : ResultCanonical b) :
    ResultCanonical (if c then a else b) := by
  split
  · exact ha
  · exact hb

section Run

variable {s : State}

/-! ### Traps of the convoy stream -/

theorem takeDue_canonical {d : Due} (h : s.MemoryCanonical) : (takeDue d s).MemoryCanonical :=
  modConv_canonical (takeTrapTask_canonical (modCore_canonical h))

theorem convoyTrap_canonical {t : TrapPoint} (h : s.MemoryCanonical) : (convoyTrap t s).MemoryCanonical :=
  ite_canonical (takeTrapTask_canonical (modCore_canonical (modConv_canonical h))) (takeDue_canonical (modConv_canonical h))

theorem issueFault_canonical {member : Nat} {c : Cause} {tval : Word} (h : s.MemoryCanonical) :
    (issueFault member c tval s).MemoryCanonical := convoyTrap_canonical h

theorem decodingFault_canonical {member : Nat} {c : Cause} {tval : Word} (h : s.MemoryCanonical) :
    ResultCanonical (decodingFault member c tval s) :=
  ite_canonical (issueFault_canonical h) h

/-! ### The elements of a convoy -/

theorem keepTick_canonical {new : State} (h : s.MemoryCanonical) :
    (keepTick s new).MemoryCanonical := modConv_canonical h

theorem runElement_canonical {e : Nat} {l : List Slot} (hl : SlotsCanonical l) {start s : State}
    (hstart : start.MemoryCanonical) (h : s.MemoryCanonical) : (runElement start e l s).Canonical := by
  induction l generalizing start s with
  | nil => exact h
  | cons x l ih =>
    have hread := wake_canonical (l := x.mem.readTouched [e] s) hstart
    have helem := (hl x List.mem_cons_self).elem e _ (wake_canonical (l := x.mem.touched [e] s) h)
    unfold runElement
    generalize x.mem.elem e _ = r at helem ⊢
    cases r with
    | ok t => exact ih (fun y hy => hl y (List.mem_cons_of_mem _ hy)) hread helem
    | trap => exact tickUp_canonical hread
    | stop t => exact helem
    | wait t => exact tickUp_canonical hread

theorem runElements_canonical {slots : List Slot} (hl : SlotsCanonical slots) {n e : Nat} {s : State}
    (h : s.MemoryCanonical) : (runElements slots n e s).Canonical := by
  induction n generalizing e s with
  | zero => exact h
  | succ n ih =>
    have helem := runElement_canonical (e := e) hl h h
    unfold runElements
    generalize runElement s e slots s = r at helem ⊢
    cases r with
    | done t => exact ih helem
    | _ => exact helem

/-! ### VISSUE -/

theorem setVirtual_canonical {elems : List Nat} (h : s.MemoryCanonical) : (setVirtual elems s).MemoryCanonical :=
  foldl_canonical _ (fun _ _ ht => writeMaskBit_canonical ht) _ h

theorem clearVirtual_canonical (h : s.MemoryCanonical) : (clearVirtual s).MemoryCanonical := modConv_canonical h

theorem setMid_canonical {n : Option Nat} (h : s.MemoryCanonical) : (setMid n s).MemoryCanonical := modConv_canonical h

theorem endLane_canonical (h : s.MemoryCanonical) : (endLane s).MemoryCanonical := by
  unfold endLane
  split
  · exact setMid_canonical (emitRecord_canonical h)
  · exact h

theorem beginLane_canonical {pipe : Nat} (h : s.MemoryCanonical) : (beginLane pipe s).MemoryCanonical := by
  unfold beginLane
  split
  · exact h
  · exact setMid_canonical (emitRecord_canonical (modConv_canonical h))

theorem slotsCanonical_singleton {n : Nat} {m : Member} (hm : m.Canonical) : SlotsCanonical [⟨n, m⟩] := by
  intro x hx
  rw [List.mem_singleton.mp hx]
  exact hm

theorem runLaneWord_canonical {i : Instr} {elems : List Nat} {k0 w : Nat} {at' : Nat × Nat} (h : s.MemoryCanonical) :
    (runLaneWord i elems k0 w at' s).Canonical := by
  unfold runLaneWord
  dsimp only
  split
  · exact h
  · refine visIte_canonical h ?_
    generalize hr : runElements _ _ _ _ = r
    have hend := RunEnd.canonical_of_eq hr (runElements_canonical (slotsCanonical_singleton (describe_canonical i))
      (setVirtual_canonical (beginLane_canonical h)))
    cases r with
    | done t => exact visIte_canonical (clearVirtual_canonical hend) (endLane_canonical (clearVirtual_canonical hend))
    | trap t => exact endLane_canonical (clearVirtual_canonical (raiseFlags_canonical hend))
    | wait t => exact clearVirtual_canonical hend

theorem nextWord_canonical {w : Nat} {go : State → VisEnd} (h : s.MemoryCanonical) (hgo : (go s).Canonical) :
    (nextWord w s go).Canonical := visIte_canonical h hgo

theorem runWords_canonical {lanes : List (Nat × Nat × Option Instr)} {start inner : Nat} {depth1 : Bool}
    {run : Nat → Nat → Nat → Nat → List Nat → Nat → State → VisEnd}
    (hrun : ∀ w d a m elems k t, t.MemoryCanonical → (run w d a m elems k t).Canonical) {l : List Nat} {at' : Nat × Nat}
    {s : State} (h : s.MemoryCanonical) : (runWords lanes start inner depth1 run l at' s).Canonical := by
  induction l generalizing at' s with
  | nil => exact h
  | cons w l ih =>
    unfold runWords
    dsimp only
    split
    · generalize hr : run _ _ _ _ _ _ _ = r
      have hinner := VisEnd.canonical_of_eq hr (hrun _ _ _ _ _ _ _ h)
      cases r with
      | stop => exact hinner
      | pause => exact visIte_canonical hinner hinner
      | done => exact visIte_canonical hinner (nextWord_canonical hinner (ih hinner))
    · generalize hr : runLaneWord _ _ _ _ _ _ = r
      have hlane := VisEnd.canonical_of_eq hr (runLaneWord_canonical h)
      cases r with
      | stop => exact hlane
      | pause => exact hlane
      | done => exact nextWord_canonical hlane (ih hlane)
    · exact ih h

theorem markIllegal_canonical {md : Nat} {active : List Nat} {lanes : List (Nat × Nat × Option Instr)}
    (h : s.MemoryCanonical) : (markIllegal md active lanes s).MemoryCanonical := by
  have hmarked := fun b : Nat → Bool => foldl_canonical (fun t i => writeMaskBit md i (b i) t)
    (fun _ _ ht => writeMaskBit_canonical ht) (List.range s.vl) h
  exact ite_canonical (hmarked _) (raiseFlags_canonical (hmarked _))

theorem beginGrouping_canonical {w a md : Nat} {active : List Nat} {lanes : List (Nat × Nat × Option Instr)}
    (h : s.MemoryCanonical) : (beginGrouping w a md active lanes s).MemoryCanonical :=
  ite_canonical h (modConv_canonical (markIllegal_canonical (wake_canonical h)))

theorem runInner_canonical {encl : Enclosing} {w d a m : Nat} {elems : List Nat} {start : Nat} (h : s.MemoryCanonical) :
    (runInner encl w d a m elems start s).Canonical := by
  unfold runInner
  split
  · exact h
  · dsimp only
    generalize hr : runWords _ _ _ _ _ _ _ _ = r
    have hwords := VisEnd.canonical_of_eq hr (runWords_canonical
      (run := fun _ _ _ _ _ _ t => .done t false) (fun _ _ _ _ _ _ _ ht => ht) (beginGrouping_canonical h))
    cases r <;> exact hwords

theorem runVissue_canonical {d a m : Nat} (h : s.MemoryCanonical) : (runVissue d a m s).Canonical := by
  unfold runVissue
  dsimp only
  generalize hr : runWords _ _ _ _ _ _ _ _ = r
  have hwords := VisEnd.canonical_of_eq hr
    (runWords_canonical (fun _ _ _ _ _ _ _ ht => runInner_canonical ht) (beginGrouping_canonical h))
  cases r with
  | done => exact stepIte_canonical hwords hwords
  | pause => exact modConv_canonical hwords
  | stop => exact hwords

theorem memberOf_canonical (i : Instr) {s0 : State} : (memberOf i s0).Canonical := by
  unfold memberOf
  split
  · exact ⟨fun _ _ h => h, fun _ h => runVissue_canonical h⟩
  · exact describe_canonical _

theorem slotsOf_canonical {words : List Instr} {done : BitVec 4} {s0 : State} : SlotsCanonical (slotsOf words done s0) := by
  intro x hx
  obtain ⟨p, -, hp⟩ := List.mem_filterMap.mp hx
  split at hp
  · contradiction
  · rw [← Option.some.inj hp]
    exact memberOf_canonical _

theorem slotsCanonical_filter {p : Slot → Bool} {l : List Slot} (hl : SlotsCanonical l) : SlotsCanonical (l.filter p) :=
  fun x hx => hl x (List.mem_filter.mp hx).1

/-! ### Issue and retirement -/

theorem endRecords_canonical {words : List Instr} (h : s.MemoryCanonical) : (endRecords words s).MemoryCanonical :=
  foldl_canonical _ (fun _ _ ht => emitRecord_canonical ht) _ h

theorem beginRecords_canonical {slots : List Slot} {cnt : Nat} (h : s.MemoryCanonical) :
    (beginRecords slots cnt s).MemoryCanonical :=
  foldl_canonical _ (fun _ _ ht => emitRecord_canonical ht) _ h

theorem landAll_canonical {f : Flight} (h : s.MemoryCanonical) : (landAll f s).MemoryCanonical :=
  modQ_canonical (foldl_canonical _ (fun _ _ ht => landWrite_canonical ht) _ h)

theorem postMisses_canonical (h : s.MemoryCanonical) :
    (postMisses s).MemoryCanonical := ite_canonical h (modQ_canonical h)

theorem landOrPark_canonical {f : Flight} (h : s.MemoryCanonical) : (landOrPark f s).MemoryCanonical :=
  ite_canonical (modConv_canonical (foldl_canonical _ (fun _ _ ht => landWrite_canonical ht) _ h))
    (postMisses_canonical (landAll_canonical h))

theorem unpark_canonical (h : s.MemoryCanonical) : (unpark s).MemoryCanonical := by
  unfold unpark
  split
  · exact h
  · exact modQ_canonical (foldl_canonical _ (fun _ _ ht => landWrite_canonical ht) _ (modConv_canonical h))

theorem endFlight_canonical (h : s.MemoryCanonical) :
    (endFlight s).MemoryCanonical := modConv_canonical (modMat_canonical h)

theorem stepTrap_canonical (h : s.MemoryCanonical) : (stepTrap s).MemoryCanonical := convoyTrap_canonical h

theorem retireConvoy_canonical {f : Flight} (h : s.MemoryCanonical) : (retireConvoy f s).MemoryCanonical := by
  have hlanded := fun g => modConv_canonical (f := g)
    (endFlight_canonical (endRecords_canonical (words := f.words) (landOrPark_canonical (f := f) h)))
  exact ite_canonical (stepTrap_canonical (hlanded _)) (hlanded _)

theorem trapConvoy_canonical {f : Flight} {flags : FlagSet} {t : TrapPoint} (h : s.MemoryCanonical) :
    (trapConvoy f flags t s).MemoryCanonical :=
  convoyTrap_canonical (endFlight_canonical (endRecords_canonical (postMisses_canonical (landAll_canonical
    (raiseFlags_canonical h)))))

theorem runMember_canonical {x : Slot} (hx : x.mem.Canonical) {p : Progress} (h : p.s.MemoryCanonical) :
    (runMember p x).s.MemoryCanonical := by
  unfold runMember
  generalize hr : x.mem.run _ = r
  have hrun := Step.canonical_of_eq hr (hx.run _ (wake_canonical h))
  cases r with
  | ok => exact hrun
  | trap => exact tickUp_canonical (wake_canonical h)
  | wait =>
    dsimp only
    split <;> exact hrun
  | stop => exact hrun

theorem runMembers_canonical {l : List Slot} (hl : SlotsCanonical l) {p : Progress} (h : p.s.MemoryCanonical) :
    (l.foldl runMember p).s.MemoryCanonical := by
  induction l generalizing p with
  | nil => exact h
  | cons x l ih =>
    exact ih (fun y hy => hl y (List.mem_cons_of_mem _ hy)) (runMember_canonical (hl x List.mem_cons_self) h)

theorem releaseTrap_canonical {slots : List Slot} {f : Flight} {j : Nat} {va : Word} (h : s.MemoryCanonical) :
    (releaseTrap slots f j va s).MemoryCanonical := trapConvoy_canonical (modConv_canonical h)

theorem reported_canonical {slots : List Slot} {j : Nat} {c : Cause} (h : s.MemoryCanonical) :
    (reported slots j c s).MemoryCanonical := ite_canonical (modConv_canonical h) h

end Run

section Flight

variable {s : State}

/-- The mark of what a convoy has done, with the instruction waiting. -/
theorem stall_canonical (h : s.MemoryCanonical) : (stall s).MemoryCanonical := h

theorem runConvoy_canonical (h : s.MemoryCanonical) : ResultCanonical (runConvoy s) := by
  unfold runConvoy
  split
  · exact h
  next f _ =>
    have hslots : SlotsCanonical (slotsOf f.words f.done s) := slotsOf_canonical
    dsimp only
    generalize hp : List.foldl runMember _ _ = p
    have hmembers : p.s.MemoryCanonical := by
      rw [← hp]
      exact runMembers_canonical (p := ⟨s, f.done, f.kout, f.rqout, none, false, false, none⟩)
        (slotsCanonical_filter hslots) h
    split
    · exact trapConvoy_canonical hmembers
    · split
      · exact stall_canonical (modConv_canonical hmembers)
      · split
        · split
          · next hr => exact trapConvoy_canonical (keepTick_canonical hmembers)
          · exact trapConvoy_canonical (reported_canonical hmembers)
        · generalize hr : runElements _ _ _ _ = r
          have hrun := RunEnd.canonical_of_eq hr (runElements_canonical (slotsCanonical_filter hslots) hmembers)
          cases r with
          | trap => exact ite_canonical (stall_canonical (modConv_canonical hmembers)) (trapConvoy_canonical hrun)
          | wait => exact stall_canonical (modConv_canonical (modConv_canonical hrun))
          | done =>
            refine ite_canonical (stall_canonical (modConv_canonical (modConv_canonical hrun)))
              (ite_canonical (stall_canonical (modConv_canonical hrun)) ?_)
            split
            · exact releaseTrap_canonical hrun
            · exact retireConvoy_canonical hrun

theorem enterFlight_canonical {words : List Instr} {slots : List Slot} (h : s.MemoryCanonical) :
    (enterFlight words slots s).MemoryCanonical := beginRecords_canonical (modCore_canonical h)

theorem issueConvoy_canonical {words : List Instr} (h : s.MemoryCanonical) : ResultCanonical (issueConvoy words s) := by
  unfold issueConvoy
  dsimp only
  split
  · exact decodingFault_canonical h
  · refine resultIte_canonical (stall_canonical (modConv_canonical h)) ?_
    split
    · exact issueFault_canonical h
    · exact resultIte_canonical (runConvoy_canonical (enterFlight_canonical h)) (stall_canonical (modConv_canonical h))

theorem vectorWord_canonical {i : Instr} (h : s.MemoryCanonical) : ResultCanonical (vectorWord i s) :=
  resultIte_canonical (decodingFault_canonical h) (resultIte_canonical (decodingFault_canonical h)
    (resultIte_canonical (modConv_canonical h) (issueConvoy_canonical h)))

theorem popBlock_canonical (h : s.MemoryCanonical) : (popBlock s).MemoryCanonical := by
  unfold popBlock
  split
  · exact h
  · exact ite_canonical h (ite_canonical (modQ_canonical h) (modConv_canonical (modQ_canonical h)))

theorem stopAt_canonical {k lk : Nat} {done : BitVec 4} {f : Flight} (h : s.MemoryCanonical) :
    (stopAt k lk done f s).MemoryCanonical :=
  modConv_canonical (endFlight_canonical (endRecords_canonical (postMisses_canonical (landAll_canonical h))))

theorem OptionCanonical.none : OptionCanonical none := fun _ e => nomatch e

theorem OptionCanonical.some (h : s.MemoryCanonical) : OptionCanonical (some s) := fun _ e => Option.some.inj e ▸ h

theorem stopFlight_canonical (h : s.MemoryCanonical) : OptionCanonical (stopFlight s) := by
  unfold stopFlight
  split
  · exact .none
  next f _ =>
    have hslots : SlotsCanonical (slotsOf f.words f.done s) := slotsOf_canonical
    dsimp only
    split
    · exact .some (stopAt_canonical (tickUp_canonical (writeK_canonical h)))
    · exact .some (stopAt_canonical (endLane_canonical h))
    · split
      · exact .none
      · split
        · split
          · next hr => exact .some (stopAt_canonical (RunEnd.canonical_of_eq hr
              (runElements_canonical (slotsCanonical_filter hslots) h)))
          · exact .none
        · split
          · next hr =>
            have hrun := RunEnd.canonical_of_eq hr (runElements_canonical (slotsCanonical_filter hslots) h)
            split
            · split
              · exact .none
              · exact .some (retireConvoy_canonical hrun)
            · exact .some (stopAt_canonical hrun)
          · exact .none

end Flight

section Steering

variable {s : State}

/-! ### Steering words -/

theorem branch_canonical {cond : Word → Word → Bool} {a b : BitVec 5} {off : BitVec 15} (h : s.MemoryCanonical) :
    ResultCanonical (branch cond a b off s) := ite_canonical (setPc_canonical h) (advance_canonical h)

theorem issueRemote_canonical {a : OutAcc} (h : s.MemoryCanonical) : ResultCanonical (issueRemote a s) :=
  resultIte_canonical (advance_canonical (modCur_canonical h)) (stall_canonical h)

/-- What goes before an instruction, when something does, leaves canonical memory. -/
def GateCanonical (o : Option Result) : Prop := ∀ r, o = some r → ResultCanonical r

theorem failedGate_canonical (h : s.MemoryCanonical) : GateCanonical (failedGate s) := by
  intro r hr
  obtain ⟨va, -, rfl⟩ := Option.map_eq_some_iff.mp hr
  exact resultIte_canonical (stall_canonical h) (steerMemFault_canonical (modCur_canonical h))

theorem releaseGate_canonical (h : s.MemoryCanonical) : GateCanonical (releaseGate s) := by
  unfold releaseGate
  split
  · exact fun r hr => Option.some.inj hr ▸ stall_canonical h
  · exact failedGate_canonical h

theorem gate_ite_canonical {c : Prop} {_ : Decidable c} {o : Option Result} (ho : GateCanonical o) :
    GateCanonical (if c then o else none) := by
  split
  · exact ho
  · exact fun _ hr => nomatch hr

theorem convoyGate_canonical (h : s.MemoryCanonical) : GateCanonical (convoyGate s) := by
  intro r hr
  obtain ⟨va, -, rfl⟩ := Option.map_eq_some_iff.mp hr
  exact steerMemFault_canonical (modConv_canonical h)

theorem scalarLoad_canonical {size : Nat} {d a : BitVec 5} {space : BitVec 2} {imm : BitVec 13} (h : s.MemoryCanonical) :
    ResultCanonical (scalarLoad size d a space imm s) := by
  unfold scalarLoad
  dsimp only
  split
  · exact steerMemFault_canonical h
  · exact issueRemote_canonical h
  · exact resultIte_canonical (stall_canonical h) (resultIte_canonical (steerMemFault_canonical h)
      (retire_canonical (afterRead_canonical h)))

theorem scalarStore_canonical {size : Nat} {d a : BitVec 5} {space : BitVec 2} {imm : BitVec 13} (h : s.MemoryCanonical) :
    ResultCanonical (scalarStore size d a space imm s) := by
  unfold scalarStore
  dsimp only
  split
  · exact steerMemFault_canonical h
  · exact issueRemote_canonical h
  · exact resultIte_canonical (stall_canonical h) (resultIte_canonical (steerMemFault_canonical h)
      (advance_canonical (writeLoc_canonical h)))

theorem atomicAt_canonical {space : BitVec 2} {a : BitVec 5} {ord : BitVec 2} {remote : Nat → Word → OutAcc}
    {done : PaLoc → Word → State} {d : BitVec 5} (hdone : ∀ loc old, (done loc old).MemoryCanonical)
    (h : s.MemoryCanonical) : ResultCanonical (atomicAt space a ord remote done d s) := by
  unfold atomicAt
  dsimp only
  split
  · exact steerMemFault_canonical h
  · split
    · next hr => exact gate_ite_canonical (releaseGate_canonical h) _ hr
    · split
      · exact issueRemote_canonical h
      · exact resultIte_canonical (stall_canonical h) (resultIte_canonical (steerMemFault_canonical h)
          (retire_canonical (afterRead_canonical (hdone _ _))))

theorem amo_canonical {op : BitVec 3} {d a b : BitVec 5} {ord space : BitVec 2} (h : s.MemoryCanonical) :
    ResultCanonical (amo op d a b ord space s) := by
  unfold amo
  exact atomicAt_canonical (fun _ _ => writeLoc_canonical h) h

theorem execCas_canonical {d a b : BitVec 5} {e : BitVec 3} {o p : BitVec 2} (h : s.MemoryCanonical) :
    ResultCanonical (execCas d a b e o p s) := by
  unfold execCas
  exact atomicAt_canonical (fun _ _ => ite_canonical (writeLoc_canonical h) h) h

theorem execFence_canonical {e : BitVec 3} {q p : BitVec 2} (h : s.MemoryCanonical) :
    ResultCanonical (execFence e q p s) := by
  refine resultIte_canonical (stall_canonical h) ?_
  split
  · next hr => exact gate_ite_canonical (failedGate_canonical h) _ hr
  · exact advance_canonical h

theorem execWaitw_canonical {d a b : BitVec 5} {p m : BitVec 2} {t : BitVec 6} (h : s.MemoryCanonical) :
    ResultCanonical (execWaitw d a b p m t s) := by
  unfold execWaitw
  dsimp only
  split
  · exact steerMemFault_canonical h
  · have hread := fun loc => tickUp_canonical (afterRead_canonical (loc := loc) h)
    exact resultIte_canonical (stall_canonical h) (resultIte_canonical (steerMemFault_canonical (tickUp_canonical h))
      (resultIte_canonical (retire_canonical (hread _)) (stall_canonical (hread _))))

theorem storeCounters_canonical {key : Nat} {cnt : List Nat} (h : s.MemoryCanonical) :
    (storeCounters key cnt s).MemoryCanonical := foldl_canonical _ (fun _ _ ht => storeMem_canonical _ _ _ ht) _ h

theorem execDcoll_canonical {d a b : BitVec 5} (h : s.MemoryCanonical) : ResultCanonical (execDcoll d a b s) := by
  unfold execDcoll
  dsimp only
  refine resultIte_canonical (steerMemFault_canonical h) (resultIte_canonical (steerMemFault_canonical h)
    (resultIte_canonical (steerMemFault_canonical h) (resultIte_canonical (steerFault_canonical h)
      (resultIte_canonical (retire_canonical h) ?_))))
  exact retire_canonical (storeCounters_canonical (storeMem_canonical _ _ _ h))

/-! ### Control registers -/

theorem storeLcarry_canonical {v : Word} (h : s.MemoryCanonical) : (storeLcarry v s).MemoryCanonical :=
  rewritten_canonical (modLad_canonical (ite_canonical h (spareGranule_canonical h)))

theorem storeClreset_canonical {v : Word} (h : s.MemoryCanonical) : (storeClreset v s).MemoryCanonical :=
  foldl_canonical _ (fun _ _ ht => ite_canonical (modContext_canonical ht) ht) _ h

theorem storeLtrc_canonical {v : Word} (h : s.MemoryCanonical) : (storeLtrc v s).MemoryCanonical :=
  modTrace_canonical (ite_canonical h (closeFrame_canonical h))

theorem csrStore_canonical {n : Nat} {v marks : Word} (h : s.MemoryCanonical) :
    (csrStore n v marks s).MemoryCanonical := by
  unfold csrStore
  split
  any_goals with_reducible exact modConv_canonical h
  any_goals with_reducible exact modCur_canonical h
  any_goals with_reducible exact modTrace_canonical h
  any_goals with_reducible exact modMat_canonical h
  any_goals with_reducible exact modCluster_canonical h
  · exact modConv_canonical h
  · exact storeLtrc_canonical h
  · exact h
  · exact rewritten_canonical (modLad_canonical h)
  · exact storeLcarry_canonical h
  · exact modGang_canonical h
  · exact modGang_canonical h
  · exact modCluster_canonical h
  · exact storeClreset_canonical h
  · exact h

end Steering

section Words

variable {s : State}

theorem csrApply_canonical {op : CsrOp} {n : Nat} {x : Word} (h : s.MemoryCanonical) :
    (csrApply op n x s).MemoryCanonical :=
  ite_canonical (ite_canonical h (csrStore_canonical h)) (csrStore_canonical h)

theorem execCrget_canonical {d : BitVec 5} {c : BitVec 12} (h : s.MemoryCanonical) :
    ResultCanonical (execCrget d c s) :=
  resultIte_canonical (steerFault_canonical h) (resultIte_canonical (stall_canonical h)
    (retire_canonical (ite_canonical (clockRead_canonical h) (ite_canonical (tickUp_canonical h) h))))

theorem csrWriteWord_canonical {op : CsrOp} {word : IWord} {a : BitVec 5} {c : BitVec 12} (h : s.MemoryCanonical) :
    ResultCanonical (csrWriteWord op word a c s) :=
  resultIte_canonical (steerFault_canonical h) (resultIte_canonical (stall_canonical h)
    (resultIte_canonical (steerFault_canonical h) (resultIte_canonical (stall_canonical h)
      (advance_canonical (csrApply_canonical h)))))

theorem csrEvent_canonical {n : Nat} {v : Word} (h : s.MemoryCanonical) : ResultCanonical (csrEvent n v s) :=
  ite_canonical h (csrApply_canonical h)

/-! ### Queues, traps and the end of a task -/

theorem execBpush_canonical {a b : BitVec 5} (h : s.MemoryCanonical) : ResultCanonical (execBpush a b s) := by
  refine resultIte_canonical (steerFault_canonical h) (resultIte_canonical (stall_canonical h) ?_)
  split
  · next hr => exact releaseGate_canonical h _ hr
  · exact advance_canonical (modQ_canonical h)

theorem execDpush_canonical {a : BitVec 5} (h : s.MemoryCanonical) : ResultCanonical (execDpush a s) := by
  refine resultIte_canonical (stall_canonical h) ?_
  split
  · next hr => exact releaseGate_canonical h _ hr
  · exact advance_canonical (modQ_canonical h)

theorem execRpop_canonical {d : BitVec 5} (h : s.MemoryCanonical) : ResultCanonical (execRpop d s) := by
  unfold execRpop
  split
  · exact stall_canonical h
  · exact retire_canonical (modQ_canonical h)

theorem popEvent_canonical (h : s.MemoryCanonical) : (popEvent s).MemoryCanonical := modQ_canonical h

theorem execEpop_canonical {d : BitVec 5} (h : s.MemoryCanonical) : ResultCanonical (execEpop d s) := by
  unfold execEpop
  split
  · exact stall_canonical h
  · exact retire_canonical (popEvent_canonical h)

theorem execEpopTry_canonical {d : BitVec 5} (h : s.MemoryCanonical) : ResultCanonical (execEpopTry d s) := by
  unfold execEpopTry
  split
  · exact retire_canonical h
  · exact retire_canonical (popEvent_canonical h)

theorem popMessage_canonical (h : s.MemoryCanonical) : (popMessage s).MemoryCanonical :=
  cqSettle_canonical (modCluster_canonical h)

theorem execEpopMsg_canonical {d : BitVec 5} (h : s.MemoryCanonical) : ResultCanonical (execEpopMsg d s) := by
  unfold execEpopMsg
  split
  · exact stall_canonical h
  · exact retire_canonical (popMessage_canonical h)

theorem execEpopMsgTry_canonical {d : BitVec 5} (h : s.MemoryCanonical) : ResultCanonical (execEpopMsgTry d s) := by
  unfold execEpopMsgTry
  split
  · exact retire_canonical h
  · exact retire_canonical (popMessage_canonical h)

theorem haltControl_canonical {d : DoubleTrap} (h : s.MemoryCanonical) : (haltControl d s).MemoryCanonical :=
  modPkg_canonical (modCluster_canonical h)

theorem retakeTrap_canonical (h : s.MemoryCanonical) : (retakeTrap s).MemoryCanonical := by
  unfold retakeTrap
  dsimp only
  split
  · exact ite_canonical (haltControl_canonical h) (modCluster_canonical h)
  · exact modCore_canonical h

theorem trapReturnRetaken_canonical (h : s.MemoryCanonical) :
    (if (trapReturn s).cur.tpend then retakeTrap (trapReturn s) else trapReturn s).MemoryCanonical :=
  ite_canonical (retakeTrap_canonical (trapReturn_canonical h)) (trapReturn_canonical h)

theorem execHret_canonical (h : s.MemoryCanonical) : ResultCanonical (execHret s) :=
  resultIte_canonical (trapReturnRetaken_canonical h) (steerFault_canonical h)

theorem brkStop_canonical {t : Trap} (h : s.MemoryCanonical) : (brkStop t s).MemoryCanonical := by
  unfold brkStop
  dsimp only
  split
  · exact modCluster_canonical h
  · exact modCore_canonical h

theorem execBrk_canonical {i : BitVec 15} (h : s.MemoryCanonical) : ResultCanonical (execBrk i s) :=
  resultIte_canonical (resultIte_canonical (stall_canonical h) (brkStop_canonical (modCur_canonical h)))
    (steerTrapNext_canonical h)

theorem completeTask_canonical (h : s.MemoryCanonical) : ResultCanonical (completeTask s) := by
  unfold completeTask
  dsimp only
  split
  · exact steerMemFault_canonical h
  · exact resultIte_canonical (steerMemFault_canonical (tickUp_canonical h))
      (endTaskOn_canonical (leaveShares_canonical (writeLoc_canonical (tickUp_canonical h))))

theorem gate_or_canonical {o o' : Option Result} (ho : GateCanonical o) (ho' : GateCanonical o') :
    GateCanonical (o.or o') := by
  intro r hr
  obtain hr | ⟨-, hr⟩ := Option.or_eq_some_iff.mp hr
  · exact ho r hr
  · exact ho' r hr

theorem execEndTask_canonical (h : s.MemoryCanonical) : ResultCanonical (execEndTask s) := by
  refine resultIte_canonical (stall_canonical h) ?_
  split
  · next hr => exact gate_or_canonical (releaseGate_canonical h) (convoyGate_canonical h) _ hr
  · exact completeTask_canonical h

/-! ### Timelines, barriers, gangs and feeds -/

theorem contextFault_canonical {w : Word} (h : s.MemoryCanonical) : ResultCanonical (contextFault w s) :=
  steerFault_canonical h

theorem execTlwait_canonical {d a b : BitVec 5} {t : BitVec 6} (h : s.MemoryCanonical) :
    ResultCanonical (execTlwait d a b t s) :=
  resultIte_canonical (contextFault_canonical h) (resultIte_canonical (retire_canonical h) (stall_canonical h))

theorem execTlreadCount_canonical {d a : BitVec 5} (h : s.MemoryCanonical) : ResultCanonical (execTlreadCount d a s) :=
  resultIte_canonical (contextFault_canonical h) (retire_canonical h)

theorem execTlreadStatus_canonical {d a : BitVec 5} (h : s.MemoryCanonical) :
    ResultCanonical (execTlreadStatus d a s) :=
  resultIte_canonical (contextFault_canonical h) (retire_canonical h)

theorem execBarv_canonical {d a b : BitVec 5} (h : s.MemoryCanonical) : ResultCanonical (execBarv d a b s) := by
  unfold execBarv
  split
  · exact steerFault_canonical h
  · split
    · next hr => exact releaseGate_canonical h _ hr
    · exact retire_canonical (modCluster_canonical h)

theorem execBarw_canonical {d a b : BitVec 5} {t : BitVec 6} (h : s.MemoryCanonical) :
    ResultCanonical (execBarw d a b t s) := by
  unfold execBarw
  split
  · exact steerFault_canonical h
  · exact resultIte_canonical (retire_canonical h) (stall_canonical h)

theorem notePlane_canonical (h : s.MemoryCanonical) :
    (notePlane s).MemoryCanonical := modGang_canonical (modConv_canonical h)

theorem execGarm_canonical {a b : BitVec 5} (h : s.MemoryCanonical) : ResultCanonical (execGarm a b s) :=
  resultIte_canonical (stall_canonical h) (resultIte_canonical (steerFault_canonical h)
    (advance_canonical (notePlane_canonical (modGang_canonical h))))

theorem execGarmOff_canonical {d : BitVec 5} (h : s.MemoryCanonical) : ResultCanonical (execGarmOff d s) :=
  resultIte_canonical (stall_canonical h) (retire_canonical (disarmPlane_canonical (modGang_canonical h)))

theorem execFqset_canonical {a b : BitVec 5} {q : BitVec 4} (h : s.MemoryCanonical) :
    ResultCanonical (execFqset a b q s) :=
  resultIte_canonical (steerFault_canonical h) (resultIte_canonical (stall_canonical h)
    (advance_canonical (modCluster_canonical h)))

theorem execFqsetAdv_canonical {a : BitVec 5} {q : BitVec 4} (h : s.MemoryCanonical) :
    ResultCanonical (execFqsetAdv a q s) := advance_canonical (modCluster_canonical h)

/-! ### Launches and streams -/

/-- The memory of the state with a new entry is canonical. -/
@[simp] def Made.Canonical : Made → Prop
  | .entry _ _ t => t.MemoryCanonical
  | _ => True

theorem Made.canonical_of_eq {r r' : Made} (e : r = r') (h : r.Canonical) : r'.Canonical := e ▸ h

theorem madeIte_canonical {c : Prop} {_ : Decidable c} {a b : Made} (ha : a.Canonical) (hb : b.Canonical) :
    (if c then a else b).Canonical := by
  split
  · exact ha
  · exact hb

theorem madeRetire_canonical {d : BitVec 5} {m : Made} (hm : m.Canonical) (h : s.MemoryCanonical) :
    ResultCanonical (m.retire d s) := by
  cases m with
  | error => exact retire_canonical h
  | full => exact stall_canonical h
  | entry => exact retire_canonical hm

theorem createEntry_canonical {ctx : Nat} {e : Nat → Entry} {also : Nat → State → State}
    (halso : ∀ i t, t.MemoryCanonical → (also i t).MemoryCanonical) (h : s.MemoryCanonical) :
    (createEntry ctx e also s).Canonical := by
  unfold createEntry
  split
  · trivial
  · exact halso _ _ (modCluster_canonical (modPkg_canonical (modContext_canonical h)))

theorem makeStreamIn_canonical {dst src n : Word} {ctx : Nat} (h : s.MemoryCanonical) :
    (makeStreamIn dst src n ctx s).Canonical :=
  madeIte_canonical trivial (createEntry_canonical (fun _ _ ht => clockRead_canonical ht) h)

theorem makeStreamOut_canonical {dst name n : Word} {ctx : Nat} (h : s.MemoryCanonical) :
    (makeStreamOut dst name n ctx s).Canonical :=
  madeIte_canonical trivial (madeIte_canonical trivial
    (createEntry_canonical (fun _ _ ht => clockRead_canonical (modCluster_canonical ht)) h))

theorem makeKernel_canonical {blk : LaunchBlock} {x : Word} {ctx : Nat} (h : s.MemoryCanonical) :
    (makeKernel blk x ctx s).Canonical :=
  createEntry_canonical (fun _ _ ht => ite_canonical (modCluster_canonical ht) ht) h

theorem execLaunch_canonical {d a b : BitVec 5} {x : BitVec 4} (h : s.MemoryCanonical) :
    ResultCanonical (execLaunch d a b x s) := by
  refine resultIte_canonical (stall_canonical h) ?_
  split
  · exact steerMemFault_canonical (tickUp_canonical h)
  · refine resultIte_canonical (retire_canonical (tickUp_canonical h)) ?_
    split
    · next hr => exact releaseGate_canonical h _ hr
    · exact madeRetire_canonical (makeKernel_canonical (tickUp_canonical h)) (tickUp_canonical h)

theorem execLaunchRequest_canonical {d a b x c : BitVec 5} (h : s.MemoryCanonical) :
    ResultCanonical (execLaunchRequest d a b x c s) := by
  unfold execLaunchRequest
  split
  · next hr => exact releaseGate_canonical h _ hr
  · exact resultIte_canonical (stall_canonical h) (retire_canonical (cqPost_canonical h))

theorem engineIssue_canonical {cls : Nat} {op : CmdOp} {d a b : BitVec 5} (h : s.MemoryCanonical) :
    ResultCanonical (engineIssue cls op d a b s) := by
  refine resultIte_canonical (contextFault_canonical h) (resultIte_canonical (steerMemFault_canonical h)
    (resultIte_canonical (steerMemFault_canonical h) (resultIte_canonical (steerMemFault_canonical h) ?_)))
  split
  · next hr => exact releaseGate_canonical h _ hr
  · exact resultIte_canonical (stall_canonical h) (retire_canonical (clockRead_canonical (modContext_canonical h)))

theorem engineReset_canonical {cls : Nat} {d a : BitVec 5} (h : s.MemoryCanonical) :
    ResultCanonical (engineReset cls d a s) :=
  resultIte_canonical (contextFault_canonical h) (resultIte_canonical (stall_canonical h)
    (retire_canonical (modContext_canonical h)))

end Words

/-- The memory of the state that an action of an engine gives, when it gives one, is canonical. -/
def EngCanonical (r : EngResult State) : Prop := ∀ t, r = .ok t → t.MemoryCanonical

/-- The memory of the state that a step of a slab move gives is canonical. -/
@[simp] def Action.Canonical : Action → Prop
  | .goes t _ => t.MemoryCanonical
  | .ends p => p.s.MemoryCanonical

theorem Action.canonical_of_eq {r r' : Action} (e : r = r') (h : r.Canonical) : r'.Canonical := e ▸ h

theorem actionIte_canonical {c : Prop} {_ : Decidable c} {a b : Action} (ha : a.Canonical) (hb : b.Canonical) :
    (if c then a else b).Canonical := by
  split
  · exact ha
  · exact hb

theorem performedIte_canonical {c : Prop} {_ : Decidable c} {a b : Performed} (ha : a.s.MemoryCanonical)
    (hb : b.s.MemoryCanonical) : (if c then a else b).s.MemoryCanonical := by
  split
  · exact ha
  · exact hb

section Engines

variable {s : State}

theorem engineError_canonical {e : BitVec 8} : EngCanonical (.error e) := fun _ he => nomatch he

theorem engineOk_canonical (h : s.MemoryCanonical) : EngCanonical (.ok s) := fun _ he => Except.ok.inj he ▸ h

/-! ### Accesses of engines -/

theorem fillTlb_canonical {key : Nat} {ptroot : Word} {va : Nat} (h : s.MemoryCanonical) :
    (fillTlb key ptroot va s).MemoryCanonical := by
  unfold fillTlb
  generalize tableWalk s ptroot va = walked
  generalize contextTlb s (some key) ptroot va = held
  cases held with
  | some => exact h
  | none =>
    cases walked with
    | fault => exact h
    | leaf => exact modContext_canonical h

theorem engineWrite_canonical {cmd : Running} {die clu space : Nat} {addr : Word} {size v : Nat} (h : s.MemoryCanonical) :
    EngCanonical (engineWrite cmd die clu space addr size v s) := by
  unfold engineWrite
  split
  · exact engineError_canonical
  · split
    · exact engineError_canonical
    · exact engineOk_canonical (tickUp_canonical (writeLoc_canonical h))

theorem andThen_canonical {p : Performed} {f : State → EngResult State} (hp : p.s.MemoryCanonical)
    (hf : ∀ t, t.MemoryCanonical → EngCanonical (f t)) : (p.andThen f).s.MemoryCanonical := by
  refine performedIte_canonical hp ?_
  split
  · next hr => exact hf _ hp _ hr
  · exact hp

/-- A fold of actions that keep memory canonical keeps it canonical. -/
theorem foldPerformed_canonical {α : Type} (f : Performed → α → Performed) (l : List α)
    (hf : ∀ p a, p.s.MemoryCanonical → (f p a).s.MemoryCanonical) {p : Performed} (hp : p.s.MemoryCanonical) :
    (l.foldl f p).s.MemoryCanonical := by
  induction l generalizing p with
  | nil => exact hp
  | cons a l ih => exact ih (hf p a hp)

/-! ### Copies -/

theorem copyCell_canonical {cmd : Running} {die : Nat} {d : CopyDesc} {free : Bool} {p : Performed} {rc : Nat × Nat}
    (hp : p.s.MemoryCanonical) : (copyCell cmd die d free p rc).s.MemoryCanonical := by
  unfold copyCell
  dsimp only
  split
  · refine andThen_canonical hp (fun t ht => ?_)
    split
    · exact engineError_canonical
    · exact engineWrite_canonical ht
  · exact performedIte_canonical hp (andThen_canonical hp (fun _ ht => engineWrite_canonical ht))

theorem performCopy_canonical {cmd : Running} {die : Nat} {crcr : BitVec 32} (h : s.MemoryCanonical) :
    (performCopy cmd die crcr s).1.s.MemoryCanonical := by
  have hcells : ∀ free (l : List (Nat × Nat)),
      (l.foldl (copyCell cmd die (copyDesc cmd.desc) free) ⟨s.tickUp, 0⟩).s.MemoryCanonical :=
    fun _ l => foldPerformed_canonical _ l (fun _ _ hp => copyCell_canonical hp) (tickUp_canonical h)
  unfold performCopy
  dsimp only
  split
  · exact tickUp_canonical h
  · split
    · exact hcells _ _
    · split <;> exact hcells _ _

theorem engineCopyBytes_canonical {cmd : Running} {src dst n : Nat} {p : Performed} (hp : p.s.MemoryCanonical) :
    (engineCopyBytes cmd src dst n p).s.MemoryCanonical := by
  refine foldPerformed_canonical _ _ (fun q i hq => andThen_canonical hq (fun t ht => ?_)) hp
  split
  · exact engineError_canonical
  · exact engineWrite_canonical ht

/-! ### Slab moves -/

theorem beginWatch_canonical {entry : Nat} {within : Option (Nat × Nat)} (h : s.MemoryCanonical) :
    (beginWatch entry within s).MemoryCanonical := h

theorem putEntry_canonical {cmd : Running} {bytes : Nat} (h : s.MemoryCanonical) :
    EngCanonical (putEntry cmd bytes s) :=
  engineWrite_canonical h

theorem putOwnEntry_canonical {cmd : Running} {bytes key : Nat} {s0 : State} (h : s.MemoryCanonical) :
    EngCanonical ((putEntry cmd bytes s).map (ownWrites key s0)) := by
  intro t ht
  cases hu : putEntry cmd bytes s with
  | error => rw [hu] at ht; contradiction
  | ok u =>
    rw [hu] at ht
    exact Except.ok.inj ht ▸ ownWrites_canonical (putEntry_canonical h u hu)

theorem copyChunk_canonical {cmd : Running} {e : SlabEntry} {c : Nat} (h : s.MemoryCanonical) :
    (copyChunk cmd e c s).s.MemoryCanonical := engineCopyBytes_canonical h

theorem goesOn_canonical {p : Performed} {move : Nat × Nat × Bool} (hp : p.s.MemoryCanonical) :
    (p.goesOn move).Canonical := actionIte_canonical hp hp

theorem unlockEntry_canonical {cmd : Running} {e : SlabEntry} {c : Nat} {p : Performed} (hp : p.s.MemoryCanonical) :
    (unlockEntry cmd e c p).s.MemoryCanonical := by
  unfold unlockEntry
  split
  · next hr => exact putEntry_canonical hp _ hr
  · exact hp

theorem moveSlab_canonical {cmd : Running} {e : SlabEntry} {n c : Nat} {locked : Bool} (h : s.MemoryCanonical) :
    (moveSlab cmd e n c locked s).Canonical := by
  have hput : ∀ (bytes : State → Nat) (p : Performed), p.s.MemoryCanonical →
      (p.andThen (fun t => (putEntry cmd (bytes t) t).map (ownWrites (moveKey cmd s) s))).s.MemoryCanonical :=
    fun _ _ hp => andThen_canonical hp (fun _ ht => putOwnEntry_canonical ht)
  have hchunk := ownWrites_canonical (entry := moveKey cmd s) (s0 := s) (copyChunk_canonical (cmd := cmd) (e := e) (c := c) h)
  unfold moveSlab
  dsimp only
  split
  · exact performedIte_canonical (endWatch_canonical (hput _ _ h)) (hput _ _ h)
  · split
    · exact goesOn_canonical (hput _ _ h)
    · split
      · exact ownWrites_canonical (unlockEntry_canonical (copyChunk_canonical h))
      · exact goesOn_canonical (hput _ _ hchunk)

theorem startSlabmov_canonical {cmd : Running} (h : s.MemoryCanonical) : (startSlabmov cmd s).Canonical := by
  refine actionIte_canonical h ?_
  split
  · exact tickUp_canonical h
  next n _ =>
    have hp := andThen_canonical (p := ⟨s.tickUp, 0⟩) (f := putEntry cmd (movingEntry cmd (slabEntry n) 0 false s))
      (tickUp_canonical h) (fun _ ht => putEntry_canonical ht)
    exact actionIte_canonical (tickUp_canonical h) (actionIte_canonical
      (tickUp_canonical (ite_canonical h (beginWatch_canonical h)))
      (goesOn_canonical (ite_canonical (beginWatch_canonical hp) hp)))

theorem performSlabmov_canonical {cmd : Running} (h : s.MemoryCanonical) : (performSlabmov cmd s).Canonical := by
  unfold performSlabmov
  split
  · exact startSlabmov_canonical h
  · exact moveSlab_canonical h

/-! ### Media -/

theorem writeFrame_canonical {cmd : Running} {d : MediaDesc} {n : Nat} {f : Config.Frame} {p : Performed}
    (hp : p.s.MemoryCanonical) : (writeFrame cmd d n f p).s.MemoryCanonical :=
  foldPerformed_canonical _ _ (fun _ _ hq => andThen_canonical hq (fun _ ht => engineWrite_canonical ht)) hp

theorem writeFrames_canonical {cmd : Running} {d : MediaDesc} {n : Nat} {l : List Config.Frame} {p : Performed}
    (hp : p.s.MemoryCanonical) : (writeFrames cmd d n l p).s.MemoryCanonical := by
  induction l generalizing n p with
  | nil => exact hp
  | cons f l ih => exact ih (writeFrame_canonical hp)

theorem writeResult_canonical {cmd : Running} {d : MediaDesc} {frames used : Nat} {p : Performed}
    (hp : p.s.MemoryCanonical) : (writeResult cmd d frames used p).s.MemoryCanonical :=
  performedIte_canonical hp (andThen_canonical (andThen_canonical hp (fun _ ht => engineWrite_canonical ht))
    (fun _ ht => engineWrite_canonical ht))

theorem performMdec_canonical {cmd : Running} {decoder : Nat} (h : s.MemoryCanonical) :
    (performMdec cmd decoder s).1.s.MemoryCanonical := by
  unfold performMdec
  dsimp only
  split
  · exact h
  · split
    · exact tickUp_canonical h
    · have hframes := fun d l => writeFrames_canonical (cmd := cmd) (d := d) (n := 0) (l := l) (p := ⟨s.tickUp, 0⟩)
        (tickUp_canonical h)
      split
      · exact tickUp_canonical h
      · split
        · exact hframes _ _
        · split
          · exact hframes _ _
          · exact writeResult_canonical (hframes _ _)

theorem performMrsz_canonical {cmd : Running} (h : s.MemoryCanonical) : (performMrsz cmd s).s.MemoryCanonical := by
  refine performedIte_canonical h ?_
  split
  · exact tickUp_canonical h
  · exact writeResult_canonical (writeFrame_canonical (tickUp_canonical h))

/-! ### Commands and collectives -/

theorem finishCommand_canonical {key : Nat} {cmd : Cmd} {err : BitVec 8} (h : s.MemoryCanonical) :
    (finishCommand key cmd err s).MemoryCanonical := by
  unfold finishCommand
  dsimp only
  split
  · exact ite_canonical (modContext_canonical h) (postTask_canonical (modContext_canonical h))
  · exact modContext_canonical h

theorem keepUndo_canonical {key num : Nat} {s0 : State} (h : s.MemoryCanonical) :
    (keepUndo key num s0 s).MemoryCanonical :=
  modContext_canonical h

theorem walkPages_canonical {key : Nat} {cmd : Cmd} (h : s.MemoryCanonical) : (walkPages key cmd s).MemoryCanonical :=
  foldl_canonical _ (fun _ _ ht => fillTlb_canonical ht) _ h

theorem performHead_canonical {key : Nat} {cmd : Cmd} (h : s.MemoryCanonical) :
    (performHead key cmd s).MemoryCanonical := by
  have hw := clockRead_canonical (walkPages_canonical (key := key) (cmd := cmd) h)
  have hcopy : ∀ r die crcr, (performCopy r die crcr (walkPages key cmd s).clockRead).1.s.MemoryCanonical :=
    fun _ _ _ => performCopy_canonical hw
  unfold performHead
  dsimp only
  split
  · exact finishCommand_canonical (keepUndo_canonical (modContext_canonical (hcopy _ _ _)))
  · exact finishCommand_canonical (keepUndo_canonical (modContext_canonical (hcopy _ _ _)))
  · exact finishCommand_canonical (keepUndo_canonical (modContext_canonical (hcopy _ _ _)))
  · split
    · next hr =>
      have hp := Action.canonical_of_eq hr (performSlabmov_canonical hw)
      exact finishCommand_canonical (keepUndo_canonical hp)
    · next hr =>
      have ht := Action.canonical_of_eq hr (performSlabmov_canonical hw)
      exact keepUndo_canonical (modContext_canonical ht)
  · exact finishCommand_canonical (keepUndo_canonical (modContext_canonical (performMdec_canonical hw)))
  · exact finishCommand_canonical (keepUndo_canonical (performMrsz_canonical hw))
  · exact hw

theorem collDeliver_canonical {cmd : Running} {d : CollDesc} {value : Nat → Nat} (h : s.MemoryCanonical) :
    (collDeliver cmd d value s).s.MemoryCanonical :=
  foldPerformed_canonical _ _ (fun _ _ hq => andThen_canonical hq (fun _ ht => engineWrite_canonical ht)) h

theorem performCollective_canonical {key : Nat} {cmd : Cmd} (h : s.MemoryCanonical) :
    (performCollective key cmd s).MemoryCanonical := by
  have hw := tickUp_canonical (walkPages_canonical (key := key) (cmd := cmd) h)
  unfold performCollective
  dsimp only
  split
  · exact finishCommand_canonical hw
  · refine ite_canonical (finishCommand_canonical hw) ?_
    split
    · exact finishCommand_canonical hw
    · exact ite_canonical (finishCommand_canonical (collDeliver_canonical hw)) (finishCommand_canonical hw)

theorem advanceHead_canonical {key : Nat} {cmd : Cmd} (h : s.MemoryCanonical) :
    (advanceHead key cmd s).MemoryCanonical := by
  have hcoll : (match collFault key cmd s with
      | some e => finishCommand key cmd e s.tickUp
      | none => s).MemoryCanonical := by
    split
    · exact finishCommand_canonical (tickUp_canonical h)
    · exact h
  unfold advanceHead
  split
  · exact hcoll
  · exact hcoll
  · exact performHead_canonical h

theorem failureLeaves_canonical {key : Nat} {cmd : Cmd} {err : BitVec 8} (h : s.MemoryCanonical) :
    (failureLeaves key cmd err s).MemoryCanonical := by
  have hcoll : ∀ d r v c, ∀ _ : Decidable c, (if c then (collDeliver r d v s.tickUp).s else s).MemoryCanonical :=
    fun _ _ _ _ _ => ite_canonical (collDeliver_canonical (tickUp_canonical h)) h
  unfold failureLeaves
  split
  · exact modContext_canonical h
  · exact modContext_canonical h
  · exact ownWrites_canonical (unlockEntry_canonical h)
  · exact hcoll _ _ _ _ _
  · exact hcoll _ _ _ _ _
  · exact h

theorem execTimelineAdvance_canonical {key : Nat} (h : s.MemoryCanonical) :
    ResultCanonical (execTimelineAdvance key s) := by
  unfold execTimelineAdvance
  split
  · exact ite_canonical h (advanceHead_canonical h)
  · exact h

theorem execCommandFailed_canonical {key : Nat} {err : BitVec 8} (h : s.MemoryCanonical) :
    ResultCanonical (execCommandFailed key err s) := by
  unfold execCommandFailed
  split
  · exact ite_canonical (finishCommand_canonical (tickUp_canonical (failureLeaves_canonical h))) h
  · exact h

theorem execCollectiveMatch_canonical {key : Nat} (h : s.MemoryCanonical) :
    ResultCanonical (execCollectiveMatch key s) := by
  unfold execCollectiveMatch
  split
  · exact performCollective_canonical h
  · exact h

theorem execCollectiveTimeout_canonical {key : Nat} (h : s.MemoryCanonical) :
    ResultCanonical (execCollectiveTimeout key s) := by
  unfold execCollectiveTimeout
  split
  · exact finishCommand_canonical (tickUp_canonical h)
  · exact h

theorem execMemberUnreachable_canonical {key : Nat} (h : s.MemoryCanonical) :
    ResultCanonical (execMemberUnreachable key s) := by
  unfold execMemberUnreachable
  split
  · exact ite_canonical h (finishCommand_canonical (tickUp_canonical (failureLeaves_canonical h)))
  · exact h

theorem execOffloadPromotion_canonical (h : s.MemoryCanonical) : ResultCanonical (execOffloadPromotion s) :=
  clockRead_canonical (modPkg_canonical h)

end Engines

section Scoreboard

variable {s : State}

/-! ### Entries, streams and Fantail -/

theorem kernelReady_canonical {l i : Nat} {e : Entry} (h : s.MemoryCanonical) : (kernelReady l i e s).MemoryCanonical :=
  ite_canonical (entryDone_canonical h) (ite_canonical (modClusterAt_canonical h) h)

theorem execEntryReady_canonical {e : Nat} (h : s.MemoryCanonical) : ResultCanonical (execEntryReady e s) := by
  unfold execEntryReady
  split
  · exact ite_canonical (kernelReady_canonical h) h
  · exact h

theorem pumpCopy_canonical {e : Entry} (h : s.MemoryCanonical) : (pumpCopy e s).s.MemoryCanonical :=
  engineCopyBytes_canonical h

theorem execStreamPumpTransfer_canonical {e : Nat} (h : s.MemoryCanonical) :
    ResultCanonical (execStreamPumpTransfer e s) := by
  unfold execStreamPumpTransfer
  split
  · exact resultIte_canonical (entryDone_canonical (pumpCopy_canonical h)) h
  · exact h

theorem execStreamOutCopy_canonical {e : Nat} (h : s.MemoryCanonical) : ResultCanonical (execStreamOutCopy e s) := by
  unfold execStreamOutCopy
  split
  · exact resultIte_canonical (entryDone_canonical (performedIte_canonical h (pumpCopy_canonical h))) h
  · exact h

theorem installGroup_canonical {l i : Nat} {e : Entry} {cores : List Nat} {bars : List (Option Nat)}
    (h : s.MemoryCanonical) : (installGroup l i e cores bars s).MemoryCanonical :=
  refreshEntries_canonical (modClusterAt_canonical (modPkg_canonical (modClusterAt_canonical
    (foldl_canonical _ (fun _ _ ht => modCoreAt_canonical ht) _ h))))

theorem optionIte_canonical {c : Prop} {_ : Decidable c} {o o' : Option State} (ho : OptionCanonical o)
    (ho' : OptionCanonical o') : OptionCanonical (if c then o else o') := by
  split
  · exact ho
  · exact ho'

theorem placeNew_canonical {l i : Nat} {e : Entry} (h : s.MemoryCanonical) : OptionCanonical (placeNew l i e s) := by
  refine optionIte_canonical .none (fun t ht => ?_)
  obtain ⟨bars, -, rfl⟩ := Option.map_eq_some_iff.mp ht
  exact installGroup_canonical h

theorem unparkImage_canonical {l slot core : Nat} (h : s.MemoryCanonical) :
    (unparkImage l slot core s).MemoryCanonical := by
  refine foldl_canonical _ (fun t off ht => ?_) _ h
  dsimp only
  split
  · exact writeByte_canonical _ _ ht
  · exact ht

theorem parkImage_canonical {l slot core : Nat} (h : s.MemoryCanonical) :
    (parkImage l slot core s).MemoryCanonical := by
  refine foldl_canonical _ (fun t off ht => ?_) _ h
  dsimp only
  split
  · exact writeByte_canonical _ _ ht
  · exact ht

theorem startRestore_canonical {core serial : Nat} {overdue : Bool} (h : s.MemoryCanonical) :
    (startRestore core serial overdue s).MemoryCanonical := modCoreAt_canonical h

theorem restoreTask_canonical {l : Nat} {overdue : Bool} {p : State × List Nat × List GangTask} {t : GangTask}
    (hp : p.1.MemoryCanonical) : (restoreTask l overdue p t).1.MemoryCanonical := by
  unfold restoreTask
  dsimp only
  split
  · exact startRestore_canonical hp
  · split
    · exact startRestore_canonical (unparkImage_canonical hp)
    · exact hp
  · exact hp

theorem restoreTasks_canonical {l : Nat} {overdue : Bool} {ts : List GangTask} {p : State × List Nat × List GangTask}
    (hp : p.1.MemoryCanonical) : (ts.foldl (restoreTask l overdue) p).1.MemoryCanonical := by
  induction ts generalizing p with
  | nil => exact hp
  | cons t ts ih => exact ih (restoreTask_canonical hp)

theorem placeSaved_canonical {l i : Nat} {e : Entry} {g : PlacedGroup} (h : s.MemoryCanonical) :
    OptionCanonical (placeSaved l i e g s) := by
  refine optionIte_canonical .none (.some (refreshEntries_canonical (modClusterAt_canonical ?_)))
  exact restoreTasks_canonical (p := (s, freeCores s l i, [])) h

theorem placeNext_canonical {l i : Nat} {e : Entry} (h : s.MemoryCanonical) : OptionCanonical (placeNext l i e s) := by
  refine optionIte_canonical .none ?_
  split
  · exact placeSaved_canonical h
  · exact placeNew_canonical h

theorem fantailStep_canonical {l : Nat} (h : s.MemoryCanonical) : OptionCanonical (fantailStep l s) := by
  refine optionIte_canonical .none ?_
  split
  · exact placeNext_canonical h
  · intro t ht
    obtain ⟨p, -, hp⟩ := List.exists_of_findSome?_eq_some ht
    exact placeNext_canonical h t hp

theorem fantailLoop_canonical {l n : Nat} {s : State} (h : s.MemoryCanonical) :
    (fantailLoop l n s).MemoryCanonical := by
  induction n generalizing s with
  | zero => exact h
  | succ n ih =>
    unfold fantailLoop
    split
    · next hr => exact ih (fantailStep_canonical h _ hr)
    · exact h

theorem handShare_canonical {l i : Nat} (h : s.MemoryCanonical) : OptionCanonical (handShare l i s) := by
  unfold handShare
  split
  · exact .none
  · refine optionIte_canonical .none (fun t ht => ?_)
    obtain ⟨k, -, hk⟩ := Option.bind_eq_some_iff.mp ht
    obtain ⟨j, -, rfl⟩ := Option.map_eq_some_iff.mp hk
    exact refreshHome_canonical (modClusterAt_canonical (modClusterAt_canonical h))

theorem handShares_canonical {l i n : Nat} {s : State} (h : s.MemoryCanonical) :
    (handShares l i n s).MemoryCanonical := by
  induction n generalizing s with
  | zero => exact h
  | succ n ih =>
    unfold handShares
    split
    · next hr => exact ih (handShare_canonical h _ hr)
    · exact h

theorem parkCore_canonical {l core : Nat} (h : s.MemoryCanonical) : (parkCore l core s).MemoryCanonical := by
  refine ite_canonical h ?_
  split
  · exact h
  · exact releaseCore_canonical (placeTask_canonical (parkImage_canonical h))

theorem parkReserved_canonical {l : Nat} (h : s.MemoryCanonical) : (parkReserved l s).MemoryCanonical :=
  foldl_canonical _ (fun _ _ ht => parkCore_canonical ht) _ (modClusterAt_canonical h)

theorem execFantailRun_canonical (h : s.MemoryCanonical) : ResultCanonical (execFantailRun s) :=
  fantailLoop_canonical (parkReserved_canonical (foldl_canonical _ (fun _ _ ht => handShares_canonical ht) _ h))

theorem execOverdue_canonical {e : Nat} (h : s.MemoryCanonical) : ResultCanonical (execOverdue e s) := by
  unfold execOverdue
  split
  · exact resultIte_canonical (modCluster_canonical h) h
  · exact h

theorem execPriorityPreemption_canonical {e : Nat} (h : s.MemoryCanonical) :
    ResultCanonical (execPriorityPreemption e s) := by
  unfold execPriorityPreemption
  dsimp only
  split
  · exact h
  · exact resultIte_canonical h (modCluster_canonical (foldl_canonical _ (fun _ _ ht => requestGroup_canonical ht) _ h))

theorem execFeedCrossing_canonical {q : BitVec 4} (h : s.MemoryCanonical) : ResultCanonical (execFeedCrossing q s) := by
  unfold execFeedCrossing
  dsimp only
  split
  · exact h
  · exact modClusterAt_canonical (ite_canonical (postTask_canonical h) h)

theorem execEndReport_canonical (h : s.MemoryCanonical) : ResultCanonical (execEndReport s) := by
  unfold execEndReport
  split
  · exact h
  · dsimp only
    split
    · exact modCluster_canonical h
    · exact kernelCount_canonical (modCluster_canonical (ite_canonical
        (modCluster_canonical (modCluster_canonical h)) (modCluster_canonical h)))

theorem execTaskAbandon_canonical (h : s.MemoryCanonical) : ResultCanonical (execTaskAbandon s) := by
  unfold execTaskAbandon
  split
  · exact ite_canonical (abandonTask_canonical (leaveShares_canonical h)) h
  · exact h

theorem execTcmClear_canonical (h : s.MemoryCanonical) : ResultCanonical (execTcmClear s) :=
  resultIte_canonical (modCore_canonical (clearMem_canonical _ _ h)) h

/-! ### Saving and restoring a context -/

theorem writeWords_canonical {key : Nat} {l : List Word} {s : State} (h : s.MemoryCanonical) :
    (writeWords key l s).MemoryCanonical := by
  induction l generalizing key s with
  | nil => exact h
  | cons w l ih => exact ih (writeMem_canonical _ _ _ h)

theorem savePlane_canonical {key : Nat} {c : Conv} (h : s.MemoryCanonical) : (savePlane key c s).MemoryCanonical :=
  foldl_canonical _ (fun _ _ ht => writeMem_canonical _ _ _ ht) _
    (foldl_canonical _ (fun _ _ ht => clearMem_canonical _ _ ht) _ h)

theorem saveSlabs_canonical {key : Nat} {m : Matrix} (h : s.MemoryCanonical) : (saveSlabs key m s).MemoryCanonical :=
  ite_canonical (foldl_canonical _ (fun _ _ ht => writeMem_canonical _ _ _ ht) _ (clearMem_canonical _ _ h)) h

theorem saveMasks_canonical {key : Nat} {c : Conv} (h : s.MemoryCanonical) : (saveMasks key c s).MemoryCanonical :=
  foldl_canonical _ (fun _ _ ht => ite_canonical (writeByte_canonical _ _ ht) ht) _
    (foldl_canonical _ (fun _ _ ht => writeByte_canonical _ _ ht) _ (clearMem_canonical _ _ h))

theorem saveQueues_canonical {key : Nat} {c : Core} (h : s.MemoryCanonical) : (saveQueues key c s).MemoryCanonical :=
  writeMem_canonical _ _ _ (writeWords_canonical (writeWords_canonical (writeWords_canonical (writeWords_canonical h))))

theorem withAgent_canonical {a : Agent} (h : s.MemoryCanonical) : ({ s with agent := a } : State).MemoryCanonical := h

theorem saveContext_canonical (h : s.MemoryCanonical) : (saveContext s).MemoryCanonical :=
  withAgent_canonical (foldl_canonical _ (fun _ _ ht => writeMem_canonical _ _ _ ht) _
    (writeWords_canonical (writeWords_canonical (saveQueues_canonical (writeWords_canonical
      (saveMasks_canonical (saveSlabs_canonical (savePlane_canonical (withAgent_canonical h)))))))))

theorem execContextSave_canonical (h : s.MemoryCanonical) : ResultCanonical (execContextSave s) :=
  resultIte_canonical h (modPkg_canonical (placeTask_canonical (modCluster_canonical
    (modCore_canonical (saveContext_canonical h)))))

theorem loadContext_canonical {handle : Word} {kept : GangTask} {posts : List Word} (h : s.MemoryCanonical) :
    (loadContext handle kept posts s).MemoryCanonical := modCore_canonical h

theorem reportRestore_canonical {key : Nat} (h : s.MemoryCanonical) : (reportRestore key s).MemoryCanonical := by
  unfold reportRestore
  split
  · exact h
  · exact cqPost_canonical h

theorem resumeRestored_canonical (h : s.MemoryCanonical) : (resumeRestored s).MemoryCanonical :=
  ite_canonical h (ite_canonical (modCore_canonical h) (retakeTrap_canonical h))

theorem execContextRestore_canonical (h : s.MemoryCanonical) : ResultCanonical (execContextRestore s) :=
  resultIte_canonical h (withAgent_canonical (resumeRestored_canonical (withAgent_canonical
    (reportRestore_canonical (modCluster_canonical (loadContext_canonical h))))))

/-! ### Ports -/

theorem movesTraffic_canonical {n : Nat} (h : s.MemoryCanonical) : (movesTraffic n s).MemoryCanonical := by
  unfold movesTraffic
  dsimp only
  split
  · exact modPort_canonical (modPort_canonical h)
  · exact h

theorem portDown_canonical {n : Nat} (h : s.MemoryCanonical) : (portDown n s).MemoryCanonical :=
  movesTraffic_canonical (modPort_canonical h)

end Scoreboard

section Events

variable {s : State}

/-! ### Events of a core and of its accesses -/

theorem execBlockPop_canonical (h : s.MemoryCanonical) : ResultCanonical (execBlockPop s) :=
  ite_canonical (popBlock_canonical h) h

theorem execConvoyIssue_canonical (h : s.MemoryCanonical) : ResultCanonical (execConvoyIssue s) :=
  resultIte_canonical (issueConvoy_canonical h) h

theorem execConvoyRetire_canonical (h : s.MemoryCanonical) : ResultCanonical (execConvoyRetire s) :=
  resultIte_canonical (runConvoy_canonical h) h

theorem ladTrap_canonical (h : s.MemoryCanonical) : (ladTrap s).MemoryCanonical := convoyTrap_canonical h

theorem execTrapEntry_canonical (h : s.MemoryCanonical) : ResultCanonical (execTrapEntry s) :=
  ite_canonical (ladTrap_canonical h) h

theorem execQueueDeadlock_canonical (h : s.MemoryCanonical) : ResultCanonical (execQueueDeadlock s) := by
  unfold execQueueDeadlock
  split
  · exact h
  · have hstop : OptionCanonical (if ({ s with agent := .steer } : State).inFlight then stopFlight { s with agent := .steer }
        else some { s with agent := .steer }) := by
      split
      · exact stopFlight_canonical (withAgent_canonical h)
      · exact .some (withAgent_canonical h)
    dsimp only
    split
    · exact h
    · next hr => exact withAgent_canonical (takeTrap_canonical (modSteer_canonical (hstop _ hr)))

theorem execDebugStop_canonical (h : s.MemoryCanonical) : ResultCanonical (execDebugStop s) := by
  unfold execDebugStop
  split
  · exact modCluster_canonical h
  · exact resultIte_canonical h (modCore_canonical h)

theorem execCompletionWordUpdate_canonical (h : s.MemoryCanonical) : ResultCanonical (execCompletionWordUpdate s) :=
  resultIte_canonical (execEndTask_canonical (withAgent_canonical h)) h

theorem dropAccess_canonical {n : Nat} (h : s.MemoryCanonical) : (dropAccess n s).MemoryCanonical := modCur_canonical h

theorem execLoadDataArrival_canonical {n : Nat} (h : s.MemoryCanonical) :
    ResultCanonical (execLoadDataArrival n s) := by
  unfold execLoadDataArrival
  split
  · exact ite_canonical (writeReg_canonical (dropAccess_canonical h)) h
  · exact h

theorem execStoreAcknowledged_canonical {n : Nat} (h : s.MemoryCanonical) :
    ResultCanonical (execStoreAcknowledged n s) := by
  unfold execStoreAcknowledged
  split
  · refine ite_canonical h ?_
    split
    · exact h
    · exact dropAccess_canonical h
    · exact writeReg_canonical (dropAccess_canonical h)
  · exact h

theorem trapAccess_canonical {n : Nat} {a : OutAcc} (h : s.MemoryCanonical) : (trapAccess n a s).MemoryCanonical :=
  ite_canonical h (takeTrap_canonical (modCur_canonical (dropAccess_canonical h)))

theorem performAccess_canonical {n : Nat} {a : OutAcc} (h : s.MemoryCanonical) :
    (performAccess n a s).MemoryCanonical := by
  unfold performAccess
  dsimp only
  split
  · exact storeMem_canonical _ _ _ (modCur_canonical h)
  · exact modCur_canonical h

theorem failAccess_canonical {n : Nat} {a : OutAcc} (h : s.MemoryCanonical) : (failAccess n a s).MemoryCanonical := by
  unfold failAccess
  split
  · exact tickUp_canonical (modCur_canonical (dropAccess_canonical (ite_canonical (storeMem_canonical _ _ _ h) h)))
  · exact trapAccess_canonical h

theorem execRemoteAccess_canonical {n : Nat} (h : s.MemoryCanonical) : ResultCanonical (execRemoteAccess n s) := by
  unfold execRemoteAccess
  split
  · exact ite_canonical h (ite_canonical (trapAccess_canonical h) (performAccess_canonical h))
  · exact h

theorem execRemoteAccessTimeout_canonical {n : Nat} (h : s.MemoryCanonical) :
    ResultCanonical (execRemoteAccessTimeout n s) := by
  unfold execRemoteAccessTimeout
  split
  · exact ite_canonical (failAccess_canonical h) h
  · exact h

/-- The definition is unfolded before it has its arguments: with them, the kernel would compare the match with the
event's own by evaluating the walk. -/
theorem execTableWalk_canonical {va : BitVec 57} {vec : Bool} (h : s.MemoryCanonical) :
    ResultCanonical (execTableWalk va vec s) := by
  generalize hf : execTableWalk = f
  delta execTableWalk at hf
  subst hf
  beta_reduce
  generalize tableWalk s s.cur.ptroot va.toNat = walked
  cases walked with
  | fault => exact h
  | leaf e bits =>
    dsimp only [ResultCanonical]
    split
    · exact modCluster_canonical h
    · exact modCore_canonical (modCluster_canonical h)

theorem execMonitoredLineWrite_canonical {line : Nat} (h : s.MemoryCanonical) :
    ResultCanonical (execMonitoredLineWrite line s) := resultIte_canonical (runConvoy_canonical h) h

theorem execWaitLimitExpiry_canonical (h : s.MemoryCanonical) : ResultCanonical (execWaitLimitExpiry s) := by
  unfold execWaitLimitExpiry
  split
  · exact resultIte_canonical (runConvoy_canonical (modConv_canonical h)) h
  · split
    · exact ite_canonical (modCur_canonical h) h
    · exact h

theorem execSpuriousWake_canonical (h : s.MemoryCanonical) : ResultCanonical (execSpuriousWake s) :=
  resultIte_canonical (runConvoy_canonical h) h

theorem execCarryChain_canonical (h : s.MemoryCanonical) : ResultCanonical (execCarryChain s) :=
  ite_canonical (chainNext_canonical h) h

/-! ### The debug port and the host -/

theorem execFreezeSignal_canonical {v : BitVec 64} (h : s.MemoryCanonical) : ResultCanonical (execFreezeSignal v s) :=
  ite_canonical (freezeScope_canonical h) h

theorem resumeStopped_canonical {ret : Bool} (h : s.MemoryCanonical) : (resumeStopped ret s).MemoryCanonical := by
  unfold resumeStopped
  split
  · exact h
  · have ht := modCur_canonical (f := fun c => { c with stopped := false }) h
    exact ite_canonical (trapReturnRetaken_canonical ht) (ite_canonical ht (modCore_canonical ht))

theorem asAgent_canonical {c : Nat} {a b : Agent} {f : State → State} (hf : ∀ t, t.MemoryCanonical → (f t).MemoryCanonical)
    (h : s.MemoryCanonical) :
    (({ f { s.focus c with agent := a } with agent := b } : State).focus s.coreId).MemoryCanonical :=
  focus_canonical (withAgent_canonical (hf _ (withAgent_canonical (focus_canonical h))))

theorem debugWrite_canonical {p : DebugPlace} {v : Word} (h : s.MemoryCanonical) :
    (debugWrite p v s).MemoryCanonical := by
  unfold debugWrite
  cases p with
  | mem => exact storeMem_canonical _ _ _ h
  | csr => exact modCoreAt_canonical (asAgent_canonical (fun _ ht => csrStore_canonical ht) h)
  | ctlCsr => exact modClusterAt_canonical (asAgent_canonical (fun _ ht => csrStore_canonical ht) h)
  | reg | ctlReg => exact asAgent_canonical (fun _ ht => modCur_canonical ht) h
  | run | ctlRun => exact asAgent_canonical (fun _ ht => resumeStopped_canonical ht) h
  | desc => exact ite_canonical (modCoreAt_canonical h) h
  | ctlAttach | barrier | message | entry | feed | block | tlbCluster | ctlOut | group | gangTask | cluster =>
    exact modClusterAt_canonical h
  | context | command | tlbContext => exact modContext_canonical h
  | die => exact modDieAt_canonical h
  | package => exact h
  | _ => exact modCoreAt_canonical h

theorem debugStore_canonical {p : DebugPlace} {v : Word} (h : s.MemoryCanonical) :
    (debugStore p v s).MemoryCanonical := by
  unfold debugStore
  dsimp only
  split
  · exact modCoreAt_canonical h
  · exact debugWrite_canonical h

theorem execDebugPortAccess_canonical {write : Bool} {addr : Nat} {v : BitVec 64} (h : s.MemoryCanonical) :
    ResultCanonical (execDebugPortAccess write addr v s) := ite_canonical (debugStore_canonical h) h

theorem execPackageReset_canonical : ResultCanonical (execPackageReset s) := bootFrom_canonical resetPackage_canonical

theorem withTick_canonical {n : Nat} (h : s.MemoryCanonical) : ({ s with tick := n } : State).MemoryCanonical := h

theorem execPortRetrain_canonical {port : Nat} (h : s.MemoryCanonical) : ResultCanonical (execPortRetrain port s) :=
  resultIte_canonical
    (ite_canonical (withTick_canonical (modPort_canonical h)) (portDown_canonical (withTick_canonical (modPort_canonical h))))
    (modPort_canonical h)

theorem hostStore_canonical {p : HostPlace} {v : Word} (h : s.MemoryCanonical) : (hostStore p v s).MemoryCanonical := by
  unfold hostStore
  split
  · exact storeMem_canonical _ _ _ h
  · exact storeMem_canonical _ _ _ h
  · exact pkgWrite_canonical h
  · exact ite_canonical (storeMem_canonical _ _ _ h) h
  · exact modPkg_canonical h
  · exact h

theorem execCxlMemAccess_canonical {write : Bool} {addr : Nat} {v : BitVec 64} (h : s.MemoryCanonical) :
    ResultCanonical (execCxlMemAccess write addr v s) := by
  refine ite_canonical h (ite_canonical (hostStore_canonical h) ?_)
  split
  · exact afterRead_canonical h
  · exact h

/-! ### Every instruction and event -/

theorem exec_canonical (i : Instr) (h : s.MemoryCanonical) : ResultCanonical (exec i s) := by
  cases i with
  -- events
  | blockPop => exact execBlockPop_canonical h
  | convoyIssue => exact execConvoyIssue_canonical h
  | convoyRetire => exact execConvoyRetire_canonical h
  | trapEntry => exact execTrapEntry_canonical h
  | queueDeadlock => exact execQueueDeadlock_canonical h
  | debugStop => exact execDebugStop_canonical h
  | preemptionRequest => exact requestCore_canonical h
  | contextSave => exact execContextSave_canonical h
  | contextRestore => exact execContextRestore_canonical h
  | completionWordUpdate => exact execCompletionWordUpdate_canonical h
  | endReport => exact execEndReport_canonical h
  | taskAbandon => exact execTaskAbandon_canonical h
  | loadDataArrival => exact execLoadDataArrival_canonical h
  | storeAcknowledged => exact execStoreAcknowledged_canonical h
  | vectorElementArrival => exact execConvoyRetire_canonical h
  | tableWalk => exact execTableWalk_canonical h
  | monitoredLineWrite => exact execMonitoredLineWrite_canonical h
  | waitLimitExpiry => exact execWaitLimitExpiry_canonical h
  | timelineAdvance => exact execTimelineAdvance_canonical h
  | commandFailed => exact execCommandFailed_canonical h
  | carryChain => exact execCarryChain_canonical h
  | entryReady => exact execEntryReady_canonical h
  | fantailRun => exact execFantailRun_canonical h
  | overdue => exact execOverdue_canonical h
  | priorityPreemption => exact execPriorityPreemption_canonical h
  | streamPumpTransfer => exact execStreamPumpTransfer_canonical h
  | streamOutCopy => exact execStreamOutCopy_canonical h
  | tcmClear => exact execTcmClear_canonical h
  | feedCrossing => exact execFeedCrossing_canonical h
  | gmmaMulticast => exact multicastArrives_canonical h
  | gmmaShareCompletion => exact shareCompletes_canonical h
  | planepwrWrite | lcntWrite | lcarryWrite | gselWrite | tlbinv | fqadv | clreset | csrWrite =>
    exact csrEvent_canonical h
  | clusterReset => exact resetClusters_canonical h
  | hostPreemptionRequest => exact writePreq_canonical h
  | preqComplete => exact preqFinish_canonical h
  | clholdWrite | plimitWrite => exact modPkg_canonical h
  | freeze | thaw => exact writeFrz_canonical h
  | freezeSignal => exact execFreezeSignal_canonical h
  | debugPortAccess => exact execDebugPortAccess_canonical h
  | attest => exact mbPost_canonical (fun _ ht => mbAttest_canonical ht) h
  | recover => exact mbPost_canonical (fun _ ht => mbRecover_canonical ht) h
  | commitSvn => exact mbPost_canonical (fun _ ht => mbCommitSvn_canonical ht) h
  | cert => exact mbPost_canonical (fun _ ht => mbCert_canonical ht) h
  | cllog => exact mbPost_canonical (fun _ ht => mbCllog_canonical ht) h
  | dbgen => exact mbPost_canonical (fun _ ht => mbDbgen_canonical ht) h
  | unknownCommand => exact mbPost_canonical (fun _ ht => mbRun_canonical ht) h
  | packageReset => exact execPackageReset_canonical
  | powerLoss => exact tickUp_canonical (modPkg_canonical h)
  | grantCycle => exact ite_canonical h (grantCycle_canonical h)
  | grantDelivery => exact deliverGrant_canonical h
  | missedGrants => exact missGrant_canonical h
  | thermalThrottle | dieStoreScrub => exact ite_canonical (modDieAt_canonical h) h
  | thermalCutoff | hbmScrub => exact modPkg_canonical h
  | flitReceive => exact withTick_canonical (modPort_canonical h)
  | nakReplay => exact modPort_canonical h
  | portRetrain => exact execPortRetrain_canonical h
  | portDown => exact portDown_canonical h
  | offloadPromotion => exact execOffloadPromotion_canonical h
  | remoteAccess => exact execRemoteAccess_canonical h
  | remoteAccessTimeout => exact execRemoteAccessTimeout_canonical h
  | collectiveMatch => exact execCollectiveMatch_canonical h
  | collectiveTimeout => exact execCollectiveTimeout_canonical h
  | memberUnreachable => exact execMemberUnreachable_canonical h
  | timeMessage => exact tickUp_canonical (modFab_canonical (withTick_canonical (modFab_canonical h)))
  | cxlMemAccess => exact execCxlMemAccess_canonical h
  | spuriousWake => exact execSpuriousWake_canonical h
  -- steering words
  | crget => exact execCrget_canonical h
  | crput | crset | crclr => exact csrWriteWord_canonical h
  | add | sub | and | or | xor | sll | srl | sra | slt | sltn | mul | mulhs | mulhn | div | divn | rem | remn | addi | andi
  | ori | xori | slli | srli | srai | slti | sltin | lui | sext | zext | extr | ins | clz | ctz | popc | fqsetRd =>
    exact retire_canonical h
  | ldb | ldw | ldd => exact scalarLoad_canonical h
  | stb | stw | std => exact scalarStore_canonical h
  | amoswap | amoadd | amoand | amoor | amoxor | amomax | amomin | amomaxu => exact amo_canonical h
  | cas => exact execCas_canonical (e := 0) h
  | fence => exact execFence_canonical (e := 0) (q := 0) h
  | cjEq | cjNe | cjLt | cjGe | cjLtn | cjGen =>
    unfold exec
    exact branch_canonical h
  | jal | jr => exact setPc_canonical (writeReg_canonical h)
  | bpush => exact execBpush_canonical h
  | dpush => exact execDpush_canonical h
  | rpop => exact execRpop_canonical h
  | epop => exact execEpop_canonical h
  | epopTry => exact execEpopTry_canonical h
  | epopMsg => exact execEpopMsg_canonical h
  | epopMsgTry => exact execEpopMsgTry_canonical h
  | waitw => exact execWaitw_canonical h
  | endTask => exact execEndTask_canonical h
  | dcoll => exact execDcoll_canonical h
  | copy | copy2 | fill | slabmov | mdec | mrsz | cred | cbcast => exact engineIssue_canonical h
  | copyRst | mdecRst | credRst => exact engineReset_canonical h
  | tlwait => exact execTlwait_canonical h
  | tlreadCount => exact execTlreadCount_canonical h
  | tlreadStatus => exact execTlreadStatus_canonical h
  | strin => exact madeRetire_canonical (makeStreamIn_canonical h) h
  | strout => exact madeRetire_canonical (makeStreamOut_canonical h) h
  | launch => exact execLaunch_canonical h
  | launchRequest => exact execLaunchRequest_canonical h
  | barv => exact execBarv_canonical h
  | barw => exact execBarw_canonical h
  | garm => exact execGarm_canonical h
  | garmOff => exact execGarmOff_canonical h
  | fqset => exact execFqset_canonical h
  | fqsetAdv => exact execFqsetAdv_canonical h
  | hcall => exact steerTrapNext_canonical h
  | hret => exact execHret_canonical h
  | nap => exact advance_canonical h
  | brk => exact execBrk_canonical h
  -- vector words
  | _ =>
    unfold exec
    exact vectorWord_canonical h

end Events

section Dispatcher

variable {s : State}

/-! ### The dispatcher -/

theorem dispStore_canonical {addr n v : Nat} (h : s.MemoryCanonical) : (dispStore addr n v s).MemoryCanonical := by
  unfold dispStore
  split
  · exact writeLoc_canonical h
  · exact h

theorem dispFault_canonical {e : Word × MemFault} (h : s.MemoryCanonical) : ResultCanonical (dispFault e s) := by
  unfold dispFault
  generalize hr : steerMemFault _ _ _ _ s = r
  have hfault := ResultCanonical.of_eq hr (steerMemFault_canonical h)
  cases r with
  | next => exact modCluster_canonical hfault
  | fault | refused => trivial

theorem modDispatch_canonical {f : Dispatch → Dispatch} (h : s.MemoryCanonical) : (s.modDispatch f).MemoryCanonical :=
  modCluster_canonical h

theorem dispLaunch_canonical {addr : Nat} {streams : Word} {ctx : Nat} (h : s.MemoryCanonical) (m : Made)
    (e : dispLaunch addr streams ctx s = .ok m) : m.Canonical := by
  unfold dispLaunch at e
  split at e
  · cases e
  · cases e
    exact madeIte_canonical trivial (makeKernel_canonical (tickUp_canonical h))

theorem popWhole_canonical (h : s.MemoryCanonical) : (popWhole s).MemoryCanonical :=
  cqSettle_canonical (modCluster_canonical h)

theorem reportCluster_canonical {l : Nat} (h : s.MemoryCanonical) : (reportCluster l s).MemoryCanonical :=
  modPkg_canonical (modPkg_canonical h)

theorem dispMessage_canonical {m : List Word} (h : s.MemoryCanonical) : ResultCanonical (dispMessage m s) := by
  have ht := tickUp_canonical h
  refine resultIte_canonical ?_ (reportCluster_canonical (modCluster_canonical (popWhole_canonical h)))
  refine resultIte_canonical (popWhole_canonical h) ?_
  split
  · exact dispFault_canonical (popWhole_canonical ht)
  · exact popWhole_canonical ht
  · exact stall_canonical ht
  · next e => exact popWhole_canonical (dispLaunch_canonical h _ e)

theorem dispMade_canonical {m : Made} {go : Nat → Nat → State → State}
    (hgo : ∀ i n t, t.MemoryCanonical → (go i n t).MemoryCanonical) (hm : m.Canonical) (h : s.MemoryCanonical) :
    ResultCanonical (dispMade m s go) := by
  cases m with
  | error => exact modDispatch_canonical h
  | full => exact stall_canonical h
  | entry => exact hgo _ _ _ hm

theorem dispRecord_canonical {d : Dispatch} {addr n : Nat} {r : Record} (h : s.MemoryCanonical) :
    ResultCanonical (dispRecord d addr n r s) := by
  unfold dispRecord
  split
  · exact modDispatch_canonical h
  · split
    · generalize hr : makeStreamOut _ _ _ _ s = m
      have hm := Made.canonical_of_eq hr (makeStreamOut_canonical h)
      cases m with
      | full => exact stall_canonical h
      | error => exact modDispatch_canonical h
      | entry => exact modDispatch_canonical hm
    · exact modDispatch_canonical (dispStore_canonical h)
  · exact modDispatch_canonical (dispStore_canonical h)
  · refine resultIte_canonical (dispMade_canonical (fun _ _ _ => modDispatch_canonical) (makeStreamIn_canonical h) h) ?_
    split
    · exact dispFault_canonical h
    · next e => exact dispMade_canonical (fun _ _ _ => modDispatch_canonical) (dispLaunch_canonical h _ e) h

theorem dispatcherTurn_canonical {d : Dispatch} (h : s.MemoryCanonical) : ResultCanonical (dispatcherTurn d s) := by
  have ht := tickUp_canonical h
  refine resultIte_canonical (dispMessage_canonical h) (resultIte_canonical (modDispatch_canonical h) ?_)
  split
  · exact dispFault_canonical ht
  · refine resultIte_canonical (stall_canonical ht) ?_
    dsimp only
    split
    · exact dispFault_canonical ht
    · exact dispRecord_canonical ht

end Dispatcher

section Turns

variable {s : State}

/-! ### The boundaries of the two streams -/

/-- What runs a fetched word keeps memory canonical. -/
def RunCanonical (run : IWord → State → Result) : Prop := ∀ w t, t.MemoryCanonical → ResultCanonical (run w t)

theorem waitConvoy_canonical (h : s.MemoryCanonical) : ResultCanonical (waitConvoy s) := stall_canonical h

theorem convoyDue_canonical (h : s.MemoryCanonical) : OptionCanonical (convoyDue s) := by
  refine optionIte_canonical .none ?_
  split
  · exact .some (takeDue_canonical h)
  · exact optionIte_canonical (.some (ladTrap_canonical h))
      (optionIte_canonical (.some (convoyTrap_canonical (modSteer_canonical h))) .none)

theorem haltForRequest_canonical (h : s.MemoryCanonical) : ResultCanonical (haltForRequest s) := by
  refine resultIte_canonical (waitConvoy_canonical h) ?_
  split
  · next e => exact convoyDue_canonical h _ e
  · exact modCore_canonical h

theorem afterWord_canonical {mode : Bool} (h : s.MemoryCanonical) : (afterWord mode s).MemoryCanonical :=
  ite_canonical h (modCur_canonical h)

theorem endWord_canonical {mode : Bool} {r : Result} (h : ResultCanonical r) : ResultCanonical (endWord mode r) := by
  cases r with
  | next => exact afterWord_canonical h
  | fault | refused => trivial

theorem steerWord_canonical {w : IWord} {run : State → Result} (hrun : ResultCanonical (run s)) (h : s.MemoryCanonical) :
    ResultCanonical (steerWord w run s) :=
  resultIte_canonical (haltForRequest_canonical h) (resultIte_canonical (stall_canonical h) (endWord_canonical hrun))

theorem boundaryFault_canonical {c : Cause} {tval : Word} (h : s.MemoryCanonical) :
    ResultCanonical (boundaryFault c tval s) :=
  resultIte_canonical (waitConvoy_canonical h) (steerFault_canonical h)

theorem badWord_canonical {e : DecodeError} {w : IWord} (h : s.MemoryCanonical) : ResultCanonical (badWord e w s) := by
  unfold badWord
  split
  · exact decodingFault_canonical h
  · exact boundaryFault_canonical h

theorem goodWord_canonical {w : IWord} {run : State → Result} (hrun : ResultCanonical (run s)) (h : s.MemoryCanonical) :
    ResultCanonical (goodWord w run s) := by
  unfold goodWord
  split
  · exact hrun
  · exact steerWord_canonical hrun h

theorem runWord_canonical : RunCanonical runWord := by
  intro w s h
  unfold runWord
  split
  · exact goodWord_canonical (exec_canonical _ h) h
  · exact badWord_canonical h

/-! ### The turns of the two streams -/

theorem steerTurn_canonical {run : IWord → State → Result} (hrun : RunCanonical run) (h : s.MemoryCanonical) :
    ResultCanonical (steerTurn run s) := by
  have hwait := waitConvoy_canonical h
  refine resultIte_canonical h (resultIte_canonical (resultIte_canonical hwait
    (takeTrap_canonical (modCur_canonical h))) (resultIte_canonical ?_
    (resultIte_canonical (resultIte_canonical hwait (ladTrap_canonical h))
      (resultIte_canonical (resultIte_canonical hwait (takeTrap_canonical (modCur_canonical h))) ?_))))
  · split
    · exact takeDue_canonical h
    · exact h
  · split
    · exact boundaryFault_canonical h
    · exact hrun _ _ h

theorem flightTurn_canonical (h : s.MemoryCanonical) : ResultCanonical (flightTurn s) := by
  refine resultIte_canonical ?_ (runConvoy_canonical h)
  split
  · next e => exact stopFlight_canonical h _ e
  · exact runConvoy_canonical h

theorem convoyTurn_canonical {run : IWord → State → Result} (hrun : RunCanonical run) (h : s.MemoryCanonical) :
    ResultCanonical (convoyTurn run s) := by
  refine resultIte_canonical h (resultIte_canonical (unpark_canonical h) (resultIte_canonical h
    (resultIte_canonical (flightTurn_canonical h) (resultIte_canonical h ?_))))
  split
  · next e => exact convoyDue_canonical h _ e
  · refine resultIte_canonical h (resultIte_canonical (issueConvoy_canonical h)
      (resultIte_canonical (popBlock_canonical h) ?_))
    split
    · exact decodingFault_canonical h
    · exact hrun _ _ h

/-! ### The turns of the hardware and of a control core -/

theorem expireWaits_canonical (h : s.MemoryCanonical) : ResultCanonical (expireWaits s) := by
  have ht := tickUp_canonical h
  refine resultIte_canonical ht ?_
  generalize hr : exec _ { s.tickUp with agent := .convoy } = r
  have h1 := ResultCanonical.of_eq hr (exec_canonical _ (withAgent_canonical ht))
  cases r with
  | next s1 =>
    dsimp only
    generalize hr' : exec _ { s1 with agent := .steer } = r'
    have h2 := ResultCanonical.of_eq hr' (exec_canonical _ (withAgent_canonical h1))
    cases r' with
    | next => exact exec_canonical _ (withAgent_canonical h2)
    | fault | refused => trivial
  | fault | refused => trivial

theorem setPace_canonical (h : s.MemoryCanonical) :
    (setPace s).MemoryCanonical := tickUp_canonical (modCore_canonical h)

theorem bootTurn_canonical (h : s.MemoryCanonical) : OptionCanonical (bootTurn s) :=
  optionIte_canonical (.some h) (optionIte_canonical (.some (bootFrom_canonical h))
    (optionIte_canonical (.some (startFirmware_canonical h)) .none))

theorem hardwareTurn_canonical (h : s.MemoryCanonical) : ResultCanonical (hardwareTurn s) := by
  unfold hardwareTurn
  extract_lets r
  have hr : ResultCanonical r := by
    unfold r
    split
    · next e => exact bootTurn_canonical h _ e
    · split
      · exact exec_canonical _ (withAgent_canonical h)
      · exact expireWaits_canonical (setPace_canonical h)
  clear_value r
  cases r with
  | next => exact focus_canonical hr
  | fault | refused => trivial

theorem controlTurn_canonical {run : IWord → State → Result} (hrun : RunCanonical run) (h : s.MemoryCanonical) :
    ResultCanonical (controlTurn run s) := by
  unfold controlTurn
  split
  · exact resultIte_canonical (dispatcherTurn_canonical h) h
  · exact steerTurn_canonical hrun h

theorem turn_canonical {run : IWord → State → Result} (hrun : RunCanonical run) (h : s.MemoryCanonical) :
    ResultCanonical (turn run s) := by
  unfold turn
  split
  · exact steerTurn_canonical hrun h
  · exact controlTurn_canonical hrun h
  · exact convoyTurn_canonical hrun h
  · exact hardwareTurn_canonical h

/-! ### One step -/

theorem passTurn_canonical {a : Agent} {r : Result} (h : ResultCanonical r) : ResultCanonical (passTurn a r) := by
  cases r with
  | next => exact breakAreas_canonical (withAgent_canonical h)
  | fault | refused => trivial

theorem eventTurn_canonical {i : Instr} (h : s.MemoryCanonical) : ResultCanonical (eventTurn i s) :=
  resultIte_canonical h (exec_canonical i h)

theorem beginJob_canonical {j : Job} (h : s.MemoryCanonical) :
    ({ s.focus j.unit with agent := j.agent, stalled := false } : State).MemoryCanonical :=
  stall_canonical (withAgent_canonical (focus_canonical h))

theorem runJob_canonical {run : IWord → State → Result} {j : Job} (hrun : RunCanonical run) (h : s.MemoryCanonical) :
    ResultCanonical (runJob run j s) := by
  unfold runJob
  dsimp only
  split
  · exact passTurn_canonical (eventTurn_canonical (beginJob_canonical h))
  · exact passTurn_canonical (turn_canonical hrun (beginJob_canonical h))

theorem stepWith_canonical {run : IWord → State → Result} (hrun : RunCanonical run) (h : s.MemoryCanonical) :
    ResultCanonical (stepWith run s) := by
  unfold stepWith
  split
  · exact runJob_canonical hrun h
  · exact runJob_canonical hrun h

theorem step_canonical (h : s.MemoryCanonical) : ResultCanonical (step s) := stepWith_canonical runWord_canonical h

end Turns

/-- Settles O15: each step is a turn or an event, and each of the operations it performs keeps the canonical form. -/
theorem canonicalKept : Obligations.CanonicalKept := by
  unfold Obligations.CanonicalKept
  intro s t h e
  exact ResultCanonical.of_eq e (step_canonical h)

end Sys2Proof.Machine

/-! ## Encoding and decoding (02_encoding.md R27 to R39)

That an instruction's word decodes to it is proved for each constructor in Laws/PerInstr.lean. The other direction goes
through the rows of the encoding tables: what a row builds from the operands of a word has these operands and the row's
fields, so that encoding it lays out the same word. -/

namespace Sys2Proof.Laws

/-- The numbers cut to the widths of the fields that carry them. -/
def segsTrim : List Seg → List Nat → List Nat
  | [], _ => []
  | .fixed _ _ :: t, xs => segsTrim t xs
  | .operand _ :: _, [] => []
  | .operand w :: t, x :: xs => x % 2 ^ w :: segsTrim t xs

/-- A statement holds of all lists with a number for each field that carries an operand. -/
def ForOperands : List Seg → (List Nat → Prop) → Prop
  | [], P => P []
  | .fixed _ _ :: t, P => ForOperands t P
  | .operand _ :: t, P => ∀ x, ForOperands t (fun xs => P (x :: xs))

/-- From operands a row builds a word that lays the same operands into the row's fields. -/
def RowInverts (r : Row) : Prop :=
  ForOperands r.segs fun xs =>
    (r.build xs).map (fun j => (j.fields, j.isWord)) = some (some (r.segs, segsTrim r.segs xs), true)

theorem vectorRows_invert (op : Nat) : ∀ r ∈ vectorRows op, RowInverts r := by
  unfold vectorRows
  split
  all_goals simp only [List.forall_mem_cons, List.not_mem_nil, false_imp_iff, implies_true, and_true]
  all_goals repeat' apply And.intro
  all_goals
    repeat refine fun _ => ?_
    rfl

theorem rowsOf_invert (op : Nat) : ∀ r ∈ rowsOf op, RowInverts r := by
  unfold rowsOf
  split
  case h_50 => exact vectorRows_invert op
  all_goals simp only [List.forall_mem_cons, List.not_mem_nil, false_imp_iff, implies_true, and_true]
  all_goals repeat' apply And.intro
  all_goals
    repeat refine fun _ => ?_
    rfl

theorem segsPack_match (sg : List Seg) :
    ∀ n xs, segsMatch sg n = some xs → segsPack sg xs = n ∧ segsTrim sg xs = xs := by
  induction sg with
  | nil =>
    intro n xs h
    obtain ⟨hn, rfl⟩ : n = 0 ∧ xs = [] := by simpa [segsMatch, eq_comm] using h
    exact ⟨hn.symm, rfl⟩
  | cons f t ih =>
    intro n xs h
    cases f with
    | fixed w v =>
      simp only [segsMatch, ite_eq_iff, reduceCtorEq, and_false, or_false] at h
      obtain ⟨hv, ht⟩ := h
      obtain ⟨hp, hx⟩ := ih _ _ ht
      exact ⟨by rw [segsPack, hp, ← hv, Nat.mod_add_div], hx⟩
    | operand w =>
      obtain ⟨ys, hy, rfl⟩ := Option.map_eq_some_iff.mp h
      obtain ⟨hp, hx⟩ := ih _ _ hy
      exact ⟨by rw [segsPack, hp, Nat.mod_add_div], by rw [segsTrim, hx, Nat.mod_mod]⟩

theorem ForOperands.of_match {sg : List Seg} : ∀ {P : List Nat → Prop} {n : Nat} {xs : List Nat},
    ForOperands sg P → segsMatch sg n = some xs → P xs := by
  induction sg with
  | nil =>
    intro P n xs hP h
    obtain ⟨-, rfl⟩ : n = 0 ∧ xs = [] := by simpa [segsMatch, eq_comm] using h
    exact hP
  | cons f t ih =>
    intro P n xs hP h
    cases f with
    | fixed w v =>
      simp only [segsMatch, ite_eq_iff, reduceCtorEq, and_false, or_false] at h
      exact ih hP h.2
    | operand w =>
      obtain ⟨ys, hy, rfl⟩ := Option.map_eq_some_iff.mp h
      exact ih (P := fun ys => P (_ :: ys)) (hP _) hy

/-- What one row reads from a number is laid out as that number. -/
theorem RowInverts.fields_of_read {r : Row} (hr : RowInverts r) {n : Nat} {j : Instr} (h : r.read n = some j) :
    ∃ xs, j.fields = some (r.segs, xs) ∧ segsPack r.segs xs = n ∧ j.isWord = true := by
  obtain ⟨xs, hm, hb⟩ := Option.bind_eq_some_iff.mp h
  obtain ⟨hpack, htrim⟩ := segsPack_match _ _ _ hm
  have hj := hr.of_match hm
  rw [hb, htrim] at hj
  obtain ⟨hf, hw⟩ := Prod.mk.inj (Option.some.inj hj)
  exact ⟨xs, hf, hpack, hw⟩

theorem readRows_mem {n : Nat} {j : Instr} : ∀ {rs : List Row}, readRows rs n = some j → ∃ r ∈ rs, r.read n = some j
  | [], h => nomatch h
  | r :: rs, h => by
    unfold readRows at h
    split at h
    · next hr => exact ⟨r, List.mem_cons_self, hr.trans h⟩
    · obtain ⟨q, hq, hread⟩ := readRows_mem h
      exact ⟨q, List.mem_cons_of_mem _ hq, hread⟩

/-- The instruction that a word's fields bear is a word, and encodes to it. -/
theorem encode_of_readWord {w : IWord} {j : Instr} (h : readWord w = some j) : encode j = w ∧ j.isWord = true := by
  obtain ⟨r, hr, hread⟩ := readRows_mem h
  obtain ⟨xs, hf, hp, hw⟩ := (rowsOf_invert _ r hr).fields_of_read hread
  exact ⟨by simp only [encode, hf, hp, BitVec.ofNat_toNat, BitVec.setWidth_eq], hw⟩

/-- A word that decodes bears the fields of an instruction that is legal on the processor, read as the processor does. -/
theorem readWord_of_decode {p : Proc} {w : IWord} {i : Instr} (h : decode p w = .instr i) :
    ∃ j, readWord w = some j ∧ legalOn p j = true ∧ forProc p j = i := by
  unfold decode at h
  dsimp only at h
  split at h
  · cases h
  · split at h
    · cases h
    · split at h
      · next j hj =>
        split at h
        · next hl => exact ⟨j, hj, hl, Decoded.instr.inj h⟩
        · cases h
      · split at h
        · split at h
          · split at h <;> cases h
          · cases h
        · cases h

/-- LAUNCH on a control core is the same word with the same width of context. -/
theorem setWidth_of_high_clear {x : BitVec 5} (h : x.getLsbD 4 = false) : (x.setWidth 4).setWidth 5 = x := by
  revert h; revert x; decide

theorem forProc_of_legal {p : Proc} {j : Instr} (hl : legalOn p j = true) (hw : j.isWord = true) :
    encode (forProc p j) = encode j ∧ (forProc p j).wf = true ∧ (forProc p j).isWord = true := by
  unfold forProc
  split
  · next d a b x c =>
    cases p with
    | control =>
      obtain ⟨hx, rfl⟩ : x.getLsbD 4 = false ∧ c = 0 := by simpa [legalOn] using hl
      refine ⟨?_, rfl, rfl⟩
      simp [encode, Instr.fields, setWidth_of_high_clear hx]
    | task | convoy => exact ⟨rfl, rfl, rfl⟩
  · next hj =>
    refine ⟨rfl, ?_, hw⟩
    unfold legalOn at hl
    split at hl
    · exact absurd rfl (hj _ _ _ _ _)
    · exact hl

/-- Settles O2: the row that a word's fields match lays the operands it reads back into the word. -/
theorem encodeOfDecode : Obligations.EncodeOfDecode := by
  unfold Obligations.EncodeOfDecode
  intro p w i h
  obtain ⟨j, hread, hlegal, rfl⟩ := readWord_of_decode h
  obtain ⟨hencode, hword⟩ := encode_of_readWord hread
  obtain ⟨hsame, hwf, hword'⟩ := forProc_of_legal hlegal hword
  exact ⟨hsame.trans hencode, hwf, hword'⟩

theorem decode_never_legal {p : Proc} {w : IWord} (h : w.toNat = 0 ∨ w.toNat = 0xFFFFFFFF ∨ w.toNat % 128 = 0x7F) :
    decode p w = .bad .illegalWord := if_pos h

theorem decode_outside {p : Proc} {w : IWord} (h : ¬(w.toNat = 0 ∨ w.toNat = 0xFFFFFFFF ∨ w.toNat % 128 = 0x7F))
    (ho : outsideSet p w = true) : decode p w = .bad .illegalStream := (if_neg h).trans (if_pos ho)

/-- Settles O4: the words that are never legal go first, then the words outside the processor's set. -/
theorem rejectedWords : Obligations.RejectedWords := by
  unfold Obligations.RejectedWords
  refine ⟨fun p w h => decode_never_legal ?_, fun w h0 h1 h2 => ?_⟩
  · obtain rfl | rfl | h := h
    · exact .inl rfl
    · exact .inr (.inl rfl)
    · exact .inr (.inr h)
  · have hw : ¬(w.toNat = 0 ∨ w.toNat = 0xFFFFFFFF ∨ w.toNat % 128 = 0x7F) := by
      rintro (h | h | h)
      · exact h0 (BitVec.eq_of_toNat_eq h)
      · exact h1 (BitVec.eq_of_toNat_eq h)
      · exact h2 h
    refine ⟨fun h => decode_outside hw ?_, fun h => ⟨decode_outside hw ?_, decode_outside hw ?_⟩,
      fun h => decode_outside hw ?_, fun h => decode_outside hw ?_⟩
    · simpa [outsideSet] using h
    · simp [outsideSet, h]
    · simp [outsideSet, h]
    · obtain h | h | h := h <;> simp [outsideSet, h]
    · obtain h | h | h | h | h := h <;> simp [outsideSet, h]

namespace RoundTrip

/-- Every well-formed instruction word is what its encoding decodes to. -/
theorem all (i : Instr) : Statement i := by
  cases i with
  | blockPop | convoyIssue | convoyRetire | trapEntry | queueDeadlock | debugStop | preemptionRequest | contextSave |
    contextRestore | completionWordUpdate | endReport | taskAbandon | loadDataArrival | storeAcknowledged |
    vectorElementArrival | tableWalk | monitoredLineWrite | waitLimitExpiry | timelineAdvance | commandFailed |
    carryChain | entryReady | fantailRun | overdue | priorityPreemption | streamPumpTransfer | streamOutCopy | tcmClear |
    feedCrossing | gmmaMulticast | gmmaShareCompletion | planepwrWrite | lcntWrite | lcarryWrite | gselWrite | tlbinv |
    fqadv | clreset | csrWrite | clusterReset | hostPreemptionRequest | preqComplete | clholdWrite | plimitWrite |
    freeze | thaw | freezeSignal | debugPortAccess | attest | recover | commitSvn | cert | cllog | dbgen | packageReset |
    grantCycle | grantDelivery | missedGrants | thermalThrottle | thermalCutoff | dieStoreScrub | hbmScrub |
    flitReceive | nakReplay | portRetrain | portDown | offloadPromotion | remoteAccess | remoteAccessTimeout |
    collectiveMatch | collectiveTimeout | memberUnreachable | timeMessage | powerLoss | unknownCommand | cxlMemAccess |
    spuriousWake => exact event rfl
  | vfadd => apply vfadd | vfsub => apply vfsub | vfmul => apply vfmul | vfmin => apply vfmin
  | vfmax => apply vfmax | vfdiv => apply vfdiv | vfaddK => apply vfaddK | vfsubK => apply vfsubK
  | vfmulK => apply vfmulK | vfminK => apply vfminK | vfmaxK => apply vfmaxK | vfdivK => apply vfdivK
  | vfneg => apply vfneg | vfabs => apply vfabs | vfcpys => apply vfcpys | vfcpysn => apply vfcpysn
  | vfkind => apply vfkind | vfma => apply vfma | vfnma => apply vfnma | vfms => apply vfms
  | vfnms => apply vfnms | vfmaK => apply vfmaK | vfnmaK => apply vfnmaK | vfmsK => apply vfmsK
  | vfnmsK => apply vfnmsK | vfsqrt => apply vfsqrt | vfrsqrt => apply vfrsqrt | vfrcp => apply vfrcp
  | vfexp2 => apply vfexp2 | vflog2 => apply vflog2 | vfsinpi => apply vfsinpi | vftanh => apply vftanh
  | vfsigm => apply vfsigm | vadd => apply vadd | vsub => apply vsub | vmul => apply vmul
  | vmin => apply vmin | vmax => apply vmax | vdiv => apply vdiv | vrem => apply vrem
  | vaddK => apply vaddK | vsubK => apply vsubK | vmulK => apply vmulK | vminK => apply vminK
  | vmaxK => apply vmaxK | vdivK => apply vdivK | vremK => apply vremK | vaddi => apply vaddi
  | vrsubi => apply vrsubi | vmuli => apply vmuli | vmini => apply vmini | vmaxi => apply vmaxi
  | vand => apply vand | vor => apply vor | vxor => apply vxor | vandn => apply vandn
  | vsll => apply vsll | vsrl => apply vsrl | vsra => apply vsra | vmov => apply vmov
  | vandi => apply vandi | vori => apply vori | vxori => apply vxori | vli => apply vli
  | vslli => apply vslli | vsrli => apply vsrli | vsrai => apply vsrai | vsadd => apply vsadd
  | vssub => apply vssub | vmulh => apply vmulh | vavg => apply vavg | vceq => apply vceq
  | vcne => apply vcne | vclt => apply vclt | vcle => apply vcle | vcgt => apply vcgt
  | vcge => apply vcge | vcun => apply vcun | vceqK => apply vceqK | vcneK => apply vcneK
  | vcltK => apply vcltK | vcleK => apply vcleK | vcgtK => apply vcgtK | vcgeK => apply vcgeK
  | vcunK => apply vcunK | vmand => apply vmand | vmor => apply vmor | vmxor => apply vmxor
  | vmandn => apply vmandn | vmnot => apply vmnot | vmset => apply vmset | vmclr => apply vmclr
  | vsel => apply vsel | vselz => apply vselz | vcvt => apply vcvt | vqnt => apply vqnt
  | vdqnt => apply vdqnt | vgath => apply vgath | vhead => apply vhead | vtail => apply vtail
  | vbcast => apply vbcast | vfredsum => apply vfredsum | vfredsumw => apply vfredsumw
  | vfredmax => apply vfredmax | vfredmin => apply vfredmin | vredsum => apply vredsum
  | vredmax => apply vredmax | vredmin => apply vredmin | vraise => apply vraise | vlower => apply vlower
  | vbcastk => apply vbcastk | vld => apply vld | vst => apply vst | vld2 => apply vld2
  | vst2 => apply vst2 | vldx => apply vldx | vstx => apply vstx | vldslab => apply vldslab
  | vdef => apply vdef | vtld => apply vtld | vtst => apply vtst | vsett => apply vsett
  | vlen => apply vlen | vlenShape => apply vlenShape | vsetmt => apply vsetmt
  | vsetmtImm => apply vsetmtImm | mma => apply mma | mmas => apply mmas | men => apply men
  | mdis => apply mdis | mzero => apply mzero | mshape => apply mshape | mscl => apply mscl
  | mextRow => apply mextRow | mextCol => apply mextCol | mextRect => apply mextRect
  | minsRow => apply minsRow | minsCol => apply minsCol | minsRect => apply minsRect | lstep => apply lstep
  | lblend => apply lblend | lrungLd => apply lrungLd | lrungSt => apply lrungSt
  | lrungLdK => apply lrungLdK | lrungStK => apply lrungStK | lcfg => apply lcfg
  | lstatCnt => apply lstatCnt | lstatCarry => apply lstatCarry | lreset => apply lreset
  | vissue => apply vissue | vcapp => apply vcapp | vcappK => apply vcappK | vwait => apply vwait
  | gmma => apply gmma | vbend => exact vbend | vkadd => apply vkadd | vkaddK => apply vkaddK
  | vkpop => apply vkpop | vkget => apply vkget | vkpush => apply vkpush | vmpushCount => apply vmpushCount
  | vmpushFirst => apply vmpushFirst | crget => apply crget | crput => apply crput | crset => apply crset
  | crclr => apply crclr | add => apply add | sub => apply sub | and => apply and | or => apply or
  | xor => apply xor | sll => apply sll | srl => apply srl | sra => apply sra | slt => apply slt
  | sltn => apply sltn | mul => apply mul | mulhs => apply mulhs | mulhn => apply mulhn
  | div => apply div | divn => apply divn | rem => apply rem | remn => apply remn | addi => apply addi
  | andi => apply andi | ori => apply ori | xori => apply xori | slli => apply slli | srli => apply srli
  | srai => apply srai | slti => apply slti | sltin => apply sltin | lui => apply lui
  | sext => apply sext | zext => apply zext | extr => apply extr | ins => apply ins | clz => apply clz
  | ctz => apply ctz | popc => apply popc | ldb => apply ldb | ldw => apply ldw | ldd => apply ldd
  | stb => apply stb | stw => apply stw | std => apply std | amoswap => apply amoswap
  | amoadd => apply amoadd | amoand => apply amoand | amoor => apply amoor | amoxor => apply amoxor
  | amomax => apply amomax | amomin => apply amomin | amomaxu => apply amomaxu | cas => apply cas
  | fence => apply fence | cjEq => apply cjEq | cjNe => apply cjNe | cjLt => apply cjLt
  | cjGe => apply cjGe | cjLtn => apply cjLtn | cjGen => apply cjGen | jal => apply jal | jr => apply jr
  | bpush => apply bpush | dpush => apply dpush | rpop => apply rpop | epop => apply epop
  | epopTry => apply epopTry | epopMsg => apply epopMsg | epopMsgTry => apply epopMsgTry
  | waitw => apply waitw | endTask => exact endTask | dcoll => apply dcoll | copy => apply copy
  | copyRst => apply copyRst | copy2 => apply copy2 | fill => apply fill | slabmov => apply slabmov
  | mdec => apply mdec | mrsz => apply mrsz | mdecRst => apply mdecRst | cred => apply cred
  | cbcast => apply cbcast | credRst => apply credRst | tlwait => apply tlwait
  | tlreadCount => apply tlreadCount | tlreadStatus => apply tlreadStatus | strin => apply strin
  | strout => apply strout | launch => apply launch | launchRequest => apply launchRequest
  | barv => apply barv | barw => apply barw | garm => apply garm | garmOff => apply garmOff
  | fqset => apply fqset | fqsetRd => apply fqsetRd | fqsetAdv => apply fqsetAdv | hcall => exact hcall
  | hret => exact hret | nap => exact nap | brk => apply brk

end RoundTrip

/-- Settles O1, by the law of each constructor. -/
theorem decodeOfEncode : Obligations.DecodeOfEncode := by
  unfold Obligations.DecodeOfEncode
  exact RoundTrip.all

end Sys2Proof.Laws

/-! ## A word that is no instruction (02_encoding.md R39; 08_core_steering.md R194, R196, R201) -/

namespace Sys2Proof.Machine

section BadWords

variable {s : State}

/-! ### Nothing that a turn reads depends on the mark of a wait -/

section Unmarked

variable {b : Bool}

theorem readMem_unmarked {key n : Nat} : readMem { s with stalled := b } key n = readMem s key n := by
  induction n generalizing key with
  | zero => rfl
  | succ n ih => simp only [readMem, ih]; rfl

theorem pkgRead_unmarked {off : Nat} : pkgRead { s with stalled := b } off = pkgRead s off := by
  unfold pkgRead readMem64
  simp only [readMem_unmarked]
  rfl

theorem fabRead_unmarked {off : Nat} : fabRead { s with stalled := b } off = fabRead s off := rfl

theorem readLoc_unmarked {loc : PaLoc} {n : Nat} : readLoc { s with stalled := b } loc n = readLoc s loc n := by
  cases loc with
  | mem => exact readMem_unmarked
  | pkgReg => simp only [readLoc, pkgRead_unmarked]
  | fabReg => simp only [readLoc, fabRead_unmarked]
  | bad => rfl

theorem walkFrom_unmarked {va left level table : Nat} :
    walkFrom { s with stalled := b } va left level table = walkFrom s va left level table := by
  induction left generalizing level table with
  | zero => rfl
  | succ left ih => simp only [walkFrom, ih, readMem_unmarked]; rfl

theorem translate_unmarked {vec : Bool} {va : Nat} : translate { s with stalled := b } vec va = translate s vec va := by
  simp only [translate, tableWalk, walkFrom_unmarked]
  rfl

theorem resolve_unmarked {space : BitVec 2} {a : Word} {w : Want} :
    resolve { s with stalled := b } space a w = resolve s space a w := by
  simp only [resolve, translate_unmarked]
  rfl

theorem fetchWord_unmarked {off : BitVec 32} : fetchWord off { s with stalled := b } = fetchWord off s := by
  simp only [fetchWord, resolve_unmarked, readLoc_unmarked]
  rfl

theorem processorRuns_unmarked : processorRuns { s with stalled := b } = processorRuns s := rfl
theorem convoyOwes_unmarked : convoyOwes { s with stalled := b } = convoyOwes s := rfl
theorem ladDue_unmarked : ladDue { s with stalled := b } = ladDue s := rfl
theorem breakDue_unmarked : breakDue { s with stalled := b } = breakDue s := rfl
theorem convoyBusy_unmarked : convoyBusy { s with stalled := b } = convoyBusy s := rfl
end Unmarked

/-- A step with an empty agenda is the turn of the agent whose turn it is. -/
theorem step_of_agenda_nil (h : s.agenda = []) :
    step s = passTurn s.agent.after (turn runWord { s with stalled := false }) := by
  unfold step stepWith
  rw [h]
  dsimp only [runJob]
  rw [State.focus, if_pos rfl, ← h]

/-- A steering stream, or a control core that runs a text of its own, takes a steering turn. -/
theorem turn_of_steers {run : IWord → State → Result}
    (h : s.agent = .steer ∨ (s.agent = .control ∧ s.cluster.dispatch = none)) : turn run s = steerTurn run s := by
  obtain h | ⟨h, hd⟩ := h
  · simp only [turn, h]
  · simp only [turn, h, controlTurn, hd]

/-- The processor of the agent that moves runs, and nothing stands at its boundary (08 R201). -/
structure NothingDue (s : State) : Prop where
  runs : processorRuns s = true
  unstepped : s.cur.stepped = false
  noTrap : convoyOwes s = false
  noLadder : ladDue s = false
  noBreak : breakDue s = false

theorem NothingDue.unmarked {b : Bool} (h : NothingDue s) : NothingDue { s with stalled := b } :=
  ⟨h.runs, h.unstepped, h.noTrap, h.noLadder, h.noBreak⟩

/-- With nothing at the boundary, a steering turn runs the word at PC. -/
theorem NothingDue.steerTurn_of_word {run : IWord → State → Result} (h : NothingDue s) {w : IWord}
    (hw : fetchWord s.cur.pc s = some w) : steerTurn run s = run w s := by
  obtain ⟨hrun, hstep, howes, hlad, hbreak⟩ := h
  simp only [steerTurn, hrun, hstep, howes, hlad, hbreak, hw, Bool.true_eq_false, Bool.false_eq_true, if_false]

/-- With nothing at the boundary, a word that cannot be fetched is a fault of the fetch. -/
theorem NothingDue.steerTurn_of_no_word {run : IWord → State → Result} (h : NothingDue s)
    (hw : fetchWord s.cur.pc s = none) : steerTurn run s = boundaryFault .fetch (s.cur.pc.setWidth 64) s := by
  obtain ⟨hrun, hstep, howes, hlad, hbreak⟩ := h
  simp only [steerTurn, hrun, hstep, howes, hlad, hbreak, hw, Bool.true_eq_false, Bool.false_eq_true, if_false]

/-- A fault at a boundary that no convoy delays traps. -/
theorem boundaryFault_of_idle {c : Cause} {v : Word} (h : convoyBusy s = false) : boundaryFault c v s =
    .next (takeTrap ⟨c, false, v, s.cur.pc⟩ (s.modCur (fun c => { c with bksup := false }))) := by
  have hidle : ¬(s.agent ≠ .control ∧ s.inFlight = true) := by simpa [convoyBusy] using h
  simp [boundaryFault, h, steerFault, hidle]

/-- Off the convoy stream, a word that is no instruction is a fault at the boundary. -/
theorem badWord_of_steering {w : IWord} {e : DecodeError} (hs : s.agent ≠ .convoy) :
    badWord e w s = boundaryFault (decodeCause e) (w.setWidth 64) s := by
  unfold badWord
  split
  · contradiction
  · rfl

theorem runWord_of_bad {w : IWord} {e : DecodeError} (h : decode s.proc w = .bad e) : runWord w s = badWord e w s := by
  simp only [runWord, h]

/-- A steering turn whose word is no instruction traps. -/
theorem NothingDue.steerTurn_of_bad (h : NothingDue s) (hs : s.agent ≠ .convoy) (hbusy : convoyBusy s = false) {w : IWord}
    {e : DecodeError} (hw : fetchWord s.cur.pc s = some w) (he : decode s.proc w = .bad e) : steerTurn runWord s =
    .next (takeTrap ⟨decodeCause e, false, w.setWidth 64, s.cur.pc⟩ (s.modCur (fun c => { c with bksup := false }))) :=
  calc steerTurn runWord s = runWord w s := h.steerTurn_of_word hw
    _ = badWord e w s := runWord_of_bad he
    _ = boundaryFault (decodeCause e) (w.setWidth 64) s := badWord_of_steering hs
    _ = _ := boundaryFault_of_idle hbusy

/-- Settles O13: nothing goes before the fetch, and what has been fetched, or the fetch itself, is a fault at the boundary. -/
theorem badWordTraps : Obligations.BadWordTraps := by
  unfold Obligations.BadWordTraps
  intro s hagenda hagent hrun hstep howes hlad hbreak hbusy
  have hsteer : s.agent ≠ .convoy := by
    obtain h | ⟨h, -⟩ := hagent <;> simp [h]
  have hdue : NothingDue { s with stalled := false } := NothingDue.unmarked ⟨hrun, hstep, howes, hlad, hbreak⟩
  have hturn : turn runWord { s with stalled := false } = steerTurn runWord { s with stalled := false } :=
    turn_of_steers hagent
  rw [step_of_agenda_nil hagenda, hturn]
  refine ⟨fun w e hw he => congrArg (passTurn s.agent.after) ?_, fun hw => congrArg (passTurn s.agent.after) ?_⟩
  · exact hdue.steerTurn_of_bad hsteer hbusy (fetchWord_unmarked.trans hw) he
  · exact (hdue.steerTurn_of_no_word (fetchWord_unmarked.trans hw)).trans (boundaryFault_of_idle hbusy)

end BadWords

end Sys2Proof.Machine

/-! ## Every step has a next state (00_scope.md R4; 02_encoding.md R36)

Each operation of the model that answers an outcome answers a next state: a fault that the spec describes is a trap, and an
instruction that waits is a next state too. The operations stand in the order of the model's files. -/

namespace Sys2Proof.Machine

/-- The outcome is a next state. -/
def Continues (r : Result) : Prop := ∃ t, r = .next t

/-- What goes before an instruction, when something does, is a next state. -/
def GateContinues (o : Option Result) : Prop := ∀ r, o = some r → Continues r

section Continues

variable {s : State}

theorem next_continues : Continues (.next s) := ⟨s, rfl⟩

theorem ite_continues {c : Prop} {_ : Decidable c} {a b : Result} (ha : Continues a) (hb : Continues b) :
    Continues (if c then a else b) := by
  split
  · exact ha
  · exact hb

/-- An outcome that goes on from a next state is a next state. -/
theorem Continues.bind {r : Result} (hr : Continues r) {f : Result → Result} (hf : ∀ t, Continues (f (.next t))) :
    Continues (f r) := by
  obtain ⟨t, rfl⟩ := hr
  exact hf t

theorem retire_continues {d : BitVec 5} {v : Word} : Continues (retire d v s) := next_continues

theorem steerFault_continues {c : Cause} {v : Word} : Continues (steerFault c v s) :=
  ite_continues next_continues next_continues

theorem steerTrapNext_continues {c : Cause} {v : Word} : Continues (steerTrapNext c v s) :=
  ite_continues next_continues next_continues

theorem steerMemFault_continues {f : MemFault} {w : Want} {space : BitVec 2} {v : Word} :
    Continues (steerMemFault f w space v s) := ite_continues next_continues steerFault_continues

theorem decodingFault_continues {j : Nat} {c : Cause} {v : Word} : Continues (decodingFault j c v s) := next_continues

/-! ### What goes before an instruction -/

theorem GateContinues.none : GateContinues none := fun _ h => nomatch h

theorem GateContinues.ite {c : Prop} {_ : Decidable c} {a b : Option Result} (ha : GateContinues a)
    (hb : GateContinues b) : GateContinues (if c then a else b) := by
  split
  · exact ha
  · exact hb

theorem GateContinues.or {a b : Option Result} (ha : GateContinues a) (hb : GateContinues b) : GateContinues (a.or b) := by
  intro r h
  obtain h | ⟨-, h⟩ := Option.or_eq_some_iff.mp h
  · exact ha r h
  · exact hb r h

theorem failedGate_continues : GateContinues (failedGate s) := by
  intro r h
  obtain ⟨_, -, rfl⟩ := Option.map_eq_some_iff.mp h
  exact ite_continues next_continues steerMemFault_continues

theorem releaseGate_continues : GateContinues (releaseGate s) :=
  .ite (fun _ h => Option.some.inj h ▸ next_continues) failedGate_continues

theorem convoyGate_continues : GateContinues (convoyGate s) := by
  intro r h
  obtain ⟨_, -, rfl⟩ := Option.map_eq_some_iff.mp h
  exact steerMemFault_continues

/-! ### Convoys -/

theorem runConvoy_continues : Continues (runConvoy s) := by
  unfold runConvoy
  split
  · exact next_continues
  · dsimp only
    split
    · exact next_continues
    · refine ite_continues next_continues ?_
      split
      · split <;> exact next_continues
      · split <;> exact next_continues

theorem issueConvoy_continues {words : List Instr} : Continues (issueConvoy words s) := by
  unfold issueConvoy
  dsimp only
  split
  · exact decodingFault_continues
  · refine ite_continues next_continues ?_
    split
    · exact next_continues
    · exact ite_continues runConvoy_continues next_continues

theorem vectorWord_continues {i : Instr} : Continues (vectorWord i s) :=
  ite_continues decodingFault_continues (ite_continues decodingFault_continues
    (ite_continues next_continues issueConvoy_continues))

/-! ### Steering words -/

theorem branch_continues {cond : Word → Word → Bool} {a b : BitVec 5} {off : BitVec 15} :
    Continues (branch cond a b off s) := next_continues

theorem issueRemote_continues {a : OutAcc} : Continues (issueRemote a s) := ite_continues next_continues next_continues

theorem scalarLoad_continues {size : Nat} {d a : BitVec 5} {space : BitVec 2} {imm : BitVec 13} :
    Continues (scalarLoad size d a space imm s) := by
  unfold scalarLoad
  dsimp only
  split
  · exact steerMemFault_continues
  · exact issueRemote_continues
  · exact ite_continues next_continues (ite_continues steerMemFault_continues retire_continues)

theorem scalarStore_continues {size : Nat} {d a : BitVec 5} {space : BitVec 2} {imm : BitVec 13} :
    Continues (scalarStore size d a space imm s) := by
  unfold scalarStore
  dsimp only
  split
  · exact steerMemFault_continues
  · exact issueRemote_continues
  · exact ite_continues next_continues (ite_continues steerMemFault_continues next_continues)

theorem atomicAt_continues {space : BitVec 2} {a : BitVec 5} {ord : BitVec 2} {remote : Nat → Word → OutAcc}
    {done : PaLoc → Word → State} {d : BitVec 5} : Continues (atomicAt space a ord remote done d s) := by
  unfold atomicAt
  dsimp only
  split
  · exact steerMemFault_continues
  · split
    · next h => exact GateContinues.ite releaseGate_continues .none _ h
    · split
      · exact issueRemote_continues
      · exact ite_continues next_continues (ite_continues steerMemFault_continues retire_continues)

theorem amo_continues {op : BitVec 3} {d a b : BitVec 5} {ord space : BitVec 2} :
    Continues (amo op d a b ord space s) := by
  unfold amo
  exact atomicAt_continues

theorem execCas_continues {d a b : BitVec 5} {e : BitVec 3} {o p : BitVec 2} : Continues (execCas d a b e o p s) := by
  unfold execCas
  exact atomicAt_continues

theorem execFence_continues {e : BitVec 3} {q p : BitVec 2} : Continues (execFence e q p s) := by
  refine ite_continues next_continues ?_
  split
  · next h => exact GateContinues.ite failedGate_continues .none _ h
  · exact next_continues

theorem execWaitw_continues {d a b : BitVec 5} {p m : BitVec 2} {t : BitVec 6} : Continues (execWaitw d a b p m t s) := by
  unfold execWaitw
  dsimp only
  split
  · exact steerMemFault_continues
  · exact ite_continues next_continues (ite_continues steerMemFault_continues
      (ite_continues retire_continues next_continues))

theorem execDcoll_continues {d a b : BitVec 5} : Continues (execDcoll d a b s) :=
  ite_continues steerMemFault_continues (ite_continues steerMemFault_continues (ite_continues steerMemFault_continues
    (ite_continues steerFault_continues (ite_continues retire_continues retire_continues))))

theorem execCrget_continues {d : BitVec 5} {c : BitVec 12} : Continues (execCrget d c s) :=
  ite_continues steerFault_continues (ite_continues next_continues retire_continues)

theorem csrWriteWord_continues {op : CsrOp} {word : IWord} {a : BitVec 5} {c : BitVec 12} :
    Continues (csrWriteWord op word a c s) :=
  ite_continues steerFault_continues (ite_continues next_continues (ite_continues steerFault_continues
    (ite_continues next_continues next_continues)))

theorem execBpush_continues {a b : BitVec 5} : Continues (execBpush a b s) := by
  refine ite_continues steerFault_continues (ite_continues next_continues ?_)
  split
  · next h => exact releaseGate_continues _ h
  · exact next_continues

theorem execDpush_continues {a : BitVec 5} : Continues (execDpush a s) := by
  refine ite_continues next_continues ?_
  split
  · next h => exact releaseGate_continues _ h
  · exact next_continues

theorem execRpop_continues {d : BitVec 5} : Continues (execRpop d s) := by
  unfold execRpop
  split
  · exact next_continues
  · exact retire_continues

theorem execEpop_continues {d : BitVec 5} : Continues (execEpop d s) := by
  unfold execEpop
  split
  · exact next_continues
  · exact retire_continues

theorem execEpopTry_continues {d : BitVec 5} : Continues (execEpopTry d s) := by
  unfold execEpopTry
  split <;> exact retire_continues

theorem execEpopMsg_continues {d : BitVec 5} : Continues (execEpopMsg d s) := by
  unfold execEpopMsg
  split
  · exact next_continues
  · exact retire_continues

theorem execEpopMsgTry_continues {d : BitVec 5} : Continues (execEpopMsgTry d s) := by
  unfold execEpopMsgTry
  split <;> exact retire_continues

theorem execHret_continues : Continues (execHret s) := ite_continues next_continues steerFault_continues

theorem execBrk_continues {i : BitVec 15} : Continues (execBrk i s) :=
  ite_continues (ite_continues next_continues next_continues) steerTrapNext_continues

theorem completeTask_continues : Continues (completeTask s) := by
  unfold completeTask
  dsimp only
  split
  · exact steerMemFault_continues
  · exact ite_continues steerMemFault_continues next_continues

theorem execEndTask_continues : Continues (execEndTask s) := by
  refine ite_continues next_continues ?_
  split
  · next h => exact releaseGate_continues.or convoyGate_continues _ h
  · exact completeTask_continues

/-! ### Timelines, barriers, gangs, feeds, launches and engines -/

theorem contextFault_continues {h : Word} : Continues (contextFault h s) := steerFault_continues

theorem execTlwait_continues {d a b : BitVec 5} {t : BitVec 6} : Continues (execTlwait d a b t s) :=
  ite_continues contextFault_continues (ite_continues retire_continues next_continues)

theorem execTlreadCount_continues {d a : BitVec 5} : Continues (execTlreadCount d a s) :=
  ite_continues contextFault_continues retire_continues

theorem execTlreadStatus_continues {d a : BitVec 5} : Continues (execTlreadStatus d a s) :=
  ite_continues contextFault_continues retire_continues

theorem execBarv_continues {d a b : BitVec 5} : Continues (execBarv d a b s) := by
  unfold execBarv
  split
  · exact steerFault_continues
  · split
    · next h => exact releaseGate_continues _ h
    · exact retire_continues

theorem execBarw_continues {d a b : BitVec 5} {t : BitVec 6} : Continues (execBarw d a b t s) := by
  unfold execBarw
  split
  · exact steerFault_continues
  · exact ite_continues retire_continues next_continues

theorem execGarm_continues {a b : BitVec 5} : Continues (execGarm a b s) :=
  ite_continues next_continues (ite_continues steerFault_continues next_continues)

theorem execGarmOff_continues {d : BitVec 5} : Continues (execGarmOff d s) :=
  ite_continues next_continues retire_continues

theorem execFqset_continues {a b : BitVec 5} {q : BitVec 4} : Continues (execFqset a b q s) :=
  ite_continues steerFault_continues (ite_continues next_continues next_continues)

theorem madeRetire_continues {d : BitVec 5} {m : Made} : Continues (m.retire d s) := by
  cases m with
  | error => exact retire_continues
  | full => exact next_continues
  | entry => exact retire_continues

theorem execLaunch_continues {d a b : BitVec 5} {x : BitVec 4} : Continues (execLaunch d a b x s) := by
  refine ite_continues next_continues ?_
  split
  · exact steerMemFault_continues
  · refine ite_continues retire_continues ?_
    split
    · next h => exact releaseGate_continues _ h
    · exact madeRetire_continues

theorem execLaunchRequest_continues {d a b x c : BitVec 5} : Continues (execLaunchRequest d a b x c s) := by
  unfold execLaunchRequest
  split
  · next h => exact releaseGate_continues _ h
  · exact ite_continues next_continues retire_continues

theorem engineIssue_continues {cls : Nat} {op : CmdOp} {d a b : BitVec 5} : Continues (engineIssue cls op d a b s) := by
  refine ite_continues contextFault_continues (ite_continues steerMemFault_continues
    (ite_continues steerMemFault_continues (ite_continues steerMemFault_continues ?_)))
  split
  · next h => exact releaseGate_continues _ h
  · exact ite_continues next_continues retire_continues

theorem engineReset_continues {cls : Nat} {d a : BitVec 5} : Continues (engineReset cls d a s) :=
  ite_continues contextFault_continues (ite_continues next_continues retire_continues)

/-! ### Events -/

theorem execTimelineAdvance_continues {h : Nat} : Continues (execTimelineAdvance h s) := by
  unfold execTimelineAdvance
  split <;> exact next_continues

theorem execCommandFailed_continues {h : Nat} {err : BitVec 8} : Continues (execCommandFailed h err s) := by
  unfold execCommandFailed
  split <;> exact next_continues

theorem execCollectiveMatch_continues {h : Nat} : Continues (execCollectiveMatch h s) := by
  unfold execCollectiveMatch
  split <;> exact next_continues

theorem execCollectiveTimeout_continues {h : Nat} : Continues (execCollectiveTimeout h s) := by
  unfold execCollectiveTimeout
  split <;> exact next_continues

theorem execMemberUnreachable_continues {h : Nat} : Continues (execMemberUnreachable h s) := by
  unfold execMemberUnreachable
  split <;> exact next_continues

theorem execEntryReady_continues {e : Nat} : Continues (execEntryReady e s) := by
  unfold execEntryReady
  split <;> exact next_continues

theorem execStreamPumpTransfer_continues {e : Nat} : Continues (execStreamPumpTransfer e s) := by
  unfold execStreamPumpTransfer
  split
  · exact ite_continues next_continues next_continues
  · exact next_continues

theorem execStreamOutCopy_continues {e : Nat} : Continues (execStreamOutCopy e s) := by
  unfold execStreamOutCopy
  split
  · exact ite_continues next_continues next_continues
  · exact next_continues

theorem execOverdue_continues {e : Nat} : Continues (execOverdue e s) := by
  unfold execOverdue
  split
  · exact ite_continues next_continues next_continues
  · exact next_continues

theorem execPriorityPreemption_continues {e : Nat} : Continues (execPriorityPreemption e s) := by
  unfold execPriorityPreemption
  dsimp only
  split
  · exact next_continues
  · exact ite_continues next_continues next_continues

theorem execFeedCrossing_continues {q : BitVec 4} : Continues (execFeedCrossing q s) := by
  unfold execFeedCrossing
  dsimp only
  split <;> exact next_continues

theorem execEndReport_continues : Continues (execEndReport s) := by
  unfold execEndReport
  split
  · exact next_continues
  · dsimp only
    split <;> exact next_continues

theorem execTaskAbandon_continues : Continues (execTaskAbandon s) := by
  unfold execTaskAbandon
  split <;> exact next_continues

theorem execTcmClear_continues : Continues (execTcmClear s) := ite_continues next_continues next_continues

theorem execContextSave_continues : Continues (execContextSave s) := ite_continues next_continues next_continues

theorem execContextRestore_continues : Continues (execContextRestore s) := ite_continues next_continues next_continues

theorem execConvoyIssue_continues : Continues (execConvoyIssue s) := ite_continues issueConvoy_continues next_continues

theorem execConvoyRetire_continues : Continues (execConvoyRetire s) := ite_continues runConvoy_continues next_continues

theorem execQueueDeadlock_continues : Continues (execQueueDeadlock s) := by
  unfold execQueueDeadlock
  split
  · exact next_continues
  · dsimp only
    split <;> exact next_continues

theorem execDebugStop_continues : Continues (execDebugStop s) := by
  unfold execDebugStop
  split
  · exact next_continues
  · exact ite_continues next_continues next_continues

theorem execCompletionWordUpdate_continues : Continues (execCompletionWordUpdate s) :=
  ite_continues execEndTask_continues next_continues

theorem execLoadDataArrival_continues {n : Nat} : Continues (execLoadDataArrival n s) := by
  unfold execLoadDataArrival
  split <;> exact next_continues

theorem execStoreAcknowledged_continues {n : Nat} : Continues (execStoreAcknowledged n s) := by
  unfold execStoreAcknowledged
  split <;> exact next_continues

theorem execRemoteAccess_continues {n : Nat} : Continues (execRemoteAccess n s) := by
  unfold execRemoteAccess
  split <;> exact next_continues

theorem execRemoteAccessTimeout_continues {n : Nat} : Continues (execRemoteAccessTimeout n s) := by
  unfold execRemoteAccessTimeout
  split <;> exact next_continues

/-- The definition is unfolded before it has its arguments: with them, the kernel would compare the match with the
event's own by evaluating the walk. -/
theorem execTableWalk_continues {va : BitVec 57} {vec : Bool} : Continues (execTableWalk va vec s) := by
  generalize hf : execTableWalk = f
  delta execTableWalk at hf
  subst hf
  beta_reduce
  generalize tableWalk s s.cur.ptroot va.toNat = walked
  cases walked with
  | fault => exact next_continues
  | leaf => exact next_continues

theorem execMonitoredLineWrite_continues {line : Nat} : Continues (execMonitoredLineWrite line s) :=
  ite_continues runConvoy_continues next_continues

theorem execWaitLimitExpiry_continues : Continues (execWaitLimitExpiry s) := by
  unfold execWaitLimitExpiry
  split
  · exact ite_continues runConvoy_continues next_continues
  · split <;> exact next_continues

theorem execSpuriousWake_continues : Continues (execSpuriousWake s) := ite_continues runConvoy_continues next_continues

theorem execPortRetrain_continues {port : Nat} : Continues (execPortRetrain port s) :=
  ite_continues next_continues next_continues

/-! ### Every instruction and event -/

theorem exec_continues (i : Instr) : Continues (exec i s) := by
  cases i with
  -- events
  | convoyIssue => exact execConvoyIssue_continues
  | convoyRetire | vectorElementArrival => exact execConvoyRetire_continues
  | queueDeadlock => exact execQueueDeadlock_continues
  | debugStop => exact execDebugStop_continues
  | contextSave => exact execContextSave_continues
  | contextRestore => exact execContextRestore_continues
  | completionWordUpdate => exact execCompletionWordUpdate_continues
  | endReport => exact execEndReport_continues
  | taskAbandon => exact execTaskAbandon_continues
  | loadDataArrival => exact execLoadDataArrival_continues
  | storeAcknowledged => exact execStoreAcknowledged_continues
  | tableWalk => exact execTableWalk_continues
  | monitoredLineWrite => exact execMonitoredLineWrite_continues
  | waitLimitExpiry => exact execWaitLimitExpiry_continues
  | timelineAdvance => exact execTimelineAdvance_continues
  | commandFailed => exact execCommandFailed_continues
  | entryReady => exact execEntryReady_continues
  | overdue => exact execOverdue_continues
  | priorityPreemption => exact execPriorityPreemption_continues
  | streamPumpTransfer => exact execStreamPumpTransfer_continues
  | streamOutCopy => exact execStreamOutCopy_continues
  | tcmClear => exact execTcmClear_continues
  | feedCrossing => exact execFeedCrossing_continues
  | portRetrain => exact execPortRetrain_continues
  | remoteAccess => exact execRemoteAccess_continues
  | remoteAccessTimeout => exact execRemoteAccessTimeout_continues
  | collectiveMatch => exact execCollectiveMatch_continues
  | collectiveTimeout => exact execCollectiveTimeout_continues
  | memberUnreachable => exact execMemberUnreachable_continues
  | spuriousWake => exact execSpuriousWake_continues
  | blockPop | trapEntry | preemptionRequest | carryChain | fantailRun | gmmaMulticast | gmmaShareCompletion
  | planepwrWrite | lcntWrite | lcarryWrite | gselWrite | tlbinv | fqadv | clreset | csrWrite | clusterReset
  | hostPreemptionRequest | preqComplete | clholdWrite | plimitWrite | freeze | thaw | freezeSignal | debugPortAccess
  | attest | recover | commitSvn | cert | cllog | dbgen | unknownCommand | packageReset | powerLoss | grantCycle
  | grantDelivery | missedGrants | thermalThrottle | dieStoreScrub | thermalCutoff | hbmScrub | flitReceive | nakReplay
  | portDown | offloadPromotion | timeMessage | cxlMemAccess =>
    exact next_continues
  -- steering words
  | crget => exact execCrget_continues
  | crput | crset | crclr => exact csrWriteWord_continues
  | add | sub | and | or | xor | sll | srl | sra | slt | sltn | mul | mulhs | mulhn | div | divn | rem | remn | addi | andi
  | ori | xori | slli | srli | srai | slti | sltin | lui | sext | zext | extr | ins | clz | ctz | popc | fqsetRd =>
    exact retire_continues
  | ldb | ldw | ldd => exact scalarLoad_continues
  | stb | stw | std => exact scalarStore_continues
  | amoswap | amoadd | amoand | amoor | amoxor | amomax | amomin | amomaxu => exact amo_continues
  | cas => exact execCas_continues (e := 0)
  | fence => exact execFence_continues (e := 0) (q := 0)
  | cjEq | cjNe | cjLt | cjGe | cjLtn | cjGen | jal | jr | fqsetAdv | nap => exact next_continues
  | bpush => exact execBpush_continues
  | dpush => exact execDpush_continues
  | rpop => exact execRpop_continues
  | epop => exact execEpop_continues
  | epopTry => exact execEpopTry_continues
  | epopMsg => exact execEpopMsg_continues
  | epopMsgTry => exact execEpopMsgTry_continues
  | waitw => exact execWaitw_continues
  | endTask => exact execEndTask_continues
  | dcoll => exact execDcoll_continues
  | copy | copy2 | fill | slabmov | mdec | mrsz | cred | cbcast => exact engineIssue_continues
  | copyRst | mdecRst | credRst => exact engineReset_continues
  | tlwait => exact execTlwait_continues
  | tlreadCount => exact execTlreadCount_continues
  | tlreadStatus => exact execTlreadStatus_continues
  | strin | strout => exact madeRetire_continues
  | launch => exact execLaunch_continues
  | launchRequest => exact execLaunchRequest_continues
  | barv => exact execBarv_continues
  | barw => exact execBarw_continues
  | garm => exact execGarm_continues
  | garmOff => exact execGarmOff_continues
  | fqset => exact execFqset_continues
  | hcall => exact steerTrapNext_continues
  | hret => exact execHret_continues
  | brk => exact execBrk_continues
  -- vector words
  | _ =>
    unfold exec
    exact vectorWord_continues

/-! ### The dispatcher -/

theorem dispFault_continues {e : Word × MemFault} : Continues (dispFault e s) :=
  steerMemFault_continues.bind (f := fun r => match r with
    | .next t => .next (t.modCluster (fun c => { c with dispatch := none }))
    | r => r) fun _ => next_continues

theorem dispMessage_continues {m : List Word} : Continues (dispMessage m s) := by
  refine ite_continues (ite_continues next_continues ?_) next_continues
  split
  · exact dispFault_continues
  all_goals exact next_continues

theorem dispMade_continues {m : Made} {go : Nat → Nat → State → State} : Continues (dispMade m s go) := by
  cases m <;> exact next_continues

theorem dispRecord_continues {d : Dispatch} {addr n : Nat} {r : Record} : Continues (dispRecord d addr n r s) := by
  unfold dispRecord
  split
  · exact next_continues
  · split
    · split <;> exact next_continues
    · exact next_continues
  · exact next_continues
  · refine ite_continues dispMade_continues ?_
    split
    · exact dispFault_continues
    · exact dispMade_continues

theorem dispatcherTurn_continues {d : Dispatch} : Continues (dispatcherTurn d s) := by
  refine ite_continues dispMessage_continues (ite_continues next_continues ?_)
  split
  · exact dispFault_continues
  · refine ite_continues next_continues ?_
    dsimp only
    split
    · exact dispFault_continues
    · exact dispRecord_continues

/-! ### Turns -/

/-- What runs a fetched word always has a next state. -/
def RunContinues (run : IWord → State → Result) : Prop := ∀ w t, Continues (run w t)

theorem haltForRequest_continues : Continues (haltForRequest s) := by
  refine ite_continues next_continues ?_
  split <;> exact next_continues

theorem endWord_continues {mode : Bool} {r : Result} (h : Continues r) : Continues (endWord mode r) :=
  h.bind fun _ => next_continues

theorem steerWord_continues {w : IWord} {run : State → Result} (h : Continues (run s)) : Continues (steerWord w run s) :=
  ite_continues haltForRequest_continues (ite_continues next_continues (endWord_continues h))

theorem boundaryFault_continues {c : Cause} {v : Word} : Continues (boundaryFault c v s) :=
  ite_continues next_continues steerFault_continues

theorem badWord_continues {e : DecodeError} {w : IWord} : Continues (badWord e w s) := by
  unfold badWord
  split
  · exact decodingFault_continues
  · exact boundaryFault_continues

theorem goodWord_continues {w : IWord} {run : State → Result} (h : Continues (run s)) : Continues (goodWord w run s) := by
  unfold goodWord
  split
  · exact h
  · exact steerWord_continues h

theorem runWord_continues : RunContinues runWord := by
  intro w s
  unfold runWord
  split
  · exact goodWord_continues (exec_continues _)
  · exact badWord_continues

theorem steerTurn_continues {run : IWord → State → Result} (hrun : RunContinues run) : Continues (steerTurn run s) := by
  refine ite_continues next_continues (ite_continues (ite_continues next_continues next_continues) (ite_continues ?_
    (ite_continues (ite_continues next_continues next_continues)
      (ite_continues (ite_continues next_continues next_continues) ?_))))
  · split <;> exact next_continues
  · split
    · exact boundaryFault_continues
    · exact hrun _ _

theorem flightTurn_continues : Continues (flightTurn s) := by
  refine ite_continues ?_ runConvoy_continues
  split
  · exact next_continues
  · exact runConvoy_continues

theorem convoyTurn_continues {run : IWord → State → Result} (hrun : RunContinues run) : Continues (convoyTurn run s) := by
  refine ite_continues next_continues (ite_continues next_continues (ite_continues next_continues
    (ite_continues flightTurn_continues (ite_continues next_continues ?_))))
  split
  · exact next_continues
  · refine ite_continues next_continues (ite_continues issueConvoy_continues (ite_continues next_continues ?_))
    split
    · exact decodingFault_continues
    · exact hrun _ _

theorem expireWaits_continues : Continues (expireWaits s) := by
  refine ite_continues next_continues ?_
  obtain ⟨t, ht⟩ := exec_continues (s := { s.tickUp with agent := .convoy }) .waitLimitExpiry
  obtain ⟨u, hu⟩ := exec_continues (s := { t with agent := .steer }) .waitLimitExpiry
  simp only [ht, hu]
  exact exec_continues _

theorem hardwareTurn_continues : Continues (hardwareTurn s) := by
  unfold hardwareTurn
  extract_lets r
  have hr : Continues r := by
    unfold r
    split
    · exact next_continues
    · split
      · exact exec_continues _
      · exact expireWaits_continues
  obtain ⟨t, ht⟩ := hr
  rw [ht]
  exact next_continues

theorem controlTurn_continues {run : IWord → State → Result} (hrun : RunContinues run) : Continues (controlTurn run s) := by
  unfold controlTurn
  split
  · exact ite_continues dispatcherTurn_continues next_continues
  · exact steerTurn_continues hrun

theorem turn_continues {run : IWord → State → Result} (hrun : RunContinues run) : Continues (turn run s) := by
  unfold turn
  split
  · exact steerTurn_continues hrun
  · exact controlTurn_continues hrun
  · exact convoyTurn_continues hrun
  · exact hardwareTurn_continues

theorem passTurn_continues {a : Agent} {r : Result} (h : Continues r) : Continues (passTurn a r) :=
  h.bind fun _ => next_continues

theorem eventTurn_continues {i : Instr} : Continues (eventTurn i s) := ite_continues next_continues (exec_continues i)

theorem runJob_continues {run : IWord → State → Result} {j : Job} (hrun : RunContinues run) : Continues (runJob run j s) := by
  unfold runJob
  dsimp only
  split
  · exact passTurn_continues eventTurn_continues
  · exact passTurn_continues (turn_continues hrun)

theorem stepWith_continues {run : IWord → State → Result} (hrun : RunContinues run) : Continues (stepWith run s) := by
  unfold stepWith
  split <;> exact runJob_continues hrun

end Continues

/-- Settles O14: each step is a turn or an event, and each of these ends in a next state. -/
theorem stepAlwaysNext : Obligations.StepAlwaysNext := by
  unfold Obligations.StepAlwaysNext
  intro s
  exact stepWith_continues runWord_continues

end Sys2Proof.Machine

/-! ## How convoys form, and convoys of two and three words (02_encoding.md R37 to R40; 05_convoy.md R112 to R114)

An arithmetic word is described by a form: what the body of R121 is given for it, as its member has it and as its formula
says. A convoy passes or fails the checks at issue, runs and retires by lemmas about forms. -/

namespace Sys2Proof.Machine

/-! ### The operations of the members agree with the spec's formulas -/

/-- On the operands that elements of a type hold, an operation gives what a formula gives; one that does not read the old
vd may be given anything for it. -/
def OpAgrees (types : Nat → Prop) (readsD : Bool) (op f : ElemOp) : Prop :=
  ∀ (c : Conv) (a b z z' : Nat), types c.type → a < 2 ^ c.ew → b < 2 ^ c.ew → z < 2 ^ c.ew → (readsD = true → z' = z) →
    op c a b z' = f c a b z

/-- Formulas of two operands that are the operations as they stand. -/
theorem OpAgrees.same {types : Nat → Prop} {op f : ElemOp} (h : ∀ c a b z z', op c a b z' = f c a b z) :
    OpAgrees types false op f := fun c a b z z' _ _ _ _ _ => h c a b z z'

/-- In the immediate forms the old vd takes the place of the first operand. -/
theorem OpAgrees.old {types : Nat → Prop} {op f : ElemOp} (h : OpAgrees types false op f) :
    OpAgrees types true (fun c _ y z => op c z y 0) (onOld f) := by
  intro c a b z z' ht _ hb hz hz'
  rw [hz' rfl]
  exact h c z b 0 0 ht hz hb (Nat.two_pow_pos _) (fun _ => rfl)

/-- The bits of an integer are those of the number modulo 2^EW that the formulas write. -/
theorem iOp2_agrees (types : Nat → Prop) (f : Int → Int → Int) : OpAgrees types false (iOp2 f) (onInts f) :=
  .same fun _ _ _ _ _ => rfl

theorem iDivOp_agrees (types : Nat → Prop) :
    OpAgrees types false iDivOp (onQuotient (fun ew _ => 2 ^ ew - 1) Int.tdiv) := .same fun _ _ _ _ _ => rfl

theorem iRemOp_agrees (types : Nat → Prop) : OpAgrees types false iRemOp (onQuotient (fun _ x => x) Int.tmod) :=
  .same fun _ _ _ _ _ => rfl

theorem iMulhOp_agrees (types : Nat → Prop) :
    OpAgrees types false iMulhOp (fun c x y z => onInts (fun u v => u * v / 2 ^ c.ew) c x y z) :=
  .same fun _ _ _ _ _ => rfl

theorem IntTy.lo_le_hi (t : IntTy) : t.lo ≤ t.hi := by
  have h : (0 : Int) < 2 ^ (t.width - 1) := by positivity
  have h' : (0 : Int) < 2 ^ t.width := by positivity
  unfold IntTy.lo IntTy.hi
  split <;> omega

/-- Clamping is the bits of the nearest value of the type, and reports whether that is another value. -/
theorem IntTy.clamp_eq (t : IntTy) (v : Int) :
    t.clamp v = (t.bits (max t.lo (min t.hi v)), decide (max t.lo (min t.hi v) ≠ v)) := by
  have h := t.lo_le_hi
  unfold IntTy.clamp
  split
  · next hlt =>
    have e : max t.lo (min t.hi v) = t.lo := by omega
    rw [e, decide_eq_true (by omega)]
  · split
    · have e : max t.lo (min t.hi v) = t.hi := by omega
      rw [e, decide_eq_true (by omega)]
    · have e : max t.lo (min t.hi v) = v := by omega
      rw [e, decide_eq_false (by simp)]

theorem iSatOp_agrees (types : Nat → Prop) (f : Int → Int → Int) : OpAgrees types false (iSatOp f) (onClamped f) := by
  refine .same fun c a b z z' => ?_
  simp only [iSatOp, onClamped, IntTy.clamp_eq, IntTy.bits, flagIf, decide_eq_true_eq, ne_eq, ite_not]
  rfl

theorem sllOp_agrees (types : Nat → Prop) : OpAgrees types false sllOp (onShift (fun _ x n => x * 2 ^ n)) := by
  refine .same fun c a b z z' => ?_
  have e : ((a : Int) * 2 ^ (b % c.ew) % 2 ^ c.ew) = ((a * 2 ^ (b % c.ew) % 2 ^ c.ew : Nat) : Int) := by push_cast; rfl
  simp only [sllOp, onShift, shiftAmount, e, Int.toNat_natCast]

theorem srlOp_agrees (types : Nat → Prop) : OpAgrees types false srlOp (onShift (fun _ x n => x / 2 ^ n)) := by
  intro c a b z z' _ ha _ _ _
  have e : ((a : Int) / 2 ^ (b % c.ew) % 2 ^ c.ew) = ((a / 2 ^ (b % c.ew) % 2 ^ c.ew : Nat) : Int) := by push_cast; rfl
  have hlt : a / 2 ^ (b % c.ew) < 2 ^ c.ew := (Nat.div_le_self _ _).trans_lt ha
  simp only [srlOp, onShift, shiftAmount, e, Int.toNat_natCast, Nat.mod_eq_of_lt hlt]

theorem sraOp_agrees (types : Nat → Prop) : OpAgrees types false sraOp (onShift shiftSigned) :=
  .same fun c a b _ _ => by simp only [sraOp, onShift, shiftSigned, shiftAmount, IntTy.bits, IntTy.value, true_and]

/-- A bitwise operation that keeps within the element needs no reduction. -/
theorem bitOp_agrees (types : Nat → Prop) {f : Nat → Nat → Nat} (h : ∀ {n x y}, x < 2 ^ n → y < 2 ^ n → f x y < 2 ^ n) :
    OpAgrees types false (bitOp f) (onBits f) := by
  intro c a b z z' _ ha hb _ _
  simp only [bitOp, onBits, Nat.mod_eq_of_lt (h ha hb)]

theorem and_agrees (types : Nat → Prop) : OpAgrees types false (bitOp (· &&& ·)) (onBits (· &&& ·)) :=
  bitOp_agrees types fun _ hy => Nat.and_lt_two_pow _ hy

theorem or_agrees (types : Nat → Prop) : OpAgrees types false (bitOp (· ||| ·)) (onBits (· ||| ·)) :=
  bitOp_agrees types Nat.or_lt_two_pow

theorem xor_agrees (types : Nat → Prop) : OpAgrees types false (bitOp (· ^^^ ·)) (onBits (· ^^^ ·)) :=
  bitOp_agrees types Nat.xor_lt_two_pow

/-- The sign bit of f32, f16 and bf16 is the top bit of the element. -/
theorem signBit_fmt {c : Conv} (h : c.type ≤ 2) : signBit c.rnd.fmt = 2 ^ (c.ew - 1) := by
  unfold Conv.rnd Conv.ew
  generalize c.type = t at h
  interval_cases t <;> rfl

/-- Above the magnitude of an element stands its sign bit alone. -/
theorem sign_lt {c : Conv} (h : c.type ≤ 2) {x : Nat} (hx : x < 2 ^ c.ew) : x / 2 ^ (c.ew - 1) < 2 := by
  have he : 2 ^ c.ew = 2 ^ (c.ew - 1) * 2 := by
    unfold Conv.ew
    generalize c.type = t at h
    interval_cases t <;> rfl
  exact Nat.div_lt_of_lt_mul (he ▸ hx)

theorem signOf_eq {c : Conv} (h : c.type ≤ 2) {x : Nat} (hx : x < 2 ^ c.ew) :
    signOf c.rnd.fmt x = 2 ^ (c.ew - 1) * (x / 2 ^ (c.ew - 1)) := by
  rw [signOf, signBit_fmt h, Nat.mod_eq_of_lt (sign_lt h hx), Nat.mul_comm]

theorem fNegOp_agrees : OpAgrees (· ≤ 2) false fNegOp (onSign (fun x _ => 1 - x)) := by
  intro c a b z z' ht ha _ _ _
  simp only [fNegOp, onSign, magBits, signOf_eq ht ha, signBit_fmt ht, Nat.mul_sub, Nat.mul_one]

theorem fAbsOp_agrees : OpAgrees (· ≤ 2) false fAbsOp (onSign (fun _ _ => 0)) := by
  intro c a b z z' ht ha _ _ _
  simp only [fAbsOp, onSign, magBits, signBit_fmt ht, Nat.mul_zero, Nat.add_zero]

theorem fCpysOp_agrees : OpAgrees (· ≤ 2) false fCpysOp (onSign (fun _ y => y)) := by
  intro c a b z z' ht ha hb _ _
  simp only [fCpysOp, onSign, magBits, signOf_eq ht hb, signBit_fmt ht]

theorem fCpysnOp_agrees : OpAgrees (· ≤ 2) false fCpysnOp (onSign (fun _ y => 1 - y)) := by
  intro c a b z z' ht ha hb _ _
  simp only [fCpysnOp, onSign, magBits, signOf_eq ht hb, signBit_fmt ht, Nat.mul_sub, Nat.mul_one]

theorem fKindOp_agrees : OpAgrees (· ≤ 2) false fKindOp onKind := by
  intro c a b z z' ht ha _ _ _
  simp only [fKindOp, onKind, signBit_fmt ht, Nat.mod_eq_of_lt (sign_lt ht ha)]

theorem fmaOp_agrees (types : Nat → Prop) (p n : Bool) : OpAgrees types true (fmaOp p n) (onFused p n) := by
  intro c a b z z' _ _ _ _ hz
  rw [hz rfl]
  rfl

/-- What the body of R121 is given for a word, beside its formula: the types it pairs with, as its member and as the spec
say them, whether it reads the old vd, its operands, and the operation of its member. -/
structure ElementForm where
  pairs : Nat → Bool
  types : Nat → Prop
  readsD : Bool
  d : BitVec 6
  x : Src
  y : Src
  m : BitVec 3
  op : ElemOp
  f : ElemOp

/-- The word by its formula. -/
def ElementForm.word (F : ElementForm) (s : State) : ElementWord :=
  onElements s (F.types s.core.conv.type) F.d F.x F.y F.m F.f

/-- The pipe of an arithmetic word (R112). -/
def arithmeticPipe (i : Instr) : Pipe := if onSfu i then .sfu else .valu

/-- The member of the word. -/
def ElementForm.member (F : ElementForm) (i : Instr) (s : State) : Member :=
  elementwise s (arithmeticPipe i) (F.pairs s.core.conv.type) F.d.toNat F.x F.y F.readsD F.m.toNat F.op

/-- A vector word has the form: its member is the form's, and does what the formula says. -/
structure ElementForm.Describes (F : ElementForm) (i : Instr) : Prop where
  vector : ∀ s, exec i s = vectorWord i s
  member : ∀ s, memberOf i s = F.member i s
  pairs : ∀ t, F.pairs t = true ↔ F.types t
  agrees : OpAgrees F.types F.readsD F.op F.f

theorem isI_iff (t : Nat) : isI t = true ↔ 6 ≤ t := decide_eq_true_iff
theorem isF_iff (t : Nat) : isF t = true ↔ t ≤ 2 := decide_eq_true_iff

/-- A word that pairs with the types of a class has a form. -/
theorem form_of_class {pairs : Nat → Bool} {types : Nat → Prop} (hp : ∀ t, pairs t = true ↔ types t) {i : Instr} {readsD : Bool}
    {d : BitVec 6} {x y : Src} {m : BitVec 3} {op f : ElemOp} (s : State) (ha : OpAgrees types readsD op f)
    (hv : ∀ s, exec i s = vectorWord i s)
    (hm : ∀ s, memberOf i s = elementwise s (arithmeticPipe i) (pairs s.core.conv.type) d.toNat x y readsD m.toNat op) :
    ∃ F : ElementForm, F.Describes i ∧ onElements s (types s.core.conv.type) d x y m f = F.word s :=
  ⟨⟨pairs, types, readsD, d, x, y, m, op, f⟩, ⟨hv, hm, hp, ha⟩, rfl⟩

theorem integerWord_described {i : Instr} {s : State} {w : ElementWord} (h : integerWord i s = some w) :
    ∃ F : ElementForm, F.Describes i ∧ w = F.word s := by
  unfold integerWord at h
  split at h
  -- VADD, VSUB, VMUL, VMIN, VMAX and their scalar forms
  case h_1 | h_2 | h_3 | h_4 | h_5 | h_8 | h_9 | h_10 | h_11 | h_12 =>
    cases h; exact form_of_class isI_iff s (iOp2_agrees _ _) (fun _ => rfl) (fun _ => rfl)
  -- VDIV and VREM
  case h_6 | h_13 => cases h; exact form_of_class isI_iff s (iDivOp_agrees _) (fun _ => rfl) (fun _ => rfl)
  case h_7 | h_14 => cases h; exact form_of_class isI_iff s (iRemOp_agrees _) (fun _ => rfl) (fun _ => rfl)
  -- the immediate forms
  case h_15 | h_16 | h_17 | h_18 | h_19 =>
    cases h; exact form_of_class isI_iff s (iOp2_agrees _ _).old (fun _ => rfl) (fun _ => rfl)
  -- VSADD, VSSUB, VMULH and VAVG
  case h_20 | h_21 => cases h; exact form_of_class isI_iff s (iSatOp_agrees _ _) (fun _ => rfl) (fun _ => rfl)
  case h_22 => cases h; exact form_of_class isI_iff s (iMulhOp_agrees _) (fun _ => rfl) (fun _ => rfl)
  case h_23 => cases h; exact form_of_class isI_iff s (iOp2_agrees _ _) (fun _ => rfl) (fun _ => rfl)
  -- the shifts
  case h_24 => cases h; exact form_of_class isI_iff s (sllOp_agrees _) (fun _ => rfl) (fun _ => rfl)
  case h_25 => cases h; exact form_of_class isI_iff s (srlOp_agrees _) (fun _ => rfl) (fun _ => rfl)
  case h_26 => cases h; exact form_of_class isI_iff s (sraOp_agrees _) (fun _ => rfl) (fun _ => rfl)
  case h_27 => cases h; exact form_of_class isI_iff s (sllOp_agrees _).old (fun _ => rfl) (fun _ => rfl)
  case h_28 => cases h; exact form_of_class isI_iff s (srlOp_agrees _).old (fun _ => rfl) (fun _ => rfl)
  case h_29 => cases h; exact form_of_class isI_iff s (sraOp_agrees _).old (fun _ => rfl) (fun _ => rfl)
  case h_30 => cases h

theorem bitsWord_described {i : Instr} {s : State} {w : ElementWord} (h : bitsWord i s = some w) :
    ∃ F : ElementForm, F.Describes i ∧ w = F.word s := by
  have always : ∀ t : Nat, (fun _ => true) t = true ↔ (fun _ => True) t := fun _ => iff_of_true rfl trivial
  unfold bitsWord at h
  split at h
  -- VAND, VOR, VXOR, VANDN and VMOV
  case h_1 => cases h; exact form_of_class always s (and_agrees _) (fun _ => rfl) (fun _ => rfl)
  case h_2 => cases h; exact form_of_class always s (or_agrees _) (fun _ => rfl) (fun _ => rfl)
  case h_3 => cases h; exact form_of_class always s (xor_agrees _) (fun _ => rfl) (fun _ => rfl)
  case h_4 => cases h; exact form_of_class always s (op := andnOp) (.same fun _ _ _ _ _ => rfl) (fun _ => rfl) (fun _ => rfl)
  case h_5 => cases h; exact form_of_class always s (op := movOp) (.same fun _ _ _ _ _ => rfl) (fun _ => rfl) (fun _ => rfl)
  -- the immediate forms and VLI
  case h_6 => cases h; exact form_of_class always s (and_agrees _).old (fun _ => rfl) (fun _ => rfl)
  case h_7 => cases h; exact form_of_class always s (or_agrees _).old (fun _ => rfl) (fun _ => rfl)
  case h_8 => cases h; exact form_of_class always s (xor_agrees _).old (fun _ => rfl) (fun _ => rfl)
  case h_9 => cases h; exact form_of_class always s (op := immOp) (.same fun _ _ _ _ _ => rfl) (fun _ => rfl) (fun _ => rfl)
  case h_10 => cases h

theorem floatWord_described {i : Instr} {s : State} {w : ElementWord} (h : floatWord i s = some w) :
    ∃ F : ElementForm, F.Describes i ∧ w = F.word s := by
  unfold floatWord at h
  split at h
  -- VFADD, VFSUB, VFMUL, VFDIV and their scalar forms
  case h_1 | h_2 | h_3 | h_4 | h_7 | h_8 | h_9 | h_10 =>
    cases h; exact form_of_class isF_iff s (op := fOp2 _) (.same fun _ _ _ _ _ => rfl) (fun _ => rfl) (fun _ => rfl)
  -- VFMIN and VFMAX
  case h_5 | h_6 | h_11 | h_12 =>
    cases h; exact form_of_class isF_iff s (op := fMinMaxOp _) (.same fun _ _ _ _ _ => rfl) (fun _ => rfl) (fun _ => rfl)
  -- the words of the sign, and VFKIND
  case h_13 => cases h; exact form_of_class isF_iff s fNegOp_agrees (fun _ => rfl) (fun _ => rfl)
  case h_14 => cases h; exact form_of_class isF_iff s fAbsOp_agrees (fun _ => rfl) (fun _ => rfl)
  case h_15 => cases h; exact form_of_class isF_iff s fCpysOp_agrees (fun _ => rfl) (fun _ => rfl)
  case h_16 => cases h; exact form_of_class isF_iff s fCpysnOp_agrees (fun _ => rfl) (fun _ => rfl)
  case h_17 => cases h; exact form_of_class isF_iff s fKindOp_agrees (fun _ => rfl) (fun _ => rfl)
  -- the fused multiply-adds
  case h_18 | h_19 | h_20 | h_21 | h_22 | h_23 | h_24 | h_25 =>
    cases h; exact form_of_class isF_iff s (fmaOp_agrees _ _ _) (fun _ => rfl) (fun _ => rfl)
  -- the special functions
  case h_26 | h_27 | h_28 | h_29 | h_30 | h_31 | h_32 | h_33 =>
    cases h; exact form_of_class isF_iff s (op := fOp1 _) (.same fun _ _ _ _ _ => rfl) (fun _ => rfl) (fun _ => rfl)
  case h_34 => cases h

theorem arithmeticWord_described {i : Instr} {s : State} {w : ElementWord} (h : arithmeticWord i s = some w) :
    ∃ F : ElementForm, F.Describes i ∧ w = F.word s := by
  rw [arithmeticWord, Option.or_eq_some_iff, Option.or_eq_some_iff] at h
  obtain h | ⟨-, h | ⟨-, h⟩⟩ := h
  · exact integerWord_described h
  · exact floatWord_described h
  · exact bitsWord_described h

/-! ### How a word joins the convoy that forms (02_encoding.md R37, R38, R40) -/

/-- A vector word that may stand with others in a convoy, and that has a meaning under VTYPE when it may issue. -/
structure Joins (i : Instr) (s : State) (issues : Prop) : Prop where
  vector : exec i s = vectorWord i s
  accompanied : (memberOf i s).cls ≠ .a
  paired : (memberOf i s).paired = true ↔ issues

theorem ElementForm.Describes.joins {F : ElementForm} {i : Instr} (h : F.Describes i) (s : State) :
    Joins i s (F.word s).issues where
  vector := h.vector s
  accompanied := by rw [h.member s]; exact nofun
  paired := by rw [h.member s]; exact h.pairs _

theorem compareMember_joins {i : Instr} {s : State} {cmp : Cmp} {d m : BitVec 3} {x y : Src} {n : Nat}
    (hv : exec i s = vectorWord i s) (hm : memberOf i s = compareMember s cmp d.toNat x y n) :
    Joins i s (onCompare s cmp d x y m).issues where
  vector := hv
  accompanied := by rw [hm]; exact nofun
  paired := by
    rw [hm]
    simp only [compareMember, onCompare, isE2, isI, Bool.and_eq_true, Bool.not_eq_true', beq_eq_false_iff_ne, ne_eq,
      Bool.and_eq_false_imp, beq_iff_eq, decide_eq_false_iff_not, Nat.not_le]

/-- A word that pairs with every type. -/
theorem joins_always {i : Instr} {s : State} (hv : exec i s = vectorWord i s) (hc : (memberOf i s).cls = .e)
    (hp : (memberOf i s).paired = true) : Joins i s True where
  vector := hv
  accompanied := by rw [hc]; exact nofun
  paired := iff_of_true hp trivial

theorem compareWord_joins {i : Instr} {s : State} {w : ElementWord} (h : compareWord i s = some w) : Joins i s w.issues := by
  unfold compareWord at h
  split at h
  -- the compares
  case h_1 | h_2 | h_3 | h_4 | h_5 | h_6 | h_7 | h_8 | h_9 | h_10 | h_11 | h_12 | h_13 | h_14 =>
    cases h; exact compareMember_joins rfl rfl
  -- the mask words, VSEL and VSELZ
  case h_15 | h_16 | h_17 | h_18 | h_19 | h_20 | h_21 | h_22 | h_23 => cases h; exact joins_always rfl rfl rfl
  case h_24 => cases h

theorem convertWord_joins {i : Instr} {s : State} {w : ElementWord} (h : convertWord i s = some w) : Joins i s w.issues := by
  unfold convertWord at h
  split at h <;> cases h
  case h_1 d a t m c =>
    refine ⟨rfl, nofun, ?_⟩
    show (t.toNat != s.core.conv.type && !isE2 t.toNat && !isE2 s.core.conv.type) = true ↔ _
    simp only [isE2, Bool.and_eq_true, bne_iff_ne, Bool.not_eq_true', beq_eq_false_iff_ne, and_assoc]
  case h_2 d a t m c =>
    refine ⟨rfl, nofun, ?_⟩
    show (isF t.toNat && (isE2 s.core.conv.type || isFp8 s.core.conv.type)) = true ↔ _
    simp only [isF, isE2, isFp8, Bool.and_eq_true, Bool.or_eq_true, decide_eq_true_eq, beq_iff_eq]
    omega
  case h_3 d a t m c =>
    refine ⟨rfl, nofun, ?_⟩
    show ((isE2 t.toNat || isFp8 t.toNat) && isF s.core.conv.type) = true ↔ _
    simp only [isF, isE2, isFp8, Bool.and_eq_true, Bool.or_eq_true, decide_eq_true_eq, beq_iff_eq]
    omega

section Forming

variable {i : Instr} {s : State} {issues : Prop}

theorem chained_iff : chained i = true ↔ ¬endsConvoy i := by
  rw [chained, decide_eq_true_iff, endsConvoy, Nat.not_lt]

/-- With C = 1 and room in the convoy, a word goes on the convoy that forms. -/
theorem Joins.goes_on (h : Joins i s issues) (hi : issues) (hc : ¬endsConvoy i) (hl : s.core.conv.forming.length < 3) :
    exec i s = .next (s.modConv (fun c => { c with forming := c.forming ++ [i] })) := by
  have hne : s.core.conv.forming.length ≠ 3 := by omega
  rw [h.vector]
  simp [vectorWord, h.paired.mpr hi, h.accompanied, hne, chained_iff.mpr hc, State.modConv, State.modCore]

/-- The fourth word with C = 1 is CONVOY-FORM. -/
theorem Joins.convoyForm (h : Joins i s issues) (hi : issues) (hc : ¬endsConvoy i) (hl : s.core.conv.forming.length = 3) :
    exec i s = decodingFault 3 .convoyForm ((encode i).setWidth 64) s := by
  rw [h.vector]
  simp [vectorWord, h.paired.mpr hi, h.accompanied, hl, chained_iff.mpr hc]

/-- A word with no meaning under VTYPE is ILLEGAL-WORD. -/
theorem Joins.illegalWord (h : Joins i s issues) (hi : ¬issues) :
    exec i s = decodingFault s.core.conv.forming.length .illegalWord ((encode i).setWidth 64) s := by
  rw [h.vector]
  simp [vectorWord, Bool.eq_false_iff.mpr (h.paired.not.mpr hi)]

variable {n : Nat} {c : Cause} {v : Word}

/-- A decoding fault waits for every earlier convoy to retire. -/
theorem decodingFault_of_parked (h : s.core.conv.parked ≠ []) : decodingFault n c v s = .next { s with stalled := true } := by
  simp only [decodingFault, if_neg h, stall]

theorem decodingFault_of_retired (h : s.core.conv.parked = []) : decodingFault n c v s = .next (issueFault n c v s) := by
  simp only [decodingFault, if_pos h]

/-- In task mode, with no pre-emption request and no SSTEP due, a trap of the convoy stream is taken at once. -/
structure TakesTraps (s : State) : Prop where
  task : s.core.steer.mode = false
  resident : s.core.preq = false
  unstepped : s.core.steer.stepped = false

/-- A fault at issue traps before the first element. -/
theorem issueFault_trapped (h : TakesTraps s) (hc : c ≠ .cstep) : ConvoyTrapped c v n 0 s (issueFault n c v s) := by
  obtain ⟨hmode, hpreq, hstep⟩ := h
  constructor <;>
    simp [issueFault, convoyTrap, takeDue, takeTrapTask, enterHandler, recordTrap, haltConvoy, recordPoint, State.modCore,
      State.modConv, hmode, hpreq, hstep, hc]

theorem issueFault_plane (h : TakesTraps s) (hc : c ≠ .cstep) :
    (issueFault n c v s).core.conv.plane = s.core.conv.plane := by
  obtain ⟨hmode, hpreq, hstep⟩ := h
  simp [issueFault, convoyTrap, takeDue, takeTrapTask, haltConvoy, recordPoint, State.modCore, State.modConv, hmode, hpreq,
    hstep, hc]

end Forming

/-! ### The checks at issue of a convoy of arithmetic words (03_plane.md R83; 05_convoy.md R112, R113) -/

/-- A member that passes the checks it is asked for alone, waits for nothing, and whose elements are run. -/
structure Member.Passes (m : Member) (s : State) : Prop where
  cls : m.cls = .e
  paired : m.paired = true
  settled : m.settled = true
  check : m.check = none
  shapes : shapeFault m s = none
  ready : m.ready = true
  pops : m.pops = 0
  pushes : m.pushes = 0

/-- The shape of a use, as a word names it. -/
def Use.named (u : Use) : Named := ⟨u.shape, u.ew, u.need.getD 0⟩

theorem Src.uses_named (x : Src) (ew vl : Nat) : (x.uses ew vl).map Use.named = srcNamed [x] ew vl := by
  cases x <;> rfl

theorem srcNamed_pair (x y : Src) (ew vl : Nat) : srcNamed [x, y] ew vl = srcNamed [x] ew vl ++ srcNamed [y] ew vl :=
  List.filterMap_append (l := [x]) (l' := [y])

section Form

variable {F : ElementForm} {i : Instr} {s : State}

/-- The destination, as a use. -/
def ElementForm.target (F : ElementForm) (s : State) : Use :=
  if F.readsD then updateVl F.d.toNat s.core.conv.ew s.vl else writeVl F.d.toNat s.core.conv.ew s.vl

/-- The sources, as uses. -/
def ElementForm.sources (F : ElementForm) (s : State) : List Use :=
  F.x.uses s.core.conv.ew s.vl ++ F.y.uses s.core.conv.ew s.vl

theorem ElementForm.member_uses : (F.member i s).uses = F.target s :: F.sources s := rfl

theorem ElementForm.target_eq : F.target s = ⟨F.d.toNat, s.core.conv.ew, F.readsD, true, some s.vl, true⟩ := by
  unfold ElementForm.target
  split <;> simp [*, updateVl, writeVl]

theorem ElementForm.mem_sources {u : Use} (h : u ∈ F.sources s) : ∃ n, u = readVl n s.core.conv.ew s.vl := by
  obtain h | h := List.mem_append.mp h
  all_goals
    obtain ⟨n, -, rfl⟩ := mem_srcUses _ _ _ _ h
    exact ⟨n, rfl⟩

/-- Every use is walked by VL at the element width and takes a box, and one that is not written is read. -/
theorem ElementForm.use_eq {u : Use} (h : u ∈ (F.member i s).uses) :
    u.ew = s.core.conv.ew ∧ u.need = some s.vl ∧ u.box = true ∧ (u.wr = true ∨ u.rd = true) := by
  rw [member_uses, List.mem_cons] at h
  obtain rfl | h := h
  · rw [target_eq]; exact ⟨rfl, rfl, rfl, .inl rfl⟩
  · obtain ⟨n, rfl⟩ := mem_sources h
    exact ⟨rfl, rfl, rfl, .inr rfl⟩

/-- Only the destination is written. -/
theorem ElementForm.eq_target_of_wr {u : Use} (h : u ∈ (F.member i s).uses) (hw : u.wr = true) : u = F.target s := by
  rw [member_uses, List.mem_cons] at h
  obtain rfl | h := h
  · rfl
  · obtain ⟨n, rfl⟩ := mem_sources h
    cases hw

theorem ElementForm.target_wr : (F.target s).wr = true := by rw [target_eq]

theorem ElementForm.target_mem : F.target s ∈ (F.member i s).uses := List.mem_cons_self ..

theorem ElementForm.member_boxes : (F.member i s).boxes = (F.member i s).uses := by
  have hbox : ∀ u ∈ (F.member i s).uses, u.box = true := fun u hu => (use_eq hu).2.2.1
  show ((F.member i s).uses ++ []).filter Use.box = _
  rw [List.append_nil, List.filter_eq_self.mpr hbox]

/-- The shapes of the word are those that its member uses, in their order. -/
theorem ElementForm.named_eq : (F.word s).named = (F.member i s).uses.map Use.named := by
  rw [member_uses, List.map_cons, target_eq, sources, List.map_append, Src.uses_named, Src.uses_named, ← srcNamed_pair]
  rfl

theorem ElementForm.head_named : (F.word s).named.head? = some (F.target s).named := by
  rw [target_eq]; rfl

/-- Shapes that hold pass R83. -/
theorem ElementForm.shapeFault_eq_none (h : ∀ n ∈ (F.word s).named, n.holds s) : shapeFault (F.member i s) s = none := by
  refine shapeFault_none _ _ fun u hu => ?_
  obtain ⟨-, hneed, -, -⟩ := use_eq hu
  obtain ⟨hoff, htype, hlength, hgated⟩ := h u.named (by rw [named_eq (i := i)]; exact List.mem_map_of_mem hu)
  refine ⟨hoff, htype, fun n hn => ?_, fun _ => hgated⟩
  rw [Use.named, hn] at hlength
  exact hlength

theorem ElementForm.Describes.passes (h : F.Describes i) (hi : (F.word s).issues)
    (hn : ∀ n ∈ (F.word s).named, n.holds s) : (memberOf i s).Passes s := by
  rw [h.member s]
  exact ⟨rfl, (h.pairs _).mpr hi, rfl, rfl, F.shapeFault_eq_none hn, rfl, rfl, rfl⟩

theorem ElementForm.Describes.pipe (h : F.Describes i) : (memberOf i s).pipe = arithmeticPipe i := by
  rw [h.member s]; rfl

end Form

/-! #### Aliasing -/

section Alias

variable {F G : ElementForm} {i j : Instr} {s : State}

/-- Uses of two arithmetic words clash where their boxes meet, one of them is written, and their geometry differs. -/
theorem usesClash_iff {a b : Use} (ha : a ∈ (F.member i s).uses) (hb : b ∈ (G.member j s).uses) :
    usesClash (F.member i s) (G.member j s) a b s = true ↔
      boxesMeet (shapeAt a.shape s).box (shapeAt b.shape s).box = true ∧ (a.wr = true ∨ b.wr = true)
        ∧ ¬agree a.named b.named s := by
  obtain ⟨hew, -, -, hrd⟩ := ElementForm.use_eq ha
  obtain ⟨hew', -, -, -⟩ := ElementForm.use_eq hb
  have hcls : ∀ r, classesAllow (F.member i s) (G.member j s) r = true := fun _ => rfl
  simp only [usesClash, usesTouch, hew, hew', hcls, agree, Use.named, Bool.and_eq_true, Bool.or_eq_true, Bool.not_eq_true',
    beq_self_eq_true, Bool.and_true, Bool.not_eq_true, and_assoc]
  tauto

/-- Uses that clash are shapes that touch and do not agree. -/
theorem touch_of_usesClash {a b : Use} (ha : a ∈ (F.member i s).uses) (hb : b ∈ (G.member j s).uses)
    (h : usesClash (F.member i s) (G.member j s) a b s = true) :
    touch (F.word s) (G.word s) a.named b.named s ∧ ¬agree a.named b.named s := by
  obtain ⟨hmeet, hwr, hagree⟩ := (usesClash_iff ha hb).mp h
  refine ⟨⟨?_, ?_, ?_, hmeet⟩, hagree⟩
  · rw [ElementForm.named_eq (i := i)]; exact List.mem_map_of_mem ha
  · rw [ElementForm.named_eq (i := j)]; exact List.mem_map_of_mem hb
  · obtain hwr | hwr := hwr
    · exact .inl (by rw [ElementForm.named_eq (i := i), ElementForm.eq_target_of_wr ha hwr]; rfl)
    · exact .inr (by rw [ElementForm.named_eq (i := j), ElementForm.eq_target_of_wr hb hwr]; rfl)

/-- Some use of the first word clashes with a use of the second. -/
def clashesWith (mi mj : Member) (s : State) (u : Use) : Bool := mi.boxes.any (fun v => usesClash mi mj v u s)

theorem clashesWith_iff {u : Use} : clashesWith (F.member i s) (G.member j s) s u = true ↔
    ∃ a ∈ (F.member i s).uses, usesClash (F.member i s) (G.member j s) a u s = true := by
  rw [clashesWith, ElementForm.member_boxes, List.any_eq_true]

/-- Members of class E clash on no mask, so what counts is the first use of the second word that clashes. -/
theorem aliasOf_eq : aliasOf (F.member i s) (G.member j s) s =
    ((G.member j s).uses.find? (clashesWith (F.member i s) (G.member j s) s)).map (fun u => BitVec.ofNat 64 u.shape) := by
  have hcls : classesAllow (F.member i s) (G.member j s) false = true := rfl
  have hfind : (G.member j s).boxes.find? (fun u => (F.member i s).boxes.any
      (fun v => usesClash (F.member i s) (G.member j s) v u s))
      = (G.member j s).uses.find? (clashesWith (F.member i s) (G.member j s) s) :=
    congrArg (List.find? _) ElementForm.member_boxes
  unfold aliasOf
  rw [hfind]
  split
  · next u hu => rw [hu]; rfl
  · next hu => rw [hu, if_pos hcls]; rfl

theorem aliasOf_eq_none (h : ∀ x y, touch (F.word s) (G.word s) x y s → agree x y s) :
    aliasOf (F.member i s) (G.member j s) s = none := by
  rw [aliasOf_eq, Option.map_eq_none_iff, List.find?_eq_none]
  intro u hu hc
  obtain ⟨a, ha, hclash⟩ := clashesWith_iff.mp hc
  obtain ⟨htouch, hagree⟩ := touch_of_usesClash ha hu hclash
  exact hagree (h _ _ htouch)

theorem aliasOf_eq_some {l r : List Named} {x y : Named} (hv : (G.word s).named = l ++ y :: r)
    (hl : ∀ p, ∀ q ∈ l, touch (F.word s) (G.word s) p q s → agree p q s) (ht : touch (F.word s) (G.word s) x y s)
    (ha : ¬agree x y s) : aliasOf (F.member i s) (G.member j s) s = some (.ofNat 64 y.shape) := by
  rw [ElementForm.named_eq (i := j), List.map_eq_append_iff] at hv
  obtain ⟨before, rest, huses, rfl, hrest⟩ := hv
  obtain ⟨u, after, rfl, rfl, -⟩ := List.map_eq_cons_iff.mp hrest
  have hmem : ∀ a ∈ before, a ∈ (G.member j s).uses := fun a h => by rw [huses]; exact List.mem_append_left _ h
  have hu : u ∈ (G.member j s).uses := by rw [huses]; exact List.mem_append_right _ (List.mem_cons_self ..)
  have hquiet : ∀ a ∈ before, clashesWith (F.member i s) (G.member j s) s a = false := by
    intro a hab
    rw [Bool.eq_false_iff]
    intro hc
    obtain ⟨b, hb, hclash⟩ := clashesWith_iff.mp hc
    obtain ⟨htouch, hagree⟩ := touch_of_usesClash hb (hmem a hab) hclash
    exact hagree (hl _ _ (List.mem_map_of_mem hab) htouch)
  have hclash : clashesWith (F.member i s) (G.member j s) s u = true := by
    have ⟨hx, _, hdest, hmeet⟩ := ht
    rw [ElementForm.named_eq (i := i), List.mem_map] at hx
    obtain ⟨a, hau, rfl⟩ := hx
    rw [clashesWith_iff]
    obtain hdest | hdest := hdest
    · have htarget : (F.target s).named = a.named := Option.some.inj (ElementForm.head_named.symm.trans hdest)
      refine ⟨F.target s, F.target_mem, (usesClash_iff F.target_mem hu).mpr ⟨?_, .inl F.target_wr, htarget ▸ ha⟩⟩
      have hshape : (F.target s).shape = a.shape := congrArg Named.shape htarget
      rw [hshape]; exact hmeet
    · refine ⟨a, hau, (usesClash_iff hau hu).mpr ⟨hmeet, .inr ?_, ha⟩⟩
      have htarget : (G.target s).named = u.named := Option.some.inj (ElementForm.head_named.symm.trans hdest)
      cases before with
      | nil =>
        have hfirst : G.target s = u := (List.cons.inj huses).1
        rw [← hfirst, G.target_wr]
      | cons b before =>
        have hfirst : G.target s = b := (List.cons.inj huses).1
        have hearlier : u.named ∈ (b :: before).map Use.named := by
          rw [← htarget, hfirst]; exact List.mem_cons_self ..
        exact absurd (hl _ _ hearlier ht) ha
  rw [aliasOf_eq, List.find?_eq_some_iff_append.mpr ⟨hclash, before, after, huses, fun a h => by rw [hquiet a h]; rfl⟩]
  rfl

end Alias

/-! ### A whole convoy of arithmetic words is tried (05_convoy.md R112 to R117) -/

section Issue

variable {words : List Instr} {slots : List Slot} {s : State}

/-- The slots of the words, none skipped, whose members all pass what each is asked for alone. -/
structure AllPass (words : List Instr) (slots : List Slot) (s : State) : Prop where
  listed : slotsOf words 0 s = slots
  unskipped : s.core.conv.startDone = 0
  passes : ∀ x ∈ slots, x.mem.Passes s

theorem AllPass.checkedSlots_eq (h : AllPass words slots s) : checkedSlots words s = slots := by
  have hsame : ∀ x : Slot, (if s.core.conv.startDone.getLsbD x.idx then
      { x with mem := { x.mem with check := none } } else x) = x := fun x => by
    rw [h.unskipped]; simp
  unfold checkedSlots
  simp only [hsame, h.listed, List.map_id']

theorem AllPass.memberFault_eq (h : AllPass words slots s) : memberFault slots s = none := by
  rw [memberFault, List.findSome?_eq_none_iff]
  intro x hx
  obtain ⟨-, -, -, hcheck, hshapes, -, -, -⟩ := h.passes x hx
  simp [orCheck, hcheck, hshapes]

/-- What is left is the pipes, and then the boxes. -/
theorem AllPass.convoyFault_eq (h : AllPass words slots s) :
    convoyFault slots s = (structureFault slots []).or (aliasFault [] s slots) := by
  rw [convoyFault, h.memberFault_eq, Option.none_or]

theorem AllPass.issueConvoy_eq (h : AllPass words slots s) : issueConvoy words s =
    ((convoyFault slots s).map (fun p => Host.Outcome.next (issueFault p.1 p.2.1 p.2.2 s))).getD
      (if convoyReady words slots s then runConvoy (enterFlight words slots s)
        else .next (stall (s.modConv (fun c => { c with forming := words })))) := by
  have hpaired : slots.find? (fun x => !x.mem.paired) = none := by
    rw [List.find?_eq_none]
    intro x hx
    simp [(h.passes x hx).paired]
  have hsettled : slots.any (fun x => !x.mem.settled) = false := by
    rw [List.any_eq_false]
    intro x hx
    simp [(h.passes x hx).settled]
  unfold issueConvoy
  rw [h.unskipped, h.listed, h.checkedSlots_eq]
  simp only [hpaired, hsettled, Bool.false_eq_true, if_false]
  cases convoyFault slots s <;> rfl

theorem AllPass.issueConvoy_of_fault (h : AllPass words slots s) {n : Nat} {c : Cause} {v : Word}
    (hf : (structureFault slots []).or (aliasFault [] s slots) = some (n, c, v)) :
    issueConvoy words s = .next (issueFault n c v s) := by
  rw [h.issueConvoy_eq, h.convoyFault_eq, hf]; rfl

theorem AllPass.ready (h : AllPass words slots s) (ht : s.core.trace.ltrc.getLsbD 8 = false) (hp : s.core.conv.parked = []) :
    convoyReady words slots s = true := by
  have hready : slots.all (fun x => x.mem.ready) = true := by
    rw [List.all_eq_true]; exact fun x hx => (h.passes x hx).ready
  have hpops : (slots.map (fun x => x.mem.pops)).sum = 0 := by
    rw [List.sum_eq_zero_iff]
    intro n hn
    obtain ⟨x, hx, rfl⟩ := List.mem_map.mp hn
    exact (h.passes x hx).pops
  have hpushes : (slots.map (fun x => x.mem.pushes)).sum = 0 := by
    rw [List.sum_eq_zero_iff]
    intro n hn
    obtain ⟨x, hx, rfl⟩ := List.mem_map.mp hn
    exact (h.passes x hx).pushes
  have htrace : traceHolds slots s = false := by
    simp only [traceHolds, ht, Bool.and_false, Bool.false_and]
  simp [convoyReady, queuesServe, parkedHolds, hready, hpops, hpushes, htrace, hp]

theorem AllPass.issueConvoy_of_clear (h : AllPass words slots s) (ht : s.core.trace.ltrc.getLsbD 8 = false)
    (hp : s.core.conv.parked = []) (hs : structureFault slots [] = none) (ha : aliasFault [] s slots = none) :
    issueConvoy words s = runConvoy (enterFlight words slots s) := by
  rw [h.issueConvoy_eq, h.convoyFault_eq, hs, ha, h.ready ht hp]; rfl

/-- The last word of a convoy that pairs with VTYPE makes it whole. -/
theorem Joins.makes_whole {i : Instr} {issues : Prop} (h : Joins i s issues) (hi : issues) (hc : endsConvoy i) :
    exec i s = issueConvoy (s.core.conv.forming ++ [i]) s := by
  have hch : chained i = false := by rw [Bool.eq_false_iff, ne_eq, chained_iff, not_not]; exact hc
  rw [h.vector]
  simp [vectorWord, h.paired.mpr hi, h.accompanied, hch]

end Issue

/-! #### The pipes (R112) -/

section Pipes

variable {m0 m1 m2 : Member}

theorem structureFault_two_sfu (h0 : m0.pipe = .sfu) (h1 : m1.pipe = .sfu) :
    structureFault [⟨0, m0⟩, ⟨1, m1⟩] [] = some (1, .convoyStructure, 1) := by
  simp [structureFault, h0, h1, Pipe.capacity, Pipe.code]

theorem structureFault_three_valu (h0 : m0.pipe = .valu) (h1 : m1.pipe = .valu) (h2 : m2.pipe = .valu) :
    structureFault [⟨0, m0⟩, ⟨1, m1⟩, ⟨2, m2⟩] [] = some (2, .convoyStructure, 0) := by
  simp [structureFault, h0, h1, h2, Pipe.capacity, Pipe.code]

/-- Two words of the VALU, or one of each pipe, are within the capacities. -/
theorem structureFault_pair {i j : Instr} (h0 : m0.pipe = arithmeticPipe i) (h1 : m1.pipe = arithmeticPipe j)
    (h : onSfu i = false ∨ onSfu j = false) : structureFault [⟨0, m0⟩, ⟨1, m1⟩] [] = none := by
  unfold arithmeticPipe at h0 h1
  cases hi : onSfu i <;> cases hj : onSfu j <;>
    simp_all [structureFault, Pipe.capacity]

theorem aliasFault_pair (s : State) : aliasFault [] s [⟨0, m0⟩, ⟨1, m1⟩] =
    (aliasOf m0 m1 s).map (fun v => (1, .convoyAlias, v)) := by
  simp only [aliasFault, List.findSome?_nil, List.nil_append, List.findSome?_cons]
  cases aliasOf m0 m1 s <;> rfl

end Pipes

/-! ### A convoy of two arithmetic words runs (05_convoy.md R114) -/

/-- Elements that run through, under an invariant that they keep. -/
theorem runElements_done {P : State → Prop} {slots : List Slot} {g : State → Nat → State}
    (h : ∀ st e t, P t → runElement st e slots t = .done (g t e)) (hg : ∀ e t, P t → P (g t e)) (n e : Nat) {s : State}
    (hs : P s) : runElements slots n e s = .done ((List.range' e n).foldl g s) := by
  induction n generalizing e s with
  | zero => rfl
  | succ n ih => simp only [runElements, h _ _ _ hs, ih _ (hg e s hs), List.range'_succ, List.foldl_cons]

theorem runElement_two {m0 m1 : Member} {st s t u : State} {e : Nat}
    (h0 : m0.elem e (wake (m0.touched [e] s) s) = .ok t [] []) (h1 : m1.elem e (wake (m1.touched [e] t) t) = .ok u [] []) :
    runElement st e [⟨0, m0⟩, ⟨1, m1⟩] s = .done u := by
  simp only [runElement, h0, h1]

/-- A convoy of members of class E whose elements all run through retires. -/
theorem runConvoy_walkers {f : Flight} {slots : List Slot} {s t : State} (hf : s.core.conv.flight = some f)
    (hd : f.done = 0) (hk : f.kout = []) (hr : f.rqout = []) (hs : slotsOf f.words 0 s = slots)
    (hc : ∀ x ∈ slots, x.mem.cls = .e) (hp : s.core.pace = none)
    (he : runElements slots (s.vl - f.next) f.next s = .done t) (hv : t.vl = s.vl) :
    runConvoy s = .next (retireConvoy f t) := by
  have hwalks : ∀ x ∈ slots, x.walks = true := fun x hx => by rw [Slot.walks, hc x hx]; rfl
  have hall : slots.filter Slot.walks = slots := List.filter_eq_self.mpr hwalks
  have hnone : slots.filter (fun x => !x.walks) = [] := by
    rw [List.filter_eq_nil_iff]
    intro x hx
    simp [hwalks x hx]
  obtain ⟨words, next, capp, lk, mid, done, kout, rqout, latched, late⟩ := f
  dsimp only at hd hk hr hs he
  subst hd hk hr
  unfold runConvoy
  rw [hf]
  dsimp only
  rw [hs, hall, hnone]
  simp only [List.foldl_nil, turnEnd_whole _ _ _ hp, he, hv, Bool.false_eq_true, Bool.false_and, Bool.or_false, if_false,
    Nat.lt_irrefl, and_false]
  rw [failedPush_none _ _ (.inl rfl)]

/-- Of the flight of a convoy that wrote no convoy scalar and no queue, the retirement needs the words. -/
theorem retireConvoy_eq {f : Flight} {t : State} (hk : f.kout = []) (hr : f.rqout = [])
    (ht : t.core.trace.ltrc.getLsbD 8 = false) : retireConvoy f t = retiredAll f.words t := by
  have hoff : ∀ (l : List Instr) (f : Flight), endRecords l (landOrPark f t) = landOrPark f t :=
    fun l f => endRecords_off _ _ (by rw [landOrPark_trace]; exact ht)
  obtain ⟨words, next, capp, lk, mid, done, kout, rqout, latched, late⟩ := f
  dsimp only at hk hr
  subst hk hr
  unfold retiredAll retireConvoy
  rw [hoff, hoff]
  rfl

section Elements

variable {F : ElementForm} {i : Instr} {s t : State}

theorem ElementForm.element_setting (e : Nat) (t : State) : SameSetting t ((F.word s).element e t) := by
  simp only [ElementForm.word, onElements]
  split
  · exact (SameSetting.elemSet _ _ _ _ _).trans (SameSetting.raiseFlags _ _)
  · exact .refl t

/-- With no arithmetic trap enabled, an element of the member does what the word says, in every state of the same
setting. -/
theorem ElementForm.Describes.elem_eq (h : F.Describes i) (hi : F.types s.core.conv.type) (hs : SameSetting s t)
    (hv : t.core.conv.vctl = 0) (e : Nat) {r : State} :
    (memberOf i s).elem e t = .ok ((F.word r).element e t) [] [] := by
  have htype : t.core.conv.type = s.core.conv.type := by simp only [Conv.type, hs.vtype]
  have hew : s.core.conv.ew = t.core.conv.ew := by simp only [Conv.ew, htype]
  rw [h.member s]
  obtain ⟨pairs, types, readsD, d, x, y, m, op, f⟩ := F
  have hagrees : OpAgrees types readsD op f := h.agrees
  simp only [ElementForm.member, ElementForm.word, elementwise, onElements, hew]
  by_cases hk : maskBit m.toNat e t = true
  · simp only [hk, if_true, Bool.true_eq_false, if_false, finishElem_quiet _ _ _ t hv]
    rw [hagrees t.core.conv _ _ (elemGet (shapeAt d.toNat t) t.core.conv.ew e t) _ (htype ▸ hi) (Src.get_lt _ _ _ _)
      (Src.get_lt _ _ _ _) (elemGet_lt _ _ _ _) (fun h => if_pos h)]
  · simp [hk, Step.done]

end Elements

section Pair

variable {F G : ElementForm} {i j : Instr} {s : State}

/-- Without a trace, the members of a convoy leave no record when it issues. -/
theorem enterFlight_untraced {words : List Instr} {slots : List Slot} (ht : s.core.trace.ltrc.getLsbD 8 = false) :
    enterFlight words slots s = enterFlight words [] s :=
  beginRecords_off _ _ _ ht

/-- What has formed does not matter once the convoy has issued. -/
theorem enterFlight_forming {words l : List Instr} {slots : List Slot} (ht : s.core.trace.ltrc.getLsbD 8 = false) :
    enterFlight words slots (s.modConv (fun c => { c with forming := l })) = enterFlight words [] s :=
  enterFlight_untraced (s := s.modConv (fun c => { c with forming := l })) ht

theorem enterFlight_setting (words : List Instr) (s : State) : SameSetting s (enterFlight words [] s) := ⟨rfl, rfl, rfl, rfl⟩

theorem slotsOf_two (s : State) : slotsOf [i, j] 0 s = [⟨0, memberOf i s⟩, ⟨1, memberOf j s⟩] := by
  simp [slotsOf, List.range_succ]

theorem slotsOf_three (i j k : Instr) (s : State) :
    slotsOf [i, j, k] 0 s = [⟨0, memberOf i s⟩, ⟨1, memberOf j s⟩, ⟨2, memberOf k s⟩] := by
  simp [slotsOf, List.range_succ]

/-- An element of a convoy of two words that has issued as u: the first word's, and then the second's. -/
def pairElement (i j : Instr) (w v : ElementWord) (u t : State) (e : Nat) : State :=
  v.element e (accessing j u [e] (w.element e (accessing i u [e] t)))

theorem chainedRun_eq {w v : ElementWord} (ht : s.core.trace.ltrc.getLsbD 8 = false) : chainedRun i j w v s =
    (List.range' s.core.conv.startK.toNat (s.vl - s.core.conv.startK.toNat)).foldl
      (pairElement i j w v (enterFlight [i, j] [] s)) (enterFlight [i, j] [] s) := by
  unfold chainedRun
  rw [enterFlight_untraced ht]
  rfl

theorem pairElement_setting (u t : State) (e : Nat) : SameSetting t (pairElement i j (F.word s) (G.word s) u t e) :=
  (((SameSetting.accessing _ _ _ _).trans (ElementForm.element_setting _ _)).trans (SameSetting.accessing _ _ _ _)).trans
    (ElementForm.element_setting _ _)

theorem runElement_pair (hF : F.Describes i) (hG : G.Describes j) {u t st : State} (hi : F.types u.core.conv.type)
    (hj : G.types u.core.conv.type) (hv : u.core.conv.vctl = 0) (h : SameSetting u t) (e : Nat) :
    runElement st e [⟨0, memberOf i u⟩, ⟨1, memberOf j u⟩] t = .done (pairElement i j (F.word s) (G.word s) u t e) := by
  have h0 : SameSetting u (accessing i u [e] t) := h.trans (SameSetting.accessing _ _ _ _)
  have h1 : SameSetting u (accessing j u [e] ((F.word s).element e (accessing i u [e] t))) :=
    (h0.trans (ElementForm.element_setting _ _)).trans (SameSetting.accessing _ _ _ _)
  exact runElement_two (hF.elem_eq hi h0 (h0.vctl.trans hv) e) (hG.elem_eq hj h1 (h1.vctl.trans hv) e)

/-- A convoy of two words that has issued runs element after element, and retires. -/
theorem runConvoy_pair (hF : F.Describes i) (hG : G.Describes j) (hi : F.types s.core.conv.type)
    (hj : G.types s.core.conv.type) (hb : s.Boundary) (hv : s.core.conv.vctl = 0) :
    runConvoy (enterFlight [i, j] [] s) = .next (retiredAll [i, j] (chainedRun i j (F.word s) (G.word s) s)) := by
  have hset := enterFlight_setting [i, j] s
  have hflight : (enterFlight [i, j] [] s).core.conv.flight = some
      { words := [i, j], next := s.core.conv.startK.toNat, capp := s.core.conv.startK.toNat
        lk := s.core.conv.startLk.toNat, mid := none, done := 0, kout := [], rqout := [] } := by
    rw [← hb.done]; rfl
  have hpace : (enterFlight [i, j] [] s).core.pace = none := hb.whole
  rw [chainedRun_eq hb.trace]
  generalize enterFlight [i, j] [] s = u at *
  have htype : u.core.conv.type = s.core.conv.type := by simp only [Conv.type, hset.vtype]
  rw [show s.vl = u.vl from congrArg BitVec.toNat hset.vl.symm]
  have hrun := runElements_done (slots := [⟨0, memberOf i u⟩, ⟨1, memberOf j u⟩])
    (fun st e t h => runElement_pair (s := s) (st := st) hF hG (htype ▸ hi) (htype ▸ hj) (hset.vctl.trans hv) h e)
    (fun e t h => h.trans (pairElement_setting u t e)) (u.vl - s.core.conv.startK.toNat) s.core.conv.startK.toNat (.refl u)
  have hend := SameSetting.foldl (pairElement i j (F.word s) (G.word s) u) (pairElement_setting u)
    (List.range' s.core.conv.startK.toNat (u.vl - s.core.conv.startK.toNat)) u
  have hcls : ∀ x ∈ [(⟨0, memberOf i u⟩ : Slot), ⟨1, memberOf j u⟩], x.mem.cls = .e := by
    simp only [List.forall_mem_cons, List.not_mem_nil, false_imp_iff, implies_true, and_true]
    exact ⟨by rw [hF.member]; rfl, by rw [hG.member]; rfl⟩
  rw [runConvoy_walkers hflight rfl rfl rfl (slotsOf_two u) hcls hpace hrun (congrArg BitVec.toNat hend.vl),
    retireConvoy_eq rfl rfl (by rw [hend.trace, hset.trace]; exact hb.trace)]

end Pair

/-! ### The statement -/

section Statement

variable {F G H : ElementForm} {i j k : Instr} {s : State} {issues : Prop}

/-- The four ways in which a word meets the convoy that forms. -/
theorem Joins.meets (h : Joins i s issues) :
    (issues → ¬endsConvoy i → s.core.conv.forming.length < 3 →
      exec i s = .next (s.modConv (fun c => { c with forming := c.forming ++ [i] })))
    ∧ (issues → ¬endsConvoy i → s.core.conv.forming.length = 3 → s.core.conv.parked = [] → s.core.steer.mode = false →
      s.core.preq = false → s.core.steer.stepped = false →
      ∃ t, exec i s = .next t ∧ ConvoyTrapped .convoyForm ((encode i).setWidth 64) 3 0 s t)
    ∧ (¬issues → s.core.conv.parked = [] → s.core.steer.mode = false → s.core.preq = false →
      s.core.steer.stepped = false → ∃ t, exec i s = .next t
        ∧ ConvoyTrapped .illegalWord ((encode i).setWidth 64) s.core.conv.forming.length 0 s t)
    ∧ (¬issues ∨ (¬endsConvoy i ∧ s.core.conv.forming.length = 3) → s.core.conv.parked ≠ [] →
      exec i s = .next { s with stalled := true }) := by
  refine ⟨h.goes_on, fun hi hc hl hp hm hq hs => ?_, fun hi hp hm hq hs => ?_, fun hbad hp => ?_⟩
  · exact ⟨_, (h.convoyForm hi hc hl).trans (decodingFault_of_retired hp), issueFault_trapped ⟨hm, hq, hs⟩ nofun⟩
  · exact ⟨_, (h.illegalWord hi).trans (decodingFault_of_retired hp), issueFault_trapped ⟨hm, hq, hs⟩ nofun⟩
  · by_cases hi : issues
    · obtain ⟨hc, hl⟩ := hbad.resolve_left (not_not_intro hi)
      exact (h.convoyForm hi hc hl).trans (decodingFault_of_parked hp)
    · exact (h.illegalWord hi).trans (decodingFault_of_parked hp)

/-- The state in which these words have formed. -/
def forms (l : List Instr) (s : State) : State := s.modConv (fun c => { c with forming := l })

/-- What has formed is not part of a trap of the convoy stream, and no cell changes. -/
theorem issueFault_forms (l : List Instr) (h : TakesTraps s) (n : Nat) (c : Cause) (v : Word) (hc : c ≠ .cstep) :
    ConvoyTrapped c v n 0 s (issueFault n c v (forms l s))
      ∧ (issueFault n c v (forms l s)).core.conv.plane = s.core.conv.plane := by
  obtain ⟨hcause, hsaved, hentered, hpoint, hhalted, hstays⟩ :=
    issueFault_trapped (s := forms l s) (n := n) (v := v) ⟨h.task, h.resident, h.unstepped⟩ hc
  exact ⟨⟨hcause, hsaved, hentered, hpoint, hhalted, hstays⟩, issueFault_plane ⟨h.task, h.resident, h.unstepped⟩ hc⟩

/-- An arithmetic word that issues with the words that have formed, its shapes as R83 asks. -/
structure Issues (F : ElementForm) (i : Instr) (s : State) : Prop where
  described : F.Describes i
  issues : (F.word s).issues
  holds : ∀ n ∈ (F.word s).named, n.holds s

theorem Issues.passes (h : Issues F i s) (l : List Instr) : (memberOf i (forms l s)).Passes (forms l s) :=
  h.described.passes (s := forms l s) h.issues h.holds

/-- The slots of two words that have formed. -/
def pairSlots (i j : Instr) (s : State) : List Slot := [⟨0, memberOf i s⟩, ⟨1, memberOf j s⟩]

theorem allPass_pair (hi : Issues F i s) (hj : Issues G j s) (hb : s.Boundary) :
    AllPass [i, j] (pairSlots i j (forms [i] s)) (forms [i] s) where
  listed := slotsOf_two _
  unskipped := hb.done
  passes := by
    simp only [pairSlots, List.forall_mem_cons, List.not_mem_nil, false_imp_iff, implies_true, and_true]
    exact ⟨hi.passes [i], hj.passes [i]⟩

theorem exec_last (hj : Issues G j s) (hc : endsConvoy j) (l : List Instr) :
    exec j (forms l s) = issueConvoy (l ++ [j]) (forms l s) :=
  (hj.described.joins (forms l s)).makes_whole hj.issues hc

/-- The second word of the SFU. -/
theorem pair_structure (hi : Issues F i s) (hj : Issues G j s) (hb : s.Boundary) (hc : endsConvoy j)
    (hsi : onSfu i = true) (hsj : onSfu j = true) :
    exec j (forms [i] s) = .next (issueFault 1 .convoyStructure 1 (forms [i] s)) := by
  have hpi : (memberOf i (forms [i] s)).pipe = .sfu := by rw [hi.described.pipe, arithmeticPipe, if_pos hsi]
  have hpj : (memberOf j (forms [i] s)).pipe = .sfu := by rw [hj.described.pipe, arithmeticPipe, if_pos hsj]
  rw [exec_last hj hc]
  apply (allPass_pair hi hj hb).issueConvoy_of_fault
  rw [pairSlots, structureFault_two_sfu hpi hpj]
  rfl

section Fits

variable (hi : Issues F i s) (hj : Issues G j s) (hb : s.Boundary) (hc : endsConvoy j)
  (hs : onSfu i = false ∨ onSfu j = false)

include hi hj hb hc hs

/-- Two words that the pipes take and that do not clash run, element after element. -/
theorem pair_completes (hv : s.core.conv.vctl = 0)
    (ha : ∀ x y, touch (F.word s) (G.word s) x y s → agree x y s) :
    exec j (forms [i] s) = .next (retiredAll [i, j] (chainedRun i j (F.word s) (G.word s) s)) := by
  have hstructure := structureFault_pair (hi.described.pipe (s := forms [i] s)) (hj.described.pipe (s := forms [i] s)) hs
  have halias : aliasFault [] (forms [i] s) (pairSlots i j (forms [i] s)) = none := by
    rw [pairSlots, aliasFault_pair, hi.described.member, hj.described.member, aliasOf_eq_none (s := forms [i] s) ha]
    rfl
  calc exec j (forms [i] s) = issueConvoy [i, j] (forms [i] s) := exec_last hj hc [i]
    _ = runConvoy (enterFlight [i, j] (pairSlots i j (forms [i] s)) (forms [i] s)) :=
      (allPass_pair hi hj hb).issueConvoy_of_clear hb.trace hb.parked hstructure halias
    _ = runConvoy (enterFlight [i, j] [] s) := congrArg runConvoy (enterFlight_forming hb.trace)
    _ = _ := runConvoy_pair hi.described hj.described hi.issues hj.issues hb hv

/-- Two words that the pipes take, and whose shapes clash (R113). -/
theorem pair_alias {l r : List Named} {x y : Named} (hn : (G.word s).named = l ++ y :: r)
    (hl : ∀ p, ∀ q ∈ l, touch (F.word s) (G.word s) p q s → agree p q s) (ht : touch (F.word s) (G.word s) x y s)
    (ha : ¬agree x y s) :
    exec j (forms [i] s) = .next (issueFault 1 .convoyAlias (.ofNat 64 y.shape) (forms [i] s)) := by
  have hstructure := structureFault_pair (hi.described.pipe (s := forms [i] s)) (hj.described.pipe (s := forms [i] s)) hs
  rw [exec_last hj hc]
  apply (allPass_pair hi hj hb).issueConvoy_of_fault
  rw [pairSlots, hstructure, aliasFault_pair, hi.described.member, hj.described.member,
    aliasOf_eq_some (s := forms [i] s) hn hl ht ha]
  rfl

end Fits

/-- The third word of the VALU. -/
theorem triple_structure (hi : Issues F i s) (hj : Issues G j s) (hk : Issues H k s) (hb : s.Boundary) (hc : endsConvoy k)
    (hsi : onSfu i = false) (hsj : onSfu j = false) (hsk : onSfu k = false) :
    exec k (forms [i, j] s) = .next (issueFault 2 .convoyStructure 0 (forms [i, j] s)) := by
  have hall : AllPass [i, j, k] [⟨0, memberOf i (forms [i, j] s)⟩, ⟨1, memberOf j (forms [i, j] s)⟩,
      ⟨2, memberOf k (forms [i, j] s)⟩] (forms [i, j] s) := by
    refine ⟨slotsOf_three i j k _, hb.done, ?_⟩
    simp only [List.forall_mem_cons, List.not_mem_nil, false_imp_iff, implies_true, and_true]
    exact ⟨hi.passes _, hj.passes _, hk.passes _⟩
  have hvalu : ∀ {F : ElementForm} {i : Instr} {u : State}, F.Describes i → onSfu i = false → (memberOf i u).pipe = .valu :=
    fun h hs => by rw [h.pipe, arithmeticPipe, hs]; rfl
  rw [exec_last hk hc]
  apply hall.issueConvoy_of_fault
  rw [structureFault_three_valu (hvalu hi.described hsi) (hvalu hj.described hsj) (hvalu hk.described hsk)]
  rfl

end Statement

/-- Settles O37: how a word meets the convoy that forms, for each family; then the pipes and the boxes of a convoy of
arithmetic words, and its run. -/
theorem convoyForms : Obligations.ConvoyForms := by
  unfold Obligations.ConvoyForms
  refine ⟨fun i s w h => ?_, fun i j s w v hw hv hb hc hwi hvi hn => ?_,
    fun i j k s w v x hw hv hx hsi hsj hsk hb hc hwi hvi hxi hn hm hq => ?_⟩
  · obtain h | h | h | h := h
    · obtain ⟨F, hF, rfl⟩ := integerWord_described h
      exact (hF.joins s).meets
    · obtain ⟨F, hF, rfl⟩ := floatWord_described h
      exact (hF.joins s).meets
    · exact (compareWord_joins h).meets
    · exact (convertWord_joins h).meets
  · obtain ⟨F, hF, rfl⟩ := arithmeticWord_described hw
    obtain ⟨G, hG, rfl⟩ := arithmeticWord_described hv
    have hi : Issues F i s := ⟨hF, hwi, fun n h => hn n (List.mem_append_left _ h)⟩
    have hj : Issues G j s := ⟨hG, hvi, fun n h => hn n (List.mem_append_right _ h)⟩
    refine ⟨fun hsi hsj hm hq => ?_, fun hs => ⟨pair_completes hi hj hb hc hs, fun l y r x hv hl ht ha hm hq => ?_⟩⟩
    · exact ⟨_, pair_structure hi hj hb hc hsi hsj, issueFault_forms [i] ⟨hm, hq, hb.single⟩ 1 .convoyStructure 1 nofun⟩
    · exact ⟨_, pair_alias hi hj hb hc hs hv hl ht ha, issueFault_forms [i] ⟨hm, hq, hb.single⟩ 1 .convoyAlias _ nofun⟩
  · obtain ⟨F, hF, rfl⟩ := arithmeticWord_described hw
    obtain ⟨G, hG, rfl⟩ := arithmeticWord_described hv
    obtain ⟨H, hH, rfl⟩ := arithmeticWord_described hx
    have hi : Issues F i s := ⟨hF, hwi, fun n h => hn n (by simp [h])⟩
    have hj : Issues G j s := ⟨hG, hvi, fun n h => hn n (by simp [h])⟩
    have hk : Issues H k s := ⟨hH, hxi, fun n h => hn n (by simp [h])⟩
    exact ⟨_, triple_structure hi hj hk hb hc hsi hsj hsk, issueFault_forms [i, j] ⟨hm, hq, hb.single⟩ 2 .convoyStructure 0 nofun⟩

end Sys2Proof.Machine

/-! ## Shapes that fail a check at issue (03_plane.md R83)

The condition and the shape that R83 names are the first of their lists; a word alone in its convoy traps with them. -/

namespace Sys2Proof.Machine

/-- A shape that a word names fails a condition of R83. -/
def Named.Breaks (n : Named) (s : State) : ShapeCond → Prop
  | .off => (shapeAt n.shape s).kind = 0
  | .type => shapeTypeBad (shapeAt n.shape s) n.ew = true
  | .length => (shapeAt n.shape s).cap n.ew < n.need
  | .gated => shapeGated s.core.conv.planepwr (shapeAt n.shape s) = true

section Shapes

variable {F : ElementForm} {i : Instr} {s : State} {k : ShapeCond}

/-- A use that takes a box and is walked for some elements fails what its shape fails. -/
theorem ShapeCond.fails_iff {u : Use} (hneed : u.need.isSome = true) (hbox : u.box = true) :
    k.fails u s = true ↔ u.named.Breaks s k := by
  obtain ⟨n, hn⟩ := Option.isSome_iff_exists.mp hneed
  cases k with
  | off => simp [ShapeCond.fails, Named.Breaks, Use.named]
  | type => rfl
  | length => simp [ShapeCond.fails, Named.Breaks, Use.named, hn]
  | gated => simp [ShapeCond.fails, Named.Breaks, Use.named, hbox]

theorem ElementForm.fails_iff {u : Use} (hu : u ∈ (F.member i s).uses) : k.fails u s = true ↔ u.named.Breaks s k := by
  obtain ⟨-, hneed, hbox, -⟩ := ElementForm.use_eq hu
  exact ShapeCond.fails_iff (by rw [hneed]; rfl) hbox

theorem ElementForm.find_fails_eq_none (h : ∀ n ∈ (F.word s).named, ¬n.Breaks s k) :
    (F.member i s).uses.find? (fun u => k.fails u s) = none := by
  rw [List.find?_eq_none]
  intro u hu hf
  exact h u.named (by rw [named_eq (i := i)]; exact List.mem_map_of_mem hu) ((fails_iff hu).mp hf)

/-- The first use that fails a condition is that of the first shape that does. -/
theorem ElementForm.find_fails_eq_some {l r : List Named} {n : Named} (hn : (F.word s).named = l ++ n :: r)
    (hbad : n.Breaks s k) (hl : ∀ x ∈ l, ¬x.Breaks s k) :
    ∃ u, (F.member i s).uses.find? (fun u => k.fails u s) = some u ∧ u.named = n := by
  rw [named_eq (i := i), List.map_eq_append_iff] at hn
  obtain ⟨before, rest, huses, rfl, hrest⟩ := hn
  obtain ⟨u, after, rfl, rfl, -⟩ := List.map_eq_cons_iff.mp hrest
  have hmem : ∀ x ∈ before ++ u :: after, x ∈ (F.member i s).uses := fun x hx => by rwa [huses]
  refine ⟨u, List.find?_eq_some_iff_append.mpr ⟨?_, before, after, huses, fun a ha => ?_⟩, rfl⟩
  · exact (fails_iff (hmem u (by simp))).mpr hbad
  · rw [Bool.not_eq_true', Bool.eq_false_iff, ne_eq, fails_iff (hmem a (by simp [ha]))]
    exact hl _ (List.mem_map_of_mem ha)

/-- The order of the conditions (R83). -/
def shapeConds : List ShapeCond := [.off, .type, .length, .gated]

/-- The first condition that a shape of the word fails, and the first shape that fails it. -/
theorem ElementForm.shapeFault_eq_some {before after : List ShapeCond} {l r : List Named} {n : Named}
    (hk : shapeConds = before ++ k :: after) (hn : (F.word s).named = l ++ n :: r) (hbad : n.Breaks s k)
    (hl : ∀ x ∈ l, ¬x.Breaks s k) (hbefore : ∀ q ∈ before, ∀ x ∈ (F.word s).named, ¬x.Breaks s q) :
    shapeFault (F.member i s) s = some (k.cause, .ofNat 64 n.shape) := by
  obtain ⟨u, hfind, rfl⟩ := find_fails_eq_some (i := i) hn hbad hl
  refine List.findSome?_eq_some_iff.mpr ⟨before, k, after, hk, ?_, fun q hq => ?_⟩
  · rw [hfind]; rfl
  · rw [find_fails_eq_none (hbefore q hq)]; rfl

/-- Alone in its convoy, a word that pairs with VTYPE and whose shapes fail R83 is a fault at issue. -/
theorem ElementForm.Describes.exec_of_shapeFault (h : F.Describes i) (hb : s.Boundary) (hc : endsConvoy i)
    (hi : (F.word s).issues) {c : Cause} {v : Word} (hf : shapeFault (F.member i s) s = some (c, v)) :
    exec i s = .next (issueFault 0 c v s) := by
  have hjoins := h.joins s
  have hpaired : (memberOf i s).paired = true := hjoins.paired.mpr hi
  have hsettled : (memberOf i s).settled = true := by rw [h.member s]; rfl
  have hfault : convoyFault [⟨0, memberOf i s⟩] s = some (0, c, v) := by
    simp only [convoyFault, memberFault, List.findSome?_cons, orCheck, h.member s, hf]
    rfl
  rw [hjoins.makes_whole hi hc, hb.forming, List.nil_append]
  simp [issueConvoy, hb.done, slotsOf_one, checkedSlots_one, hpaired, hsettled, hfault]

theorem issueFault_masks (h : TakesTraps s) {n : Nat} {c : Cause} {v : Word} (hc : c ≠ .cstep) :
    (issueFault n c v s).core.conv.masks = s.core.conv.masks := by
  obtain ⟨hmode, hpreq, hstep⟩ := h
  simp [issueFault, convoyTrap, takeDue, takeTrapTask, haltConvoy, recordPoint, State.modCore, State.modConv, hmode, hpreq,
    hstep, hc]

theorem ShapeCond.cause_ne_cstep (k : ShapeCond) : k.cause ≠ .cstep := by cases k <;> nofun

/-- The word traps with the first condition that fails and the first shape that fails it; no cell changes. -/
theorem ElementForm.Describes.shape_traps (h : F.Describes i) (hb : s.Boundary) (hc : endsConvoy i)
    (hi : (F.word s).issues) (hm : s.core.steer.mode = false) (hq : s.core.preq = false)
    {before after : List ShapeCond} (hk : shapeConds = before ++ k :: after)
    (hbefore : ∀ q ∈ before, ∀ x ∈ (F.word s).named, ¬x.Breaks s q) {l r : List Named} {n : Named}
    (hn : (F.word s).named = l ++ n :: r) (hbad : n.Breaks s k) (hl : ∀ x ∈ l, ¬x.Breaks s k) :
    ∃ t, exec i s = .next t ∧ ConvoyTrapped k.cause (.ofNat 64 n.shape) 0 0 s t
      ∧ t.core.conv.plane = s.core.conv.plane ∧ t.core.conv.masks = s.core.conv.masks := by
  have htakes : TakesTraps s := ⟨hm, hq, hb.single⟩
  have hcause := k.cause_ne_cstep
  exact ⟨_, h.exec_of_shapeFault hb hc hi (F.shapeFault_eq_some hk hn hbad hl hbefore), issueFault_trapped htakes hcause,
    issueFault_plane htakes hcause, issueFault_masks htakes hcause⟩

end Shapes

/-- Settles O38: each of the four conditions of R83 with those before it holding of every shape. -/
theorem shapeTraps : Obligations.ShapeTraps := by
  unfold Obligations.ShapeTraps
  intro i s w hw hb hc hi hm hq
  obtain ⟨F, hF, rfl⟩ : ∃ F : ElementForm, F.Describes i ∧ w = F.word s := hw.elim integerWord_described floatWord_described
  intro off type long gate stops l r n
  refine ⟨fun hn hbad hl => ?_, fun hoff => ⟨fun hn hbad hl => ?_, fun htype => ⟨fun hn hbad hl => ?_, fun hlong hn hbad hl => ?_⟩⟩⟩
  · exact hF.shape_traps (k := .off) hb hc hi hm hq (before := []) rfl nofun hn hbad hl
  · exact hF.shape_traps (k := .type) hb hc hi hm hq (before := [.off]) rfl (List.forall_mem_singleton.mpr hoff) hn hbad hl
  · exact hF.shape_traps (k := .length) hb hc hi hm hq (before := [.off, .type]) rfl
      (List.forall_mem_cons.mpr ⟨hoff, List.forall_mem_singleton.mpr htype⟩) hn hbad hl
  · exact hF.shape_traps (k := .gated) hb hc hi hm hq (before := [.off, .type, .length]) rfl
      (List.forall_mem_cons.mpr ⟨hoff, List.forall_mem_cons.mpr ⟨htype, List.forall_mem_singleton.mpr hlong⟩⟩) hn hbad hl

end Sys2Proof.Machine

/-! ## What a write leaves in the fields of a register (03_plane.md R66, R67; 08_core_steering.md R194; 10_core_matrix.md R254) -/

namespace Sys2Proof.Machine

/-! ### The fields that a write stores -/

theorem vlNext_eq (v : Word) : vlNext v = .ofNat 14 (min (v.toNat % 2 ^ 14) 8192) := by
  unfold vlNext
  split
  · next h => rw [Nat.min_eq_left h]; exact BitVec.eq_of_toNat_eq (by simp)
  · next h => rw [Nat.min_eq_right (by omega)]; rfl

/-- The codes 14 and 15 leave TYPE (R66). -/
theorem vtypeNext_type (old : BitVec 8) (v : Word) :
    (vtypeNext old v).toNat % 16 = if v.toNat % 16 < 14 then v.toNat % 16 else old.toNat % 16 := by
  unfold vtypeNext
  split
  · rw [BitVec.toNat_setWidth]; omega
  · rw [BitVec.toNat_ofNat]; omega

/-- An offset drops its bits 1:0. -/
theorem offNext_toNat (v : Word) : (offNext v).toNat = v.toNat % 2 ^ 32 / 4 * 4 := by
  have hbits : ∀ i < 32, (0xFFFFFFFC : BitVec 32).getLsbD i = decide (2 ≤ i) := by decide
  have hshift : offNext v = (v.setWidth 32 >>> 2) <<< 2 := by
    refine BitVec.eq_of_getLsbD_eq fun i hi => ?_
    rw [offNext, BitVec.getLsbD_and, hbits i hi, BitVec.getLsbD_shiftLeft, BitVec.getLsbD_ushiftRight]
    by_cases h : 2 ≤ i
    · simp [hi, h, Nat.add_sub_cancel' h, Nat.lt_of_lt_of_le Nat.one_lt_two h]
    · simp [h, Nat.lt_of_not_le h]
  rw [hshift, BitVec.toNat_shiftLeft, BitVec.toNat_ushiftRight, BitVec.toNat_setWidth, Nat.shiftLeft_eq,
    Nat.shiftRight_eq_div_pow]
  omega

/-- Each size fits its field of MSIZE. -/
theorem msizeNext_toNat (v : Word) : (msizeNext v).toNat =
    2 ^ 16 * min (v.toNat / 2 ^ 16 % 2 ^ 10) 512 + 2 ^ 8 * min (v.toNat / 2 ^ 8 % 2 ^ 7) 64 + min (v.toNat % 2 ^ 7) 64 := by
  rw [msizeNext, BitVec.toNat_ofNat]
  omega

/-! ### Bits of a word -/

theorem bitAt_eq (b : Bool) (n : Nat) : bitAt b n = 2 ^ n * b.toNat := by cases b <;> simp [bitAt]

theorem bitAt_le (b : Bool) (n : Nat) : bitAt b n ≤ 2 ^ n := by cases b <;> simp [bitAt]

theorem bitAt_add_lt (b : Bool) {n m x : Nat} (hx : x < 2 ^ n) (h : n < m) : bitAt b n + x < 2 ^ m := by
  have hbit := bitAt_le b n
  calc bitAt b n + x < 2 ^ n + 2 ^ n := by omega
    _ = 2 ^ (n + 1) := by rw [Nat.pow_succ, Nat.mul_two]
    _ ≤ 2 ^ m := Nat.pow_le_pow_right (by omega) h

/-- A bit above the other bits of a word. -/
theorem bitAt_add_testBit (b : Bool) {n x : Nat} (h : x < 2 ^ n) (k : Nat) :
    (bitAt b n + x).testBit k = if k = n then b else x.testBit k := by
  rw [bitAt_eq, Nat.testBit_two_pow_mul_add _ h]
  obtain hk | rfl | hk := Nat.lt_trichotomy k n
  · rw [if_pos hk, if_neg hk.ne]
  · cases b <;> simp
  · have hx : x.testBit k = false := Nat.testBit_lt_two_pow (h.trans (Nat.pow_lt_pow_right (by omega) hk))
    have hb : b.toNat.testBit (k - n) = false :=
      Nat.testBit_lt_two_pow ((Bool.toNat_lt b).trans_le (Nat.le_self_pow (by omega) 2))
    rw [if_neg hk.not_gt, if_neg hk.ne', hb, hx]

/-! ### STATUS -/

/-- The bits of STATUS (R194). -/
theorem statusWord_getLsbD (c : Steer) {k : Nat} (hk : k < 64) : (statusWord c).getLsbD k =
    if k = 7 then c.bksup else if k = 6 then c.cbksup else if k = 4 then c.tpend else if k = 3 then c.chalt
      else if k = 1 then c.pmode else if k = 0 then c.mode else false := by
  have h0 : bitAt c.mode 0 + 0 < 2 ^ 1 := bitAt_add_lt _ (by omega) (by omega)
  have h1 := bitAt_add_lt c.pmode h0 (m := 3) (by omega)
  have h3 := bitAt_add_lt c.chalt h1 (m := 4) (by omega)
  have h4 := bitAt_add_lt c.tpend h3 (m := 6) (by omega)
  have h6 := bitAt_add_lt c.cbksup h4 (m := 7) (by omega)
  have hsum : statusWord c = .ofNat 64 (bitAt c.bksup 7 + (bitAt c.cbksup 6 + (bitAt c.tpend 4 + (bitAt c.chalt 3
      + (bitAt c.pmode 1 + (bitAt c.mode 0 + 0)))))) := by simp only [statusWord, Nat.add_assoc, Nat.add_zero]
  rw [hsum, BitVec.getLsbD_ofNat, decide_eq_true hk, Bool.true_and, bitAt_add_testBit _ h6, bitAt_add_testBit _ h4,
    bitAt_add_testBit _ h3, bitAt_add_testBit _ h1, bitAt_add_testBit _ h0, bitAt_add_testBit _ (Nat.two_pow_pos 0),
    Nat.zero_testBit]

/-- A write of STATUS leaves MODE and CHALT, and stores the rest (R194). -/
theorem statusWord_storeStatus (v : Word) (c : Steer) :
    statusWord (storeStatus v c) = (statusWord c &&& ~~~0xD2) ||| (v &&& 0xD2) := by
  have hmask : ∀ k < 64, (0xD2 : Word).getLsbD k = decide (k = 7 ∨ k = 6 ∨ k = 4 ∨ k = 1) := by decide
  refine BitVec.eq_of_getLsbD_eq fun k hk => ?_
  rw [BitVec.getLsbD_or, BitVec.getLsbD_and, BitVec.getLsbD_and, BitVec.getLsbD_not, hmask k hk, statusWord_getLsbD _ hk,
    statusWord_getLsbD _ hk, decide_eq_true hk, Bool.true_and]
  by_cases h : k = 7 ∨ k = 6 ∨ k = 4 ∨ k = 1
  · obtain rfl | rfl | rfl | rfl := h <;> simp [storeStatus]
  · obtain ⟨h7, h6, h4, h1⟩ : k ≠ 7 ∧ k ≠ 6 ∧ k ≠ 4 ∧ k ≠ 1 := by tauto
    simp [storeStatus, h7, h6, h4, h1]

theorem csrRead_status (s : State) : csrRead 0x028 s = statusWord s.cur := rfl

/-- Settles O23: the fields of each register, by the lemmas above where a field is not the written bits as they stand. -/
theorem registerFields : Obligations.RegisterFields := by
  unfold Obligations.RegisterFields
  intro s v
  refine ⟨vlNext_eq v, vtypeNext_type _ v, rfl, ?_, ?_, ?_, ?_, ?_, ?_, ?_, ?_, rfl⟩
  · exact congrArg Steer.tval (s.modCur_cur _)
  · exact congrArg Steer.sscr (s.modCur_cur _)
  · exact (congrArg (·.epc.toNat) (s.modCur_cur (fun c => { c with epc := offNext v }))).trans (offNext_toNat v)
  · exact (congrArg (·.tvec.toNat) (s.modCur_cur (fun c => { c with tvec := offNext v }))).trans (offNext_toNat v)
  · rw [csrRead_status, csrRead_status, ← statusWord_storeStatus]
    exact congrArg statusWord (s.modCur_cur _)
  · show (msizeNext v).toNat % 128 = _
    rw [msizeNext_toNat]; omega
  · show (msizeNext v).toNat / 2 ^ 8 % 128 = _
    rw [msizeNext_toNat]; omega
  · show (msizeNext v).toNat / 2 ^ 16 = _
    rw [msizeNext_toNat]; omega

end Sys2Proof.Machine

/-! ## The writes of registers with rows of their own (03_plane.md R90, R91; 09_core_memory.md R234; 11_core_ladder.md R268;
14_cluster.md R303, R317, R331) -/

namespace Sys2Proof.Machine

/-! ### Entries of pools and of sparse maps -/

section Pools

variable {α : Type} (d : α)

theorem poolGet_filter_ne (m : List (Nat × α)) {i k : Nat} (h : k ≠ i) :
    poolGet d (m.filter (fun p => decide (p.1 ≠ i))) k = poolGet d m k := by
  induction m with
  | nil => rfl
  | cons p m ih =>
    by_cases hp : p.1 = i
    · rw [List.filter_cons_of_neg (by simp [hp]), ih, poolGet, if_neg (hp ▸ h)]
    · rw [List.filter_cons_of_pos (by simp [hp]), poolGet, poolGet, ih]

/-- A read after a write: the written key reads the written entry, and every other key is as before. -/
theorem poolGet_poolSet (m : List (Nat × α)) (i k : Nat) (v : α) :
    poolGet d (poolSet m i v) k = if k = i then v else poolGet d m k := by
  rw [poolSet, poolGet]
  split
  · rfl
  · next h => exact poolGet_filter_ne d m h

/-- A change of every entry that leaves the default changes what each key reads. -/
theorem poolGet_map (m : List (Nat × α)) (k : Nat) {f : α → α} (hf : f d = d) :
    poolGet d (m.map (fun p => (p.1, f p.2))) k = f (poolGet d m k) := by
  induction m with
  | nil => exact hf.symm
  | cons p m ih =>
    rw [List.map_cons, poolGet, poolGet, ih]
    split <;> rfl

/-- A sparse map cut to the keys that satisfy a test reads the default elsewhere. -/
theorem spGet_filter_key (q : Nat → Bool) (m : Sp α) (k : Nat) :
    spGet d (m.filter (fun p => q p.1)) k = if q k then spGet d m k else d := by
  induction m with
  | nil => simp
  | cons p m ih =>
    obtain ⟨j, w⟩ := p
    by_cases hj : q j = true
    · rw [List.filter_cons, if_pos hj, spGet, spGet, ih]
      by_cases hk : k = j <;> simp [hk, hj]
    · rw [List.filter_cons, if_neg hj, ih, spGet]
      by_cases hk : k = j <;> simp [hk, hj]

end Pools

theorem State.context_modContext (s : State) (i k : Nat) (f : Context → Context) :
    (s.modContext i f).context k = if k = i then f (s.context i) else s.context k :=
  poolGet_poolSet Context.reset s.pkg.contexts i k (f (s.context i))

theorem Cluster.feed_modFeed (c : Cluster) (q : Nat) (f : FeedQueue → FeedQueue) :
    (c.modFeed q f).feed q = f (c.feed q) := by
  show poolGet .reset (poolSet c.feeds q (f (c.feed q))) q = _
  rw [poolGet_poolSet, if_pos rfl]

/-! ### Numbers written digit by digit -/

/-- The number with these digits in base B, the lowest first. -/
def digitSum (B : Nat) (digit : Nat → Nat) (n : Nat) : Nat :=
  (List.range n).foldl (fun acc i => acc + B ^ i * digit i) 0

section Digits

variable {B : Nat} {digit : Nat → Nat}

theorem digitSum_succ (n : Nat) : digitSum B digit (n + 1) = digitSum B digit n + B ^ n * digit n := by
  rw [digitSum, List.range_succ, List.foldl_append]; rfl

variable (h : ∀ i, digit i < B)

include h

theorem digitSum_lt (n : Nat) : digitSum B digit n < B ^ n := by
  induction n with
  | zero => exact Nat.one_pos
  | succ n ih =>
    calc digitSum B digit (n + 1) = digitSum B digit n + B ^ n * digit n := digitSum_succ n
      _ < B ^ n * (digit n + 1) := by rw [Nat.mul_succ]; omega
      _ ≤ B ^ (n + 1) := by rw [Nat.pow_succ]; exact Nat.mul_le_mul_left _ (h n)

theorem digitSum_digit {n k : Nat} (hk : k < n) : digitSum B digit n / B ^ k % B = digit k := by
  have hpos : 0 < B := Nat.zero_lt_of_lt (h 0)
  induction n with
  | zero => omega
  | succ n ih =>
    rw [digitSum_succ]
    obtain rfl | hlt := Nat.eq_or_lt_of_le (Nat.le_of_lt_succ hk)
    · rw [Nat.add_mul_div_left _ _ (Nat.pow_pos hpos), Nat.div_eq_of_lt (digitSum_lt h k), Nat.zero_add,
        Nat.mod_eq_of_lt (h k)]
    · have hsplit : B ^ n * digit n = B ^ k * (B * (B ^ (n - k - 1) * digit n)) := by
        rw [← Nat.mul_assoc B, ← Nat.pow_succ', ← Nat.mul_assoc, ← Nat.pow_add]
        congr 2; omega
      rw [hsplit, Nat.add_mul_div_left _ _ (Nat.pow_pos hpos), Nat.add_mul_mod_self_left, ih hlt]

end Digits

/-! ### PLANEPWR (R90, R91) -/

/-- What a band takes from a write of PLANEPWR. -/
def bandNext (old : BitVec 16) (v : Word) (b : Nat) : Nat :=
  if v.toNat / 4 ^ b % 4 = 3 then bandState old b else v.toNat / 4 ^ b % 4

theorem bandNext_lt (old : BitVec 16) (v : Word) (b : Nat) : bandNext old v b < 4 := by
  unfold bandNext bandState
  split
  · exact Nat.mod_lt _ (by omega)
  · exact Nat.mod_lt _ (by omega)

theorem bandState_planepwrNext (old : BitVec 16) (v : Word) {b : Nat} (hb : b < 8) :
    bandState (planepwrNext old v) b = bandNext old v b := by
  have hlt : digitSum 4 (bandNext old v) 8 < 2 ^ 16 := digitSum_lt (bandNext_lt old v) 8
  have hnext : planepwrNext old v = .ofNat 16 (digitSum 4 (bandNext old v) 8) := rfl
  rw [bandState, hnext, BitVec.toNat_ofNat, Nat.mod_eq_of_lt hlt, digitSum_digit (bandNext_lt old v) hb]

theorem spGet_dropOffBands (pwr : BitVec 16) (plane : Sp Cell32) (k : Nat) :
    spGet 0 (dropOffBands pwr plane) k = if bandState pwr (k / 4096) ≠ 0 then spGet 0 plane k else 0 := by
  refine (spGet_filter_key 0 (fun k => bandState pwr (k / 4096) != 0) plane k).trans ?_
  simp only [bne_iff_ne]

theorem storePlanepwr_planepwr (v : Word) (s : State) :
    (storePlanepwr v s).core.conv.planepwr = planepwrNext s.core.conv.planepwr v := rfl

/-- The cells of the bands that were on and stay on are kept. -/
theorem readCell_storePlanepwr (v : Word) (s : State) {r c : Nat} (hc : c < 64) :
    readCell r c (storePlanepwr v s) =
      if bandState s.core.conv.planepwr (r / 64) ≠ 0 ∧ bandState (planepwrNext s.core.conv.planepwr v) (r / 64) ≠ 0
      then readCell r c s else 0 := by
  have hband : (64 * r + c) / 4096 = r / 64 := by omega
  show spGet 0 (dropOffBands _ (dropOffBands _ s.core.conv.plane)) (64 * r + c) = _
  rw [spGet_dropOffBands, spGet_dropOffBands, hband, ← ite_and]
  simp only [and_comm]
  rfl

/-! ### LCNT and LCARRY (R268) -/

theorem storeLcnt_eq (v : Word) (s : State) :
    ∃ b : Bool, storeLcnt v s = s.modLad (fun l => { l with lcnt := v, wild := b }) := ⟨_, rfl⟩

/-- Clearing ERR ends the repair that a watch stands for. -/
theorem storeLcarry_eq (v : Word) (s : State) : ∃ (b : Bool) (m : List Watch), storeLcarry v s = { s.modLad (fun l =>
    { l with err := v.getLsbD 7, act := v.getLsbD 6, lvl := v.setWidth 5, tile := none, wild := b }) with watches := m } := by
  obtain ⟨m, hm⟩ : ∃ m, (if v.getLsbD 7 then s else spareGranule none s) = { s with watches := m } := by
    split
    · exact ⟨s.watches, rfl⟩
    · exact ⟨_, rfl⟩
  rw [storeLcarry, hm]
  exact ⟨_, m, rfl⟩

/-! ### GSEL (R331) -/

/-- Slot BASE + t may be selected: it is of the group and not the own slot. -/
def gselMarks (gslot v : Word) (t : Nat) : Bool :=
  v.getLsbD (8 + t) && decide (v.toNat % 128 + t < gslot.toNat / 2 ^ 8 % 256)
    && decide (v.toNat % 128 + t ≠ gslot.toNat % 128)

/-- The mask that GSEL keeps. -/
def gselMask (gslot v : Word) : Nat := digitSum 2 (fun t => (gselMarks gslot v t).toNat) 8

theorem gselMask_lt (gslot v : Word) : gselMask gslot v < 2 ^ 8 := digitSum_lt (fun _ => Bool.toNat_lt _) 8

theorem gselMask_testBit (gslot v : Word) {j : Nat} (hj : j < 8) :
    (gselMask gslot v).testBit j = gselMarks gslot v j := by
  rw [Nat.testBit_eq_decide_div_mod_eq, gselMask, digitSum_digit (fun _ => Bool.toNat_lt _) hj]
  cases gselMarks gslot v j <;> rfl

theorem gselNext_toNat (gslot v : Word) : (gselNext gslot v).toNat = bitAt (v.getLsbD 23) 23
    + (2 ^ 16 * (v.toNat / 2 ^ 16 % 32) + (2 ^ 8 * gselMask gslot v + v.toNat % 128)) := by
  have hmask : (List.range 8).foldl (fun acc t => acc + bitAt (v.getLsbD (8 + t)
      && decide (v.toNat % 128 + t < gslot.toNat / 2 ^ 8 % 256) && v.toNat % 128 + t != gslot.toNat % 128) t) 0
      = gselMask gslot v := by
    simp only [bitAt_eq, gselMask, digitSum, gselMarks, bne, decide_not, beq_eq_decide]
  have hlt := gselMask_lt gslot v
  have hbit := bitAt_le (v.getLsbD 23) 23
  rw [gselNext, hmask, BitVec.toNat_ofNat]
  omega

/-- What a write of GSEL leaves of it: BASE, ISLOT and bit 23 as written, and of the mask the slots that may be selected. -/
theorem gselNext_fields (gslot v : Word) :
    (gselNext gslot v).toNat % 128 = v.toNat % 128 ∧ (gselNext gslot v).toNat / 2 ^ 16 % 32 = v.toNat / 2 ^ 16 % 32
      ∧ (gselNext gslot v).getLsbD 23 = v.getLsbD 23
      ∧ ∀ j, j < 8 → (gselNext gslot v).getLsbD (8 + j) = gselMarks gslot v j := by
  have hmask := gselMask_lt gslot v
  have hrest : 2 ^ 16 * (v.toNat / 2 ^ 16 % 32) + (2 ^ 8 * gselMask gslot v + v.toNat % 128) < 2 ^ 23 := by omega
  refine ⟨?_, ?_, ?_, fun j hj => ?_⟩
  · rw [gselNext_toNat, bitAt_eq]; omega
  · rw [gselNext_toNat, bitAt_eq]; omega
  · rw [BitVec.getLsbD, gselNext_toNat, bitAt_add_testBit _ hrest, if_pos rfl]
  · have hshift : (gselNext gslot v).toNat / 2 ^ 8 =
        2 ^ 8 * (2 ^ 7 * (v.getLsbD 23).toNat + v.toNat / 2 ^ 16 % 32) + gselMask gslot v := by
      rw [gselNext_toNat, bitAt_eq]; omega
    rw [BitVec.getLsbD, Nat.add_comm, ← Nat.testBit_div_two_pow, hshift, Nat.testBit_two_pow_mul_add _ hmask, if_pos hj,
      gselMask_testBit gslot v hj]

/-! ### TLBINV (09_core_memory.md R234) -/

theorem mem_tlbKeep {v : Word} {l : List TlbEntry} {e : TlbEntry} : e ∈ tlbKeep v l ↔ e ∈ l ∧ tlbMatches v e = false := by
  rw [tlbKeep, List.mem_filter, Bool.not_eq_true']

theorem storeTlbinv_context (v : Word) (s : State) (key : Nat) :
    (storeTlbinv v s).context key = { s.context key with tlb := tlbKeep v (s.context key).tlb } :=
  poolGet_map Context.reset s.pkg.contexts key (f := fun x => { x with tlb := tlbKeep v x.tlb }) rfl

theorem storeTlbinv_coreAt (v : Word) (s : State) (c : Nat) : (storeTlbinv v s).coreAt c = (s.coreAt c).invalidate v := by
  have hrest := poolGet_map Core.reset s.cores c (f := Core.invalidate v) rfl
  unfold State.coreAt
  rw [apply_ite (Core.invalidate v)]
  exact if_congr Iff.rfl rfl hrest

/-! ### FQADV (14_cluster.md R317) -/

theorem FeedQueue.advance_eq (v : Word) (f : FeedQueue) : f.advance (v.setWidth 32) = if f.attached.isSome then f
    else { f with head := f.head + .ofNat 32 (min (v.toNat % 2 ^ 32) (f.tail - f.head).toNat) } := by
  have hcount : (v.setWidth 32).toNat = v.toNat % 2 ^ 32 := BitVec.toNat_setWidth ..
  unfold FeedQueue.advance
  rw [hcount]
  split
  · rfl
  · split
    · next h => rw [Nat.min_eq_left h, ← hcount, BitVec.ofNat_toNat, BitVec.setWidth_eq]
    · next h => rw [Nat.min_eq_right (Nat.le_of_not_le h), BitVec.ofNat_toNat, BitVec.setWidth_eq]

/-! ### CLRESET (14_cluster.md R303) -/

/-- Resetting the contexts of a list that are marked leaves every other one. -/
theorem context_foldl_reset (marked : Nat → Bool) (key : Nat → Nat) (l : List Nat) (k : Nat) (s : State) :
    (l.foldl (fun t n => if marked n then t.modContext (key n) (fun _ => .reset) else t) s).context k =
      if ∃ n ∈ l, marked n = true ∧ key n = k then .reset else s.context k := by
  induction l generalizing s with
  | nil => simp
  | cons n l ih =>
    rw [List.foldl_cons, ih]
    by_cases hl : ∃ n ∈ l, marked n = true ∧ key n = k
    · rw [if_pos hl, if_pos (hl.imp fun _ h => ⟨List.mem_cons_of_mem _ h.1, h.2⟩)]
    · rw [if_neg hl]
      by_cases hn : marked n = true
      · rw [if_pos hn, State.context_modContext]
        refine if_congr ?_ rfl rfl
        rw [List.exists_mem_cons_iff]
        exact ⟨fun h => .inl ⟨hn, h.symm⟩, fun h => (h.resolve_right hl).2.symm⟩
      · have hnone : ¬∃ m ∈ n :: l, marked m = true ∧ key m = k := by
          rw [List.exists_mem_cons_iff]
          exact fun h => hl (h.resolve_left fun h => hn h.1)
        rw [if_neg hn, if_neg hnone]

/-- The launch contexts of a cluster have keys of their own. -/
theorem launchKey_inj (l : Nat) {m n : Nat} (hm : m < 16) (hn : n < 16)
    (h : ctxKey (launchHandle l m) = ctxKey (launchHandle l n)) : m = n := by
  unfold ctxKey launchHandle at h
  rw [BitVec.toNat_ofNat, BitVec.toNat_ofNat] at h
  omega

theorem storeClreset_context (v : Word) (s : State) {n : Nat} (hn : n < 16) :
    (storeClreset v s).context (ctxKey (launchHandle s.clusterId n)) =
      if v.getLsbD n && !launchLive s n then .reset else s.context (ctxKey (launchHandle s.clusterId n)) := by
  have hmarks : (∃ m ∈ List.range 16, (v.getLsbD m && !launchLive s m) = true
      ∧ ctxKey (launchHandle s.clusterId m) = ctxKey (launchHandle s.clusterId n))
      ↔ (v.getLsbD n && !launchLive s n) = true := by
    refine ⟨fun ⟨m, hm, hmark, hkey⟩ => ?_, fun h => ⟨n, List.mem_range.mpr hn, h, rfl⟩⟩
    rwa [← launchKey_inj s.clusterId (List.mem_range.mp hm) hn hkey]
  exact (context_foldl_reset (fun n => v.getLsbD n && !launchLive s n) (fun n => ctxKey (launchHandle s.clusterId n))
    (List.range 16) _ s).trans (if_congr hmarks rfl rfl)

theorem launchLive_eq (s : State) (n : Nat) :
    (!launchLive s n) = s.cluster.entries.all (fun p => p.2.kind == .proxy || p.2.ctx != n) := by
  simp only [launchLive, List.not_any_eq_all_not, Bool.not_and, bne, Bool.not_not]

/-! ### The writes come about -/

section Writes

variable {n : Nat} {v : Word} {s : State}

/-- A register event stores as CRPUT does, once the write can come about. -/
theorem csrEvent_eq : csrEvent n v s = .next (if csrHeld n v s then s else csrStore n v v s) := by
  have hput : csrApply .put n v s = csrStore n v v s := by
    unfold csrApply
    split
    · rfl
    · rfl
  rw [csrEvent, hput]

theorem csrEvent_of_held (h : csrHeld n v s = true) : csrEvent n v s = .next s := by rw [csrEvent_eq, if_pos h]

theorem csrEvent_of_free (h : csrHeld n v s = false) : csrEvent n v s = .next (csrStore n v v s) := by
  rw [csrEvent_eq, h]; rfl

/-- The write-only registers of a control core are open to task mode, and no access of theirs waits. -/
theorem csrHeld_of_open (h : n = 0x076 ∨ n = 0x07E) : csrHeld n v s = false := by
  obtain rfl | rfl := h <;> simp [csrHeld, csrSupervisor, csrGuarded, csrWaits, csrOrdered]

end Writes

/-- Settles O55: each row is the write of its register, and each write is what its lemmas above say. -/
theorem registerEvents : Obligations.RegisterEvents := by
  unfold Obligations.RegisterEvents
  intro s v
  refine ⟨?_, fun h => ?_, fun h => ?_, fun h => ?_, fun h => ?_, fun h => ?_, ?_, ?_, fun c => csrEvent_eq⟩
  · simp only [List.forall_mem_cons, List.not_mem_nil, false_imp_iff, implies_true, and_true]
    exact ⟨csrEvent_of_held, csrEvent_of_held, csrEvent_of_held, csrEvent_of_held, csrEvent_of_held⟩
  · refine ⟨storePlanepwr v s, csrEvent_of_free h, fun b hb => ?_, fun r c _ hc => ?_⟩
    · rw [storePlanepwr_planepwr, bandState_planepwrNext _ _ hb]; rfl
    · rw [storePlanepwr_planepwr, readCell_storePlanepwr v s hc]
  · obtain ⟨b, hb⟩ := storeLcnt_eq v s
    exact ⟨b, (csrEvent_of_free h).trans (congrArg Host.Outcome.next hb)⟩
  · obtain ⟨b, m, hb⟩ := storeLcarry_eq v s
    exact ⟨b, m, (csrEvent_of_free h).trans (congrArg Host.Outcome.next hb)⟩
  · exact ⟨_, csrEvent_of_free h, gselNext_fields s.core.task.gslot v⟩
  · refine ⟨storeTlbinv v s, csrEvent_of_free h, fun _ => mem_tlbKeep, fun _ => mem_tlbKeep, fun _ => mem_tlbKeep,
      fun key e => ?_, fun c e he => ?_, rfl⟩
    · rw [storeTlbinv_context]; exact mem_tlbKeep
    · rw [storeTlbinv_coreAt] at he; exact (mem_tlbKeep.mp he).2
  · refine ⟨storeFqadv v s, csrEvent_of_free (csrHeld_of_open (.inl rfl)), ?_⟩
    exact (Cluster.feed_modFeed _ _ _).trans (FeedQueue.advance_eq v _)
  · refine ⟨storeClreset v s, csrEvent_of_free (csrHeld_of_open (.inr rfl)), fun n hn => ?_⟩
    rw [← launchLive_eq]
    exact storeClreset_context v s hn

end Sys2Proof.Machine

/-! ## The formats of TYPE codes 0 to 4 round their own numbers to themselves (04_numbers.md R93, R94, R99)

A finite number of a format decodes to a whole count of its own last places, so the rounding finds nothing to round, and
the count laid above the exponent gives the bits back. -/

namespace Sys2Proof.Machine

/-! ### Exact rounding -/

theorem roundsUp_exact (rm : Nat) (neg : Bool) (n cmp : Nat) : roundsUp rm neg n cmp true = false := rfl

/-- A count of last places, rounded at that place, is itself. -/
theorem roundPlace_self (rm : Nat) (neg : Bool) (m : Nat) (e : Int) : roundPlace rm neg m e e false = (m, true) := by
  simp [roundPlace, roundsUp_exact]

/-- A magnitude whose last place is that of the format at its size rounds to the bits of its exponent and its count of last
places, with no flag. -/
theorem roundMag_self {f : Fmt} {m : Nat} {e : Int} (rm : Nat) (sat neg : Bool)
    (hplace : max (e + (Nat.log2 m : Int) - f.fbits) f.qmin = e)
    (hfits : (e - f.qmin).toNat * 2 ^ f.fbits + m ≤ f.maxRaw) :
    roundMag f rm sat neg m e false = (f.signed neg ((e - f.qmin).toNat * 2 ^ f.fbits + m), 0) := by
  simp only [roundMag, hplace, roundPlace_self, if_neg (Nat.not_lt.mpr hfits)]
  simp [flagIf]

/-! ### The fields of a number -/

namespace Fmt

variable {f : Fmt} {raw : Nat}

/-- The sign bit. -/
def negField (f : Fmt) (raw : Nat) : Bool := raw / 2 ^ (f.ebits + f.fbits) % 2 == 1

/-- The biased exponent. -/
def expField (f : Fmt) (raw : Nat) : Nat := raw / 2 ^ f.fbits % 2 ^ f.ebits

/-- The fraction. -/
def fracField (f : Fmt) (raw : Nat) : Nat := raw % 2 ^ f.fbits

theorem expField_lt : f.expField raw < 2 ^ f.ebits := Nat.mod_lt _ (Nat.two_pow_pos _)

theorem fracField_lt : f.fracField raw < 2 ^ f.fbits := Nat.mod_lt _ (Nat.two_pow_pos _)

/-- The exponent and the fraction are the bits without the sign. -/
theorem magnitude_eq : f.expField raw * 2 ^ f.fbits + f.fracField raw = raw % 2 ^ (f.ebits + f.fbits) := by
  rw [Nat.add_comm f.ebits, Nat.pow_add, Nat.mod_mul, expField, fracField]
  ring

/-- A number of the format is its sign with its exponent and its fraction. -/
theorem signed_fields (h : raw < 2 ^ f.width) :
    f.signed (f.negField raw) (f.expField raw * 2 ^ f.fbits + f.fracField raw) = raw := by
  have hsplit := Nat.mod_add_div raw (2 ^ (f.ebits + f.fbits))
  have htop : raw / 2 ^ (f.ebits + f.fbits) < 2 := by
    refine Nat.div_lt_of_lt_mul (h.trans_eq ?_)
    rw [Fmt.width, Nat.add_assoc, Nat.add_comm 1, Nat.pow_succ]
  rw [magnitude_eq, signed, negField, Nat.mod_eq_of_lt htop]
  interval_cases hq : raw / 2 ^ (f.ebits + f.fbits)
  · simpa using hsplit
  · simp only [beq_self_eq_true, if_true]
    omega

/-- The bits of neither an infinity nor a NaN are at most those of the greatest finite magnitude. -/
theorem magnitude_le_maxRaw (hwide : ¬(f.expField raw = 2 ^ f.ebits - 1 ∧ f.narrow = false))
    (hnan : ¬(f.expField raw = 2 ^ f.ebits - 1 ∧ f.fracField raw = 2 ^ f.fbits - 1)) :
    f.expField raw * 2 ^ f.fbits + f.fracField raw ≤ f.maxRaw := by
  have hexp := expField_lt (f := f) (raw := raw)
  have hfrac := fracField_lt (f := f) (raw := raw)
  have hbelow (h : f.expField raw ≠ 2 ^ f.ebits - 1) : (f.expField raw + 1) * 2 ^ f.fbits ≤ (2 ^ f.ebits - 1) * 2 ^ f.fbits :=
    Nat.mul_le_mul_right _ (by omega)
  have hones : (2 ^ f.ebits - 1) * 2 ^ f.fbits = 2 ^ (f.ebits + f.fbits) - 2 ^ f.fbits := by
    rw [Nat.sub_mul, Nat.one_mul, Nat.pow_add]
  have hroom : 2 ^ f.fbits ≤ 2 ^ (f.ebits + f.fbits) := Nat.pow_le_pow_right two_pos (Nat.le_add_left _ _)
  rw [Nat.add_mul, Nat.one_mul] at hbelow
  unfold maxRaw
  by_cases htop : f.expField raw = 2 ^ f.ebits - 1
  · have hnarrow : f.narrow = true := by simpa [htop] using hwide
    have hlast : f.fracField raw ≠ 2 ^ f.fbits - 1 := fun h => hnan ⟨htop, h⟩
    rw [if_pos hnarrow, htop, hones]
    omega
  · specialize hbelow htop
    split <;> omega

/-- A finite number is a subnormal where its exponent is 0, and else a normal number with its leading 1. -/
theorem decode_eq_fin {n : Bool} {m : Nat} {e : Int} (h : f.decode raw = .fin n m e) :
    n = f.negField raw ∧ f.expField raw * 2 ^ f.fbits + f.fracField raw ≤ f.maxRaw
    ∧ ((f.expField raw = 0 ∧ m = f.fracField raw ∧ e = f.qmin)
      ∨ (f.expField raw ≠ 0 ∧ m = 2 ^ f.fbits + f.fracField raw ∧ e = f.qmin + f.expField raw - 1)) := by
  dsimp only [decode] at h
  split_ifs at h with hwide hzero hnan hsub
  · cases h; exact ⟨rfl, magnitude_le_maxRaw hwide hnan, .inl ⟨hsub, rfl, rfl⟩⟩
  · cases h; exact ⟨rfl, magnitude_le_maxRaw hwide hnan, .inr ⟨hsub, rfl, rfl⟩⟩

/-! ### The statement -/

/-- A finite number of any format rounds to its own bits, in every rounding mode and with no flag. -/
theorem roundTo_decode (rm : Nat) (sat : Bool) {n : Bool} {m : Nat} {e : Int} (hraw : raw < 2 ^ f.width)
    (h : f.decode raw = .fin n m e) : roundTo f rm sat (.fin n m e) = (raw, 0) := by
  obtain ⟨rfl, hfits, ⟨hexp, rfl, rfl⟩ | ⟨hexp, rfl, rfl⟩⟩ := decode_eq_fin h
  · have hbits := signed_fields hraw
    rw [hexp, Nat.zero_mul, Nat.zero_add] at hbits hfits
    by_cases hzero : f.fracField raw = 0
    · rw [roundTo, if_pos hzero, ← hzero, hbits]
    · have hlog : Nat.log2 (f.fracField raw) < f.fbits := (Nat.log2_lt hzero).mpr fracField_lt
      rw [roundTo, if_neg hzero, roundMag_self rm sat _ (by omega) (by simpa using hfits)]
      simp [hbits]
  · have hlog : Nat.log2 (2 ^ f.fbits + f.fracField raw) = f.fbits := by
      have hfrac := fracField_lt (f := f) (raw := raw)
      rw [Nat.log2_eq_iff (by positivity), Nat.pow_succ]
      omega
    have hcount : (f.qmin + f.expField raw - 1 - f.qmin).toNat * 2 ^ f.fbits + (2 ^ f.fbits + f.fracField raw)
        = f.expField raw * 2 ^ f.fbits + f.fracField raw := by
      have hone : f.expField raw = (f.qmin + f.expField raw - 1 - f.qmin).toNat + 1 := by omega
      rw [← Nat.add_assoc, ← Nat.succ_mul, Nat.succ_eq_add_one, ← hone]
    rw [roundTo, if_neg (by positivity), roundMag_self rm sat _ (by omega) (hcount ▸ hfits), hcount, signed_fields hraw]

end Fmt

/-- An element of a floating-point type is as wide as its format. -/
theorem ewOf_eq_width {t : Nat} (h : t ≤ 4) : ewOf t = (fmtOf t).width := by interval_cases t <;> rfl

/-- Settles O50: each format rounds what its bits decode to back into them. -/
theorem formatsRoundTrip : Obligations.FormatsRoundTrip := by
  unfold Obligations.FormatsRoundTrip
  intro t rm raw sat n m e ht _ hraw hdecode
  exact Fmt.roundTo_decode rm sat (ewOf_eq_width ht ▸ hraw) hdecode

end Sys2Proof.Machine

/-! ## An arithmetic trap (04_numbers.md R102, R104; 05_convoy.md R114, R137, R138)

The elements below the first that raises an enabled flag run as they do without a trap, and change the plane alone; the
element that raises it writes nothing. The trap point is then recorded from a state whose streams are those of the issue. -/

namespace Sys2Proof.Machine

/-! ### What the elements of a word leave -/

/-- The core and memory but for cells, the record of the cells written, the bands that woke, and VFLAGS. -/
structure PlaneWork (s t : State) : Prop where
  core : t.core = { s.core with conv := { s.core.conv with
    plane := t.core.conv.plane, wrote := t.core.conv.wrote, planepwr := t.core.conv.planepwr, vflags := t.core.conv.vflags } }
  mem : t.mem = s.mem

namespace PlaneWork

variable {s t u : State}

theorem refl (s : State) : PlaneWork s s := ⟨rfl, rfl⟩

theorem trans (h : PlaneWork s t) (h' : PlaneWork t u) : PlaneWork s u :=
  ⟨h'.core.trans (by rw [h.core]), h'.mem.trans h.mem⟩

theorem elemSet (v : Shape) (ew i x : Nat) (s : State) : PlaneWork s (elemSet v ew i x s) := by
  rw [elemSet_eq]; exact ⟨rfl, rfl⟩

theorem raiseFlags (f : FlagSet) (s : State) : PlaneWork s (raiseFlags f s) := ⟨rfl, rfl⟩

theorem wake (l : List Access) (s : State) : PlaneWork s (wake l s) := ⟨rfl, rfl⟩

theorem element {F : ElementForm} (e : Nat) (t : State) : PlaneWork t ((F.word s).element e t) := by
  simp only [ElementForm.word, onElements]
  split
  · exact (elemSet _ _ _ _ _).trans (raiseFlags _ _)
  · exact refl t

theorem foldl {g : State → Nat → State} (hg : ∀ t e, PlaneWork t (g t e)) (l : List Nat) (s : State) :
    PlaneWork s (l.foldl g s) := by
  induction l generalizing s with
  | nil => exact refl s
  | cons e l ih => exact (hg s e).trans (ih _)

theorem before {F : ElementForm} {i : Instr} (n : Nat) : PlaneWork (issued i s) ((F.word s).before i n s) :=
  foldl (fun t _ => (wake _ t).trans (element _ _)) _ _

theorem running {F : ElementForm} {i : Instr} (n : Nat) : PlaneWork (issued i s) ((F.word s).running i n s) :=
  (before n).trans (wake _ _)

theorem setting (h : PlaneWork s t) : SameSetting s t where
  vtype := congrArg (·.conv.vtype) h.core
  vctl := congrArg (·.conv.vctl) h.core
  vl := congrArg (·.conv.vl) h.core
  trace := congrArg (·.trace) h.core

theorem maskBit_eq (h : PlaneWork s t) (m e : Nat) : maskBit m e t = maskBit m e s := by
  have hmasks : t.core.conv.masks = s.core.conv.masks := congrArg (·.conv.masks) h.core
  rw [maskBit, maskBit, hmasks]

end PlaneWork

/-! ### What a trap of the convoy stream reads and keeps -/

/-- The steering stream but for CBKSUP, the place in the block, the queues and memory. -/
structure SameStreams (s t : State) : Prop where
  steer : { t.core.steer with cbksup := false } = { s.core.steer with cbksup := false }
  preq : t.core.preq = s.core.preq
  cpc : t.core.conv.cpc = s.core.conv.cpc
  lc : t.core.conv.lc = s.core.conv.lc
  cblk : t.core.conv.cblk = s.core.conv.cblk
  q : t.core.q = s.core.q
  mem : t.mem = s.mem

namespace SameStreams

variable {s t u : State} {c : Cause} {v : Word} {m k : Nat}

theorem trans (h : SameStreams s t) (h' : SameStreams t u) : SameStreams s u where
  steer := h'.steer.trans h.steer
  preq := h'.preq.trans h.preq
  cpc := h'.cpc.trans h.cpc
  lc := h'.lc.trans h.lc
  cblk := h'.cblk.trans h.cblk
  q := h'.q.trans h.q
  mem := h'.mem.trans h.mem

theorem of_planeWork (h : PlaneWork s t) : SameStreams s t where
  steer := congrArg (fun c => { c.steer with cbksup := false }) h.core
  preq := congrArg (·.preq) h.core
  cpc := congrArg (·.conv.cpc) h.core
  lc := congrArg (·.conv.lc) h.core
  cblk := congrArg (·.conv.cblk) h.core
  q := congrArg (·.q) h.core
  mem := h.mem

theorem issued (i : Instr) (hb : s.Boundary) : SameStreams s (issued i s) := by
  rw [issued_eq i s hb.trace]; exact ⟨rfl, rfl, rfl, rfl, rfl, rfl, rfl⟩

theorem takesTraps (h : SameStreams s t) (hs : TakesTraps s) : TakesTraps t where
  task := (congrArg (·.mode) h.steer).trans hs.task
  resident := h.preq.trans hs.resident
  unstepped := (congrArg (·.stepped) h.steer).trans hs.unstepped

/-- A trap from the one state is the trap from the other. -/
theorem trapped (h : SameStreams s t) (ht : ConvoyTrapped c v m k t u) : ConvoyTrapped c v m k s u := by
  obtain ⟨hcause, ⟨hepc, hpmode⟩, ⟨hmode, hchalt, hpc⟩, hpoint, ⟨hst, hcpc, hlc, hcblk⟩, ⟨hregs, hq, hmem⟩⟩ := ht
  obtain ⟨hsteer, -, hcpc', hlc', hcblk', hq', hmem'⟩ := h
  exact ⟨hcause, ⟨hepc.trans (congrArg (·.pc) hsteer), hpmode⟩, ⟨hmode, hchalt, hpc.trans (congrArg (·.tvec) hsteer)⟩,
    hpoint, ⟨hst, hcpc.trans hcpc', hlc.trans hlc', hcblk.trans hcblk'⟩,
    ⟨hregs.trans (congrArg (·.regs) hsteer), hq.trans hq', hmem.trans hmem'⟩⟩

end SameStreams

section TrapPoint

variable {s : State} {p : TrapPoint}

theorem convoyTrap_trapped (h : TakesTraps s) (hc : p.cause ≠ .cstep) :
    ConvoyTrapped p.cause p.tval p.member p.k s (convoyTrap p s) := by
  obtain ⟨hmode, hpreq, hstep⟩ := h
  constructor <;>
    simp [convoyTrap, takeDue, takeTrapTask, enterHandler, recordTrap, haltConvoy, recordPoint, State.modCore, State.modConv,
      hmode, hpreq, hstep, hc]

/-- A trap changes no cell and no flag. -/
theorem convoyTrap_cells (h : TakesTraps s) (hc : p.cause ≠ .cstep) :
    (convoyTrap p s).core.conv.plane = s.core.conv.plane ∧ (convoyTrap p s).core.conv.vflags = s.core.conv.vflags := by
  obtain ⟨hmode, hpreq, hstep⟩ := h
  simp [convoyTrap, takeDue, takeTrapTask, haltConvoy, recordPoint, State.modCore, State.modConv, hmode, hpreq, hstep, hc]

end TrapPoint

/-! ### A convoy in flight stops at its trap point -/

section Stops

variable {s t : State} {f : Flight} {fl : FlagSet} {p : TrapPoint}

/-- With no late writes, the end of a flight clears what the flight held. -/
theorem endFlight_eq (h : s.core.conv.late = []) : endFlight s = s.modConv (fun c => { c with
    flight := none, forming := [], stored := [], missed := [], missEntry := 0, expired := false, block := none }) := by
  simp only [endFlight, h, List.foldl_nil, State.modMat, State.modConv, State.modCore, clearFlight, applyLate]

/-- A convoy with nothing to land and no miss to post stops: its flags are raised, its flight ends, and the trap is taken. -/
theorem trapConvoy_eq (hk : f.kout = []) (hr : f.rqout = []) (hmiss : s.core.conv.missed = [])
    (ht : s.core.trace.ltrc.getLsbD 8 = false) :
    trapConvoy f fl p s = convoyTrap p (endFlight (raiseFlags fl s)) := by
  have hland : landAll f (raiseFlags fl s) = raiseFlags fl s := by
    rw [landAll, hk, hr, List.foldl_nil]
    simp only [List.append_nil]
    rfl
  have hpost : postMisses (raiseFlags fl s) = raiseFlags fl s := if_pos (by simp [raiseFlags, hmiss])
  have hwithheld : withheld f p.done s = (f, p.done) := by rw [withheld, failedPush_none _ _ (.inl hr)]; rfl
  unfold trapConvoy
  rw [hwithheld]
  dsimp only
  rw [hland, hpost, endRecords_off _ (raiseFlags fl s) ht]

/-- The trap of a convoy in flight that has nothing to land. -/
theorem trapConvoy_trapped (hf : s.core.conv.flight = some f) (hl : f.late = []) (hk : f.kout = []) (hr : f.rqout = [])
    (hmiss : s.core.conv.missed = []) (ht : s.core.trace.ltrc.getLsbD 8 = false) (h : TakesTraps s) (hc : p.cause ≠ .cstep) :
    ConvoyTrapped p.cause p.tval p.member p.k s (trapConvoy f fl p s)
      ∧ (trapConvoy f fl p s).core.conv.plane = s.core.conv.plane
      ∧ (trapConvoy f fl p s).core.conv.vflags = s.core.conv.vflags ||| fl := by
  have hlate : (raiseFlags fl s).core.conv.late = [] := by simp [raiseFlags, Conv.late, hf, hl]
  rw [trapConvoy_eq hk hr hmiss ht, endFlight_eq hlate]
  have hsame : SameStreams s ((raiseFlags fl s).modConv (fun c => { c with
      flight := none, forming := [], stored := [], missed := [], missEntry := 0, expired := false, block := none })) :=
    ⟨rfl, rfl, rfl, rfl, rfl, rfl, rfl⟩
  have htakes := hsame.takesTraps h
  obtain ⟨hplane, hflags⟩ := convoyTrap_cells htakes hc
  exact ⟨hsame.trapped (convoyTrap_trapped htakes hc), hplane, hflags⟩

/-- A convoy of members of class E stops where their elements do. -/
theorem runConvoy_of_trap {slots : List Slot} {k j : Nat} {c : Cause} {v : Word} {mf : Option (BitVec 8)}
    (hf : s.core.conv.flight = some f) (hs : slotsOf f.words f.done s = slots) (hc : ∀ x ∈ slots, x.mem.cls = .e)
    (hp : s.core.pace = none) (he : runElements slots (s.vl - f.next) f.next s = .trap t k j fl c v mf) :
    runConvoy s = .next (trapConvoy f fl ⟨j, k, f.done, s.core.conv.vispos, c, v, mf⟩ t) := by
  have hwalks : ∀ x ∈ slots, x.walks = true := fun x hx => by rw [Slot.walks, hc x hx]; rfl
  have hall : slots.filter Slot.walks = slots := List.filter_eq_self.mpr hwalks
  have hnone : slots.filter (fun x => !x.walks) = [] := by
    rw [List.filter_eq_nil_iff]
    intro x hx
    simp [hwalks x hx]
  unfold runConvoy
  rw [hf]
  dsimp only
  rw [hs, hall, hnone]
  simp only [List.foldl_nil, turnEnd_whole _ _ _ hp, he, Bool.false_eq_true, Bool.false_and, Bool.or_false, if_false]

/-- Elements that run through are followed by the rest. -/
theorem runElements_add {slots : List Slot} {n : Nat} (m : Nat) {e : Nat} (h : runElements slots n e s = .done t) :
    runElements slots (n + m) e s = runElements slots m (e + n) t := by
  induction n generalizing e s with
  | zero => cases h; rw [Nat.zero_add, Nat.add_zero]
  | succ n ih =>
    rw [Nat.add_right_comm, runElements]
    rw [runElements] at h
    split at h
    · next u hu => simp only [ih h, Nat.add_assoc, Nat.add_comm 1]
    · next hne => exact absurd h (hne t)

/-- The state in which an element raises: the bands that the member reads at it have woken, and a free value is used up. -/
def raising (m : Member) (e : Nat) (s : State) : State := (wake (m.readTouched [e] s) s).tickUp

theorem PlaneWork.raising (m : Member) (e : Nat) (s : State) : PlaneWork s (raising m e s) := ⟨rfl, rfl⟩

/-- The first element that raises ends the run. -/
theorem runElements_trap {m : Member} {n e : Nat} {c : Cause} {v : Word} {mf : Option (BitVec 8)} (hn : 0 < n)
    (h : m.elem e (wake (m.touched [e] s) s) = .trap fl c v mf) :
    runElements [⟨0, m⟩] n e s = .trap (raising m e s) e 0 fl c v mf := by
  obtain ⟨n, rfl⟩ := Nat.exists_eq_add_one.mpr hn
  simp only [runElements, runElement, h]
  rfl

end Stops

/-! ### An element of an arithmetic word, with its traps -/

namespace ElementForm

variable {F : ElementForm} {i : Instr} {s t : State} {e n : Nat} {c : Cause}

/-- The result of an active element and its flags. -/
def result (F : ElementForm) (e : Nat) (t : State) : Nat × FlagSet :=
  F.f t.core.conv (F.x.get t.core.conv.ew e t) (F.y.get t.core.conv.ew e t)
    (elemGet (shapeAt F.d.toNat t) t.core.conv.ew e t)

/-- The flags that an element raises: none where its mask is 0. -/
def flags (F : ElementForm) (e : Nat) (t : State) : FlagSet := if maskBit F.m.toNat e t then (F.result e t).2 else 0

/-- The trap of an element: that of the first enabled flag it raises. -/
def cause (F : ElementForm) (e : Nat) (t : State) : Option Cause := arithCause (F.flags e t) t.core.conv.vctl

theorem element_eq {r : State} : (F.word r).element e t =
    if maskBit F.m.toNat e t then
      raiseFlags (F.result e t).2 (elemSet (shapeAt F.d.toNat t) t.core.conv.ew e (F.result e t).1 t)
    else t := rfl

/-- Where its mask is 1 an element of the member ends as R104 says, with the result of the formula. -/
theorem Describes.elem_finish (h : F.Describes i) (hi : F.types s.core.conv.type) (hs : SameSetting s t) :
    (memberOf i s).elem e t = if maskBit F.m.toNat e t then
      finishElem F.d.toNat (F.result e t).2 (elemSet (shapeAt F.d.toNat t) t.core.conv.ew e (F.result e t).1) t
    else .done t := by
  have htype : t.core.conv.type = s.core.conv.type := by simp only [Conv.type, hs.vtype]
  have hew : s.core.conv.ew = t.core.conv.ew := by simp only [Conv.ew, htype]
  rw [h.member s]
  obtain ⟨pairs, types, readsD, d, x, y, m, op, f⟩ := F
  have hagrees : OpAgrees types readsD op f := h.agrees
  simp only [ElementForm.member, elementwise, result, hew]
  by_cases hk : maskBit m.toNat e t = true
  · simp only [hk, if_true, Bool.true_eq_false, if_false]
    rw [hagrees t.core.conv _ _ (elemGet (shapeAt d.toNat t) t.core.conv.ew e t) _ (htype ▸ hi) (Src.get_lt _ _ _ _)
      (Src.get_lt _ _ _ _) (elemGet_lt _ _ _ _) (fun h => if_pos h)]
  · simp [hk]

theorem Describes.elem_of_quiet (h : F.Describes i) (hi : F.types s.core.conv.type) (hs : SameSetting s t)
    (hq : F.cause e t = none) {r : State} : (memberOf i s).elem e t = .ok ((F.word r).element e t) [] [] := by
  rw [h.elem_finish hi hs, element_eq]
  by_cases hk : maskBit F.m.toNat e t = true
  · rw [cause, flags, if_pos hk] at hq
    rw [if_pos hk, if_pos hk, finishElem, hq, Step.done]
  · rw [if_neg hk, if_neg hk, Step.done]

theorem Describes.elem_of_cause (h : F.Describes i) (hi : F.types s.core.conv.type) (hs : SameSetting s t)
    (hc : F.cause e t = some c) : (memberOf i s).elem e t = .trap (F.flags e t) c (.ofNat 64 F.d.toNat) none := by
  have hk : maskBit F.m.toNat e t = true := by
    by_contra hk
    simp [cause, flags, hk, arithCause] at hc
  rw [cause, flags, if_pos hk] at hc
  rw [h.elem_finish hi hs, if_pos hk, flags, if_pos hk, finishElem, hc]

theorem running_vctl (hb : s.Boundary) : ((F.word s).running i n s).core.conv.vctl = s.core.conv.vctl :=
  (PlaneWork.running n).setting.vctl.trans (issued_setting i s hb).2.1

theorem maskBit_running (hb : s.Boundary) (m : Nat) : maskBit m e ((F.word s).running i n s) = maskBit m e s := by
  have hissued : maskBit m e (issued i s) = maskBit m e s := by rw [issued_eq i s hb.trace]; rfl
  exact ((PlaneWork.running n).maskBit_eq m e).trans hissued

/-- The elements below n run, and element n ends the run. -/
theorem Describes.run_traps (h : F.Describes i) (hi : F.types s.core.conv.type) (hb : s.Boundary)
    (hvl : s.core.conv.startK.toNat + n < s.vl)
    (hquiet : ∀ j, j < n → F.cause (s.core.conv.startK.toNat + j) ((F.word s).running i j s) = none)
    (hc : F.cause (s.core.conv.startK.toNat + n) ((F.word s).running i n s) = some c) :
    runElements [⟨0, memberOf i (issued i s)⟩] (s.vl - s.core.conv.startK.toNat) s.core.conv.startK.toNat (issued i s)
      = .trap (raising (memberOf i (issued i s)) (s.core.conv.startK.toNat + n) ((F.word s).before i n s))
          (s.core.conv.startK.toNat + n) 0 (F.flags (s.core.conv.startK.toNat + n) ((F.word s).running i n s)) c
          (.ofNat 64 F.d.toNat) none := by
  have htypes : F.types (issued i s).core.conv.type := by
    simp only [Conv.type, (issued_setting i s hb).1]; exact hi
  have hset (j : Nat) : SameSetting (issued i s) ((F.word s).running i j s) := (PlaneWork.running j).setting
  have hdone := runElements_one (memberOf i (issued i s)) (fun e t => (F.word s).element e (accessing i (issued i s) [e] t))
    n s.core.conv.startK.toNat (issued i s) (fun j hj => h.elem_of_quiet htypes (hset j) (hquiet j hj))
  obtain ⟨m, hm⟩ := Nat.exists_eq_add_of_lt hvl
  rw [show s.vl - s.core.conv.startK.toNat = n + (m + 1) by omega, runElements_add _ hdone]
  exact runElements_trap (Nat.succ_pos m) (h.elem_of_cause htypes (hset n) hc)

/-- Alone in its convoy, an arithmetic word whose shapes hold issues. -/
theorem Describes.exec_alone (h : F.Describes i) (hb : s.Boundary) (hc : endsConvoy i) (hi : F.types s.core.conv.type)
    (hn : ∀ n ∈ (F.word s).named, n.holds s) : exec i s = runConvoy (issued i s) := by
  have hpass := h.passes hi hn
  have hall : AllPass [i] [⟨0, memberOf i s⟩] s :=
    ⟨slotsOf_one i 0 rfl s, hb.done, List.forall_mem_singleton.mpr hpass⟩
  rw [(h.joins s).makes_whole hi hc, hb.forming, List.nil_append]
  exact hall.issueConvoy_of_clear hb.trace hb.parked (structureFault_one _) rfl

/-- An arithmetic word alone in its convoy traps at the first of its elements that raises an enabled flag. -/
theorem Describes.traps_at (h : F.Describes i) (hb : s.Boundary) (hc : endsConvoy i) (hi : F.types s.core.conv.type)
    (hn : ∀ n ∈ (F.word s).named, n.holds s) (hm : s.core.steer.mode = false) (hq : s.core.preq = false)
    (hvl : s.core.conv.startK.toNat + n < s.vl)
    (hquiet : ∀ j, j < n → F.cause (s.core.conv.startK.toNat + j) ((F.word s).running i j s) = none)
    (hcause : F.cause (s.core.conv.startK.toNat + n) ((F.word s).running i n s) = some c) (hstep : c ≠ .cstep) :
    ∃ t, exec i s = .next t ∧ ConvoyTrapped c (.ofNat 64 F.d.toNat) 0 (s.core.conv.startK.toNat + n) s t
      ∧ t.core.conv.plane = ((F.word s).before i n s).core.conv.plane
      ∧ t.core.conv.vflags = ((F.word s).before i n s).core.conv.vflags
          ||| F.flags (s.core.conv.startK.toNat + n) ((F.word s).running i n s) := by
  have hrun := h.run_traps hi hb hvl hquiet hcause
  have hwork : PlaneWork (issued i s) (raising (memberOf i (issued i s)) (s.core.conv.startK.toNat + n)
      ((F.word s).before i n s)) := (PlaneWork.before n).trans (.raising _ _ _)
  have hflight : (issued i s).core.conv.flight = some
      { words := [i], next := s.core.conv.startK.toNat, capp := s.core.conv.startK.toNat
        lk := s.core.conv.startLk.toNat, mid := none, done := 0, kout := [], rqout := [] } := by
    rw [issued_eq i s hb.trace, ← hb.done]; rfl
  have hpace : (issued i s).core.pace = none := by rw [issued_eq i s hb.trace]; exact hb.whole
  have hmissed : (issued i s).core.conv.missed = [] := by rw [issued_eq i s hb.trace]; rfl
  obtain ⟨-, -, htrace, hvl', -⟩ := issued_setting i s hb
  have hcls : ∀ x ∈ [(⟨0, memberOf i (issued i s)⟩ : Slot)], x.mem.cls = .e :=
    List.forall_mem_singleton.mpr (by rw [h.member]; rfl)
  have hsame : SameStreams s _ := (SameStreams.issued i hb).trans (.of_planeWork hwork)
  rw [← show (issued i s).vl = s.vl from congrArg BitVec.toNat hvl'] at hrun
  rw [h.exec_alone hb hc hi hn, runConvoy_of_trap hflight (slotsOf_one i 0 rfl _) hcls hpace hrun]
  obtain ⟨htrapped, hplane, hflags⟩ := trapConvoy_trapped
    (fl := F.flags (s.core.conv.startK.toNat + n) ((F.word s).running i n s))
    (p := ⟨0, s.core.conv.startK.toNat + n, 0, (issued i s).core.conv.vispos, c, .ofNat 64 F.d.toNat, none⟩)
    ((congrArg (·.conv.flight) hwork.core).trans hflight) rfl rfl rfl
    ((congrArg (·.conv.missed) hwork.core).trans hmissed)
    (by rw [hwork.setting.trace, htrace]; exact hb.trace) (hsame.takesTraps ⟨hm, hq, hb.single⟩) hstep
  exact ⟨_, rfl, hsame.trapped htrapped, hplane, hflags⟩

end ElementForm

/-! ### A division by zero (R104) -/

section Division

variable {d a b : BitVec 6} {m : BitVec 3} {e : Nat} {t : State}

/-- The form of VDIV. -/
def divisionForm (d a b : BitVec 6) (m : BitVec 3) : ElementForm :=
  ⟨isI, (6 ≤ ·), false, d, vSrc a, vSrc b, m, iDivOp, onQuotient (fun ew _ => 2 ^ ew - 1) Int.tdiv⟩

theorem divisionForm_describes (d a b : BitVec 6) (m : BitVec 3) (c : BitVec 1) :
    (divisionForm d a b m).Describes (.vdiv d a b m c) :=
  ⟨fun _ => rfl, fun _ => rfl, isI_iff, iDivOp_agrees _⟩

theorem integerWord_vdiv (d a b : BitVec 6) (m : BitVec 3) (c : BitVec 1) (s : State) :
    integerWord (.vdiv d a b m c) s = some ((divisionForm d a b m).word s) := rfl

/-- The element of a source shape. -/
def operandAt (a : BitVec 6) (e : Nat) (t : State) : Nat := elemGet (shapeAt a.toNat t) t.core.conv.ew e t

/-- A band that wakes changes no operand. -/
theorem operandAt_accessing {i : Instr} {v : State} {l : List Nat} : operandAt a e (accessing i v l t) = operandAt a e t := rfl

theorem divisionForm_result_flags : ((divisionForm d a b m).result e t).2 =
    if operandAt b e t = 0 then (if operandAt a e t = 0 then flagNV else flagDZ) else 0 := by
  show (if operandAt b e t = 0 then _ else _ : Nat × FlagSet).2 = _
  split <;> rfl

theorem divisionForm_flags_of_zero (hm : maskBit m.toNat e t = true) (hb : operandAt b e t = 0) (ha : operandAt a e t ≠ 0) :
    (divisionForm d a b m).flags e t = flagDZ := by
  exact (if_pos hm).trans (by rw [divisionForm_result_flags, if_pos hb, if_neg ha])

/-- Under VCTL.DZ alone, an element traps only where the divisor is zero and the dividend is not. -/
theorem divisionForm_cause_of_quotient (hv : t.core.conv.vctl = flagDZ)
    (h : maskBit m.toNat e t = true → operandAt b e t ≠ 0 ∨ operandAt a e t = 0) :
    (divisionForm d a b m).cause e t = none := by
  have hflags : (divisionForm d a b m).flags e t = 0 ∨ (divisionForm d a b m).flags e t = flagNV := by
    rw [ElementForm.flags]
    split
    · next hm =>
      rw [divisionForm_result_flags]
      obtain hb | ha := h hm
      · exact .inl (if_neg hb)
      · rw [if_pos ha]; exact (ite_eq_or_eq _ _ _).symm
    · exact .inl rfl
  rw [ElementForm.cause, hv]
  obtain h | h := hflags <;> rw [h] <;> decide

theorem endsConvoy_vdiv (d a b : BitVec 6) (m : BitVec 3) : endsConvoy (.vdiv d a b m 0) := by
  have hfit : Laws.segsFit segsVdiv [d.toNat, a.toNat, b.toNat, m.toNat, 0] = true := by
    simp [segsVdiv, Laws.segsFit, d.isLt, a.isLt, b.isLt, m.isLt]
  rw [endsConvoy, Laws.encode_toNat (i := .vdiv d a b m 0) (xs := [d.toNat, a.toNat, b.toNat, m.toNat, 0]) rfl rfl hfit rfl]
  have hd := d.isLt
  have ha := a.isLt
  have hb := b.isLt
  have hm := m.isLt
  simp only [segsVdiv, segsPack]
  omega

end Division

/-- Settles O49: under VCTL.DZ alone VDIV traps at its first element with a zero divisor and a dividend that is not, for
the elements below raise NV at most. -/
theorem arithmeticTrap : Obligations.ArithmeticTrap := by
  unfold Obligations.ArithmeticTrap
  intro s d a b m w n hw hi hb hn hv hmode hq k u dividend divisor hvl hmask hzero hdividend hbelow
  rw [integerWord_vdiv] at hw
  cases hw
  have hquiet : ∀ j, j < n →
      (divisionForm d a b m).cause (k + j) (((divisionForm d a b m).word s).running (.vdiv d a b m 0) j s) = none := by
    intro j hj
    refine divisionForm_cause_of_quotient ((ElementForm.running_vctl hb).trans hv) fun h => ?_
    have hquotient := hbelow j hj ((ElementForm.maskBit_running hb _).symm.trans h)
    exact hquotient.imp operandAt_accessing.trans_ne operandAt_accessing.trans
  have hflags := divisionForm_flags_of_zero (d := d) ((ElementForm.maskBit_running hb _).trans hmask)
    (operandAt_accessing.trans hzero) (operandAt_accessing.trans_ne hdividend)
  have hcause : (divisionForm d a b m).cause (k + n) (((divisionForm d a b m).word s).running (.vdiv d a b m 0) n s)
      = some .arithDZ := by
    rw [ElementForm.cause, ElementForm.running_vctl hb, hv]
    exact congrArg (arithCause · flagDZ) hflags
  obtain ⟨t, hexec, htrapped, hplane, hraised⟩ := (divisionForm_describes d a b m 0).traps_at hb (endsConvoy_vdiv d a b m)
    hi hn hmode hq hvl hquiet hcause nofun
  rw [hflags] at hraised
  exact ⟨t, hexec, htrapped, fun r c => congrArg (fun p => spGet 0 p (64 * r + c)) hplane, hraised⟩

end Sys2Proof.Machine

/-! ## The element-wise words alone in their convoys (05_convoy.md R111, R114, R121 to R131)

What the member of a word does at an element, in any state of the setting in which the word has issued, is what the word's
formula says; and what an element changes is bounded once, for the run and for the frame. -/

namespace Sys2Proof.Machine

/-! ### What is asked of a word alone in its convoy (03_plane.md R83; 05_convoy.md R112 to R117) -/

/-- A member that waits for no interlock, and of which the checks at issue ask R83 for the shapes of a list. -/
structure Member.Asks (m : Member) (l : List Named) : Prop where
  settled : m.settled = true
  check : m.check = none
  ready : m.ready = true
  named : m.uses.map Use.named = l
  boxed : m.uses.all Use.box = true

section Asked

variable {m : Member} {l : List Named} {s : State}

theorem Member.Asks.shapeFault_eq_none (h : m.Asks l) (hn : ∀ n ∈ l, n.holds s) : shapeFault m s = none := by
  refine shapeFault_none m s fun u hu => ?_
  obtain ⟨hoff, htype, hlength, hgated⟩ := hn u.named (h.named ▸ List.mem_map_of_mem hu)
  refine ⟨hoff, htype, fun n hneed => ?_, fun _ => hgated⟩
  rw [Use.named, hneed] at hlength
  exact hlength

/-- At a boundary a member that waits for no interlock issues when the queues have what it needs. -/
theorem convoyReady_alone (i : Instr) (hb : s.Boundary) (hr : m.ready = true) (hpops : m.pops ≤ s.core.q.dq.length)
    (hpushes : m.pushes ≤ 32 - s.core.q.rq.length) : convoyReady [i] [⟨0, m⟩] s = true := by
  have htrace : traceHolds [⟨0, m⟩] s = false := by simp only [traceHolds, hb.trace, Bool.and_false, Bool.false_and]
  simp [convoyReady, queuesServe, parkedHolds, hb.parked, hr, htrace, hpops, hpushes]

theorem SameSetting.issued (i : Instr) (hb : s.Boundary) : SameSetting s (issued i s) := by
  rw [issued_eq i s hb.trace]; exact ⟨rfl, rfl, rfl, rfl⟩

theorem SameSetting.symm {t : State} (h : SameSetting s t) : SameSetting t s :=
  ⟨h.vtype.symm, h.vctl.symm, h.vl.symm, h.trace.symm⟩

theorem SameSetting.type {t : State} (h : SameSetting s t) : t.core.conv.type = s.core.conv.type :=
  congrArg (fun v : BitVec 8 => v.toNat % 16) h.vtype

theorem SameSetting.ew {t : State} (h : SameSetting s t) : t.core.conv.ew = s.core.conv.ew := congrArg ewOf h.type

theorem SameSetting.vl_eq {t : State} (h : SameSetting s t) : t.vl = s.vl := congrArg BitVec.toNat h.vl

end Asked

/-! ### What an element changes (05_convoy.md R121) -/

/-- Nothing changes but the numbered cells and bits of masks, what notes a write of cells, the bands that wake, VFLAGS and
the block in hand. -/
structure Changes (cells bits : Nat → Prop) (s t : State) : Prop where
  state : t = s.modConv (fun c => { c with
    plane := t.core.conv.plane, wrote := t.core.conv.wrote, planepwr := t.core.conv.planepwr, vflags := t.core.conv.vflags
    masks := t.core.conv.masks, block := t.core.conv.block })
  plane : ∀ k, ¬cells k → spGet 0 t.core.conv.plane k = spGet 0 s.core.conv.plane k
  masks : ∀ k, ¬bits k → spGet false t.core.conv.masks k = spGet false s.core.conv.masks k

namespace Changes

variable {cells cells' bits bits' : Nat → Prop} {s t u : State}

theorem refl (s : State) : Changes cells bits s s := ⟨rfl, fun _ _ => rfl, fun _ _ => rfl⟩

theorem trans (h : Changes cells bits s t) (h' : Changes cells bits t u) : Changes cells bits s u where
  state := h'.state.trans (by rw [h.state]; rfl)
  plane := fun k hk => (h'.plane k hk).trans (h.plane k hk)
  masks := fun k hk => (h'.masks k hk).trans (h.masks k hk)

theorem mono (h : Changes cells bits s t) (hc : ∀ k, cells k → cells' k) (hb : ∀ k, bits k → bits' k) :
    Changes cells' bits' s t :=
  ⟨h.state, fun k hk => h.plane k (mt (hc k) hk), fun k hk => h.masks k (mt (hb k) hk)⟩

theorem raiseFlags (f : FlagSet) (s : State) : Changes cells bits s (raiseFlags f s) :=
  ⟨rfl, fun _ _ => rfl, fun _ _ => rfl⟩

theorem wake (l : List Access) (s : State) : Changes cells bits s (wake l s) := ⟨rfl, fun _ _ => rfl, fun _ _ => rfl⟩

theorem block (b : Option Block) (s : State) : Changes cells bits s (s.modConv (fun c => { c with block := b })) :=
  ⟨rfl, fun _ _ => rfl, fun _ _ => rfl⟩

theorem writeMaskBit (m e : Nat) (v : Bool) (h : bits (8192 * m + e)) : Changes cells bits s (writeMaskBit m e v s) :=
  ⟨rfl, fun _ _ => rfl, fun _ hk => spGet_put_ne _ _ _ (fun he => hk (he ▸ h))⟩

theorem writeCell (r c : Nat) (v : Cell32) (h : cells (64 * r + c)) : Changes cells bits s (writeCell r c v s) :=
  ⟨rfl, fun _ hk => spGet_put_ne _ _ _ (fun he => hk (he ▸ h)), fun _ _ => rfl⟩

/-- A write of an element changes the cells that hold its bits. -/
theorem elemSet (n ew e x : Nat) (h : ∀ k, holdsElement n ew e s k → cells k) :
    Changes cells bits s (elemSet (shapeAt n s) ew e x s) := by
  rw [Machine.elemSet]
  dsimp only
  split
  · next h64 => exact (writeCell _ _ _ (h _ (.inl rfl))).trans (writeCell _ _ _ (h _ (.inr ⟨h64, rfl⟩)))
  · exact writeCell _ _ _ (h _ (.inl rfl))

theorem setting (h : Changes cells bits s t) : SameSetting s t := by rw [h.state]; exact ⟨rfl, rfl, rfl, rfl⟩

theorem table (h : Changes cells bits s t) : t.core.conv.table = s.core.conv.table := by rw [h.state]; rfl

theorem holdsElement_iff (h : Changes cells bits s t) {n ew e k : Nat} : holdsElement n ew e t k ↔ holdsElement n ew e s k := by
  simp only [holdsElement, shapeAt, h.table]

end Changes

/-- The cells of element e of the first shape a word names, unless it writes a mask; and of its block's word, for VQNT. -/
def ElementWord.cellsAt (w : ElementWord) (i : Instr) (e : Nat) (t : State) (k : Nat) : Prop :=
  (maskTarget i = none ∧ ∃ n ∈ w.named.head?, holdsElement n.shape n.ew e t k)
    ∨ (writesScales i = true ∧ holdsElement 63 16 (e / 32) t k)

/-- Bit e of the mask that the word writes. -/
def maskBitsAt (i : Instr) (e k : Nat) : Prop := ∃ d, maskTarget i = some d ∧ k = 8192 * d + e

/-! ### A word of elements completes (05_convoy.md R111, R114) -/

/-- A word whose elements are walked, as its member has it: how it meets the convoy, and what an element does when it may
issue and no arithmetic trap is enabled. -/
structure ElementWord.Describes (w : ElementWord) (i : Instr) (s : State) : Prop where
  joins : Joins i s w.issues
  cls : ∀ t, (memberOf i t).cls = .e ∨ (memberOf i t).cls = .p
  asks : (memberOf i s).Asks w.named
  queues : (memberOf i s).pops = 0 ∧ (memberOf i s).pushes = 0
  elem : w.issues → ∀ {r t}, SameSetting s r → SameSetting s t → t.core.conv.vctl = 0 → ∀ e,
    (memberOf i r).elem e t = .ok (w.element e t) [] []
  changes : ∀ {t}, SameSetting s t → ∀ e, Changes (w.cellsAt i e t) (maskBitsAt i e) t (w.element e t)

section Run

variable {w : ElementWord} {i : Instr} {s : State}

theorem ElementWord.before_succ (n : Nat) :
    w.before i (n + 1) s = w.element (s.core.conv.startK.toNat + n) (w.running i n s) := by
  rw [before, List.range'_1_concat, List.foldl_append]; rfl

theorem SameSetting.running {n : Nat} (h : SameSetting s (w.before i n s)) : SameSetting s (w.running i n s) :=
  h.trans (.accessing _ _ _ _)

theorem ElementWord.Describes.before_setting (h : w.Describes i s) (hb : s.Boundary) (n : Nat) :
    SameSetting s (w.before i n s) := by
  induction n with
  | zero => exact .issued i hb
  | succ n ih =>
    rw [before_succ]
    exact ih.running.trans (h.changes ih.running _).setting

/-- Alone in its convoy the word issues, and then runs every element and retires. -/
theorem ElementWord.Describes.completes (h : w.Describes i s) (hb : s.Boundary) (hc : endsConvoy i) (hi : w.issues)
    (hv : s.core.conv.vctl = 0) (hn : ∀ n ∈ w.named, n.holds s) :
    exec i s = .next (retired i [] [] (w.all i s)) ∧ runConvoy (issued i s) = .next (retired i [] [] (w.all i s)) := by
  obtain ⟨hvector, -, hpaired⟩ := h.joins
  obtain ⟨hpops, hpushes⟩ := h.queues
  have hset := h.before_setting hb
  have hready := convoyReady_alone i hb h.asks.ready (by omega) (by omega)
  have hrun : runConvoy (issued i s) = .next (retired i [] [] (w.all i s)) := by
    refine runConvoy_elements i s w hb (h.cls _) (fun n _ => ?_) (hset _).vl_eq (hset _).trace
    have hrunning : SameSetting s (w.running i n s) := (hset n).running
    exact h.elem hi (.issued i hb) hrunning (hrunning.vctl.trans hv) _
  refine ⟨?_, hrun⟩
  rw [hvector, vectorWord_alone i s hb hc (hpaired.mpr hi) h.asks.settled (h.asks.shapeFault_eq_none hn) h.asks.check hready, hrun]

theorem completesElements_of_describes {word : Instr → State → Option ElementWord}
    (h : ∀ {i s w}, word i s = some w → w.Describes i s) : CompletesElements word :=
  fun _ _ _ hw hb hc hi hv hn _ => ((h hw).completes hb hc hi hv hn).1

end Run

/-! ### The arithmetic words (R122 to R125) -/

theorem maskTarget_of_arithmeticWord {i : Instr} {s : State} {w : ElementWord}
    (h : integerWord i s = some w ∨ bitsWord i s = some w ∨ floatWord i s = some w) : maskTarget i = none := by
  obtain h | h | h := h
  · unfold integerWord at h
    split at h
    case h_30 => cases h
    all_goals rfl
  · unfold bitsWord at h
    split at h
    case h_10 => cases h
    all_goals rfl
  · unfold floatWord at h
    split at h
    case h_34 => cases h
    all_goals rfl

section Arithmetic

variable {F : ElementForm} {i : Instr} {s : State}

theorem ElementForm.element_changes (hm : maskTarget i = none) {t : State} (hs : SameSetting s t) (e : Nat) :
    Changes ((F.word s).cellsAt i e t) (maskBitsAt i e) t ((F.word s).element e t) := by
  rw [ElementForm.element_eq]
  split
  · refine (Changes.elemSet _ _ _ _ fun k hk => ?_).trans (Changes.raiseFlags _ _)
    rw [hs.ew] at hk
    exact .inl ⟨hm, _, rfl, hk⟩
  · exact .refl t

/-- A word that has a form does what its formula says. -/
theorem ElementForm.Describes.describes (h : F.Describes i) (hm : maskTarget i = none) : (F.word s).Describes i s where
  joins := h.joins s
  cls := fun t => .inl (by rw [h.member]; rfl)
  asks := by
    rw [h.member]
    exact ⟨rfl, rfl, rfl, ElementForm.named_eq.symm, List.all_eq_true.mpr fun u hu => (ElementForm.use_eq hu).2.2.1⟩
  queues := by rw [h.member]; exact ⟨rfl, rfl⟩
  elem := fun hi _ _ hr ht hv e =>
    h.elem_eq (show F.types _ by rw [hr.type]; exact hi) (hr.symm.trans ht) hv e
  changes := fun hs e => ElementForm.element_changes hm hs e

end Arithmetic

section Tables

variable {i : Instr} {s : State} {w : ElementWord}

theorem integerWord_describes (h : integerWord i s = some w) : w.Describes i s := by
  obtain ⟨F, hF, rfl⟩ := integerWord_described h
  exact hF.describes (maskTarget_of_arithmeticWord (.inl h))

theorem bitsWord_describes (h : bitsWord i s = some w) : w.Describes i s := by
  obtain ⟨F, hF, rfl⟩ := bitsWord_described h
  exact hF.describes (maskTarget_of_arithmeticWord (.inr (.inl h)))

theorem floatWord_describes (h : floatWord i s = some w) : w.Describes i s := by
  obtain ⟨F, hF, rfl⟩ := floatWord_described h
  exact hF.describes (maskTarget_of_arithmeticWord (.inr (.inr h)))

end Tables

/-- Settles O39: the integer words and the words of every type have forms. -/
theorem integerElements : Obligations.IntegerElements :=
  ⟨completesElements_of_describes integerWord_describes, completesElements_of_describes bitsWord_describes⟩

/-- Settles O40: the floating-point words have forms. -/
theorem floatElements : Obligations.FloatElements := completesElements_of_describes floatWord_describes

end Sys2Proof.Machine

namespace Sys2Proof.Machine

/-! ### The compares, mask words and selects (R126 to R128) -/

/-- A compare reads the order of its operands off as less and equal. -/
theorem Cmp.holds_eq (k : Cmp) {o : Nat} (h : o ≤ 2) : k.holds o = compareHolds k (o == 0) (o == 1) := by
  interval_cases o <;> cases k <;> rfl

theorem cmpVal_le_two (x y : FVal) : cmpVal x y ≤ 2 := by
  fun_cases cmpVal x y <;> decide

/-- A compare of elements as its member has it. -/
theorem cmpElem_eq (k : Cmp) (t x y : Nat) : cmpElem k t x y = compareOf k t x y := by
  unfold cmpElem compareOf
  simp only [isI, decide_eq_true_eq]
  split
  · -- integers
    rw [Cmp.holds_eq k (by split_ifs <;> omega)]
    generalize (intTyOf t).value x = a
    generalize (intTyOf t).value y = b
    have hlt : ((if a < b then 0 else if a = b then 1 else 2 : Nat) == 0) = decide (a < b) := by
      by_cases h : a < b
      · simp [h]
      · by_cases h' : a = b <;> simp [h, h']
    have heq : ((if a < b then 0 else if a = b then 1 else 2 : Nat) == 1) = decide (a = b) := by
      by_cases h : a < b
      · simp [h, h.ne]
      · by_cases h' : a = b <;> simp [h, h']
    rw [hlt, heq]
  · split
    · -- a NaN
      cases k <;> simp [snanFlags, flagIf]
    · rw [Cmp.holds_eq k (cmpVal_le_two _ _)]

section Compare

variable {i : Instr} {s : State} {k : Cmp} {d m : BitVec 3} {x y : Src}

theorem onCompare_describes (hv : ∀ s, exec i s = vectorWord i s)
    (hm : ∀ s, memberOf i s = compareMember s k d.toNat x y m.toNat) (ht : maskTarget i = some d.toNat) :
    (onCompare s k d x y m).Describes i s where
  joins := compareMember_joins (hv s) (hm s)
  cls := fun t => .inl (by rw [hm]; rfl)
  asks := by
    rw [hm]
    refine ⟨rfl, rfl, rfl, ?_, ?_⟩
    · exact (List.map_append ..).trans (by rw [Src.uses_named, Src.uses_named, ← srcNamed_pair]; rfl)
    · cases x <;> cases y <;> rfl
  queues := by rw [hm]; exact ⟨rfl, rfl⟩
  elem := by
    intro _ r t hr ht hvctl e
    have hew : r.core.conv.ew = t.core.conv.ew := hr.ew.trans ht.ew.symm
    rw [hm]
    simp only [compareMember, onCompare, hew, cmpElem_eq, finishElem_quiet _ _ _ t hvctl]
    cases maskBit m.toNat e t <;> rfl
  changes := by
    intro t hs e
    simp only [onCompare]
    split
    · exact (Changes.writeMaskBit _ _ _ ⟨_, ht, rfl⟩).trans (.raiseFlags _ _)
    · exact .refl t

theorem onMasks_describes {srcs : List Nat} {f : Nat → State → Bool} (hv : ∀ s, exec i s = vectorWord i s)
    (hm : ∀ s, memberOf i s = maskLogic d.toNat srcs m.toNat f) (ht : maskTarget i = some d.toNat) :
    (onMasks d m f).Describes i s where
  joins := joins_always (hv s) (by rw [hm]; rfl) (by rw [hm]; rfl)
  cls := fun t => .inl (by rw [hm]; rfl)
  asks := by rw [hm]; exact ⟨rfl, rfl, rfl, rfl, rfl⟩
  queues := by rw [hm]; exact ⟨rfl, rfl⟩
  elem := by
    intro _ r t _ _ _ e
    rw [hm]
    simp only [maskLogic, onMasks]
    cases maskBit m.toNat e t <;> rfl
  changes := by
    intro t hs e
    simp only [onMasks]
    split
    · exact .writeMaskBit _ _ _ ⟨_, ht, rfl⟩
    · exact .refl t

theorem onSelect_describes {d a : BitVec 6} (hv : ∀ s, exec i s = vectorWord i s)
    (hm : ∀ s, memberOf i s = selectMember s d.toNat a.toNat y m.toNat) (ht : maskTarget i = none) :
    (onSelect s d a y m).Describes i s where
  joins := joins_always (hv s) (by rw [hm]; rfl) (by rw [hm]; rfl)
  cls := fun t => .inl (by rw [hm]; rfl)
  asks := by rw [hm]; cases y <;> exact ⟨rfl, rfl, rfl, rfl, rfl⟩
  queues := by rw [hm]; exact ⟨rfl, rfl⟩
  elem := by
    intro _ r t hr ht _ e
    have hew : r.core.conv.ew = t.core.conv.ew := hr.ew.trans ht.ew.symm
    rw [hm]
    simp only [selectMember, onSelect, hew]
    cases maskBit m.toNat e t <;> rfl
  changes := by
    intro t hs e
    refine .elemSet _ _ _ _ fun k hk => ?_
    rw [hs.ew] at hk
    exact .inl ⟨ht, _, rfl, hk⟩

end Compare

theorem compareWord_describes {i : Instr} {s : State} {w : ElementWord} (h : compareWord i s = some w) :
    w.Describes i s := by
  unfold compareWord at h
  split at h
  -- the compares
  case h_1 | h_2 | h_3 | h_4 | h_5 | h_6 | h_7 | h_8 | h_9 | h_10 | h_11 | h_12 | h_13 | h_14 =>
    cases h; exact onCompare_describes (fun _ => rfl) (fun _ => rfl) rfl
  -- the mask words; VMXOR's member has the exclusive or where the formula has the inequality
  case h_17 => cases h; exact onMasks_describes (fun _ => rfl) (fun _ => by simp only [Bool.bne_eq_xor]; rfl) rfl
  case h_15 | h_16 | h_18 | h_19 | h_20 | h_21 => cases h; exact onMasks_describes (fun _ => rfl) (fun _ => rfl) rfl
  -- VSEL and VSELZ
  case h_22 | h_23 => cases h; exact onSelect_describes (fun _ => rfl) (fun _ => rfl) rfl
  case h_24 => cases h

/-! ### The conversions and the permutes (R129 to R131) -/

section Moves

variable {i : Instr} {s t : State} {d : BitVec 6} {m : BitVec 3} {r : Nat → State → Nat × FlagSet}

/-- A write of an element of the first shape that a word names. -/
theorem elemSet_first_changes {w : ElementWord} {n need e x : Nat} (hm : maskTarget i = none)
    (hw : w.named.head? = some ⟨n, s.core.conv.ew, need⟩) (hs : SameSetting s t) :
    Changes (w.cellsAt i e t) (maskBitsAt i e) t (elemSet (shapeAt n t) t.core.conv.ew e x t) := by
  refine .elemSet _ _ _ _ fun k hk => ?_
  rw [hs.ew] at hk
  exact .inl ⟨hm, _, hw, hk⟩

theorem putElement_changes {w : ElementWord} {need : Nat} (hm : maskTarget i = none)
    (hw : w.named.head? = some ⟨d.toNat, s.core.conv.ew, need⟩) (he : w.element = putElement d m r) (hs : SameSetting s t)
    (e : Nat) : Changes (w.cellsAt i e t) (maskBitsAt i e) t (w.element e t) := by
  rw [he, putElement]
  split
  · exact (elemSet_first_changes hm hw hs).trans (.raiseFlags _ _)
  · exact .refl t

/-- An element under its mask ends with the write, and with no arithmetic trap enabled. -/
theorem putElement_elem {e : Nat} (hv : t.core.conv.vctl = 0) :
    (if maskBit m.toNat e t = false then Step.done t
      else finishElem d.toNat (r e t).2 (elemSet (shapeAt d.toNat t) t.core.conv.ew e (r e t).1) t)
      = .ok (putElement d m r e t) [] [] := by
  rw [finishElem_quiet _ _ _ t hv, putElement]
  cases maskBit m.toNat e t <;> rfl

/-! #### VCVT -/

theorem convertElem_eq (src : Nat) (c : Conv) (x : Nat) : convertElem src c.type c.rm c.sat x = convertOf src c x := by
  simp only [convertElem, convertOf, isI, Bool.and_eq_true, decide_eq_true_eq, IntTy.clamp_eq, flagIf, ne_eq, ite_not]
  rfl

/-! #### VQNT -/

/-- The elements of a block that take part, with their values. -/
theorem participants_eq (b vl : Nat) (v : Nat → FVal) (t : State) :
    participants b vl m.toNat v t = blockValues b vl m v t := by
  rw [blockValues, ← List.filterMap_eq_map, List.filterMap_filter]; rfl

/-- With no arithmetic trap enabled, an element of a block is written, and the block's word after its last. -/
theorem blockElem_eq {start vl e : Nat} {block : Nat → State → Option Block} (hv : t.core.conv.vctl = 0) :
    blockElem d.toNat start vl block e t = .ok (putBlock d vl (block (e / 32)) e t) [] [] := by
  have hquiet : arithCause 0 t.core.conv.vctl = none := by rw [hv, arithCause_none]
  have hlast : endsBlock vl e = true ↔ e % 32 = 31 ∨ e + 1 = vl := by simp [endsBlock]
  have hwrite : blockWrite d.toNat block e t = match (block (e / 32) t).bind (fun b => b.codes.find? (fun p => p.1 == e)) with
      | some p => raiseFlags p.2.2 (elemSet (shapeAt d.toNat (latchBlock block e t)) (latchBlock block e t).core.conv.ew e
          p.2.1 (latchBlock block e t))
      | none => latchBlock block e t := by
    have hat : Block.at? (latchBlock block e t).core.conv.block e
        = ((block (e / 32) t).bind (fun b => b.codes.find? (fun p => p.1 == e))).map (·.2) := by
      show (block (e / 32) t).bind _ = _
      cases block (e / 32) t <;> rfl
    unfold blockWrite
    simp only [hat]
    cases (block (e / 32) t).bind (fun b => b.codes.find? (fun p => p.1 == e)) <;> rfl
  have hzero : ¬(startsBlock start e = true ∧ t.core.conv.vctl ≠ 0) := fun h => h.2 hv
  simp only [blockElem, if_neg hzero, hquiet, hwrite, hlast, putBlock]
  rfl

theorem putBlock_changes {w : ElementWord} {need vl : Nat} {blk : State → Option Block} (hm : maskTarget i = none)
    (hx : writesScales i = true) (hw : w.named.head? = some ⟨d.toNat, s.core.conv.ew, need⟩) (hs : SameSetting s t) (e : Nat) :
    Changes (w.cellsAt i e t) (maskBitsAt i e) t (putBlock d vl blk e t) := by
  have hlatched : Changes (w.cellsAt i e t) (maskBitsAt i e) t (t.modConv (fun c => { c with block := blk t })) := .block _ _
  have hword : ∀ {u : State}, Changes (w.cellsAt i e t) (maskBitsAt i e) t u →
      Changes (w.cellsAt i e t) (maskBitsAt i e) t
        (match (if e % 32 = 31 ∨ e + 1 = vl then blk u else none) with
          | some b => elemSet (shapeAt 63 u) 16 (e / 32) b.word u
          | none => u) := by
    intro u hu
    split
    · exact hu.trans (.elemSet _ _ _ _ fun k hk => .inr ⟨hx, hu.holdsElement_iff.mp hk⟩)
    · exact hu
  refine hword ?_
  split
  · exact (hlatched.trans (elemSet_first_changes hm hw (hs.trans hlatched.setting))).trans (.raiseFlags _ _)
  · exact hlatched

end Moves

/-- VCVT, element by element. -/
theorem convertMember_elem {s t : State} {d a : BitVec 6} {src : Nat} {m : BitVec 3} (hv : t.core.conv.vctl = 0) (e : Nat) :
    (convertMember s d.toNat a.toNat src m.toNat).elem e t = .ok (putElement d m (fun e u =>
      convertOf src u.core.conv (elemGet (shapeAt a.toNat u) (ewOf src) e u)) e t) [] [] := by
  refine Eq.trans ?_ (putElement_elem hv)
  simp only [convertMember, convertElem_eq]
  rfl

/-- VQNT, block by block. -/
theorem quantizeMember_elem {s t : State} {d a : BitVec 6} {src : Nat} {m : BitVec 3} (hv : t.core.conv.vctl = 0) (e : Nat) :
    (quantizeMember s d.toNat a.toNat src m.toNat).elem e t = .ok (putBlock d s.vl (fun u =>
      let l := blockValues (e / 32) s.vl m (fun j => typeVal src (elemGet (shapeAt a.toNat u) (ewOf src) j u)) u
      let c := u.core.conv
      if l = [] then none else some (if c.type = 5 then toE2m1x l else toScaledFp8 c.type c.rm c.sat l)) e t) [] [] := by
  refine (blockElem_eq hv).trans ?_
  simp only [participants_eq, List.isEmpty_iff, isE2, beq_iff_eq]

/-- VDQNT, element by element. -/
theorem dequantizeMember_elem {s t : State} {d a : BitVec 6} {src : Nat} {m : BitVec 3} (hv : t.core.conv.vctl = 0) (e : Nat) :
    (dequantizeMember s d.toNat a.toNat src m.toNat).elem e t = .ok (putElement d m (fun e u =>
      let c := u.core.conv
      convertTo c.type c.rm c.sat (scaledVal src (elemGet (shapeAt a.toNat u) (ewOf src) e u)
        (elemGet (shapeAt 63 u) 16 (e / 32) u))) e t) [] [] := by
  simp only [dequantizeMember, hv, arithCause_none, ite_self, putElement]
  cases maskBit m.toNat e t <;> rfl

theorem convertWord_describes {i : Instr} {s : State} {w : ElementWord} (h : convertWord i s = some w) :
    w.Describes i s := by
  have hjoins := convertWord_joins h
  unfold convertWord at h
  split at h <;> cases h
  case h_1 d a src m c =>
    have hmember : ∀ u, memberOf (.vcvt d a src m c) u = convertMember u d.toNat a.toNat src.toNat m.toNat := fun _ => rfl
    refine ⟨hjoins, fun _ => .inl rfl, ⟨rfl, rfl, rfl, rfl, rfl⟩, ⟨rfl, rfl⟩, fun _ r t hr ht hv e => ?_, fun ht e => ?_⟩
    · rw [hmember]; exact convertMember_elem hv e
    · exact putElement_changes rfl rfl rfl ht e
  case h_2 d a src m c =>
    have hmember : ∀ u, memberOf (.vqnt d a src m c) u = quantizeMember u d.toNat a.toNat src.toNat m.toNat := fun _ => rfl
    refine ⟨hjoins, fun _ => .inr rfl, ⟨rfl, rfl, rfl, rfl, rfl⟩, ⟨rfl, rfl⟩, fun _ r t hr ht hv e => ?_, fun ht e => ?_⟩
    · have helem := quantizeMember_elem (s := r) (d := d) (a := a) (src := src.toNat) (m := m) hv e
      rw [hr.vl_eq] at helem
      rw [hmember]
      exact helem
    · dsimp only; exact putBlock_changes rfl rfl rfl ht e
  case h_3 d a src m c =>
    have hmember : ∀ u, memberOf (.vdqnt d a src m c) u = dequantizeMember u d.toNat a.toNat src.toNat m.toNat := fun _ => rfl
    refine ⟨hjoins, fun _ => .inr rfl, ⟨rfl, rfl, rfl, rfl, rfl⟩, ⟨rfl, rfl⟩, fun _ r t hr ht hv e => ?_, fun ht e => ?_⟩
    · rw [hmember]; exact dequantizeMember_elem hv e
    · exact putElement_changes rfl rfl rfl ht e

/-! #### The permutes -/

section Permute

variable {i : Instr} {s : State} {d : BitVec 6} {m : BitVec 3} {r : Nat → State → Nat × FlagSet}

/-- A permute that writes every element under its mask. -/
theorem permute_elem {s t : State} {uses : List Use} {touch : List Nat → State → List Access}
    {f : Nat → State → Option (Nat × FlagSet)} {e : Nat} (hf : f e t = some (r e t)) (hv : t.core.conv.vctl = 0) :
    (permute s d.toNat uses m.toNat f touch).elem e t = .ok (putElement d m r e t) [] [] := by
  refine Eq.trans ?_ (putElement_elem hv)
  simp only [permute, hf]

/-- A word whose member, a permute, names vd by VL and the sources for the elements they are asked for. -/
structure Permutes (i : Instr) (d : BitVec 6) (srcs : State → List (BitVec 6 × Nat)) (member : State → Member) : Prop where
  vector : ∀ s, exec i s = vectorWord i s
  member_eq : ∀ s, memberOf i s = member s
  target : maskTarget i = none
  cls : ∀ s, (member s).cls = .p
  paired : ∀ s, (member s).paired = true
  asks : ∀ s, (member s).Asks (⟨d.toNat, s.core.conv.ew, s.vl⟩ :: (srcs s).map (fun p => ⟨p.1.toNat, s.core.conv.ew, p.2⟩))
  queues : ∀ s, (member s).pops = 0 ∧ (member s).pushes = 0

/-- A word of the same shapes whose element is that of the member. -/
theorem Permutes.describes_of_elem {srcs : State → List (BitVec 6 × Nat)} {member : State → Member} {w : ElementWord}
    (h : Permutes i d srcs member) (hn : w.named = (onPermute s d (srcs s) m r).named) (hi : w.issues = True)
    (he : ∀ {q t}, SameSetting s q → SameSetting s t → t.core.conv.vctl = 0 → ∀ e, (member q).elem e t = .ok (w.element e t) [] [])
    (hc : ∀ {t}, SameSetting s t → ∀ e, Changes (w.cellsAt i e t) (maskBitsAt i e) t (w.element e t)) : w.Describes i s where
  joins := ⟨h.vector s, by rw [h.member_eq, h.cls]; exact nofun, by rw [h.member_eq, hi]; exact iff_of_true (h.paired s) trivial⟩
  cls := fun t => .inr (by rw [h.member_eq, h.cls])
  asks := by rw [h.member_eq, hn]; exact h.asks s
  queues := by rw [h.member_eq]; exact h.queues s
  elem := fun _ _ _ hr ht hv e => by rw [h.member_eq]; exact he hr ht hv e
  changes := hc

theorem Permutes.describes {srcs : State → List (BitVec 6 × Nat)} {member : State → Member} (h : Permutes i d srcs member)
    (he : ∀ {q t}, SameSetting s q → SameSetting s t → t.core.conv.vctl = 0 → ∀ e,
      (member q).elem e t = .ok (putElement d m r e t) [] []) : (onPermute s d (srcs s) m r).Describes i s :=
  h.describes_of_elem (m := m) (r := r) rfl rfl he fun ht e => putElement_changes h.target rfl rfl ht e

/-- VGATH gives 0, with IDX, where the index is out of the capacity. -/
theorem gatherMember_elem {s t : State} {a b : BitVec 6} {e : Nat} (hv : t.core.conv.vctl = 0) :
    (gatherMember s d.toNat a.toNat b.toNat m.toNat).elem e t = .ok (putElement d m (fun e u =>
      let j := under b e u
      if j < capUnder a u then (under a j u, 0) else (0, flagIDX)) e t) [] [] := by
  unfold gatherMember
  dsimp only
  refine permute_elem ?_ hv
  exact (apply_ite some _ _ _).symm

/-- VRAISE leaves the elements below its distance. -/
theorem raiseMember_elem {s t : State} {a : BitVec 6} {k : BitVec 3} {e : Nat} (hv : t.core.conv.vctl = 0) :
    (raiseMember s d.toNat a.toNat k.toNat m.toNat).elem e t = .ok (if (readK k.toNat t).toNat ≤ e then
      putElement d m (fun e u => (under a (e - (readK k.toNat u).toNat) u, 0)) e t else t) [] [] := by
  unfold raiseMember
  split
  · next h => exact permute_elem (if_pos h) hv
  · next h =>
    simp only [permute, if_neg h, ite_self]
    rfl

end Permute

theorem permuteWord_describes {i : Instr} {s : State} {w : ElementWord} (h : permuteWord i s = some w) :
    w.Describes i s := by
  unfold permuteWord at h
  split at h <;> cases h
  case h_1 d a b m c =>
    exact Permutes.describes (member := fun s => gatherMember s d.toNat a.toNat b.toNat m.toNat) (srcs := fun s => [(a, 0), (b, s.vl)])
      ⟨fun _ => rfl, fun _ => rfl, rfl, fun _ => rfl, fun _ => rfl, fun _ => ⟨rfl, rfl, rfl, rfl, rfl⟩, fun _ => ⟨rfl, rfl⟩⟩
      fun _ _ hv _ => gatherMember_elem hv
  case h_2 d a b m c =>
    exact Permutes.describes (member := fun s => headMember s d.toNat a.toNat b.toNat m.toNat) (srcs := fun s => [(a, s.vl), (b, 0)])
      ⟨fun _ => rfl, fun _ => rfl, rfl, fun _ => rfl, fun _ => rfl, fun _ => ⟨rfl, rfl, rfl, rfl, rfl⟩, fun _ => ⟨rfl, rfl⟩⟩
      fun _ _ hv _ => by unfold headMember; exact permute_elem rfl hv
  case h_3 d a b m c =>
    exact Permutes.describes (member := fun s => tailMember s d.toNat a.toNat b.toNat m.toNat) (srcs := fun s => [(a, s.vl), (b, 0)])
      ⟨fun _ => rfl, fun _ => rfl, rfl, fun _ => rfl, fun _ => rfl, fun _ => ⟨rfl, rfl, rfl, rfl, rfl⟩, fun _ => ⟨rfl, rfl⟩⟩
      fun _ ht hv _ => by unfold tailMember; exact permute_elem (by rw [← ht.vl_eq]; rfl) hv
  case h_4 d a m c =>
    exact Permutes.describes (member := fun s => broadcastMember s d.toNat a.toNat m.toNat) (srcs := fun _ => [(a, 0)])
      ⟨fun _ => rfl, fun _ => rfl, rfl, fun _ => rfl, fun _ => rfl, fun _ => ⟨rfl, rfl, rfl, rfl, rfl⟩, fun _ => ⟨rfl, rfl⟩⟩
      fun _ _ hv _ => by unfold broadcastMember; exact permute_elem rfl hv
  case h_5 d k m c =>
    exact Permutes.describes (member := fun s => broadcastScalarMember s d.toNat k.toNat m.toNat) (srcs := fun _ => [])
      ⟨fun _ => rfl, fun _ => rfl, rfl, fun _ => rfl, fun _ => rfl, fun _ => ⟨rfl, rfl, rfl, rfl, rfl⟩, fun _ => ⟨rfl, rfl⟩⟩
      fun _ _ hv _ => by unfold broadcastScalarMember; exact permute_elem rfl hv
  case h_6 d a k m c =>
    exact Permutes.describes (member := fun s => lowerMember s d.toNat a.toNat k.toNat m.toNat) (srcs := fun _ => [(a, 0)])
      ⟨fun _ => rfl, fun _ => rfl, rfl, fun _ => rfl, fun _ => rfl, fun _ => ⟨rfl, rfl, rfl, rfl, rfl⟩, fun _ => ⟨rfl, rfl⟩⟩
      fun _ _ hv _ => by unfold lowerMember; exact permute_elem rfl hv
  case h_7 d a k m c =>
    refine Permutes.describes_of_elem (member := fun s => raiseMember s d.toNat a.toNat k.toNat m.toNat)
      (srcs := fun s => [(a, s.vl)]) (m := m) (r := fun e u => (under a (e - (readK k.toNat u).toNat) u, 0))
      ⟨fun _ => rfl, fun _ => rfl, rfl, fun _ => rfl, fun _ => rfl, fun _ => ⟨rfl, rfl, rfl, rfl, rfl⟩, fun _ => ⟨rfl, rfl⟩⟩
      rfl rfl (fun _ _ hv _ => raiseMember_elem hv) fun {t} ht e => ?_
    show Changes _ _ t (if (readK k.toNat t).toNat ≤ e then _ else t)
    split
    · exact putElement_changes (w := onPermute s d [(a, s.vl)] m _) rfl rfl rfl ht e
    · exact .refl t

/-- Settles O41: what the members of the three tables do is what the formulas say. -/
theorem compareConvertPermute : Obligations.CompareConvertPermute :=
  ⟨completesElements_of_describes compareWord_describes, completesElements_of_describes convertWord_describes,
    completesElements_of_describes permuteWord_describes⟩

end Sys2Proof.Machine

namespace Sys2Proof.Machine

/-! ### What an element-wise word leaves (R111, R121) -/

/-- The convoy stream past a word that is not VBEND, at the boundary. -/
def Conv.passed (c : Conv) : Conv := { c with
  flight := none, forming := [], stored := [], missed := [], missEntry := 0, expired := false, block := none
  cpc := c.cpc + 4, startK := 0, startDone := 0, startLk := 0, vispos := 0 }

section Frame

variable {i : Instr} {s t u : State} {w : ElementWord}

theorem afterConvoy_one (h : i ≠ .vbend) (c : Conv) : afterConvoy [i] c = { c with cpc := c.cpc + 4 } := by
  unfold afterConvoy
  split
  · next heq => cases heq; exact absurd rfl h
  · rfl

/-- With nothing to land, no miss to post, no trace and no step, retirement moves the stream past the word. -/
theorem retired_eq (h : i ≠ .vbend) (hmissed : u.core.conv.missed = []) (hlate : u.core.conv.late = [])
    (ht : u.core.trace.ltrc.getLsbD 8 = false) (hstep : u.core.conv.cdbg = false) :
    retired i [] [] u = u.modConv Conv.passed := by
  have hland : ∀ f : Flight, f.kout = [] → f.rqout = [] → landOrPark f u = u := by
    intro f hk hr
    have hall : landAll f u = u := by
      rw [landAll, hk, hr, List.foldl_nil]
      simp only [List.append_nil]
      rfl
    rw [landOrPark, if_neg (fun h => h.1 hmissed), hall, postMisses, if_pos (by rw [hmissed]; rfl)]
  have hend : endFlight u = u.modConv (fun c => { c with
      flight := none, forming := [], stored := [], missed := [], missEntry := 0, expired := false, block := none }) :=
    endFlight_eq hlate
  unfold retired retireConvoy
  rw [hland _ rfl rfl, endRecords_off _ _ ht, hend]
  simp only [State.modConv, State.modCore, afterConvoy_one h]
  exact if_neg (by simp [hstep])

theorem ElementWord.Describes.ne_vbend (h : w.Describes i s) : i ≠ .vbend := by
  rintro rfl
  obtain hc | hc := h.cls s <;> cases hc

/-- The cells and the bits of masks of the elements below VL. -/
def ElementWord.cellsBelow (w : ElementWord) (i : Instr) (s : State) (k : Nat) : Prop := ∃ e, e < s.vl ∧ w.cellsAt i e s k
def maskBitsBelow (i : Instr) (s : State) (k : Nat) : Prop := ∃ e, e < s.vl ∧ maskBitsAt i e k

theorem ElementWord.cellsAt_congr (h : t.core.conv.table = s.core.conv.table) (e k : Nat) :
    w.cellsAt i e t k ↔ w.cellsAt i e s k := by
  simp only [cellsAt, holdsElement, shapeAt, h]

theorem ElementWord.Describes.before_changes (h : w.Describes i s) (hb : s.Boundary) {n : Nat}
    (hn : n ≤ s.vl - s.core.conv.startK.toNat) :
    Changes (w.cellsBelow i s) (maskBitsBelow i s) (issued i s) (w.before i n s) := by
  induction n with
  | zero => exact .refl _
  | succ n ih =>
    have hrun : Changes (w.cellsBelow i s) (maskBitsBelow i s) (issued i s) (w.running i n s) :=
      (ih (by omega)).trans (.wake _ _)
    have htable : (w.running i n s).core.conv.table = s.core.conv.table := by
      rw [hrun.table, issued_eq i s hb.trace]; rfl
    have hbelow : s.core.conv.startK.toNat + n < s.vl := by omega
    rw [before_succ]
    refine hrun.trans ((h.changes (h.before_setting hb n).running _).mono (fun k hk => ?_) fun k hk => ⟨_, hbelow, hk⟩)
    exact ⟨_, hbelow, (cellsAt_congr htable _ k).mp hk⟩

/-- A run that changes no more than cells, bits of masks and what goes with them is followed by a retirement that leaves
the rest. -/
theorem Changes.vectorFrame {cells bits : Nat → Prop} (h : Changes cells bits (issued i s) u) (hb : s.Boundary)
    (hi : i ≠ .vbend) {mask : Option Nat} (hm : ∀ m e, e < 8192 → mask ≠ some m → ¬bits (8192 * m + e)) :
    VectorFrame cells mask s (retired i [] [] u) := by
  have hu := h.state
  have hplane := h.plane
  have hmasks := h.masks
  rw [issued_eq i s hb.trace] at hu hplane hmasks
  have hretired := retired_eq (u := u) hi (by rw [hu]; rfl) (by rw [hu]; rfl) (by rw [hu]; exact hb.trace) (by rw [hu]; exact hb.step)
  rw [hretired]
  refine ⟨?_, ?_, ?_, ?_, ?_, hplane, fun m e he hne => congrArg (m == 0 || ·) (hmasks _ (hm m e he hne))⟩
  all_goals
    rw [hu]
  · rfl
  · exact ⟨rfl, rfl, rfl, rfl, rfl, rfl⟩
  · exact ⟨rfl, rfl, rfl, rfl⟩
  · exact ⟨rfl, rfl, rfl, rfl, rfl⟩
  · exact ⟨rfl, rfl, rfl, rfl⟩

theorem VectorFrame.mono {cells cells' : Nat → Prop} {mask : Option Nat} (h : VectorFrame cells mask s t)
    (hc : ∀ k, cells k → cells' k) : VectorFrame cells' mask s t :=
  { h with plane := fun k hk => h.plane k (mt (hc k) hk) }

/-- Alone in its convoy the word changes the elements of vd, or of its mask, below VL. -/
theorem ElementWord.Describes.frame (h : w.Describes i s) (hb : s.Boundary) (hvl : s.vl ≤ 8192) :
    VectorFrame (w.cellsBelow i s) (maskTarget i) s (retired i [] [] (w.all i s)) := by
  refine (h.before_changes hb le_rfl).vectorFrame hb h.ne_vbend fun m e he hne hbits => ?_
  obtain ⟨j, hj, d, hd, heq⟩ := hbits
  have hmd : d = m := by omega
  exact hne (hmd ▸ hd)

end Frame

/-- Settles O42: the word completes with what its elements below VL do, and each of them changes its own cells, or its own
bit of the mask. -/
theorem elementFrame : Obligations.ElementFrame := by
  unfold Obligations.ElementFrame
  intro i s t w hw hb hc hi hv hvl hn ht
  have hd : w.Describes i s := by
    obtain h | h | h | h | h | h := hw
    · exact integerWord_describes h
    · exact bitsWord_describes h
    · exact floatWord_describes h
    · exact compareWord_describes h
    · exact convertWord_describes h
    · exact permuteWord_describes h
  rw [(hd.completes hb hc hi hv hn).1] at ht
  cases ht
  refine (hd.frame hb hvl).mono fun k hk => ?_
  obtain ⟨e, he, ⟨hm, n, hhead, hcell⟩ | ⟨hx, hcell⟩⟩ := hk
  · exact .inl ⟨hm, n, hhead, e, he, hcell⟩
  · exact .inr ⟨hx, e / 32, by omega, hcell⟩

end Sys2Proof.Machine

namespace Sys2Proof.Machine

/-! ### Reductions in the order of lanes (04_numbers.md R106, R107)

A property of the elements taken in so far and of the partial result, kept by each operation, holds of all the elements
and of the result: the order of lanes takes in every element once. -/

/-- A property of elements and a partial result that an operation of a reduction keeps. -/
structure Reduces (op : Nat → Nat → Nat × FlagSet) (R : Multiset Nat → Partial → Prop) : Prop where
  absent : R 0 (none, 0)
  step : ∀ {l l' p p'}, R l p → R l' p' → R (l + l') (redStep op p p')

/-- The property holds of n lanes that together have taken in some elements. -/
def HoldsOfLanes (R : Multiset Nat → Partial → Prop) (n : Nat) (all : Multiset Nat) (l : List Partial) : Prop :=
  ∃ part : Nat → Multiset Nat, (∀ i, i < n → R (part i) (l.getD i (none, 0))) ∧ ∑ i ∈ Finset.range n, part i = all

section Lanes

variable {op : Nat → Nat → Nat × FlagSet} {R : Multiset Nat → Partial → Prop} {all : Multiset Nat} {vl : Nat}
  {part : Nat → Multiset Nat} {get : Nat → Partial}

/-- One lane takes in every 64th element below VL. -/
theorem Reduces.lane (h : Reduces op R) (hget : ∀ j, j < vl → R (part j) (get j)) (i n : Nat) :
    R (∑ g ∈ Finset.range n, if i + 64 * g < vl then part (i + 64 * g) else 0)
      ((List.range n).foldl (fun acc g => if i + 64 * g < vl then redStep op acc (get (i + 64 * g)) else acc) (none, 0)) := by
  induction n with
  | zero => exact h.absent
  | succ n ih =>
    rw [Finset.sum_range_succ, List.range_succ, List.foldl_append]
    simp only [List.foldl_cons, List.foldl_nil]
    split
    · next hlt => exact h.step ih (hget _ hlt)
    · rw [add_zero]; exact ih

/-- The lanes take in every element once. -/
theorem sum_lanes (part : Nat → Multiset Nat) (n : Nat) :
    ∑ i ∈ Finset.range 64, ∑ g ∈ Finset.range n, part (i + 64 * g) = ∑ j ∈ Finset.range (64 * n), part j := by
  induction n with
  | zero => simp
  | succ n ih =>
    simp only [Finset.sum_range_succ _ n, Finset.sum_add_distrib, ih]
    rw [Nat.mul_succ, Finset.sum_range_add]
    simp only [Nat.add_comm]

theorem sum_lanes_below (part : Nat → Multiset Nat) (vl : Nat) :
    ∑ i ∈ Finset.range 64, ∑ g ∈ Finset.range ((vl + 63) / 64), (if i + 64 * g < vl then part (i + 64 * g) else 0)
      = ∑ j ∈ Finset.range vl, part j := by
  rw [sum_lanes (fun j => if j < vl then part j else 0), ← Finset.sum_filter]
  congr 1
  ext j
  simp only [Finset.mem_filter, Finset.mem_range]
  omega

theorem getD_map_range {n i : Nat} (f : Nat → Partial) (hi : i < n) : ((List.range n).map f).getD i (none, 0) = f i := by
  simp [List.getD, hi]

/-- Half of the lanes take in what the other half holds. -/
theorem HoldsOfLanes.halve (h : Reduces op R) {d : Nat} {l : List Partial} (hl : HoldsOfLanes R (d + d) all l) :
    HoldsOfLanes R d all (redFold op d l) := by
  obtain ⟨part, hpart, rfl⟩ := hl
  refine ⟨fun i => part i + part (i + d), fun i hi => ?_, ?_⟩
  · rw [redFold, getD_map_range _ hi]
    exact h.step (hpart _ (by omega)) (hpart _ (by omega))
  · rw [Finset.sum_range_add, Finset.sum_add_distrib]
    simp only [Nat.add_comm]

theorem HoldsOfLanes.first {l : List Partial} (hl : HoldsOfLanes R 1 all l) : R all (l.getD 0 (none, 0)) := by
  obtain ⟨part, hpart, rfl⟩ := hl
  rw [Finset.sum_range_one]
  exact hpart 0 Nat.one_pos

/-- The order of lanes takes in every element below VL. -/
theorem Reduces.laneOrder (h : Reduces op R) (hget : ∀ j, j < vl → R (part j) (get j)) :
    R (∑ j ∈ Finset.range vl, part j) (laneOrder op vl get) := by
  have hlanes : HoldsOfLanes R (32 + 32) (∑ j ∈ Finset.range vl, part j) ((List.range 64).map (fun l =>
      (List.range ((vl + 63) / 64)).foldl (fun acc g =>
        if l + 64 * g < vl then redStep op acc (get (l + 64 * g)) else acc) (none, 0))) :=
    ⟨_, fun i hi => by rw [getD_map_range _ hi]; exact h.lane hget i _, sum_lanes_below part vl⟩
  have h16 : HoldsOfLanes R (16 + 16) _ _ := hlanes.halve h
  have h8 : HoldsOfLanes R (8 + 8) _ _ := h16.halve h
  have h4 : HoldsOfLanes R (4 + 4) _ _ := h8.halve h
  have h2 : HoldsOfLanes R (2 + 2) _ _ := h4.halve h
  have h1 : HoldsOfLanes R (1 + 1) _ _ := h2.halve h
  exact (h1.halve h).first

end Lanes

/-! #### Integer sums and extremes -/

/-- The sum modulo 2^w. -/
def SumsTo (w : Nat) (l : Multiset Nat) (p : Partial) : Prop := p = (if l = 0 then none else some (l.sum % 2 ^ w), 0)

theorem reduces_sum (w : Nat) : Reduces (fun x y => ((x + y) % 2 ^ w, 0)) (SumsTo w) where
  absent := rfl
  step := by
    rintro l l' p p' rfl rfl
    by_cases hl : l = 0 <;> by_cases hl' : l' = 0 <;>
      simp [SumsTo, redStep, hl, hl', Nat.add_mod]

/-- Some element that none exceeds, or that exceeds none. -/
def Picks (greater : Bool) (value : Nat → Int) (l : Multiset Nat) (p : Partial) : Prop :=
  l = 0 ∧ p = (none, 0) ∨ ∃ x ∈ l, p = (some x, 0) ∧ ∀ y ∈ l, if greater then value y ≤ value x else value x ≤ value y

theorem Picks.single (greater : Bool) (value : Nat → Int) (x : Nat) : Picks greater value {x} (some x, 0) := by
  refine .inr ⟨x, Multiset.mem_singleton_self x, rfl, fun y hy => ?_⟩
  rw [Multiset.mem_singleton.mp hy, ite_self]

theorem reduces_extreme (greater : Bool) (value : Nat → Int) :
    Reduces (fun x y => (if (value x < value y) = greater then y else x, 0)) (Picks greater value) where
  absent := .inl ⟨rfl, rfl⟩
  step := by
    rintro l l' p p' (⟨rfl, rfl⟩ | ⟨x, hx, rfl, hl⟩) h'
    · rw [zero_add]
      obtain ⟨rfl, rfl⟩ | ⟨y, hy, rfl, hl'⟩ := h'
      · exact .inl ⟨rfl, rfl⟩
      · exact .inr ⟨y, hy, by simp [redStep], hl'⟩
    · obtain ⟨rfl, rfl⟩ | ⟨y, hy, rfl, hl'⟩ := h'
      · rw [add_zero]; exact .inr ⟨x, hx, by simp [redStep], hl⟩
      · refine .inr ⟨if (value x < value y) = greater then y else x, ?_, by simp [redStep], fun z hz => ?_⟩
        · rw [Multiset.mem_add]
          split
          · exact .inr hy
          · exact .inl hx
        · have hbound := (Multiset.mem_add.mp hz).imp (hl z) (hl' z)
          cases greater <;> simp only [Bool.false_eq_true, if_false, if_true, eq_iff_iff, iff_true, iff_false] at hbound ⊢ <;>
            split <;> omega

/-! #### The active elements -/

/-- The elements that take part, each once. -/
theorem sum_active (p : Nat → Bool) (f : Nat → Nat) (n : Nat) :
    ∑ j ∈ Finset.range n, (if p j then {f j} else 0) = ((((List.range n).filter p).map f : List Nat) : Multiset Nat) := by
  induction n with
  | zero => rfl
  | succ n ih =>
    rw [Finset.sum_range_succ, ih, List.range_succ, List.filter_append, List.map_append, ← Multiset.coe_add]
    by_cases h : p n <;> simp [h]

theorem foldl_max_le_iff (l : List Int) (a b : Int) : l.foldl max a ≤ b ↔ a ≤ b ∧ ∀ y ∈ l, y ≤ b := by
  induction l generalizing a with
  | nil => simp
  | cons x l ih => simp [ih, and_assoc]

theorem le_foldl_min_iff (l : List Int) (a b : Int) : b ≤ l.foldl min a ↔ b ≤ a ∧ ∀ y ∈ l, b ≤ y := by
  induction l generalizing a with
  | nil => simp
  | cons x l ih => simp [ih, and_assoc]

/-- The greatest, or the least, is what it is picked for. -/
theorem foldl_max_eq {l : List Int} {a x : Int} (hx : x ∈ l) (ha : a ≤ x) (hl : ∀ y ∈ l, y ≤ x) : l.foldl max a = x :=
  le_antisymm ((foldl_max_le_iff _ _ _).mpr ⟨ha, hl⟩) (((foldl_max_le_iff _ _ _).mp le_rfl).2 x hx)

theorem foldl_min_eq {l : List Int} {a x : Int} (hx : x ∈ l) (ha : x ≤ a) (hl : ∀ y ∈ l, x ≤ y) : l.foldl min a = x :=
  le_antisymm (((le_foldl_min_iff _ _ _).mp le_rfl).2 x hx) ((le_foldl_min_iff _ _ _).mpr ⟨ha, hl⟩)

section Integers

variable {t : IntTy} {x : Nat}

/-- Bits of the width are the bits of their value. -/
theorem IntTy.bits_value (hx : x < 2 ^ t.width) : t.bits (t.value x) = x := by
  have hmod : ((x : Int) % 2 ^ t.width).toNat = x := by
    have : ((x : Int) % 2 ^ t.width) = ((x % 2 ^ t.width : Nat) : Int) := by push_cast; rfl
    rw [this, Int.toNat_natCast, Nat.mod_eq_of_lt hx]
  unfold IntTy.bits IntTy.value
  split
  · rw [Int.sub_emod_right]; exact hmod
  · exact hmod

theorem IntTy.value_mem (hw : 0 < t.width) (hx : x < 2 ^ t.width) : t.lo ≤ t.value x ∧ t.value x ≤ t.hi := by
  have htwo : (2 : Nat) ^ t.width = 2 ^ (t.width - 1) * 2 := by rw [← Nat.pow_succ, Nat.succ_eq_add_one, Nat.sub_add_cancel hw]
  have hcast : ((2 : Int) ^ t.width) = ((2 ^ (t.width - 1) * 2 : Nat) : Int) := by rw [← htwo]; push_cast; rfl
  have hhalf : ((2 : Int) ^ (t.width - 1)) = ((2 ^ (t.width - 1) : Nat) : Int) := by push_cast; rfl
  unfold IntTy.value IntTy.lo IntTy.hi
  rw [hcast, hhalf]
  rw [htwo] at hx
  generalize 2 ^ (t.width - 1) = h at *
  cases t.signed
  · simp; omega
  · simp only [true_and, if_true]
    split <;> omega

end Integers

end Sys2Proof.Machine

namespace Sys2Proof.Machine

/-! ### A word that runs as a whole completes (05_convoy.md R111, R115) -/

/-- What words that run as a whole read of a state besides the plane, the masks and the queues. -/
structure SameOperands (s t : State) : Prop extends SameSetting s t where
  k : t.core.conv.k = s.core.conv.k
  kept : t.core.conv.failedStore = s.core.conv.failedStore
  coreId : t.coreId = s.coreId
  mem : t.mem = s.mem
  poison : t.poison = s.poison

/-- A word that runs as a whole, as its member has it: how it meets the convoy, and what it does in the state in which it
runs when no arithmetic trap is enabled. -/
structure WholeWord.Describes (w : WholeWord) (i : Instr) (s : State) : Prop where
  vector : exec i s = vectorWord i s
  cls : ∀ t, (memberOf i t).cls ≠ .e ∧ (memberOf i t).cls ≠ .p
  paired : w.fits → (memberOf i s).paired = true
  settled : (memberOf i s).settled = true
  check : (memberOf i s).check = none
  ready : (memberOf i s).ready = true
  shapes : w.fits → (∀ n ∈ w.named, n.holds s) → shapeFault (memberOf i s) s = none
  pops : w.fits → (memberOf i s).pops ≤ s.core.q.dq.length
  pushes : w.fits → (memberOf i s).pushes ≤ 32 - s.core.q.rq.length
  run : w.fits → s.Boundary → s.core.conv.vctl = 0 → (memberOf i (issued i s)).run (running i s)
    = .ok (w.effect (running i s)) (w.scalars (running i s)) (w.entries (running i s))
  trace : (w.effect (running i s)).core.trace = (running i s).core.trace
  kept : w.entries (running i s) = [] ∨ (w.effect (running i s)).core.conv.failedStore = (running i s).core.conv.failedStore

section Whole

variable {w : WholeWord} {i : Instr} {s : State}

theorem SameOperands.running (hb : s.Boundary) : SameOperands s (running i s) := by
  have hrunning : Machine.running i s = (issued i s).modConv (fun c => { c with planepwr := (Machine.running i s).core.conv.planepwr }) := rfl
  rw [hrunning, issued_eq i s hb.trace]
  exact ⟨⟨rfl, rfl, rfl, rfl⟩, rfl, rfl, rfl, rfl, rfl⟩

/-- What a member does in every state of the operands it does in the state in which it runs. -/
theorem run_of_operands (hr : ∀ {r t}, SameSetting s r → SameOperands s t → t.core.conv.vctl = 0 →
      (memberOf i r).run t = .ok (w.effect t) (w.scalars t) (w.entries t)) (hb : s.Boundary) (hv : s.core.conv.vctl = 0) :
    (memberOf i (issued i s)).run (Machine.running i s) = .ok (w.effect (Machine.running i s))
      (w.scalars (Machine.running i s)) (w.entries (Machine.running i s)) :=
  hr (.issued i hb) (.running hb) ((SameOperands.running hb).vctl.trans hv)

/-- Alone in its convoy the word issues, and then runs and retires. -/
theorem WholeWord.Describes.completes (h : w.Describes i s) (hb : s.Boundary) (hc : endsConvoy i) (hf : w.fits)
    (hv : s.core.conv.vctl = 0) (hn : ∀ n ∈ w.named, n.holds s) :
    exec i s = .next (w.completed i s) ∧ runConvoy (issued i s) = .next (w.completed i s) := by
  have hoperands : SameOperands s (Machine.running i s) := .running hb
  have hready := convoyReady_alone i hb h.ready (h.pops hf) (h.pushes hf)
  have hcompletes : vectorWord i s = .next (w.completed i s) := by
    refine completes_whole i s _ _ _ hb hc (h.paired hf) h.settled (h.shapes hf hn) h.check hready (h.cls _)
      (h.run hf hb hv) ?_ (h.trace.trans hoperands.trace)
    exact h.kept.imp_right fun hk => hk.trans (hoperands.kept.trans hb.kept)
  have hissues := vectorWord_alone i s hb hc (h.paired hf) h.settled (h.shapes hf hn) h.check hready
  exact ⟨(h.vector).trans hcompletes, hissues.symm.trans hcompletes⟩

theorem completesWhole_of_describes {word : Instr → State → Option WholeWord}
    (h : ∀ {i s w}, word i s = some w → w.Describes i s) : CompletesWhole word :=
  fun _ _ _ hw hb hc hf hv hn => ((h hw).completes hb hc hf hv hn).1

end Whole

/-! ### The reductions (R132) -/

section Reduction

variable {i : Instr} {s : State} {d a : BitVec 6} {m : BitVec 3}

/-- What a reduction comes to, over the bits of the active elements. -/
def reducedBy (tree : Bool) (op : Conv → Nat → Nat → Nat × FlagSet) (get : Conv → Nat → Nat × FlagSet) (empty : Conv → Nat)
    (a : BitVec 6) (m : BitVec 3) (u : State) : Nat × FlagSet :=
  reduceFloat tree (op u.core.conv) (empty u.core.conv) (leavesOf a m (get u.core.conv) u) u

variable {tree : Bool} {op : Conv → Nat → Nat → Nat × FlagSet} {get : Conv → Nat → Nat × FlagSet} {empty : Conv → Nat}
  {put : Nat → State → State}

theorem reduction_run {t : State} {p : Bool} (hv : t.core.conv.vctl = 0) :
    (reduction s d.toNat a.toNat m.toNat p tree op get empty put).run t
      = .ok (raiseFlags (reducedBy tree op get empty a m t).2 (put (reducedBy tree op get empty a m t).1 t)) [] [] := by
  refine Eq.trans ?_ (finishElem_quiet d.toNat _ _ t hv)
  rfl

/-- A write of the result that changes the plane alone. -/
def WritesPlane (put : Nat → State → State) : Prop :=
  ∀ x t, (put x t).core.trace = t.core.trace ∧ (put x t).core.conv.failedStore = t.core.conv.failedStore

theorem putFirst_writesPlane (d : Nat) : WritesPlane (putFirst d) := by
  intro x t
  rw [putFirst, elemSet_eq]
  exact ⟨rfl, rfl⟩

/-- A word whose member is a reduction, and which writes what it comes to. -/
theorem reduction_describes {pairs : Nat → Bool} {types : Nat → Prop} (hp : ∀ t, pairs t = true ↔ types t)
    {r : State → Nat × FlagSet} (hv : exec i s = vectorWord i s)
    (hm : ∀ s, memberOf i s = reduction s d.toNat a.toNat m.toNat (pairs s.core.conv.type) tree op get empty put)
    (hput : WritesPlane put) (hr : ∀ u, r u = reducedBy tree op get empty a m u) :
    WholeWord.Describes { onReduce s d a (types s.core.conv.type) r with
      effect := fun u => raiseFlags (r u).2 (put (r u).1 u) } i s where
  vector := hv
  cls := fun t => by rw [hm]; exact ⟨nofun, nofun⟩
  paired := fun hf => by rw [hm]; exact (hp _).mpr hf
  settled := by rw [hm]; rfl
  check := by rw [hm]; rfl
  ready := by rw [hm]; rfl
  shapes := fun _ hn => by
    rw [hm]
    exact Member.Asks.shapeFault_eq_none (l := [⟨d.toNat, s.core.conv.ew, 0⟩, ⟨a.toNat, s.core.conv.ew, s.vl⟩])
      ⟨rfl, rfl, rfl, rfl, rfl⟩ hn
  pops := fun _ => by rw [hm]; exact Nat.zero_le _
  pushes := fun _ => by rw [hm]; exact Nat.zero_le _
  run := fun _ => run_of_operands fun _ _ hv => by rw [hm, reduction_run hv]; simp only [hr]; rfl
  trace := (hput _ _).1
  kept := .inr (hput _ _).2

/-! #### The integer reductions -/

/-- The bits of the elements that take part. -/
theorem sum_activeBits (u : State) : ∑ j ∈ Finset.range u.vl, (if maskBit m.toNat j u = true then {under a j u} else 0)
    = (activeBits a m u : Multiset Nat) := sum_active _ _ _

/-- What a property of elements and a result says of an integer reduction. -/
theorem reduces_activeBits {op : Nat → Nat → Nat × FlagSet} {R : Multiset Nat → Partial → Prop} (h : Reduces op R) (u : State)
    (hleaf : ∀ x, x < 2 ^ u.core.conv.ew → R {x} (some x, 0)) :
    R (activeBits a m u) (laneOrder op u.vl (leavesOf a m (rawLeaf u.core.conv) u)) := by
  rw [← sum_activeBits]
  refine h.laneOrder fun j _ => ?_
  unfold leavesOf
  split
  · exact hleaf _ (elemGet_lt _ _ _ _)
  · exact h.absent

theorem isum_reduced (u : State) : ((activeBits a m u).sum % 2 ^ u.core.conv.ew, (0 : FlagSet))
    = reducedBy false (fun c x y => ((x + y) % 2 ^ c.ew, 0)) rawLeaf (fun _ => 0) a m u := by
  have h := reduces_activeBits (a := a) (m := m) (reduces_sum u.core.conv.ew) u fun x hx => by
    simp [SumsTo, Nat.mod_eq_of_lt hx]
  simp only [SumsTo, Multiset.coe_eq_zero, Multiset.sum_coe] at h
  show _ = ((laneOrder _ u.vl _).1.getD 0, (laneOrder _ u.vl _).2)
  rw [h]
  split
  · next hnil => rw [hnil]; rfl
  · rfl

theorem activeBits_lt {u : State} {x : Nat} (h : x ∈ activeBits a m u) : x < 2 ^ u.core.conv.ew := by
  obtain ⟨j, -, rfl⟩ := List.mem_map.mp h
  exact elemGet_lt _ _ _ _

theorem ewOf_pos (t : Nat) : 0 < ewOf t := by unfold ewOf; split <;> decide

theorem intTyOf_value_mem {c : Conv} {x : Nat} (hx : x < 2 ^ c.ew) :
    (intTyOf c.type).lo ≤ (intTyOf c.type).value x ∧ (intTyOf c.type).value x ≤ (intTyOf c.type).hi :=
  IntTy.value_mem (ewOf_pos _) hx

theorem imax_reduced (u : State) :
    ((intTyOf u.core.conv.type).bits (((activeBits a m u).map (intTyOf u.core.conv.type).value).foldl max
      (intTyOf u.core.conv.type).lo), (0 : FlagSet))
    = reducedBy false (fun c x y => (if ((intTyOf c.type).value x < (intTyOf c.type).value y) = true then y else x, 0)) rawLeaf
        (fun c => (intTyOf c.type).bits (intTyOf c.type).lo) a m u := by
  have h := reduces_activeBits (a := a) (m := m) (reduces_extreme true (intTyOf u.core.conv.type).value) u fun x _ => Picks.single _ _ x
  show _ = ((laneOrder _ u.vl _).1.getD _, (laneOrder _ u.vl _).2)
  obtain ⟨hnil, h⟩ | ⟨x, hx, h, hmax⟩ := h
  · rw [h, (Multiset.coe_eq_zero _).mp hnil]; rfl
  · have hlt := activeBits_lt hx
    rw [h, foldl_max_eq (List.mem_map_of_mem hx) (intTyOf_value_mem hlt).1 (List.forall_mem_map.mpr hmax),
      IntTy.bits_value hlt]
    rfl

theorem imin_reduced (u : State) :
    ((intTyOf u.core.conv.type).bits (((activeBits a m u).map (intTyOf u.core.conv.type).value).foldl min
      (intTyOf u.core.conv.type).hi), (0 : FlagSet))
    = reducedBy false (fun c x y => (if ((intTyOf c.type).value x < (intTyOf c.type).value y) = false then y else x, 0)) rawLeaf
        (fun c => (intTyOf c.type).bits (intTyOf c.type).hi) a m u := by
  have h := reduces_activeBits (a := a) (m := m) (reduces_extreme false (intTyOf u.core.conv.type).value) u fun x _ => Picks.single _ _ x
  show _ = ((laneOrder _ u.vl _).1.getD _, (laneOrder _ u.vl _).2)
  obtain ⟨hnil, h⟩ | ⟨x, hx, h, hmin⟩ := h
  · rw [h, (Multiset.coe_eq_zero _).mp hnil]; rfl
  · have hlt := activeBits_lt hx
    rw [h, foldl_min_eq (List.mem_map_of_mem hx) (intTyOf_value_mem hlt).2 (List.forall_mem_map.mpr hmin),
      IntTy.bits_value hlt]
    rfl

end Reduction

theorem reductionWord_describes {i : Instr} {s : State} {w : WholeWord} (h : reductionWord i s = some w) :
    w.Describes i s := by
  unfold reductionWord at h
  split at h <;> cases h
  case h_1 => exact reduction_describes isI_iff rfl (fun _ => rfl) (putFirst_writesPlane _) isum_reduced
  case h_2 => exact reduction_describes isI_iff rfl (fun _ => rfl) (putFirst_writesPlane _) imax_reduced
  case h_3 => exact reduction_describes isI_iff rfl (fun _ => rfl) (putFirst_writesPlane _) imin_reduced
  case h_4 =>
    exact reduction_describes (tree := true) (op := fun c x y => fAdd c.rnd (c.rnd.fmt.decode x) (c.rnd.fmt.decode y))
      (get := rawLeaf) (empty := fun _ => 0) isF_iff rfl (fun _ => rfl) (putFirst_writesPlane _) (fun _ => rfl)
  case h_5 | h_6 =>
    exact reduction_describes (tree := false)
      (op := fun c x y => fMinMax c.rnd.fmt _ (c.rnd.fmt.decode x) (c.rnd.fmt.decode y) x y)
      (get := rawLeaf) (empty := fun c => c.rnd.fmt.nanRaw) isF_iff rfl (fun _ => rfl) (putFirst_writesPlane _) (fun _ => rfl)
  case h_7 d a m c =>
    exact reduction_describes (tree := true) (op := fun c x y => fAdd ⟨fp32, c.rm, c.sat⟩ (fp32.decode x) (fp32.decode y))
      (get := fun c x => if c.type = 0 then (x, 0) else convertTo 0 c.rm c.sat (typeVal c.type x)) (empty := fun _ => 0)
      (put := fun x u => writeCell (shapeAt d.toNat u).row0 (shapeAt d.toNat u).col0 (.ofNat 32 x) u)
      isF_iff rfl (fun _ => rfl) (fun _ _ => ⟨rfl, rfl⟩) (fun _ => rfl)

end Sys2Proof.Machine

namespace Sys2Proof.Machine

/-! ### The words of convoy scalars, of rq and of masks, and the settings (R133 to R135; 03_plane.md R69 to R79) -/

/-- The effect of a word changes neither what is traced nor the record of a discarded store. -/
def KeepsRecords (f : State → State) : Prop :=
  ∀ t, (f t).core.trace = t.core.trace ∧ (f t).core.conv.failedStore = t.core.conv.failedStore

section Whole

variable {i : Instr} {s : State} {w : WholeWord}

/-- A word that pairs with every type, whose member asks for no more than R83 for its shapes and room in the queues. -/
theorem whole_describes (hv : exec i s = vectorWord i s) (hc : ∀ t, (memberOf i t).cls ≠ .e ∧ (memberOf i t).cls ≠ .p)
    (hp : (memberOf i s).paired = true) (ha : (memberOf i s).Asks w.named)
    (hq : w.fits → (memberOf i s).pops ≤ s.core.q.dq.length ∧ (memberOf i s).pushes ≤ 32 - s.core.q.rq.length)
    (hr : w.fits → ∀ r t, SameOperands s t → (memberOf i r).run t = .ok (w.effect t) (w.scalars t) (w.entries t))
    (hk : KeepsRecords w.effect) : w.Describes i s where
  vector := hv
  cls := hc
  paired := fun _ => hp
  settled := ha.settled
  check := ha.check
  ready := ha.ready
  shapes := fun _ => ha.shapeFault_eq_none
  pops := fun hf => (hq hf).1
  pushes := fun hf => (hq hf).2
  run := fun hf => run_of_operands fun _ ho _ => hr hf _ _ ho
  trace := (hk _).1
  kept := .inr (hk _).2

/-- One that takes nothing from a queue. -/
theorem setting_describes (hv : exec i s = vectorWord i s) (hc : ∀ t, (memberOf i t).cls ≠ .e ∧ (memberOf i t).cls ≠ .p)
    (hp : (memberOf i s).paired = true) (ha : (memberOf i s).Asks w.named)
    (hq : (memberOf i s).pops = 0 ∧ (memberOf i s).pushes = 0)
    (hr : w.fits → ∀ r t, SameOperands s t → (memberOf i r).run t = .ok (w.effect t) (w.scalars t) (w.entries t))
    (hk : KeepsRecords w.effect) : w.Describes i s :=
  whole_describes hv hc hp ha (fun _ => ⟨by omega, by omega⟩) hr hk

end Whole

theorem keepsRecords_onSetting {f : State → Conv → Conv} (h : ∀ u c, (f u c).failedStore = c.failedStore) :
    KeepsRecords (onSetting f).effect := fun t => ⟨rfl, h t _⟩

theorem keepsRecords_id : KeepsRecords (fun t => t) := fun _ => ⟨rfl, rfl⟩

/-- The lowest 1 bit of a mask below VL heads the list of them. -/
theorem maskFirst_eq (a : BitVec 3) (u : State) : maskFirst a.toNat u = match onesOf a u with
    | [] => .ofInt 64 (-1)
    | j :: _ => .ofNat 64 j := by
  unfold maskFirst onesOf
  rw [← List.head?_filter]
  cases (List.range u.vl).filter (fun j => maskBit a.toNat j u) <;> rfl

theorem scalarWord_describes {i : Instr} {s : State} {w : WholeWord} (h : scalarWord i s = some w) : w.Describes i s := by
  unfold scalarWord at h
  split at h <;> cases h
  -- VKADD and its register form
  case h_1 | h_2 =>
    exact setting_describes rfl (fun _ => ⟨nofun, nofun⟩) rfl ⟨rfl, rfl, rfl, rfl, rfl⟩ ⟨rfl, rfl⟩ (fun _ _ _ _ => rfl)
      keepsRecords_id
  -- VKPOP takes an entry of dq
  case h_3 =>
    exact whole_describes rfl (fun _ => ⟨nofun, nofun⟩) rfl ⟨rfl, rfl, rfl, rfl, rfl⟩
      (fun hf => ⟨List.length_pos_iff.mpr hf, Nat.zero_le _⟩) (fun _ _ _ _ => rfl) (fun _ => ⟨rfl, rfl⟩)
  -- VKGET
  case h_4 d a c =>
    refine setting_describes rfl (fun _ => ⟨nofun, nofun⟩) rfl ⟨rfl, rfl, rfl, rfl, rfl⟩ ⟨rfl, rfl⟩ (fun _ r t _ => ?_)
      keepsRecords_id
    show (kgetMember r d.toNat a.toNat).run t = _
    simp only [kgetMember, isI, decide_eq_true_eq]
    rfl
  -- the words that push
  case h_5 | h_6 =>
    exact whole_describes rfl (fun _ => ⟨nofun, nofun⟩) rfl ⟨rfl, rfl, rfl, rfl, rfl⟩
      (fun hf => ⟨Nat.zero_le _, Nat.sub_pos_of_lt hf⟩) (fun _ _ _ _ => rfl) keepsRecords_id
  case h_7 a c =>
    exact whole_describes rfl (fun _ => ⟨nofun, nofun⟩) rfl ⟨rfl, rfl, rfl, rfl, rfl⟩
      (fun hf => ⟨Nat.zero_le _, Nat.sub_pos_of_lt hf⟩)
      (fun _ _ t _ => congrArg (fun v => Step.ok t [] [v]) (maskFirst_eq a t)) keepsRecords_id

/-! #### The settings -/

section Tables

variable {s t : State} {k : BitVec 3} {read : Bool}

theorem SameOperands.readK (h : SameOperands s t) (n : Nat) : readK n t = readK n s := congrArg (spGet 0 · n) h.k

theorem SameOperands.tableEntry (h : SameOperands s t) (a : Word) (j : Nat) : tableEntry t a j = tableEntry s a j := by
  simp only [Machine.tableEntry, readMem64, readMem, readByte, h.coreId, h.mem]

/-- A table that is reached raises nothing. -/
theorem SameOperands.tableFault (h : SameOperands s t) (hr : tableReaches k read s) :
    tableFault t (Machine.readK k.toNat s) (!read) = none := by
  obtain ⟨halign, hrange, hdata⟩ := hr
  have hpoison : poisoned t (tcmKey t.coreId (Machine.readK k.toNat s).toNat) 512
      = poisoned s (tcmKey s.coreId (Machine.readK k.toNat s).toNat) 512 := by
    simp only [poisoned, h.coreId, h.poison]
  unfold Machine.tableFault
  rw [if_neg (not_not_intro halign), if_neg (by omega), hpoison]
  cases read
  · rfl
  · simp [hdata rfl]

theorem storeMem_core (key n v : Nat) (s : State) : (storeMem key n v s).core = s.core := by
  rw [storeMem_eq]

theorem foldl_core {g : State → Nat → State} (hg : ∀ t j, (g t j).core = t.core) (l : List Nat) (s : State) :
    (l.foldl g s).core = s.core := by
  induction l generalizing s with
  | nil => rfl
  | cons j l ih => rw [List.foldl_cons, ih, hg]

end Tables

/-- VLEN of a shape asks the first two conditions of R83 of it alone. -/
theorem vlenShape_describes (s : State) (a : BitVec 6) (k : BitVec 3) :
    WholeWord.Describes { onLength k (capUnder a) with
      fits := (shapeAt a.toNat s).kind ≠ 0 ∧ shapeTypeBad (shapeAt a.toNat s) s.core.conv.ew = false } (.vlenShape a k) s where
  vector := rfl
  cls := fun _ => ⟨nofun, nofun⟩
  paired := fun _ => rfl
  settled := rfl
  check := rfl
  ready := rfl
  shapes := fun hf _ => by
    refine shapeFault_none _ s fun u hu => ?_
    obtain rfl := List.mem_singleton.mp hu
    exact ⟨hf.1, hf.2, nofun, nofun⟩
  pops := fun _ => Nat.zero_le _
  pushes := fun _ => Nat.zero_le _
  run := fun _ _ _ => rfl
  trace := rfl
  kept := .inr rfl

/-- VTLD tests every entry before it writes one. -/
theorem vtld_describes {s : State} {k : BitVec 3} {w : WholeWord} (h : settingWord (.vtld k) s = some w) :
    w.Describes (.vtld k) s := by
  cases h
  refine setting_describes rfl (fun _ => ⟨nofun, nofun⟩) rfl ⟨rfl, rfl, rfl, rfl, rfl⟩ ⟨rfl, rfl⟩ (fun hf r t ho => ?_)
    (keepsRecords_onSetting fun _ _ => rfl)
  obtain ⟨hreach, hvalid⟩ := hf
  have hfault : tableFault t (readK k.toNat t) false = none := by rw [ho.readK]; exact ho.tableFault (read := true) hreach
  have hfind : (List.range 64).find? (fun j => !descValid (tableEntry t (readK k.toNat t) j)) = none := by
    rw [List.find?_eq_none]
    intro j hj
    rw [ho.readK, ho.tableEntry, hvalid j (List.mem_range.mp hj)]
    decide
  show (vtldMember k.toNat).run t = _
  simp only [vtldMember, aloneMember, hfault, hfind]
  rfl

theorem vtst_describes {s : State} {k : BitVec 3} {w : WholeWord} (h : settingWord (.vtst k) s = some w) :
    w.Describes (.vtst k) s := by
  cases h
  refine setting_describes rfl (fun _ => ⟨nofun, nofun⟩) rfl ⟨rfl, rfl, rfl, rfl, rfl⟩ ⟨rfl, rfl⟩ (fun hf r t ho => ?_)
    (fun t => ?_)
  · have hfault : tableFault t (readK k.toNat t) true = none := by rw [ho.readK]; exact ho.tableFault (read := false) hf
    show (vtstMember k.toNat).run t = _
    simp only [vtstMember, aloneMember, hfault]
    rfl
  · have hcore := foldl_core (g := fun u j => storeMem (tcmKey t.coreId ((readK k.toNat t).toNat + 8 * j)) 8
      (spGet 0 t.core.conv.table j).toNat u) (fun _ _ => storeMem_core _ _ _ _) (List.range 64) t
    dsimp only
    rw [hcore]
    exact ⟨rfl, rfl⟩

theorem settingWord_describes {i : Instr} {s : State} {w : WholeWord} (h : settingWord i s = some w) : w.Describes i s := by
  unfold settingWord at h
  split at h <;> cases h
  -- VSETT, VLEN, VSETMT and VBEND
  case h_1 | h_2 | h_4 | h_5 | h_9 =>
    exact setting_describes rfl (fun _ => ⟨nofun, nofun⟩) rfl ⟨rfl, rfl, rfl, rfl, rfl⟩ ⟨rfl, rfl⟩ (fun _ _ _ _ => rfl)
      (fun _ => ⟨rfl, rfl⟩)
  case h_3 a k => exact vlenShape_describes s a k
  -- VDEF
  case h_6 d k =>
    refine setting_describes rfl (fun _ => ⟨nofun, nofun⟩) rfl ⟨rfl, rfl, rfl, rfl, rfl⟩ ⟨rfl, rfl⟩ (fun hf r t ho => ?_)
      (fun _ => ⟨rfl, rfl⟩)
    have hvalid : descValid (readK k.toNat t) = true := by rw [ho.readK]; exact hf
    exact if_pos hvalid
  case h_7 k => exact vtld_describes rfl
  case h_8 k => exact vtst_describes rfl

/-- Settles O44: the members of the three tables run as the formulas say; of an integer reduction the order of lanes gives
the sum, or the extreme, of all the elements. -/
theorem reductionScalarSetting : Obligations.ReductionScalarSetting :=
  ⟨completesWhole_of_describes reductionWord_describes, completesWhole_of_describes scalarWord_describes,
    completesWhole_of_describes settingWord_describes⟩

end Sys2Proof.Machine

namespace Sys2Proof.Machine

/-! ### The turns of the convoy stream (05_convoy.md R117, R135) -/

section Turns

variable {s : State}

theorem live_of_convoyLive (h : s.core.convoyLive = true) :
    s.core.live = true ∧ s.core.steer.chalt = false ∧ s.core.conv.st ≠ .halted := by
  simp only [Core.convoyLive, Bool.and_eq_true, Bool.not_eq_true', bne_iff_ne, ne_eq, and_assoc] at h
  exact h

theorem execBlockPop_of_idle {b : BqEntry} {l : List BqEntry} (hl : s.core.convoyLive = true) (hf : s.inFlight = false)
    (hst : s.core.conv.st = .idle) (hq : s.core.q.bq = b :: l) :
    execBlockPop s = .next (s.modCore (fun c => { c with
      q := { c.q with bq := l }
      conv := if b.trips = 0 then c.conv else { c.conv with cblk := b.addr, cpc := b.addr, lc := b.trips, st := .run } })) := by
  have hpop : popBlock s = s.modCore (fun c => { c with
      q := { c.q with bq := l }
      conv := if b.trips = 0 then c.conv else { c.conv with cblk := b.addr, cpc := b.addr, lc := b.trips, st := .run } }) := by
    unfold popBlock
    rw [hq]
    by_cases ht : b.trips = 0
    · simp only [hst, ht, ne_eq, not_true_eq_false, if_false, if_true]; rfl
    · simp only [hst, ht, ne_eq, not_true_eq_false, if_false]; rfl
  simp [execBlockPop, hl, hf, hpop]

variable {F : ElementForm} {i : Instr}

/-- A convoy of one arithmetic word that waits to issue does. -/
theorem issueConvoy_one (h : Issues F i s) (hb : s.Boundary) : issueConvoy [i] (forms [i] s) = runConvoy (issued i s) := by
  have hall : AllPass [i] [⟨0, memberOf i (forms [i] s)⟩] (forms [i] s) :=
    ⟨slotsOf_one i 0 rfl _, hb.done, List.forall_mem_singleton.mpr (h.passes [i])⟩
  rw [hall.issueConvoy_of_clear hb.trace hb.parked (structureFault_one _) rfl]
  exact congrArg runConvoy ((enterFlight_forming hb.trace).trans (enterFlight_untraced hb.trace).symm)

/-- Nothing at the boundary goes before the convoy, whatever has formed. -/
theorem boundaryHeld_forms (l : List Instr) (hb : s.Boundary) (h : boundaryHeld s = false) : boundaryHeld (forms l s) = false := by
  have hdrains : ∀ u : State, u.core.conv.parked = [] → drains u = false := fun u hu => by rw [drains, hu]; rfl
  rw [boundaryHeld, hdrains s hb.parked] at h
  rw [boundaryHeld, hdrains (forms l s) hb.parked]
  exact h

theorem execConvoyIssue_one (hb : s.Boundary) (hc : endsConvoy i) (hl : s.core.convoyLive = true) (hf : s.inFlight = false)
    (hh : boundaryHeld s = false) : execConvoyIssue (forms [i] s) = issueConvoy [i] (forms [i] s) := by
  have hformed : (forms [i] s).core.conv.formed = true := by
    show (!chained i) = true
    rw [Bool.not_eq_true', Bool.eq_false_iff, ne_eq, chained_iff, not_not]
    exact hc
  have hlive : (forms [i] s).core.convoyLive = true := hl
  have hflight : (forms [i] s).inFlight = false := hf
  simp only [execConvoyIssue, hlive, hflight, hformed, boundaryHeld_forms [i] hb hh]
  rfl

theorem issued_live (i : Instr) (hb : s.Boundary) (hl : s.core.live = true) : (issued i s).core.live = true := by
  rw [issued_eq i s hb.trace]; exact hl

end Turns

/-! ### VWAIT (06_issue.md R159) -/

section Wait

variable {s t : State} {d a : BitVec 6} {e : BitVec 2} {k m : BitVec 3} {w : WholeWord}

theorem SameSetting.afterRead (s : State) (loc : PaLoc) : SameSetting s (s.afterRead loc) := by
  unfold State.afterRead State.clockRead
  split
  · split <;> exact ⟨rfl, rfl, rfl, rfl⟩
  · exact .refl s

/-- A pass of tests reads, and clears bits of a mask. -/
theorem SameSetting.waitPass (a d mode m : Nat) (l : List Nat) (s : State) : SameSetting s (waitPass a d mode m l s).1 := by
  induction l generalizing s with
  | nil => exact .refl s
  | cons i l ih =>
    unfold Machine.waitPass
    split
    · exact ih s
    · dsimp only
      split
      · exact .refl s
      · next loc _ =>
        split
        · exact .refl s
        · have hread : SameSetting s (s.afterRead loc).tickUp :=
            (SameSetting.afterRead s loc).trans ⟨rfl, rfl, rfl, rfl⟩
          refine SameSetting.trans ?_ (ih _)
          split
          · exact hread.trans (.writeMaskBit _ _ _ _)
          · exact hread

/-- No bit of a mask is set below VL. -/
def maskClear (m : Nat) (u : State) : Bool := (List.range u.vl).all (fun j => !maskBit m j u)

theorem any_maskBit (m : Nat) (u : State) : (List.range u.vl).any (fun j => maskBit m j u) = !maskClear m u := by
  rw [maskClear, List.all_eq_not_any_not]; simp

theorem maskClear_congr (m : Nat) (hvl : t.vl = s.vl) (hm : t.core.conv.masks = s.core.conv.masks) :
    maskClear m t = maskClear m s := by
  simp only [maskClear, hvl, maskBit, hm]

/-- The wait is over before a test when no buoy is asked for, and after a pass that has met them all. -/
theorem waitRun_eq {d a mode k m : Nat} (h : maskClear m t = true
      ∨ (waitPass a d mode m (List.range t.vl) t).2 = none ∧ maskClear m (waitPass a d mode m (List.range t.vl) t).1 = true) :
    waitRun d a mode k m t = .ok (if maskClear m t then t else (waitPass a d mode m (List.range t.vl) t).1.tickUp)
      (if maskClear m t then [] else [(k, remainingLimit (readK k t) (Config.elapsed t.tick))]) [] := by
  have hafter : ((List.range t.vl).any (fun j => maskBit m j (waitPass a d mode m (List.range t.vl) t).1))
      = !maskClear m (waitPass a d mode m (List.range t.vl) t).1 := by
    rw [← any_maskBit, (SameSetting.waitPass a d mode m (List.range t.vl) t).vl_eq]
  unfold waitRun
  rw [any_maskBit]
  by_cases hc : maskClear m t = true
  · simp [hc]
  · obtain ⟨hfault, hmet⟩ := h.resolve_left hc
    simp [hc, hfault, hafter, hmet]

theorem vwait_describes (h : besideWord (.vwait d a e k m) s = some w) (hb : s.Boundary) : w.Describes (.vwait d a e k m) s := by
  have hset : SameSetting s (running (.vwait d a e k m) s) := (SameOperands.running hb).toSameSetting
  have hmasks : (running (.vwait d a e k m) s).core.conv.masks = s.core.conv.masks := by
    show (issued (.vwait d a e k m) s).core.conv.masks = _
    rw [issued_eq _ s hb.trace]; rfl
  cases h
  refine ⟨rfl, fun _ => ⟨nofun, nofun⟩, fun _ => rfl, rfl, rfl, rfl, ?_, fun _ => Nat.zero_le _, fun _ => Nat.zero_le _, ?_, ?_, ?_⟩
  · exact fun _ => Member.Asks.shapeFault_eq_none ⟨rfl, rfl, rfl, rfl, rfl⟩
  · intro hf _ _
    show waitRun d.toNat a.toNat e.toNat k.toNat m.toNat _ = _
    have hclear := maskClear_congr m.toNat hset.vl_eq hmasks
    have hrun := waitRun_eq (t := running (.vwait d a e k m) s) (d := d.toNat) (a := a.toNat) (mode := e.toNat) (k := k.toNat)
      (m := m.toNat)
    rw [hclear, hset.vl_eq] at hrun
    refine hrun (hf.imp_right fun ⟨hfault, hmet⟩ => ⟨hfault, ?_⟩)
    exact hmet
  · dsimp only
    split
    · rfl
    · exact (SameSetting.waitPass _ _ _ _ _ _).trace
  · exact .inl rfl

end Wait

/-! ### The limit of a wait (06_issue.md R161) -/

/-- A word laid out from fields whose last is a limit waits with it. -/
theorem limitedWait_encode {i : Instr} {sg : List Seg} {xs : List Nat} (h : i.fields = some (sg, xs))
    (hok : Laws.segsOk sg = true) (hf : Laws.segsFit sg xs = true) (hw : Laws.segsWidth sg = 32)
    (hmem : sg ∈ [segsWaitw, segsTlwait, segsBarw]) (h0 : xs.getLastD 0 ≠ 0) (h63 : xs.getLastD 0 ≠ 63) :
    limitedWait (encode i) = true := by
  unfold limitedWait
  rw [Laws.encode_toNat h hok hf hw]
  refine List.any_eq_true.mpr ⟨sg, hmem, ?_⟩
  simp only [Laws.segsMatch_pack sg xs hok hf]
  rw [Bool.and_eq_true, bne_iff_ne, bne_iff_ne]
  exact ⟨h0, h63⟩

end Sys2Proof.Machine

namespace Sys2Proof.Machine

/-! ### The events of a convoy of one word (05_convoy.md R117; 06_issue.md R159) -/

section ConvoyTurns

variable {i : Instr} {s : State}

/-- A convoy of one integer word issues when it waits to, and retires once in flight, with what the word does. -/
theorem integerWord_events {w : ElementWord} (h : integerWord i s = some w) (hb : s.Boundary) (hc : endsConvoy i) (hi : w.issues)
    (hv : s.core.conv.vctl = 0) (hn : ∀ n ∈ w.named, n.holds s) (hlive : s.core.convoyLive = true) (hf : s.inFlight = false)
    (hh : boundaryHeld s = false) :
    exec .convoyIssue (forms [i] s) = .next (retired i [] [] (w.all i s))
      ∧ exec .convoyRetire (issued i s) = .next (retired i [] [] (w.all i s))
      ∧ exec .vectorElementArrival (issued i s) = .next (retired i [] [] (w.all i s)) := by
  have hrun := ((integerWord_describes h).completes hb hc hi hv hn).2
  have hretire : execConvoyRetire (issued i s) = .next (retired i [] [] (w.all i s)) :=
    (if_pos (issued_live i hb (live_of_convoyLive hlive).1)).trans hrun
  obtain ⟨F, hF, rfl⟩ := integerWord_described h
  have hissue : execConvoyIssue (forms [i] s) = runConvoy (issued i s) :=
    (execConvoyIssue_one hb hc hlive hf hh).trans (issueConvoy_one ⟨hF, hi, hn⟩ hb)
  exact ⟨hissue.trans hrun, hretire, hretire⟩

/-- The fields of VWAIT below its last four bits, which are 0, end below the chain bit. -/
theorem endsConvoy_vwait (d a : BitVec 6) (e : BitVec 2) (k m : BitVec 3) : endsConvoy (.vwait d a e k m) := by
  have hfit : Laws.segsFit segsVwait [d.toNat, a.toNat, e.toNat, k.toNat, m.toNat] = true := by
    simp [segsVwait, Laws.segsFit, d.isLt, a.isLt, e.isLt, k.isLt, m.isLt]
  rw [endsConvoy, Laws.encode_toNat (i := .vwait d a e k m) rfl rfl hfit rfl]
  calc segsPack segsVwait [d.toNat, a.toNat, e.toNat, k.toNat, m.toNat]
      = segsPack (segsVwait.take 7) [d.toNat, a.toNat, e.toNat, k.toNat, m.toNat] := rfl
    _ < 2 ^ 28 := Laws.segsPack_lt (segsVwait.take 7) _ rfl hfit
    _ < 2 ^ 31 := by decide

/-- A VWAIT in flight tests its buoys on a wake and on a write of a line that it watches. -/
theorem vwait_events {d a : BitVec 6} {e : BitVec 2} {k m : BitVec 3} {w : WholeWord}
    (h : besideWord (.vwait d a e k m) s = some w) (hb : s.Boundary) (hf : w.fits) (hv : s.core.conv.vctl = 0)
    (hn : ∀ n ∈ w.named, n.holds s) (hl : s.core.live = true) :
    exec .spuriousWake (issued (.vwait d a e k m) s) = .next (w.completed (.vwait d a e k m) s)
      ∧ ∀ line, watches line (issued (.vwait d a e k m) s) = true →
        exec (.monitoredLineWrite line) (issued (.vwait d a e k m) s) = .next (w.completed (.vwait d a e k m) s) := by
  have hrun := ((vwait_describes h hb).completes hb (endsConvoy_vwait d a e k m) hf hv hn).2
  have hlive := issued_live (.vwait d a e k m) hb hl
  have hwaits : waitInFlight (issued (.vwait d a e k m) s) = true := by rw [issued_eq _ s hb.trace]; rfl
  refine ⟨(if_pos ?_).trans hrun, fun line hline => (if_pos ?_).trans hrun⟩
  · rw [hlive, hwaits]; rfl
  · rw [hlive, hline]; rfl

end ConvoyTurns

/-! ### The limit of a steering wait (06_issue.md R161) -/

section Limits

variable {d a b : BitVec 5} {t : BitVec 6}

theorem limitedWait_waitw (p m : BitVec 2) (h0 : t ≠ 0) (h63 : t ≠ 63) : limitedWait (encode (.waitw d a b p m t)) = true := by
  refine limitedWait_encode rfl rfl ?_ rfl (by simp) (fun h => h0 (BitVec.eq_of_toNat_eq h)) (fun h => h63 (BitVec.eq_of_toNat_eq h))
  simp [segsWaitw, Laws.segsFit, d.isLt, a.isLt, b.isLt, p.isLt, m.isLt, t.isLt]

theorem limitedWait_tlwait (h0 : t ≠ 0) (h63 : t ≠ 63) : limitedWait (encode (.tlwait d a b t)) = true := by
  refine limitedWait_encode rfl rfl ?_ rfl (by simp) (fun h => h0 (BitVec.eq_of_toNat_eq h)) (fun h => h63 (BitVec.eq_of_toNat_eq h))
  simp [segsTlwait, Laws.segsFit, d.isLt, a.isLt, b.isLt, t.isLt]

theorem limitedWait_barw (h0 : t ≠ 0) (h63 : t ≠ 63) : limitedWait (encode (.barw d a b t)) = true := by
  refine limitedWait_encode rfl rfl ?_ rfl (by simp) (fun h => h0 (BitVec.eq_of_toNat_eq h)) (fun h => h63 (BitVec.eq_of_toNat_eq h))
  simp [segsBarw, Laws.segsFit, d.isLt, a.isLt, b.isLt, t.isLt]

/-- A passed limit marks the steering wait at PC. -/
theorem execWaitLimitExpiry_of_fetch {s : State} {w : IWord} (ha : s.agent ≠ .convoy) (hf : fetchWord s.cur.pc s = some w)
    (hw : limitedWait w = true) : execWaitLimitExpiry s = .next (s.modCur (fun c => { c with expired := true })) := by
  unfold execWaitLimitExpiry
  split
  · next hc => exact absurd hc ha
  · rw [hf]
    simp only [if_pos hw]

end Limits

/-! ### Traps that stand at the boundary (08_core_steering.md R188; 11_core_ladder.md R275) -/

section Standing

variable {s : State}

/-- A stopped chain's trap is LAD-MEM, and it leaves the chain. -/
theorem execTrapEntry_of_ladPending (hl : s.core.convoyLive = true) (hf : s.inFlight = false) (hp : ladPending s = true)
    (h : TakesTraps s) : ∃ t, execTrapEntry s = .next t
      ∧ ConvoyTrapped .ladMem (s.core.lad.fault.setWidth 64) 0 0 s t ∧ t.core.lad = s.core.lad := by
  refine ⟨ladTrap s, ?_, convoyTrap_trapped (p := ⟨0, 0, 0, s.core.conv.vispos, .ladMem, s.core.lad.fault.setWidth 64, none⟩) h nofun, ?_⟩
  · simp [execTrapEntry, hl, hf, hp, h.unstepped]
  · obtain ⟨hmode, hpreq, hstep⟩ := h
    simp [ladTrap, convoyTrap, takeDue, takeTrapTask, haltConvoy, recordPoint, State.modCore, State.modConv, hmode, hpreq, hstep]

theorem withAgent_eq_self {g : Agent} (h : s.agent = g) : ({ s with agent := g } : State) = s := by rw [← h]

theorem takeTrap_agent (p : Trap) (h : s.agent ≠ .control) : (takeTrap p s).agent = s.agent := by
  unfold takeTrap
  split
  · next hc => exact absurd hc h
  · unfold takeTrapTask
    split
    · rfl
    · split <;> rfl

/-- A steering word that nothing can end deadlocks, with the code of its queue. -/
theorem execQueueDeadlock_of_deadlock {n : Nat} (ha : s.agent = .steer) (hf : s.inFlight = false) (h : deadlock s = some n) :
    execQueueDeadlock s = .next (takeTrap ⟨.queueDeadlock, false, .ofNat 64 n, s.core.steer.pc⟩
      (s.modCur (fun c => { c with bksup := false }))) := by
  have hcur : s.modCur (fun c => { c with bksup := false }) = s.modSteer (fun c => { c with bksup := false }) := by
    simp only [State.modCur, ha]
  unfold execQueueDeadlock
  rw [h]
  dsimp only
  rw [withAgent_eq_self ha, hf, hcur]
  exact congrArg Host.Outcome.next (withAgent_eq_self (takeTrap_agent _ (by simp [ha])))

end Standing

end Sys2Proof.Machine

namespace Sys2Proof.Machine

/-! ### A deadlock of a steering queue (08_core_steering.md R188) -/

section Deadlock

variable {s : State} {d : BitVec 5}

/-- The bits of an RPOP are those of no word tested before it. -/
theorem wordBears_rpop : ∀ d : BitVec 5, wordBears (encode (.rpop d)) 0xFFC00FFF 0x20 = false
    ∧ wordBears (encode (.rpop d)) 0xFFFE0FFF 0x21 = false ∧ wordBears (encode (.rpop d)) 0xFFFFF07F 0x22 = true := by
  decide

/-- The bits of an EPOP are those of no word tested before it. -/
theorem wordBears_epop : ∀ d : BitVec 5, wordBears (encode (.epop d)) 0xFFC00FFF 0x20 = false
    ∧ wordBears (encode (.epop d)) 0xFFFE0FFF 0x21 = false ∧ wordBears (encode (.epop d)) 0xFFFFF07F 0x22 = false
    ∧ wordBears (encode (.epop d)) 0xFFFFF07F 0x23 = true := by
  decide

theorem waitCode_rpop (h : s.core.q.rq = []) : waitCode (encode (.rpop d)) s = some 2 := by
  obtain ⟨hbpush, hdpush, hrpop⟩ := wordBears_rpop d
  simp only [waitCode, hbpush, hdpush, hrpop, h]
  rfl

theorem waitCode_epop (h : s.core.q.eq = []) : waitCode (encode (.epop d)) s = some 3 := by
  obtain ⟨hbpush, hdpush, hrpop, hepop⟩ := wordBears_epop d
  simp only [waitCode, hbpush, hdpush, hrpop, hepop, h]
  rfl

theorem convoyWaits_of_idle (hst : s.core.conv.st = .idle) (hq : s.core.q.bq = []) (hf : s.inFlight = false) :
    convoyWaits s = true := by
  simp [convoyWaits, hst, hq, hf]

theorem quietCore_of_nothing (hf : s.inFlight = false) (hchain : s.core.chainRuns = false) (hp : s.core.conv.parked = [])
    (ho : s.core.steer.outs = []) (hc : ∀ p ∈ s.pkg.contexts, ∀ c ∈ p.2.cmds, c.task ≠ some s.core.task.serial) :
    quietCore s = true := by
  have hcmds : s.pkg.contexts.all (fun p => p.2.cmds.all (fun c => c.task != some s.core.task.serial)) = true := by
    simp only [List.all_eq_true, bne_iff_ne]
    exact hc
  simp only [quietCore, hf, hchain, hp, ho, hcmds]
  rfl

theorem executes_of_clear (hstep : s.core.steer.stepped = false) (hbreak : breakDue s = false) (hlad : ladPending s = false)
    (htrap : s.core.conv.trapDue = none) : executes s = true := by
  simp [executes, hstep, hbreak, hlad, htrap]

/-- The queue code of the word at PC is that of the deadlock, when both streams wait. -/
theorem deadlock_of_fetch {w : IWord} {n : Nat} (ha : s.agent = .steer) (hlive : s.core.convoyLive = true) (hpreq : s.core.preq = false)
    (hwaits : convoyWaits s = true) (hquiet : quietCore s = true) (hexec : executes s = true)
    (hfetch : fetchWord s.core.steer.pc s = some w) (hcode : waitCode w s = some n) : deadlock s = some n := by
  unfold deadlock
  rw [withAgent_eq_self ha]
  simp [hlive, hpreq, hwaits, hquiet, hexec, hfetch, hcode]

end Deadlock

/-! ### A debug stop (08_core_steering.md R193) -/

theorem execDebugStop_control {s : State} (ha : s.agent = .control) :
    execDebugStop s = .next (s.modCur (fun c => { c with stopped := true, expired := false })) := by
  simp only [execDebugStop, State.modCur, ha]

theorem execDebugStop_core {s : State} (ha : s.agent ≠ .control) (hf : s.inFlight = false) (hr : s.core.run = .running) :
    execDebugStop s = .next (s.modCore (fun c => { c with
      steer := { c.steer with stopped := true, chalt := true, expired := false }
      conv := { c.conv with st := .halted, forming := [], flight := none } })) := by
  unfold execDebugStop
  split
  · next hc => exact absurd hc ha
  · rw [if_neg (by simp [hf, hr])]
    rfl

/-! ### A pre-emption request (08_core_steering.md R204; 14_cluster.md R323) -/

section Request

variable {s : State}

/-- A core read after a write: the written core is the written value, and every other is as before. -/
theorem coreAt_setCoreAt (s : State) (c k : Nat) (v : Core) : (s.setCoreAt c v).coreAt k = if k = c then v else s.coreAt k := by
  unfold State.setCoreAt State.coreAt
  by_cases hc : c = s.coreId
  · rw [if_pos hc, hc]
    split <;> rfl
  · rw [if_neg hc]
    by_cases hk : k = s.coreId
    · subst hk; simp [Ne.symm hc]
    · simp only [if_neg hk]
      exact poolGet_poolSet _ _ _ _ _

theorem coreAt_modCoreAt (s : State) (c k : Nat) (f : Core → Core) :
    (s.modCoreAt c f).coreAt k = if k = c then f (s.coreAt k) else s.coreAt k := by
  rw [State.modCoreAt, coreAt_setCoreAt]
  split
  · next h => rw [h]
  · rfl

theorem modCoreAt_mem (s : State) (c : Nat) (f : Core → Core) : (s.modCoreAt c f).mem = s.mem := by
  unfold State.modCoreAt State.setCoreAt; split <;> rfl

/-- A request stands at a core that runs a task, or that loads one. -/
def Core.requested (c : Core) : Core := if c.run = .running ∨ c.run = .restoring then { c with preq := true } else c

theorem Core.requested_requested (c : Core) : c.requested.requested = c.requested := by
  by_cases h : c.run = .running ∨ c.run = .restoring
  · have hreq : c.requested = { c with preq := true } := if_pos h
    rw [hreq]
    exact if_pos h
  · have hsame : c.requested = c := if_neg h
    rw [hsame, hsame]

/-- A request made at each of a list of cores. -/
def requestAll (l : List Nat) (s : State) : State := l.foldl (fun s c => s.modCoreAt c Core.requested) s

theorem requestGroup_eq (g : PlacedGroup) (s : State) :
    requestGroup g s = requestAll ((g.tasks.filter (fun t => decide (t.place = .running))).map (·.core)) s := by
  rw [requestAll, List.foldl_map]; rfl

theorem requestAll_mem (l : List Nat) (s : State) : (requestAll l s).mem = s.mem := by
  induction l generalizing s with
  | nil => rfl
  | cons c l ih => exact (ih _).trans (modCoreAt_mem s c _)

theorem coreAt_requestAll (l : List Nat) (s : State) (k : Nat) :
    (requestAll l s).coreAt k = if k ∈ l then (s.coreAt k).requested else s.coreAt k := by
  induction l generalizing s with
  | nil => rfl
  | cons c l ih =>
    refine (ih (s.modCoreAt c Core.requested)).trans ?_
    rw [coreAt_modCoreAt]
    by_cases hk : k = c <;> by_cases hl : k ∈ l <;> simp [hk, hl, Core.requested_requested]

/-- A request for the core in focus stands at every core that runs a task of its gang. -/
theorem execPreemptionRequest_of_running {g : PlacedGroup} {slot : Nat} (hr : s.core.run = .running)
    (ht : s.taskOf s.coreId = some (g, slot)) : execPreemptionRequest s = .next (requestGroup g s) := by
  have hrun : (s.coreAt s.coreId).run = .running := by rw [State.coreAt, if_pos rfl, hr]
  simp [execPreemptionRequest, requestCore, hrun, ht]

theorem coreAt_requestGroup {g : PlacedGroup} {u : GangTask} (hu : u ∈ g.tasks) (hp : u.place = .running)
    (hr : (s.coreAt u.core).run = .running) : (requestGroup g s).coreAt u.core = { s.coreAt u.core with preq := true } := by
  have hmem : u.core ∈ (g.tasks.filter (fun t => decide (t.place = .running))).map (·.core) :=
    List.mem_map.mpr ⟨u, List.mem_filter.mpr ⟨hu, decide_eq_true hp⟩, rfl⟩
  rw [requestGroup_eq, coreAt_requestAll, if_pos hmem]
  exact if_pos (.inl hr)

end Request

/-- Settles O51: each event of the convoy stream, of waits and of the boundary by the lemma of its own. -/
theorem convoyEvents : Obligations.ConvoyEvents := by
  refine ⟨fun s b l hl hf hst hq => execBlockPop_of_idle hl hf hst hq, ?_, ?_, ?_, ?_, ?_, ?_, ?_⟩
  · intro i s w hw hb hc hi hv hn hl hchalt hst hf hh
    have hlive : s.core.convoyLive = true := by simp [Core.convoyLive, hl, hchalt, hst]
    exact integerWord_events hw hb hc hi hv hn hlive hf hh
  · intro s d a e k m w hw hb hf hv hn hl
    exact vwait_events hw hb hf hv hn hl
  · intro s d a b p m t w ha hfetch h0 h63 hw
    refine execWaitLimitExpiry_of_fetch ha hfetch ?_
    obtain ⟨-, rfl⟩ | rfl | rfl := hw
    · exact limitedWait_waitw p m h0 h63
    · exact limitedWait_tlwait h0 h63
    · exact limitedWait_barw h0 h63
  · intro s hl hf hact herr hmode hpreq hstep
    have hpending : ladPending s = true := by rw [ladPending, hact, herr]; rfl
    exact execTrapEntry_of_ladPending hl hf hpending ⟨hmode, hpreq, hstep⟩
  · intro s d n ha hl hpreq hst hq hf hchain hp hlad hbreak hstep htrap ho hc hw
    have hwaits := convoyWaits_of_idle hst hq hf
    have hquiet := quietCore_of_nothing hf hchain hp ho hc
    have hexec := executes_of_clear hstep hbreak hlad htrap
    refine execQueueDeadlock_of_deadlock ha hf ?_
    obtain ⟨hfetch, hempty, rfl⟩ | ⟨hfetch, hempty, rfl⟩ := hw
    · exact deadlock_of_fetch ha hl hpreq hwaits hquiet hexec hfetch (waitCode_rpop hempty)
    · exact deadlock_of_fetch ha hl hpreq hwaits hquiet hexec hfetch (waitCode_epop hempty)
  · exact fun s => ⟨fun ha => execDebugStop_control ha, fun ha hf hr => execDebugStop_core ha hf hr⟩
  · intro s g slot hr ht
    refine ⟨requestGroup g s, execPreemptionRequest_of_running hr ht, ?_, fun u hu hp hrun => coreAt_requestGroup hu hp hrun⟩
    rw [requestGroup_eq, requestAll_mem]

end Sys2Proof.Machine

/-! ## DCOLL (06_issue.md R163, R164)

The words that DCOLL stores lie inside its descriptor and apart from one another, so that each holds at the end what was
stored in it; beside memory only sd and PC change. -/

namespace Sys2Proof.Machine

theorem State.noMemory_modCur (s : State) (f : Steer → Steer) : (s.modCur f).noMemory = s.noMemory.modCur f := by
  have hagent : s.noMemory.agent = s.agent := rfl
  rw [State.modCur, State.modCur, hagent]
  cases s.agent <;> rfl

/-- Nothing changes but `n` bytes from `key`, and the marks and notes that go with them. -/
structure Stored (key n : Nat) (s t : State) : Prop where
  state : t = { s with mem := t.mem, poison := t.poison, watches := t.watches }
  bytes : ∀ a, ¬Inside key n a → readByte t a = readByte s a

namespace Stored

variable {key n k m : Nat} {s t u : State}

theorem refl (s : State) : Stored key n s s := ⟨rfl, fun _ _ => rfl⟩

theorem trans (h : Stored key n s t) (h' : Stored key n t u) : Stored key n s u where
  state := h'.state.trans (by rw [h.state])
  bytes := fun a ha => (h'.bytes a ha).trans (h.bytes a ha)

theorem mono {key' n' : Nat} (h : Stored key n s t) (hlo : key' ≤ key) (hhi : key + n ≤ key' + n') : Stored key' n' s t :=
  ⟨h.state, fun a ha => h.bytes a fun hi => ha ⟨by omega, by omega⟩⟩

theorem storeMem (v : Nat) (s : State) (hlo : key ≤ k) (hhi : k + m ≤ key + n) :
    Stored key n s (storeMem k m v s) where
  state := by rw [storeMem_eq]
  bytes := fun a ha => readByte_storeMem_of_not_inside _ _ _ _ _ fun hi => ha ⟨by omega, by omega⟩

theorem foldl {α : Type} {g : State → α → State} {l : List α} (hg : ∀ t, ∀ a ∈ l, Stored key n t (g t a)) (s : State) :
    Stored key n s (l.foldl g s) := by
  induction l generalizing s with
  | nil => exact refl s
  | cons a l ih =>
    exact (hg s a List.mem_cons_self).trans (ih (fun t b hb => hg t b (List.mem_cons_of_mem _ hb)) _)

/-- What lies outside the bytes stored reads as before. -/
theorem readMem_eq (h : Stored key n s t) (hout : k + m ≤ key ∨ key + n ≤ k) : readMem t k m = readMem s k m :=
  readMem_congr _ _ fun a ha => h.bytes a fun hi => by omega

theorem cur_eq (h : Stored key n s t) : t.cur = s.cur := by
  rw [h.state]; rfl

theorem besideCur_eq (h : Stored key n s t) : t.besideCur.noMemory = s.besideCur.noMemory := by
  rw [State.besideCur, State.besideCur, State.noMemory_modCur, State.noMemory_modCur, h.state]
  rfl

end Stored

/-- A result register and PC lie in the processor that moves. -/
theorem besideCur_advance_writeReg (d : BitVec 5) (v : Word) (s : State) :
    (advance (writeReg d v s)).besideCur = s.besideCur := by
  unfold State.besideCur advance setPc writeReg
  split <;> simp only [State.modCur_modCur] <;> rfl

/-- A word that stores and then retires with a result leaves the frame of a store. -/
theorem Stored.storeFrame {key n : Nat} {s t : State} (h : Stored key n s t) (d : BitVec 5) (v : Word) :
    StoreFrame [d] key n s (advance (writeReg d v t)) where
  regs := fun r hr => by
    have hne : r ≠ d := fun he => hr (he ▸ List.mem_singleton_self _)
    rw [readReg_advance, readReg_writeReg, if_neg (fun hd => hne hd.1), readReg, readReg, h.cur_eq]
  special := by rw [advance_cur, writeReg_cur, h.cur_eq]; rfl
  beside := by rw [besideCur_advance_writeReg, h.besideCur_eq]
  memory := fun a ha => (readByte_mem (by rw [advance_mem, writeReg_mem]) a).trans (h.bytes a ha)

theorem readMem_advance_writeReg (d : BitVec 5) (v : Word) (s : State) (k n : Nat) :
    readMem (advance (writeReg d v s)) k n = readMem s k n :=
  readMem_congr _ _ fun a _ => readByte_mem (by rw [advance_mem, writeReg_mem]) a

section Counters

variable {key : Nat} {cnt : List Nat}

theorem storeCounters_stored (key : Nat) (cnt : List Nat) (s : State) :
    Stored (key + 0x28) 16 s (storeCounters key cnt s) :=
  .foldl (fun t j hj => .storeMem _ t (by omega) (by have := List.mem_range.mp hj; omega)) s

/-- The first counters stored read as stored: each store lies past those before it. -/
theorem readMem_storeCounters_prefix (n : Nat) (s : State) {j : Nat} (hj : j < n) :
    readMem ((List.range n).foldl (fun t i => storeMem (key + 0x28 + 4 * i) 4 (cnt.getD i 0) t) s) (key + 0x28 + 4 * j) 4
      = cnt.getD j 0 % 2 ^ 32 := by
  induction n with
  | zero => omega
  | succ n ih =>
    rw [List.range_succ, List.foldl_append, List.foldl_cons, List.foldl_nil]
    obtain hlt | rfl := Nat.lt_succ_iff_lt_or_eq.mp hj
    · rw [← ih hlt]
      exact Stored.readMem_eq (.storeMem _ _ le_rfl le_rfl) (.inl (by omega))
    · exact readMem_storeMem _ _ _ _

end Counters

/-- The address granted is a word. -/
theorem walkStep_addr_lt (w : Walk) (lim : Nat) : (walkStep w lim).2.1 < 2 ^ 64 := by
  have hmod : ∀ x : Int, (x % 2 ^ 64).toNat < 2 ^ 64 := fun x => by omega
  exact hmod _

section Collect

variable {s : State} {d a b : BitVec 5}

/-- The most bytes that a DCOLL may grant (R164). -/
def grantLimit (n : Nat) : Nat := if n = 0 ∨ 2 ^ 32 ≤ n then 2 ^ 32 - 1 else n

/-- The descriptor at sa passes the checks of R163. -/
structure DescriptorHolds (s : State) (a : BitVec 5) : Prop where
  aligned : (readReg a s).toNat % 8 = 0
  inside : (readReg a s).toNat + 88 ≤ 262144
  sound : poisoned s (spaceKey s 0 (readReg a s).toNat) 88 = false
  valid : (readWalk s (spaceKey s 0 (readReg a s).toNat)).valid = true

theorem execDcoll_of_holds (h : DescriptorHolds s a) : execDcoll d a b s =
    let key := spaceKey s 0 (readReg a s).toNat
    let w := readWalk s key
    let run := walkStep w (grantLimit (readReg b s).toNat)
    if w.complete then retire d 0 s
    else retire d (.ofNat 64 run.1) (storeCounters key run.2.2 (storeMem (key + 8) 8 run.2.1 s)) := by
  have hlimit : (2 ^ 32 - 1 < (readReg b s).toNat) = (2 ^ 32 ≤ (readReg b s).toNat) := by
    rw [eq_iff_iff]; omega
  unfold execDcoll
  simp only [h.aligned, h.sound, h.valid, Nat.not_lt.mpr h.inside, ne_eq, not_true_eq_false, if_false, Bool.false_eq_true,
    Bool.true_eq_false, hlimit]
  rfl

end Collect

/-- Settles O29: RUNADDR and the four counters are stored apart from one another, inside the descriptor. -/
theorem collectWord : Obligations.CollectWord := by
  unfold Obligations.CollectWord
  intro s d a b off key w n run haligned hinside hsound hvalid
  have hexec : exec (.dcoll d a b) s = if w.complete then retire d 0 s
      else retire d (.ofNat 64 run.1) (storeCounters key run.2.2 (storeMem (key + 8) 8 run.2.1 s)) :=
    execDcoll_of_holds ⟨haligned, hinside, hsound, hvalid⟩
  have haddr : run.2.1 < 2 ^ 64 := walkStep_addr_lt _ _
  clear_value key run
  refine ⟨fun hc => hexec.trans (if_pos hc), fun hc => ⟨_, hexec.trans (if_neg (by rw [hc]; decide)), ?_, ?_, ?_, ?_⟩⟩
  · intro hd
    rw [readReg_advance, readReg_writeReg, if_pos ⟨rfl, hd⟩]
  · rw [readMem_advance_writeReg, (storeCounters_stored _ _ _).readMem_eq (.inl (by omega)), readMem_storeMem]
    exact Nat.mod_eq_of_lt haddr
  · intro j hj
    rw [readMem_advance_writeReg]
    exact readMem_storeCounters_prefix 4 _ hj
  · have haddress : Stored key 88 s (storeMem (key + 8) 8 run.2.1 s) := .storeMem _ s (by omega) (by omega)
    have hcounters := (storeCounters_stored key run.2.2 (storeMem (key + 8) 8 run.2.1 s)).mono (key' := key) (n' := 88)
      (by omega) (by omega)
    exact (haddress.trans hcounters).storeFrame d _

end Sys2Proof.Machine

/-! ## Feed appends and the ganged product (06_issue.md R154 to R157; 14_cluster.md R325, R330) -/

namespace Sys2Proof.Machine

/-! ### The state in which a word alone in its convoy runs (03_plane.md R91; 05_convoy.md R117) -/

/-- The flight of a word alone in its convoy. -/
def Conv.aloneFlight (i : Instr) (c : Conv) : Flight :=
  { words := [i], next := c.startK.toNat, capp := c.startK.toNat, lk := c.startLk.toNat, mid := none, done := c.startDone
    kout := [], rqout := [] }

/-- Beside what issue does, bands have woken. -/
theorem running_eq (i : Instr) {s : State} (hb : s.Boundary) : running i s = s.modCore (fun c => { c with
    half := c.halfNext
    steer := { c.steer with cbksup := false }
    conv := { c.conv with
      forming := [], stored := [], missed := [], missEntry := 0, expired := false, block := none
      flight := some (c.conv.aloneFlight i), planepwr := (running i s).core.conv.planepwr } }) := by
  have hwake : running i s = (issued i s).modConv (fun c => { c with planepwr := (running i s).core.conv.planepwr }) := rfl
  rw [hwake, issued_eq i s hb.trace]
  rfl

theorem running_flight (i : Instr) {s : State} (hb : s.Boundary) :
    (running i s).core.conv.flight = some (s.core.conv.aloneFlight i) := by
  rw [running_eq i hb]; rfl

/-! ### The entries that VCAPP appends (R155, R156) -/

/-- A feed queue after one entry of a task. -/
def FeedQueue.appended (task : Nat) (f : FeedQueue) : FeedQueue :=
  let full := f.partialCount + 1 = f.vlfeed.toNat
  { f with
    tail := f.tail + 1
    partialCount := if full then 0 else f.partialCount + 1
    written := if full then f.written ++ [task] else f.written }

/-- The entries of some elements, written one after another. -/
def feedAppend (q : Nat) (value : Nat → Nat) (l : List Nat) (u : State) : State :=
  l.foldl (fun t j => feedWrite q t.core.task.serial (value j) t) u

/-- VCAPP has appended its last element. -/
def cappPassed (vl : Nat) (t : State) : State :=
  t.modConv (fun c => { c with flight := c.flight.map (fun g => { g with capp := vl }) })

section Append

variable {q m : Nat} {value : Nat → Nat} {s t u : State} {i : Instr}

theorem feedWrite_core (q task v : Nat) (s : State) : (feedWrite q task v s).core = s.core := by
  simp only [feedWrite, State.modCluster, storeMem_core]

theorem feedWrite_cluster (q task v : Nat) (s : State) :
    (feedWrite q task v s).cluster = s.cluster.modFeed q (FeedQueue.appended task) := by
  simp only [feedWrite, State.modCluster, storeMem_eq]
  rfl

theorem feedAppend_core (l : List Nat) (u : State) : (feedAppend q value l u).core = u.core :=
  foldl_core (fun _ _ => feedWrite_core _ _ _ _) l u

/-- What the queue comes to does not depend on the entries. -/
theorem feedAppend_cluster (l : List Nat) (u : State) : (feedAppend q value l u).cluster
    = l.foldl (fun c _ => c.modFeed q (FeedQueue.appended u.core.task.serial)) u.cluster := by
  unfold feedAppend
  induction l generalizing u with
  | nil => rfl
  | cons j l ih => rw [List.foldl_cons, ih, feedWrite_core, feedWrite_cluster]; rfl

/-- Whether VCAPP waits for its events is a matter of the queue and of the task's own queues. -/
theorem feedEventWaits_congr (hcluster : t.cluster = u.cluster) (hcore : t.core.task = u.core.task ∧ t.core.q = u.core.q) :
    feedEventWaits q t = feedEventWaits q u := by
  simp only [feedEventWaits, feedPosted, hcluster, hcore.1, hcore.2]

/-- With room for every element, and no event to wait for, VCAPP appends them all at once. -/
theorem feedRun_eq {value : Nat → State → Nat} {f : Flight} (hf : u.core.conv.flight = some f)
    (hroom : (feedElems m u.vl f.capp u).length ≤ (u.cluster.feed q).cap.toNat - (u.cluster.feed q).held)
    (hquiet : feedEventWaits q (feedAppend q (value · u) (feedElems m u.vl f.capp u) u) = false) :
    feedRun q m value u
      = .ok (cappPassed u.vl (feedAppend q (value · u) (feedElems m u.vl f.capp u) u)) [] [] := by
  have hends : ¬feedEventWaits q (cappPassed u.vl (feedAppend q (value · u) (feedElems m u.vl f.capp u) u)) = true :=
    Bool.eq_false_iff.mp hquiet
  unfold feedRun
  rw [hf]
  simp only [Option.map_some, Option.getD_some, List.take_of_length_le hroom, List.drop_eq_nil_of_le hroom, ne_eq,
    not_true_eq_false, false_or, List.headD_nil]
  exact if_neg hends

/-- The mark of the last element appended does not outlast the flight. -/
theorem retired_cappPassed (h : i ≠ .vbend) (hmissed : u.core.conv.missed = []) (hlate : u.core.conv.late = [])
    (ht : u.core.trace.ltrc.getLsbD 8 = false) (hstep : u.core.conv.cdbg = false) (vl : Nat) :
    retired i [] [] (cappPassed vl u) = retired i [] [] u := by
  have hlate' : (cappPassed vl u).core.conv.late = [] := by
    rw [← hlate]
    simp only [cappPassed, State.modConv_core, Conv.late, Option.map_map]
    rfl
  have hpassed : retired i [] [] (cappPassed vl u) = (cappPassed vl u).modConv Conv.passed := retired_eq h hmissed hlate' ht hstep
  rw [retired_eq h hmissed hlate ht hstep, hpassed]
  rfl

end Append

section Capp

variable {q m : Nat} {value : Nat → State → Nat} {named : List Named} {uses : State → List Use} {s : State} {i : Instr}

/-- What VCAPP is asked for, and what it does: it has a ring with room for its entries, and no event to wait for. -/
def cappWord (q m : Nat) (named : List Named) (value : Nat → State → Nat) (s : State) : WholeWord :=
  let l := fun (u : State) => feedElems m u.vl s.core.conv.startK.toNat u
  let all := fun (u : State) => feedAppend q (value · u) (l u) u
  { WholeWord.plain with
    named := named
    fits := (s.cluster.feed q).cap ≠ 0 ∧ (l s).length ≤ (s.cluster.feed q).cap.toNat - (s.cluster.feed q).held
      ∧ feedEventWaits q (all s) = false
    effect := all }

/-- As the member has it, the word marks its last element too. -/
def cappMarked (q m : Nat) (named : List Named) (value : Nat → State → Nat) (s : State) : WholeWord :=
  { cappWord q m named value s with
    effect := fun u => cappPassed u.vl ((cappWord q m named value s).effect u) }

theorem cappMarked_describes (hv : exec i s = vectorWord i s)
    (hm : ∀ t, memberOf i t = vcappMember t q m (uses t) value) (hn : (uses s).map Use.named = named) (hbox : (uses s).all Use.box = true)
    (hf : (cappWord q m named value s).fits) (hb : s.Boundary) : (cappMarked q m named value s).Describes i s := by
  obtain ⟨hcap, hroom, hquiet⟩ := hf
  have hoperands : SameOperands s (running i s) := .running hb
  have hflight := running_flight i hb
  have hrunning : (running i s).cluster = s.cluster ∧ (running i s).core.task = s.core.task ∧ (running i s).core.q = s.core.q
      ∧ (running i s).core.conv.masks = s.core.conv.masks := by
    rw [running_eq i hb]
    exact ⟨rfl, rfl, rfl, rfl⟩
  obtain ⟨hcluster, htask, hq, hmasks⟩ := hrunning
  have helems : feedElems m (running i s).vl s.core.conv.startK.toNat (running i s)
      = feedElems m s.vl s.core.conv.startK.toNat s := by
    simp only [feedElems, hoperands.vl_eq, maskBit, hmasks]
  have hcheck : (memberOf i s).check = none := by rw [hm]; exact if_neg hcap
  have hready : (memberOf i s).ready = true := by rw [hm]; rfl
  have hsettled : (memberOf i s).settled = true := by rw [hm]; rfl
  exact {
    vector := hv
    cls := fun t => by rw [hm]; exact ⟨nofun, nofun⟩
    paired := fun _ => by rw [hm]; rfl
    settled := hsettled
    check := hcheck
    ready := hready
    shapes := fun _ => Member.Asks.shapeFault_eq_none
      ⟨hsettled, hcheck, hready, by rw [hm]; exact hn, by rw [hm]; exact hbox⟩
    pops := fun _ => by rw [hm]; exact Nat.zero_le _
    pushes := fun _ => by rw [hm]; exact Nat.zero_le _
    run := fun _ _ _ => by
      rw [hm]
      refine feedRun_eq hflight ?_ ?_
      · rw [Conv.aloneFlight, helems, hcluster]; exact hroom
      · rw [← hquiet]
        refine feedEventWaits_congr ?_ ?_
        · rw [feedAppend_cluster, feedAppend_cluster, Conv.aloneFlight, helems, htask, hcluster]
        · rw [feedAppend_core, feedAppend_core]; exact ⟨htask, hq⟩
    trace := by
      show (feedAppend q _ _ (running i s)).core.trace = _
      rw [feedAppend_core]
    kept := .inl rfl }

/-- VCAPP alone in its convoy appends its entries and retires. -/
theorem cappWord_completes (hv : exec i s = vectorWord i s) (hm : ∀ t, memberOf i t = vcappMember t q m (uses t) value)
    (hn : (uses s).map Use.named = named) (hbox : (uses s).all Use.box = true) (hb : s.Boundary) (hc : endsConvoy i)
    (hf : (cappWord q m named value s).fits) (hvctl : s.core.conv.vctl = 0) (hholds : ∀ n ∈ named, n.holds s) :
    exec i s = .next ((cappWord q m named value s).completed i s) := by
  have hd := cappMarked_describes hv hm hn hbox hf hb
  have hne : i ≠ .vbend := by
    rintro rfl
    have hcls : Cls.a = Cls.n := congrArg Member.cls (hm s)
    cases hcls
  have happended : ((cappWord q m named value s).effect (running i s)).core = (running i s).core := feedAppend_core _ _
  have hconv : (running i s).core.conv.missed = [] ∧ (running i s).core.conv.cdbg = s.core.conv.cdbg := by
    rw [running_eq i hb]
    exact ⟨rfl, rfl⟩
  obtain ⟨hmissed, hstep⟩ := hconv
  rw [(hd.completes hb hc hf hvctl hholds).1]
  refine congrArg Host.Outcome.next (retired_cappPassed hne ?_ ?_ ?_ ?_ _)
  · rw [happended]; exact hmissed
  · rw [happended, Conv.late, running_flight i hb]; rfl
  · rw [happended, (SameOperands.running hb).trace]; exact hb.trace
  · rw [happended, hstep]; exact hb.step

end Capp

/-! ### The ganged product (14_cluster.md R325) -/

section Ganged

variable {s t : State} {n : BitVec 2} {a b : BitVec 6} {c : BitVec 1} {w : WholeWord}

theorem SameSetting.product2 (n : Nat) (z : BitVec 26) (rowp colp : Word) (kc : Nat) (x y : Nat → Nat → FVal) (s : State) :
    SameSetting s (product2 n z rowp colp kc x y s) := by
  unfold Machine.product2 productInto
  refine SameSetting.foldl _ (fun u _ => SameSetting.foldl _ (fun _ _ => ?_) _ u) _ s
  exact ⟨rfl, rfl, rfl, rfl⟩

/-- A change of a core that keeps its streams' setting keeps that of the core in focus. -/
theorem SameSetting.modCoreAt {f : Core → Core} (k : Nat) (hf : ∀ x, (f x).conv = x.conv ∧ (f x).trace = x.trace) (s : State) :
    SameSetting s (s.modCoreAt k f) := by
  unfold State.modCoreAt State.setCoreAt State.coreAt
  split
  · obtain ⟨hconv, htrace⟩ := hf s.core
    exact ⟨by rw [hconv], by rw [hconv], by rw [hconv], htrace⟩
  · exact ⟨rfl, rfl, rfl, rfl⟩

theorem SameSetting.multicastTo (h : Share) (p : Nat × Nat) (s : State) : SameSetting s (multicastTo h p s) := by
  unfold Machine.multicastTo
  split
  · refine .modCoreAt _ (fun _ => ?_) s
    exact ⟨rfl, rfl⟩
  · split
    · exact ⟨rfl, rfl, rfl, rfl⟩
    · exact .refl s

/-- The checks of R262 pass on views that hold the granted sizes, with the unit on. -/
theorem productCheck_eq_none (hen : s.core.mat.en = true) (hv : viewsHold s a b) : productCheck s n a.toNat b.toNat = none := by
  obtain ⟨ha, hk, hb⟩ := hv
  simp [productCheck, orCheck, matOff, shapeCheck, hen, ha, hb, hk]

theorem gmma_describes (h : besideWord (.gmma n a b c) s = some w) (hf : w.fits) : w.Describes (.gmma n a b c) s := by
  cases h
  obtain ⟨htype, ⟨hen, hfree⟩, hviews, harmed⟩ := hf
  have hcheck : (memberOf (.gmma n a b c) s).check = none := productCheck_eq_none hen hviews
  have hready : (memberOf (.gmma n a b c) s).ready = true := by
    have hgang : gangArmed s = true := List.all_eq_true.mpr fun p hp => by simpa using harmed p hp
    show (!slabHeld s n && gangArmed s) = true
    rw [hfree, hgang]; rfl
  exact {
    vector := rfl
    cls := fun _ => ⟨nofun, nofun⟩
    paired := fun _ => decide_eq_true htype
    settled := rfl
    check := hcheck
    ready := hready
    shapes := fun _ => Member.Asks.shapeFault_eq_none ⟨rfl, hcheck, hready, rfl, rfl⟩
    pops := fun _ => Nat.zero_le _
    pushes := fun _ => Nat.zero_le _
    run := fun _ hb => run_of_operands (fun {r t} _ ht _ => by
      have hreleased : releaseFault t = none := ht.kept.trans hb.kept
      show (gmmaMember r n a b).run t = _
      simp only [gmmaMember, hreleased]
      rfl) hb
    trace := ((SameSetting.product2 _ _ _ _ _ _ _ _).trans (SameSetting.foldl _ (fun u p => .multicastTo _ p u) _ _)).trace
    kept := .inl rfl }

end Ganged

/-- Settles O47: VCAPP appends at once where there is room, VWAIT's pass meets its conditions, and a ganged product is the
issuer's own with its multicast. -/
theorem besideWords : Obligations.BesideWords := by
  intro i s w hw hb hc hf hv hn
  unfold besideWord at hw
  split at hw
  case h_1 q a m c =>
    cases hw
    exact cappWord_completes (value := fun j u => elemGet (shapeAt a.toNat u) 32 j u)
      (uses := fun t => [readVl a.toNat 32 t.vl]) rfl (fun _ => rfl) rfl rfl hb hc hf hv hn
  case h_2 q k m c =>
    cases hw
    exact cappWord_completes (value := fun j u => ((readK k.toNat u).toNat + j) % 2 ^ 32)
      (uses := fun _ => []) rfl (fun _ => rfl) rfl rfl hb hc hf hv hn
  case h_3 d a e k m => exact ((vwait_describes hw hb).completes hb hc hf hv hn).1
  case h_4 n a b c => exact ((gmma_describes hw hf).completes hb hc hf hv hn).1
  case h_5 => cases hw

end Sys2Proof.Machine

/-! ## VISSUE (06_issue.md R146 to R150)

Where no lane word is legal, VISSUE marks its elements and runs nothing. Where all of them are one integer word, the word
runs once, under a mask of VISSUE's own: its elements are those that hold the word and are active under the mask that the
word names, and what they do depends on nothing that VISSUE itself changes. -/

namespace Sys2Proof.Laws

/-! ### An operand at a place in a word (02_encoding.md R27) -/

/-- The operand of a width that stands at a bit of a word. -/
def operandAt (w : Nat) : Nat → List Seg → List Nat → Option Nat
  | p, .fixed v _ :: t, xs => if v ≤ p then operandAt w (p - v) t xs else none
  | p, .operand v :: t, x :: xs => if v ≤ p then operandAt w (p - v) t xs else if p = 0 ∧ v = w then some x else none
  | _, _, _ => none

/-- The same, of an instruction. -/
def fieldAt (w p : Nat) (i : Instr) : Option Nat := i.fields.bind (fun f => operandAt w p f.1 f.2)

theorem operandAt_of_match {w x : Nat} {sg : List Seg} : ∀ {p n : Nat} {xs : List Nat}, segsMatch sg n = some xs →
    operandAt w p sg xs = some x → n / 2 ^ p % 2 ^ w = x := by
  have hdrop : ∀ {v p n : Nat}, v ≤ p → n / 2 ^ v / 2 ^ (p - v) = n / 2 ^ p := fun h => by
    rw [Nat.div_div_eq_div_mul, ← Nat.pow_add, Nat.add_sub_of_le h]
  induction sg with
  | nil => exact fun _ h => nomatch h
  | cons f t ih =>
    intro p n xs hm hx
    cases f with
    | fixed v c =>
      simp only [segsMatch, ite_eq_iff, reduceCtorEq, and_false, or_false] at hm
      simp only [operandAt, ite_eq_iff, reduceCtorEq, and_false, or_false] at hx
      rw [← hdrop hx.1]
      exact ih hm.2 hx.2
    | operand v =>
      obtain ⟨ys, hy, rfl⟩ := Option.map_eq_some_iff.mp hm
      rw [operandAt] at hx
      split at hx
      · next hle =>
        rw [← hdrop hle]
        exact ih hy hx
      · split at hx
        · next hpw =>
          obtain ⟨rfl, rfl⟩ := hpw
          rw [Nat.pow_zero, Nat.div_one]
          exact Option.some.inj hx
        · cases hx

/-- The operand of an instruction stands at its place in the word. -/
theorem encode_field {w p x : Nat} {i : Instr} (hr : readWord (encode i) = some i) (h : fieldAt w p i = some x) :
    (encode i).toNat / 2 ^ p % 2 ^ w = x := by
  obtain ⟨r, hmem, hread⟩ := readRows_mem hr
  obtain ⟨xs, hmatch, hbuild⟩ := Option.bind_eq_some_iff.mp hread
  have hfields := (rowsOf_invert _ r hmem).of_match hmatch
  rw [hbuild, (segsPack_match _ _ _ hmatch).2] at hfields
  rw [fieldAt, (Prod.mk.inj (Option.some.inj hfields)).1] at h
  exact operandAt_of_match hmatch h

/-! ### A lane word is read as convoy text is (06_issue.md R147) -/

theorem forProc_convoy (i : Instr) : forProc .convoy i = i := by
  unfold forProc
  split <;> rfl

theorem opcode_of_laneOpcode {n op : Nat} (h : Machine.laneOpcode n op = true) : 0x40 ≤ op := by
  simp only [Machine.laneOpcode, Bool.or_eq_true, Bool.and_eq_true, decide_eq_true_eq, beq_iff_eq] at h
  omega

/-- At and above 0x40 the rows are those of the vector words. -/
theorem rowsOf_vector {op : Nat} (h : 0x40 ≤ op) : rowsOf op = vectorRows op := by
  unfold rowsOf
  split
  case h_50 => rfl
  all_goals exact absurd h (by decide)

/-- A well-formed word of the vector opcodes is read from what it encodes to. -/
theorem readVector_encode {i : Instr} (hi : i.isWord = true) (hwf : i.wf = true) (hop : 0x40 ≤ (encode i).toNat % 128) :
    readWord (encode i) = some i ∧ readVector (encode i) = some i := by
  have hdecode := decodeOfEncode i hi hwf
  have hproc : procOf i = .convoy := if_pos hop
  rw [hproc] at hdecode
  obtain ⟨j, hread, -, hj⟩ := readWord_of_decode hdecode
  rw [forProc_convoy] at hj
  subst hj
  refine ⟨hread, ?_⟩
  rw [readVector, ← rowsOf_vector hop]
  exact hread

end Sys2Proof.Laws

namespace Sys2Proof.Machine

/-! ### The integer words under a mask that is not their own (R147, R148) -/

/-- A formula that takes no more from the convoy stream than VTYPE. -/
def OfType (f : ElemOp) : Prop := ∀ c c' : Conv, c.vtype = c'.vtype → f c = f c'

section OfType

variable {f : ElemOp}

theorem type_congr {c c' : Conv} (h : c.vtype = c'.vtype) : c.type = c'.type := congrArg (fun v : BitVec 8 => v.toNat % 16) h

theorem ew_congr {c c' : Conv} (h : c.vtype = c'.vtype) : c.ew = c'.ew := congrArg ewOf (type_congr h)

theorem onInts_ofType (g : Int → Int → Int) : OfType (onInts g) := fun c c' h => by
  funext x y z
  simp only [onInts, ew_congr h, type_congr h]

theorem onHigh_ofType (g : Nat → Int → Int → Int) : OfType (fun c x y z => onInts (g c.ew) c x y z) := fun c c' h => by
  funext x y z
  simp only [ew_congr h, onInts_ofType _ c c' h]

theorem onQuotient_ofType (zero : Nat → Nat → Nat) (g : Int → Int → Int) : OfType (onQuotient zero g) := fun c c' h => by
  funext x y z
  simp only [onQuotient, ew_congr h, onInts_ofType g c c' h]

theorem onClamped_ofType (g : Int → Int → Int) : OfType (onClamped g) := fun c c' h => by
  funext x y z
  simp only [onClamped, ew_congr h, type_congr h]

theorem onShift_ofType (g : Nat → Nat → Nat → Int) : OfType (onShift g) := fun c c' h => by
  funext x y z
  simp only [onShift, ew_congr h]

theorem OfType.old (h : OfType f) : OfType (onOld f) := fun c c' hc => by
  funext x y z
  simp only [onOld, h c c' hc]

end OfType

/-- The bit of a vector word at which it names the mask that governs it (02_encoding.md R29). -/
def maskPlace : Nat := 25

/-- What VISSUE needs of a word of a form: the mask that the word names stands in its place; under another mask its member
is the form's under that mask; and its formula takes no more than VTYPE from the convoy stream. -/
structure ElementForm.Lane (F : ElementForm) (i : Instr) : Prop extends F.Describes i where
  word : i.isWord = true
  field : Laws.fieldAt 3 maskPlace i = some F.m.toNat
  governed : ∀ g s, describe g i s =
    elementwise s (arithmeticPipe i) (F.pairs s.core.conv.type) F.d.toNat F.x F.y F.readsD (g F.m.toNat) F.op
  ofType : OfType F.f

/-- An integer word has such a form: of the constructor alone, what is left unsaid holds by definition. -/
theorem lane_of_integer {i : Instr} {readsD : Bool} {d : BitVec 6} {x y : Src} {m : BitVec 3} {op f : ElemOp} (s : State)
    (ha : OpAgrees (6 ≤ ·) readsD op f) (ht : OfType f)
    (hv : ∀ s, exec i s = vectorWord i s := by exact fun _ => rfl)
    (hg : ∀ g s, describe g i s =
      elementwise s (arithmeticPipe i) (isI s.core.conv.type) d.toNat x y readsD (g m.toNat) op := by exact fun _ _ => rfl)
    (hm : ∀ s, memberOf i s = describe id i s := by exact fun _ => rfl)
    (hw : i.isWord = true := by rfl) (hf : Laws.fieldAt 3 maskPlace i = some m.toNat := by rfl) :
    ∃ F : ElementForm, F.Lane i ∧ onElements s (6 ≤ s.core.conv.type) d x y m f = F.word s :=
  ⟨⟨isI, (6 ≤ ·), readsD, d, x, y, m, op, f⟩,
    ⟨⟨hv, fun s => (hm s).trans (hg id s), isI_iff, ha⟩, hw, hf, hg, ht⟩, rfl⟩

theorem integerWord_lane {i : Instr} {s : State} {w : ElementWord} (h : integerWord i s = some w) :
    ∃ F : ElementForm, F.Lane i ∧ w = F.word s := by
  unfold integerWord at h
  split at h
  -- VADD, VSUB, VMUL, VMIN, VMAX and their scalar forms, and VAVG
  case h_1 | h_2 | h_3 | h_4 | h_5 | h_8 | h_9 | h_10 | h_11 | h_12 | h_23 =>
    cases h; exact lane_of_integer s (iOp2_agrees _ _) (onInts_ofType _)
  -- VDIV and VREM
  case h_6 | h_13 => cases h; exact lane_of_integer s (iDivOp_agrees _) (onQuotient_ofType _ _)
  case h_7 | h_14 => cases h; exact lane_of_integer s (iRemOp_agrees _) (onQuotient_ofType _ _)
  -- the immediate forms
  case h_15 | h_16 | h_17 | h_18 | h_19 => cases h; exact lane_of_integer s (iOp2_agrees _ _).old (onInts_ofType _).old
  -- VSADD, VSSUB and VMULH
  case h_20 | h_21 => cases h; exact lane_of_integer s (iSatOp_agrees _ _) (onClamped_ofType _)
  case h_22 => cases h; exact lane_of_integer s (iMulhOp_agrees _) (onHigh_ofType (fun w u v => u * v / 2 ^ w))
  -- the shifts
  case h_24 => cases h; exact lane_of_integer s (sllOp_agrees _) (onShift_ofType _)
  case h_25 => cases h; exact lane_of_integer s (srlOp_agrees _) (onShift_ofType _)
  case h_26 => cases h; exact lane_of_integer s (sraOp_agrees _) (onShift_ofType _)
  case h_27 => cases h; exact lane_of_integer s (sllOp_agrees _).old (onShift_ofType _).old
  case h_28 => cases h; exact lane_of_integer s (srlOp_agrees _).old (onShift_ofType _).old
  case h_29 => cases h; exact lane_of_integer s (sraOp_agrees _).old (onShift_ofType _).old
  case h_30 => cases h

/-! ### What a VISSUE changes (06_issue.md R148, R149) -/

/-- The core and memory but for what lane words, masks and the flight of a VISSUE change. -/
structure LaneWork (s t : State) : Prop where
  core : t.core = { s.core with conv := { s.core.conv with
    plane := t.core.conv.plane, wrote := t.core.conv.wrote, planepwr := t.core.conv.planepwr, vflags := t.core.conv.vflags
    masks := t.core.conv.masks, stored := t.core.conv.stored, flight := t.core.conv.flight } }
  late : t.core.conv.late = s.core.conv.late
  next : startElem t = startElem s
  mem : t.mem = s.mem

namespace LaneWork

variable {s t u : State}

theorem refl (s : State) : LaneWork s s := ⟨rfl, rfl, rfl, rfl⟩

theorem trans (h : LaneWork s t) (h' : LaneWork t u) : LaneWork s u where
  core := h'.core.trans (by rw [h.core])
  late := h'.late.trans h.late
  next := h'.next.trans h.next
  mem := h'.mem.trans h.mem

theorem of_planeWork (h : PlaneWork s t) : LaneWork s t where
  core := h.core.trans (by rw [h.core])
  late := by rw [Conv.late, h.core]; rfl
  next := by rw [startElem, h.core]; rfl
  mem := h.mem

theorem writeMaskBit (m e : Nat) (v : Bool) (s : State) : LaneWork s (writeMaskBit m e v s) := ⟨rfl, rfl, rfl, rfl⟩

theorem foldl {α : Type} {g : State → α → State} (hg : ∀ t a, LaneWork t (g t a)) (l : List α) (s : State) :
    LaneWork s (l.foldl g s) := by
  induction l generalizing s with
  | nil => exact refl s
  | cons a l ih => exact (hg s a).trans (ih _)

/-- A change of the flight that keeps its late writes and its next element. -/
theorem modFlight {f : Flight → Flight} (hl : ∀ x, (f x).late = x.late) (hn : ∀ x, (f x).next = x.next) (s : State) :
    LaneWork s (s.modConv (fun c => { c with flight := c.flight.map f })) where
  core := rfl
  late := by
    simp only [Conv.late, State.modConv_core, Option.map_map]
    cases s.core.conv.flight with
    | none => rfl
    | some x => exact hl x
  next := by
    simp only [startElem, State.modConv_core, Option.map_map]
    cases s.core.conv.flight with
    | none => rfl
    | some x => exact hn x
  mem := rfl

theorem setting (h : LaneWork s t) : SameSetting s t where
  vtype := congrArg (·.conv.vtype) h.core
  vctl := congrArg (·.conv.vctl) h.core
  vl := congrArg (·.conv.vl) h.core
  trace := congrArg (·.trace) h.core

end LaneWork

/-! ### The masks (R148) -/

/-- Bits of a mask, written one after another. -/
def putBits (m : Nat) (b : Nat → Bool) (l : List Nat) (masks : Sp Bool) : Sp Bool :=
  l.foldl (fun x e => spPut false x (8192 * m + e) (b e)) masks

section Masks

variable {m : Nat} {b : Nat → Bool} {s : State}

/-- Bits of a mask, written one after another, of a state. -/
def writeBits (m : Nat) (b : Nat → Bool) (l : List Nat) (s : State) : State :=
  l.foldl (fun t e => writeMaskBit m e (b e) t) s

theorem writeBits_eq (l : List Nat) (s : State) :
    writeBits m b l s = s.modConv (fun c => { c with masks := putBits m b l c.masks }) := by
  unfold writeBits
  induction l generalizing s with
  | nil => rfl
  | cons e l ih => rw [List.foldl_cons, ih]; rfl

theorem spGet_putBits_of_forall_ne {l : List Nat} {k : Nat} (h : ∀ e ∈ l, k ≠ 8192 * m + e) (masks : Sp Bool) :
    spGet false (putBits m b l masks) k = spGet false masks k := by
  unfold putBits
  induction l generalizing masks with
  | nil => rfl
  | cons e l ih =>
    rw [List.foldl_cons, ih fun x hx => h x (List.mem_cons_of_mem _ hx), spGet_put_ne _ _ _ (h e List.mem_cons_self)]

theorem spGet_putBits {l : List Nat} {e : Nat} (h : e ∈ l) (masks : Sp Bool) :
    spGet false (putBits m b l masks) (8192 * m + e) = b e := by
  induction l using List.reverseRecOn with
  | nil => cases h
  | append_singleton l x ih =>
    rw [putBits, List.foldl_append, List.foldl_cons, List.foldl_nil, spGet_put]
    split
    · next heq => rw [show x = e by omega]
    · next hne =>
      refine ih ?_
      obtain h | h := List.mem_append.mp h
      · exact h
      · exact absurd (congrArg (8192 * m + ·) (List.mem_singleton.mp h)) hne

/-- A mask whose bits are written below VL reads as written. -/
theorem maskBit_writeBits (hm : m ≠ 0) {l : List Nat} {e : Nat} (h : e ∈ l) (s : State) :
    maskBit m e (writeBits m b l s) = b e := by
  rw [writeBits_eq, maskBit, beq_eq_false_iff_ne.mpr hm]
  exact spGet_putBits h _

end Masks

/-! ### Lane words and their legality (06_issue.md R147) -/

section Legal

variable {s : State}

/-- What legality asks of a word is as it was before VISSUE issued. -/
theorem describe_running (v i : Instr) (hb : s.Boundary) :
    (describe id i (running v s)).paired = (describe id i s).paired
      ∧ (describe id i (running v s)).uses = (describe id i s).uses
      ∧ (describe id i (running v s)).maskWrites = (describe id i s).maskWrites := by
  rw [running_eq v hb]
  generalize (running v s).core.conv.planepwr = p
  cases i <;> exact ⟨rfl, rfl, rfl⟩

theorem laneInstr_running (v : Instr) (hb : s.Boundary) (n : Nat) (encl : List Enclosing) (w : Nat) :
    laneInstr n encl w (running v s) = laneInstr n encl w s := by
  have htable : (running v s).core.conv.table = s.core.conv.table := by rw [running_eq v hb]; rfl
  have hwrites (i : Instr) (e : Enclosing) :
      writesEnclosing (describe id i (running v s)) e (running v s) = writesEnclosing (describe id i s) e s := by
    obtain ⟨-, huses, hmasks⟩ := describe_running v i hb
    simp only [writesEnclosing, huses, hmasks, shapeAt, htable]
  unfold laneInstr
  simp only [(describe_running v _ hb).1, hwrites]

variable {F : ElementForm} {j : Instr}

theorem ElementForm.Lane.describe_eq (h : F.Lane j) : describe id j s = F.member j s := h.governed id s

/-- An integer word whose destination is apart from the lane words is legal. -/
theorem ElementForm.Lane.laneInstr_eq (h : F.Lane j) {e : Enclosing} (hc : endsConvoy j) (hwf : j.wf = true)
    (hop : laneOpcode 1 ((encode j).toNat % 128) = true) (hi : F.types s.core.conv.type)
    (ha : ∀ b ∈ cellBoxes (shapeAt F.d.toNat s), boxesMeet b e.box = false) :
    laneInstr 1 [e] (encode j).toNat s = some j := by
  have hwrites : writesEnclosing (F.member j s) e s = false := by
    have hmasks : (F.member j s).maskWrites = [] := rfl
    rw [writesEnclosing, hmasks, List.any_nil, Bool.or_false, List.any_eq_false]
    intro u hu hmeets
    obtain ⟨hwr, hany⟩ := Bool.and_eq_true_iff.mp hmeets
    rw [F.eq_target_of_wr hu hwr, F.target_eq] at hany
    obtain ⟨b, hmem, hb⟩ := List.any_eq_true.mp hany
    rw [ha b hmem] at hb
    cases hb
  have hread := (Laws.readVector_encode h.word hwf (Laws.opcode_of_laneOpcode hop)).2
  have hpaired : (F.member j s).paired = true := (h.pairs _).mpr hi
  unfold laneInstr
  rw [if_neg (by rw [hop, not_or]; exact ⟨Nat.not_le.mpr hc, nofun⟩), BitVec.ofNat_toNat, BitVec.setWidth_eq, hread]
  simp [h.describe_eq, hwf, hpaired, hwrites]

end Legal

/-! ### The words of a VISSUE in their order (R148, R149) -/

section Words

variable {active : List Nat} {w : Nat} {j : Instr} {s : State} {word : Nat → Nat}

/-- Illegal words are none to run. -/
theorem legalWords_of_illegal (l : List Nat) (start : Nat) : legalWords (l.map (fun e => (e, word e, none))) start = [] := by
  have hnone : (l.map (fun e => (e, word e, (none : Option Instr)))).filter
      (fun p => p.2.2.isSome && decide (start ≤ p.2.1)) = [] := by
    rw [List.filter_eq_nil_iff]
    simp
  rw [legalWords, hnone]
  rfl

/-- One word that every element holds is the one to run. -/
theorem legalWords_of_one (e : Nat) (l : List Nat) : legalWords ((e :: l).map (fun e => (e, w, some j))) 0 = [w] := by
  have hall : ((e :: l).map (fun e => (e, w, some j))).filter (fun p => p.2.2.isSome && decide (0 ≤ p.2.1))
      = (e :: l).map (fun e => (e, w, some j)) := by
    rw [List.filter_eq_self]
    simp
  have hrepeat : ∀ l : List Nat, (l.map (fun e => (e, w, some j))).foldl (fun x p => insertAsc p.2.1 x) [w] = [w] := by
    intro l
    induction l with
    | nil => rfl
    | cons e l ih => simpa [insertAsc] using ih
  rw [legalWords, hall]
  exact hrepeat l

theorem wordInstr_of_one (e : Nat) (l : List Nat) : wordInstr ((e :: l).map (fun e => (e, w, some j))) w = some j := by
  simp [wordInstr]

/-- The elements of the one word are the active ones under the mask that it names. -/
theorem wordElems_of_one (l : List Nat) (s : State) :
    wordElems (l.map (fun e => (e, w, some j))) w s = l.filter (fun e => maskBit (w / 2 ^ 25 % 8) e s) := by
  have hall : (l.map (fun e => (e, w, some j))).filter (fun p => p.2.1 == w) = l.map (fun e => (e, w, some j)) := by
    rw [List.filter_eq_self]
    simp
  rw [wordElems, hall, List.map_map]
  simp [Function.comp_def]

/-- A word that is no VISSUE, and that nothing stops, ends the words when it is the last. -/
theorem runWords_one {lanes : List (Nat × Nat × Option Instr)} {start inner : Nat} {depth : Bool}
    {run : Nat → Nat → Nat → Nat → List Nat → Nat → State → VisEnd} {at' : Nat × Nat} {t : State}
    (hi : wordInstr lanes w = some j) (hj : ∀ d a m, j ≠ .vissue d a m)
    (hr : runLaneWord j (wordElems lanes w s) (if w = start then startElem s else 0) w at' s = .done t false)
    (hp : t.core.pace = none) : runWords lanes start inner depth run [w] at' s = .done t false := by
  unfold runWords
  rw [hi]
  split
  · next heq => exact absurd (Option.some.inj heq) (hj _ _ _)
  · next heq =>
    cases heq
    simp only [hr, nextWord, hp, Option.isSome_none, Bool.false_eq_true, if_false]
    rfl
  · next heq => cases heq

end Words

/-! ### The elements of a lane word (R148, R149; 05_convoy.md R121) -/

/-- Two states between which an integer element finds the same operands, and leaves the same cells and flags. -/
structure SameCells (s t : State) : Prop where
  vtype : t.core.conv.vtype = s.core.conv.vtype
  table : t.core.conv.table = s.core.conv.table
  k : t.core.conv.k = s.core.conv.k
  plane : t.core.conv.plane = s.core.conv.plane
  vflags : t.core.conv.vflags = s.core.conv.vflags

namespace SameCells

variable {s t u : State}

theorem refl (s : State) : SameCells s s := ⟨rfl, rfl, rfl, rfl, rfl⟩

theorem symm (h : SameCells s t) : SameCells t s :=
  ⟨h.vtype.symm, h.table.symm, h.k.symm, h.plane.symm, h.vflags.symm⟩

theorem trans (h : SameCells s t) (h' : SameCells t u) : SameCells s u :=
  ⟨h'.vtype.trans h.vtype, h'.table.trans h.table, h'.k.trans h.k, h'.plane.trans h.plane, h'.vflags.trans h.vflags⟩

theorem ew (h : SameCells s t) : t.core.conv.ew = s.core.conv.ew := ew_congr h.vtype

theorem shapeAt (h : SameCells s t) (n : Nat) : shapeAt n t = shapeAt n s := by rw [Machine.shapeAt, Machine.shapeAt, h.table]

theorem readCell (h : SameCells s t) (r c : Nat) : readCell r c t = readCell r c s := by
  rw [Machine.readCell, Machine.readCell, h.plane]

theorem elemGet (h : SameCells s t) (v : Shape) (ew e : Nat) : elemGet v ew e t = elemGet v ew e s := by
  simp only [Machine.elemGet, h.readCell]

theorem get (h : SameCells s t) (x : Src) (ew e : Nat) : x.get ew e t = x.get ew e s := by
  cases x with
  | shape n => exact (congrArg (Machine.elemGet · ew e t) (h.shapeAt n)).trans (h.elemGet _ _ _)
  | scalar k => simp only [Src.get, Machine.readK, h.k]
  | imm v => rfl
  | unused => rfl

theorem elemSet (h : SameCells s t) (v : Shape) (ew e x : Nat) : SameCells (elemSet v ew e x s) (elemSet v ew e x t) := by
  refine ⟨?_, ?_, ?_, ?_, ?_⟩
  · rw [elemSet_eq, elemSet_eq v ew e x s]; exact h.vtype
  · rw [elemSet_eq, elemSet_eq v ew e x s]; exact h.table
  · rw [elemSet_eq, elemSet_eq v ew e x s]; exact h.k
  · unfold Machine.elemSet
    simp only [h.readCell]
    split <;> simp only [writeCell_core, h.plane]
  · rw [elemSet_eq, elemSet_eq v ew e x s]; exact h.vflags

theorem raiseFlags (h : SameCells s t) (f : FlagSet) : SameCells (raiseFlags f s) (raiseFlags f t) :=
  ⟨h.vtype, h.table, h.k, h.plane, by rw [Machine.raiseFlags, Machine.raiseFlags]; exact congrArg (· ||| f) h.vflags⟩

theorem wake (l : List Access) (s : State) : SameCells s (wake l s) := ⟨rfl, rfl, rfl, rfl, rfl⟩

end SameCells

namespace ElementForm

variable {F : ElementForm} {i : Instr} {s t u : State} {e g : Nat}

/-- The result of element e, written with its flags. -/
def put (F : ElementForm) (e : Nat) (t : State) : State :=
  raiseFlags (F.result e t).2 (elemSet (shapeAt F.d.toNat t) t.core.conv.ew e (F.result e t).1 t)

/-- Element e of the form under a mask of any number. -/
def under (F : ElementForm) (g e : Nat) (t : State) : State := if maskBit g e t then F.put e t else t

theorem put_planeWork (F : ElementForm) (e : Nat) (t : State) : PlaneWork t (F.put e t) :=
  (PlaneWork.elemSet _ _ _ _ _).trans (.raiseFlags _ _)

theorem under_planeWork (F : ElementForm) (g e : Nat) (t : State) : PlaneWork t (F.under g e t) := by
  unfold under
  split
  · exact F.put_planeWork e t
  · exact .refl t

theorem put_congr (hf : OfType F.f) (h : SameCells s t) : SameCells (F.put e s) (F.put e t) := by
  have hresult : F.result e t = F.result e s := by
    simp only [result, h.ew, h.get, h.shapeAt, h.elemGet, hf _ _ h.vtype]
  unfold put
  rw [hresult, h.shapeAt, h.ew]
  exact (h.elemSet _ _ _ _).raiseFlags _

/-- An element of a member of the form, under a mask of any number and with no arithmetic trap enabled. -/
theorem elem_under (ha : OpAgrees F.types F.readsD F.op F.f) (hi : F.types s.core.conv.type) (hs : SameSetting s t)
    (hv : t.core.conv.vctl = 0) {pipe : Pipe} {p : Bool} :
    (elementwise s pipe p F.d.toNat F.x F.y F.readsD g F.op).elem e t = .ok (F.under g e t) [] [] := by
  have hop := ha t.core.conv (F.x.get t.core.conv.ew e t) (F.y.get t.core.conv.ew e t)
    (elemGet (shapeAt F.d.toNat t) t.core.conv.ew e t)
    (if F.readsD then elemGet (shapeAt F.d.toNat t) t.core.conv.ew e t else 0) (hs.type.symm ▸ hi) (Src.get_lt _ _ _ _)
    (Src.get_lt _ _ _ _) (elemGet_lt _ _ _ _) (fun h => if_pos h)
  simp only [elementwise, ← hs.ew, hop]
  by_cases hk : maskBit g e t = true
  · simp only [under, hk, Bool.true_eq_false, if_false, finishElem_quiet _ _ _ t hv]
    rfl
  · rw [if_pos (Bool.eq_false_iff.mpr hk), under, if_neg hk]
    rfl

/-- Elements run in order, each waking what it accesses, do what those with a bit in the mask do alone. -/
theorem foldl_under (hf : OfType F.f) (acc : Nat → State → List Access) {b : Nat → Bool} (l : List Nat)
    (h : SameCells u t) (hb : ∀ e ∈ l, maskBit g e t = b e) :
    SameCells ((l.filter b).foldl (fun u e => F.put e u) u) (l.foldl (fun t e => F.under g e (wake (acc e t) t)) t) := by
  induction l generalizing u t with
  | nil => exact h
  | cons e l ih =>
    have hwork : PlaneWork t (F.under g e (wake (acc e t) t)) := (PlaneWork.wake _ t).trans (F.under_planeWork _ _ _)
    have hrest : ∀ x ∈ l, maskBit g x (F.under g e (wake (acc e t) t)) = b x := fun x hx =>
      (hwork.maskBit_eq g x).trans (hb x (List.mem_cons_of_mem _ hx))
    have hwake : SameCells u (wake (acc e t) t) := h.trans (.wake _ t)
    have hbit : maskBit g e (wake (acc e t) t) = b e := ((PlaneWork.wake _ t).maskBit_eq g e).trans (hb e List.mem_cons_self)
    rw [List.foldl_cons, List.filter_cons]
    by_cases hbe : b e = true
    · rw [if_pos hbe, List.foldl_cons]
      refine ih ?_ hrest
      rw [under, if_pos (hbit.trans hbe)]
      exact put_congr hf hwake
    · rw [if_neg hbe]
      refine ih ?_ hrest
      rw [under, if_neg (fun hm => hbe (hbit.symm.trans hm))]
      exact hwake

end ElementForm

/-! ### A band that wakes is no band that is OFF (03_plane.md R91) -/

section Bands

variable {pwr : BitVec 16} {v : Shape}

/-- What an access leaves a band in. -/
def bandWoken (pwr : BitVec 16) (v : Shape) (ew : Nat) (l : List Nat) (b : Nat) : Nat :=
  if bandState pwr b = 1 ∧ v.kind ≠ 0 ∧ l.any (fun e => (place v ew e).1 / 64 == b) then 2 else bandState pwr b

theorem bandWoken_lt (pwr : BitVec 16) (v : Shape) (ew : Nat) (l : List Nat) (b : Nat) : bandWoken pwr v ew l b < 4 := by
  unfold bandWoken
  split
  · decide
  · exact Nat.mod_lt _ (by decide)

theorem bandState_wakeBands (pwr : BitVec 16) (v : Shape) (ew : Nat) (l : List Nat) {b : Nat} (hb : b < 8) :
    bandState (wakeBands pwr v ew l) b = bandWoken pwr v ew l b := by
  have hlt : digitSum 4 (bandWoken pwr v ew l) 8 < 2 ^ 16 := digitSum_lt (bandWoken_lt pwr v ew l) 8
  have hsum : wakeBands pwr v ew l = .ofNat 16 (digitSum 4 (bandWoken pwr v ew l) 8) := rfl
  rw [bandState, hsum, BitVec.toNat_ofNat, Nat.mod_eq_of_lt hlt, digitSum_digit (bandWoken_lt pwr v ew l) hb]

theorem bandWoken_eq_zero {ew : Nat} {l : List Nat} {b : Nat} (h : bandWoken pwr v ew l b = 0) : bandState pwr b = 0 := by
  unfold bandWoken at h
  split at h
  · cases h
  · exact h

/-- A shape with no cell in a band that is OFF has none once bands have woken. -/
theorem shapeGated_wakeBands {v' : Shape} {ew : Nat} {l : List Nat} (h : shapeGated pwr v = false) :
    shapeGated (wakeBands pwr v' ew l) v = false := by
  simp only [shapeGated, Bool.and_eq_false_iff, List.any_eq_false, List.mem_range] at h ⊢
  refine h.imp_right fun h b hb hoff => h b hb ?_
  rw [bandState_wakeBands pwr v' ew l hb] at hoff
  simp only [Bool.and_eq_true, beq_iff_eq] at hoff ⊢
  exact hoff.imp_left fun ⟨hstate, htop⟩ => ⟨bandWoken_eq_zero hstate, htop⟩

theorem shapeGated_wakeAll {l : List Access} {s : State} (h : shapeGated pwr v = false) :
    shapeGated (wakeAll l pwr s) v = false := by
  have hfold : ∀ (l : List Access) {p : BitVec 16}, shapeGated p v = false →
      shapeGated (l.foldl (fun p x => wakeBands p (shapeAt x.shape s) x.ew x.elems) p) v = false := by
    intro l
    induction l with
    | nil => exact fun hp => hp
    | cons x l ih => exact fun hp => ih (shapeGated_wakeBands hp)
  unfold wakeAll
  split
  · exact hfold l h
  · exact h

end Bands

/-! ### A lane word runs (R148, R149) -/

section Lane

variable {s t : State} {F : ElementForm} {j : Instr} {elems : List Nat}

/-- The records of a lane word, with no trace, mark its flight alone. -/
structure LaneMark (s t : State) : Prop extends LaneWork s t, SameCells s t where
  masks : t.core.conv.masks = s.core.conv.masks

theorem LaneMark.setMid (n : Option Nat) (s : State) : LaneMark s (setMid n s) where
  toLaneWork := .modFlight (f := fun x => { x with mid := n }) (fun _ => rfl) (fun _ => rfl) s
  toSameCells := ⟨rfl, rfl, rfl, rfl, rfl⟩
  masks := rfl

theorem beginLane_mark (ht : s.core.trace.ltrc.getLsbD 8 = false) (pipe : Nat) : LaneMark s (beginLane pipe s) := by
  unfold beginLane
  split
  · exact ⟨.refl s, .refl s, rfl⟩
  · rw [emitRecord_off _ _ _ _ _ (by exact ht)]
    obtain ⟨hwork, hcells, hmasks⟩ := LaneMark.setMid (some pipe) (s.modConv (fun c => { c with stored := [] }))
    have hstored : LaneWork s (s.modConv (fun c => { c with stored := [] })) := ⟨rfl, rfl, rfl, rfl⟩
    have hsame : SameCells s (s.modConv (fun c => { c with stored := [] })) := ⟨rfl, rfl, rfl, rfl, rfl⟩
    exact ⟨hstored.trans hwork, hsame.trans hcells, hmasks⟩

theorem endLane_mark (ht : s.core.trace.ltrc.getLsbD 8 = false) : LaneMark s (endLane s) := by
  unfold endLane
  split
  · rw [emitRecord_off _ _ _ _ _ ht]
    exact .setMid none s
  · exact ⟨.refl s, .refl s, rfl⟩

theorem setVirtual_eq (elems : List Nat) (s : State) :
    setVirtual elems s = writeBits virtualMask (fun _ => true) elems s := rfl

/-- The state in which the elements of a lane word begin. -/
def laneStart (j : Instr) (elems : List Nat) (s : State) : State :=
  setVirtual elems (beginLane (describe (fun _ => virtualMask) j s).pipe.code s)

/-- Elements of a lane word that has begun in a state, each waking what it accesses. -/
def laneElements (F : ElementForm) (m : Member) (l : List Nat) (t : State) : State :=
  l.foldl (fun t e => F.under virtualMask e (wake (m.touched [e] t) t)) t

/-- The state in which they have run. -/
def laneRun (F : ElementForm) (j : Instr) (elems : List Nat) (s : State) : State :=
  laneElements F (describe (fun _ => virtualMask) j s) (List.range' 0 s.vl) (laneStart j elems s)

theorem laneStart_work (ht : s.core.trace.ltrc.getLsbD 8 = false) : LaneWork s (laneStart j elems s) :=
  (beginLane_mark ht _).toLaneWork.trans (.foldl (fun t _ => .writeMaskBit _ _ _ t) _ _)

theorem laneElements_work (m : Member) (l : List Nat) (t : State) : PlaneWork t (laneElements F m l t) :=
  .foldl (fun t _ => (PlaneWork.wake _ t).trans (F.under_planeWork _ _ _)) l t

/-- An integer word that meets R83 and that neither the trace nor an earlier turn holds runs to its end. -/
theorem ElementForm.Lane.runLaneWord_eq (h : F.Lane j) (hi : F.types s.core.conv.type) (hv : s.core.conv.vctl = 0)
    (hn : ∀ n ∈ (F.word s).named, n.holds s) (ht : s.core.trace.ltrc.getLsbD 8 = false) (hp : s.core.pace = none)
    (w : Nat) (at' : Nat × Nat) :
    runLaneWord j elems 0 w at' s = .done (endLane (clearVirtual (laneRun F j elems s))) false := by
  have hgoverned := h.governed (fun _ => virtualMask) s
  have hshape : shapeFault (describe (fun _ => virtualMask) j s) s = none := by
    rw [hgoverned]
    exact F.shapeFault_eq_none (i := j) hn
  have hstart : LaneWork s (laneStart j elems s) := laneStart_work ht
  have hpace : (laneStart j elems s).core.pace = none := (congrArg (·.pace) hstart.core).trans hp
  have hset (l : List Nat) : SameSetting s (laneElements F (describe (fun _ => virtualMask) j s) l (laneStart j elems s)) :=
    hstart.setting.trans (laneElements_work _ _ _).setting
  have hrun : runElements [⟨0, describe (fun _ => virtualMask) j s⟩] s.vl 0 (laneStart j elems s)
      = .done (laneRun F j elems s) := by
    refine runElements_one (describe (fun _ => virtualMask) j s)
      (fun e t => F.under virtualMask e (wake ((describe (fun _ => virtualMask) j s).touched [e] t) t)) _ _ _ fun n _ => ?_
    have hwoken := (hset (List.range' 0 n)).trans (PlaneWork.wake ((describe (fun _ => virtualMask) j s).touched [0 + n]
      (laneElements F (describe (fun _ => virtualMask) j s) (List.range' 0 n) (laneStart j elems s))) _).setting
    rw [hgoverned] at hwoken ⊢
    exact F.elem_under h.agrees hi hwoken (hwoken.vctl.trans hv)
  have htrace : traceHolds [⟨0, describe (fun _ => virtualMask) j s⟩] s = false := by
    simp only [traceHolds, ht, Bool.and_false, Bool.false_and]
  have hvl : (laneRun F j elems s).vl = s.vl := (hset _).vl_eq
  have hturn : turnEnd [describe (fun _ => virtualMask) j s] 0 (laneStart j elems s) = s.vl :=
    (turnEnd_whole _ _ _ hpace).trans hstart.setting.vl_eq
  rw [laneStart] at hrun hturn
  unfold runLaneWord
  simp only [hshape, htrace, Bool.and_false, Bool.false_eq_true, if_false, hturn, Nat.sub_zero, hrun, hvl, Nat.lt_irrefl]

/-! #### What the word leaves -/

theorem clearVirtual_work (s : State) : LaneWork s (clearVirtual s) := ⟨rfl, rfl, rfl, rfl⟩

theorem maskBit_clearVirtual {k e : Nat} (hk : k < virtualMask) (he : e < 8192) (s : State) :
    maskBit k e (clearVirtual s) = maskBit k e s := by
  have hkey : 8192 * k + e < 8192 * virtualMask := by unfold virtualMask at hk ⊢; omega
  have hget := spGet_filter_key false (fun p => decide (p < 8192 * virtualMask)) s.core.conv.masks (8192 * k + e)
  rw [if_pos (decide_eq_true hkey)] at hget
  exact congrArg (k == 0 || ·) hget

/-- No bit of VISSUE's own mask is set. -/
def VirtualClear (masks : Sp Bool) : Prop := ∀ k, 8192 * virtualMask ≤ k → spGet false masks k = false

/-- The bits of VISSUE's own mask, where none was set before. -/
theorem maskBit_laneStart (ht : s.core.trace.ltrc.getLsbD 8 = false)
    (hclear : VirtualClear s.core.conv.masks) (e : Nat) :
    maskBit virtualMask e (laneStart j elems s) = decide (e ∈ elems) := by
  have hmasks := (beginLane_mark ht (describe (fun _ => virtualMask) j s).pipe.code).masks
  by_cases he : e ∈ elems
  · rw [decide_eq_true he]
    exact maskBit_writeBits (by decide) he _
  · rw [decide_eq_false he, laneStart, setVirtual_eq, writeBits_eq, maskBit, beq_eq_false_iff_ne.mpr (by decide),
      Bool.false_or]
    refine (spGet_putBits_of_forall_ne (fun x hx heq => he ?_) _).trans ?_
    · rwa [show e = x by omega]
    · rw [hmasks]; exact hclear _ (Nat.le_add_right _ _)

/-- The masks that a program names are as they were. -/
theorem maskBit_laneRun (ht : s.core.trace.ltrc.getLsbD 8 = false) {k e : Nat} (hk : k < virtualMask) (he : e < 8192) :
    maskBit k e (laneRun F j elems s) = maskBit k e s := by
  have hmasks := (beginLane_mark ht (describe (fun _ => virtualMask) j s).pipe.code).masks
  rw [laneRun, (laneElements_work _ _ _).maskBit_eq, laneStart, setVirtual_eq, writeBits_eq]
  refine congrArg (k == 0 || ·) ((spGet_putBits_of_forall_ne (fun x _ => ?_) _).trans (by rw [hmasks]))
  unfold virtualMask at hk ⊢
  omega

/-- The elements of the word have run, and no other, as they do in every state with the same cells. -/
theorem laneRun_cells {u : State} (hf : OfType F.f) (hu : SameCells u s) (ht : s.core.trace.ltrc.getLsbD 8 = false)
    (hclear : VirtualClear s.core.conv.masks) {p : Nat → Bool}
    (he : elems = (List.range s.vl).filter p) : SameCells (elems.foldl (fun u e => F.put e u) u) (laneRun F j elems s) := by
  have hbits : ∀ e ∈ List.range s.vl, maskBit virtualMask e (laneStart j elems s) = p e := fun e hmem => by
    rw [maskBit_laneStart ht hclear, he]
    simp only [List.mem_filter, hmem, true_and, Bool.decide_eq_true]
  have hstart : SameCells u (laneStart j elems s) := by
    obtain ⟨-, hcells, -⟩ := beginLane_mark ht (describe (fun _ => virtualMask) j s).pipe.code
    rw [laneStart, setVirtual_eq, writeBits_eq]
    exact (hu.trans hcells).trans ⟨rfl, rfl, rfl, rfl, rfl⟩
  have hrun := F.foldl_under hf (fun e t => (describe (fun _ => virtualMask) j s).touched [e] t) (List.range s.vl) hstart
    hbits
  rw [← he] at hrun
  rw [laneRun, ← List.range_eq_range']
  exact hrun

end Lane

/-! ### The grouping of a VISSUE (R148) -/

section Grouping

variable {s : State} {active : List Nat} {md a w : Nat} {j : Instr} {word : Nat → Nat}
  {lanes : List (Nat × Nat × Option Instr)}

theorem beginGrouping_eq (h : latchedAt w s = none) : beginGrouping w a md active lanes s
    = latchAt w active (markIllegal md active lanes (wake [⟨a, 32, active⟩] s)) := by
  rw [beginGrouping, h]; rfl

/-- With no illegal word md is cleared below VL. -/
theorem markIllegal_of_legal (l : List Nat) (s : State) :
    markIllegal md active (l.map (fun e => (e, w, some j))) s = writeBits md (fun _ => false) (List.range s.vl) s := by
  have hbad : (l.map (fun e => (e, w, some j))).filter (fun p => p.2.2.isNone) = [] := by
    rw [List.filter_eq_nil_iff]
    simp
  simp only [markIllegal, hbad, List.map_nil, List.contains_nil, Bool.and_false, List.isEmpty_nil, if_true]
  rfl

/-- With illegal words alone it receives the active elements, and ISS is raised if there is one. -/
theorem markIllegal_of_illegal (active : List Nat) (s : State) :
    markIllegal md active (active.map (fun e => (e, word e, none))) s
      = if active = [] then writeBits md (active.contains ·) (List.range s.vl) s
        else raiseFlags flagISS (writeBits md (active.contains ·) (List.range s.vl) s) := by
  have hbad : ((active.map (fun e => (e, word e, (none : Option Instr)))).filter (fun p => p.2.2.isNone)).map (fun p => p.1)
      = active := by
    rw [List.filter_eq_self.mpr (by simp), List.map_map]
    exact List.map_id' _
  simp only [markIllegal, hbad, Bool.and_self, List.isEmpty_iff]
  rfl

theorem maskBit_markIllegal {e : Nat} (hmd : md ≠ 0) (he : e < s.vl) (active : List Nat) :
    maskBit md e (markIllegal md active (active.map (fun e => (e, word e, none))) s) = active.contains e := by
  have hbit := maskBit_writeBits (b := (active.contains ·)) hmd (List.mem_range.mpr he) s
  rw [markIllegal_of_illegal]
  split
  · exact hbit
  · exact hbit

theorem vflags_markIllegal (active : List Nat) (s : State) :
    (markIllegal md active (active.map (fun e => (e, word e, none))) s).core.conv.vflags
      = if active = [] then s.core.conv.vflags else s.core.conv.vflags ||| flagISS := by
  rw [markIllegal_of_illegal, writeBits_eq]
  split <;> rfl

theorem plane_markIllegal (active : List Nat) (s : State) :
    (markIllegal md active (active.map (fun e => (e, word e, none))) s).core.conv.plane = s.core.conv.plane := by
  rw [markIllegal_of_illegal, writeBits_eq]
  split <;> rfl

theorem latchAt_work (w : Nat) (l : List Nat) (s : State) : LaneWork s (latchAt w l s) :=
  .modFlight (f := fun x => { x with latched := x.latched ++ [(w, l)] }) (fun _ => rfl) (fun _ => rfl) s

theorem writeBits_work (m : Nat) (b : Nat → Bool) (l : List Nat) (s : State) : LaneWork s (writeBits m b l s) :=
  .foldl (fun t _ => .writeMaskBit _ _ _ t) l s

theorem markIllegal_work (md : Nat) (active : List Nat) (lanes : List (Nat × Nat × Option Instr)) (s : State) :
    LaneWork s (markIllegal md active lanes s) := by
  have hbits := writeBits_work md (fun i => active.contains i
    && ((lanes.filter (fun p => p.2.2.isNone)).map (fun p => p.1)).contains i) (List.range s.vl) s
  unfold markIllegal
  dsimp only
  split
  · exact hbits
  · exact hbits.trans (.of_planeWork (.raiseFlags _ _))

theorem beginGrouping_work (h : latchedAt w s = none) : LaneWork s (beginGrouping w a md active lanes s) := by
  rw [beginGrouping_eq h]
  exact (LaneWork.of_planeWork (.wake _ s)).trans ((markIllegal_work _ _ _ _).trans (latchAt_work _ _ _))

end Grouping

/-! ### A VISSUE runs (R146, R148 to R150) -/

section Vissue

variable {u t : State} {d a m w : Nat} {j : Instr} {word : Nat → Nat}

/-- A VISSUE that has not begun: from no start words, with nothing latched, and with no trap enabled. -/
structure VissueFresh (u : State) : Prop where
  vispos : u.core.conv.vispos = 0
  latched : latchedAt 0 u = none
  first : startElem u = 0
  vctl : u.core.conv.vctl = 0

/-- The lane words of its active elements. -/
def vissueLanes (d a m : Nat) (u : State) : List (Nat × Nat × Option Instr) :=
  laneWords 1 [⟨(shapeAt a u).box, m, d⟩] a (activeOf m u.elems u) u

/-- The state in which it has grouped its elements. -/
def vissueGrouped (d a m : Nat) (u : State) : State := beginGrouping 0 a d (activeOf m u.elems u) (vissueLanes d a m u) u

theorem VissueFresh.grouped_work (h : VissueFresh u) : LaneWork u (vissueGrouped d a m u) := beginGrouping_work h.latched

/-- It ends when its words have run. -/
theorem VissueFresh.runVissue_of_words (h : VissueFresh u)
    (hr : runWords (vissueLanes d a m u) 0 0 true (runInner ⟨(shapeAt a u).box, m, d⟩)
      (legalWords (vissueLanes d a m u) 0) (0, 0) (vissueGrouped d a m u) = .done t false)
    (hv : t.core.conv.vctl = 0) : runVissue d a m u = .ok t [] [] := by
  have hvispos : u.core.conv.vispos.toNat = 0 := by rw [h.vispos]; rfl
  unfold runVissue
  simp only [hvispos, h.latched, Option.getD_none, Nat.zero_mod, Nat.zero_div]
  rw [vissueGrouped, vissueLanes] at hr
  simp only [hr, hv]
  rw [if_neg (by simp)]
  rfl

/-- No legal word: VISSUE groups its elements and ends. -/
theorem VissueFresh.runVissue_of_illegal (h : VissueFresh u)
    (hl : vissueLanes d a m u = (activeOf m u.elems u).map (fun e => (e, word e, none))) :
    runVissue d a m u = .ok (vissueGrouped d a m u) [] [] := by
  refine h.runVissue_of_words ?_ (h.grouped_work.setting.vctl.trans h.vctl)
  rw [hl, legalWords_of_illegal]
  rfl

/-- One legal word: VISSUE groups its elements, runs it, and ends. -/
theorem VissueFresh.runVissue_of_one (h : VissueFresh u)
    (hl : vissueLanes d a m u = (activeOf m u.elems u).map (fun e => (e, w, some j)))
    (hne : activeOf m u.elems u ≠ []) (hj : ∀ d a m, j ≠ .vissue d a m)
    (hr : runLaneWord j (wordElems (vissueLanes d a m u) w (vissueGrouped d a m u)) 0 w (0, 0) (vissueGrouped d a m u)
      = .done t false)
    (hp : t.core.pace = none) (hv : t.core.conv.vctl = 0) : runVissue d a m u = .ok t [] [] := by
  have hfirst : (if w = 0 then startElem (vissueGrouped d a m u) else 0) = 0 := by
    rw [h.grouped_work.next, h.first, ite_self]
  obtain ⟨e, l, hactive⟩ := List.exists_cons_of_ne_nil hne
  refine h.runVissue_of_words ?_ hv
  have hwords : legalWords (vissueLanes d a m u) 0 = [w] := by rw [hl, hactive, legalWords_of_one]
  rw [hwords]
  refine runWords_one (j := j) ?_ hj (by rw [hfirst]; exact hr) hp
  rw [hl, hactive, wordInstr_of_one]

end Vissue

/-! ### A VISSUE alone in its convoy (R146; 02_encoding.md R41) -/

section Alone

variable {s t : State} {d m : BitVec 3} {a : BitVec 6}

/-- The fields of VISSUE below its last four bits, which are 0, end below the chain bit. -/
theorem endsConvoy_vissue (d : BitVec 3) (a : BitVec 6) (m : BitVec 3) : endsConvoy (.vissue d a m) := by
  have hfit : Laws.segsFit segsVissue [d.toNat, a.toNat, m.toNat] = true := by
    simp [segsVissue, Laws.segsFit, d.isLt, a.isLt, m.isLt]
  rw [endsConvoy, Laws.encode_toNat (i := .vissue d a m) rfl rfl hfit rfl]
  calc segsPack segsVissue [d.toNat, a.toNat, m.toNat]
      = segsPack (segsVissue.take 6) [d.toNat, a.toNat, m.toNat] := rfl
    _ < 2 ^ 28 := Laws.segsPack_lt (segsVissue.take 6) _ rfl hfit
    _ < 2 ^ 31 := by decide

/-- With no start words, VISSUE has not begun when it runs. -/
theorem vissueFresh_running (i : Instr) (hb : s.Boundary) (hv : s.core.conv.vctl = 0) (hp : s.core.conv.vispos = 0)
    (hk : s.core.conv.startK = 0) : VissueFresh (running i s) where
  vispos := by rw [running_eq i hb]; exact hp
  latched := by rw [latchedAt, running_flight i hb]; rfl
  first := by rw [startElem, running_flight i hb]; exact congrArg BitVec.toNat hk
  vctl := (SameOperands.running hb).vctl.trans hv

/-- What VISSUE has come to when it has run is retired. -/
theorem exec_vissue (hb : s.Boundary) (hn : (⟨a.toNat, 32, s.vl⟩ : Named).holds s)
    (hr : runVissue d.toNat a.toNat m.toNat (running (.vissue d a m) s) = .ok t [] [])
    (hw : LaneWork (running (.vissue d a m) s) t) : exec (.vissue d a m) s = .next (t.modConv Conv.passed) := by
  have hshape : shapeFault (memberOf (.vissue d a m) s) s = none :=
    Member.Asks.shapeFault_eq_none (l := [⟨a.toNat, 32, s.vl⟩]) ⟨rfl, rfl, rfl, rfl, rfl⟩
      (List.forall_mem_singleton.mpr hn)
  have hready : convoyReady [.vissue d a m] [⟨0, memberOf (.vissue d a m) s⟩] s = true :=
    convoyReady_alone _ hb rfl (Nat.zero_le _) (Nat.zero_le _)
  have htrace : t.core.trace = s.core.trace := hw.setting.trace.trans (SameOperands.running hb).trace
  have hconv : (running (.vissue d a m) s).core.conv.missed = [] ∧ (running (.vissue d a m) s).core.conv.late = []
      ∧ (running (.vissue d a m) s).core.conv.cdbg = s.core.conv.cdbg := by
    rw [running_eq _ hb]
    exact ⟨rfl, rfl, rfl⟩
  obtain ⟨hmissed, hlate, hstep⟩ := hconv
  have hexec : exec (.vissue d a m) s = .next (retired (.vissue d a m) [] [] t) :=
    completes_whole _ s t [] [] hb (endsConvoy_vissue d a m) rfl rfl hshape rfl hready ⟨nofun, nofun⟩ hr (.inl rfl) htrace
  rw [hexec, retired_eq (i := .vissue d a m) nofun ((congrArg (·.conv.missed) hw.core).trans hmissed) (hw.late.trans hlate)
    (by rw [htrace]; exact hb.trace) (((congrArg (·.conv.cdbg) hw.core).trans hstep).trans hb.step)]

/-- What VISSUE and its lane words leave beside cells, masks and flags. -/
theorem LaneWork.passed {i : Instr} (h : LaneWork (running i s) t) (hb : s.Boundary) :
    (t.modConv Conv.passed).core.conv.cpc = s.core.conv.cpc + 4 ∧ (t.modConv Conv.passed).mem = s.mem := by
  have hcpc : (running i s).core.conv.cpc = s.core.conv.cpc := by rw [running_eq i hb]; rfl
  exact ⟨congrArg (· + 4) ((congrArg (·.conv.cpc) h.core).trans hcpc), h.mem.trans (SameOperands.running hb).mem⟩

theorem sameCells_running (i : Instr) (hb : s.Boundary) : SameCells s (running i s) := by
  rw [running_eq i hb]
  exact ⟨rfl, rfl, rfl, rfl, rfl⟩

theorem masks_running (i : Instr) (hb : s.Boundary) : (running i s).core.conv.masks = s.core.conv.masks := by
  rw [running_eq i hb]; rfl

/-- The active elements, as they were before the issue. -/
theorem activeOf_running (i : Instr) (hb : s.Boundary) (m : Nat) :
    activeOf m (running i s).elems (running i s) = (List.range s.vl).filter (fun e => maskBit m e s) := by
  simp only [activeOf, State.elems, (SameOperands.running hb).vl_eq, maskBit, masks_running i hb]

/-- The lane words, as they were before the issue. -/
theorem vissueLanes_running (i : Instr) (hb : s.Boundary) (d a m : Nat) : vissueLanes d a m (running i s) =
    ((List.range s.vl).filter (fun e => maskBit m e s)).map (fun e => (e, elemGet (shapeAt a s) 32 e s,
      laneInstr 1 [⟨(shapeAt a s).box, m, d⟩] (elemGet (shapeAt a s) 32 e s) s)) := by
  have hcells := sameCells_running i hb
  simp only [vissueLanes, laneWords, activeOf_running i hb, hcells.shapeAt, hcells.elemGet, laneInstr_running i hb]

end Alone

/-! ### Elements with illegal words (R148) -/

section Illegal

variable {s u : State} {word : Nat → Nat}

/-- Where VISSUE finds illegal words alone it has grouped them: their elements stand in md, and ISS is raised. -/
theorem VissueFresh.grouped_of_illegal {d a m : Nat} (h : VissueFresh u)
    (hl : vissueLanes d a m u = (activeOf m u.elems u).map (fun e => (e, word e, none))) :
    (∀ e, e < u.vl → d ≠ 0 → maskBit d e (vissueGrouped d a m u) = (activeOf m u.elems u).contains e)
      ∧ (vissueGrouped d a m u).core.conv.vflags
        = (if activeOf m u.elems u = [] then u.core.conv.vflags else u.core.conv.vflags ||| flagISS)
      ∧ (vissueGrouped d a m u).core.conv.plane = u.core.conv.plane := by
  rw [vissueGrouped, beginGrouping_eq h.latched, hl]
  have hlatch (x : State) : ∀ k e, maskBit k e (latchAt 0 (activeOf m u.elems u) x) = maskBit k e x := fun _ _ => rfl
  have hvl : (wake [⟨a, 32, activeOf m u.elems u⟩] u).vl = u.vl := rfl
  refine ⟨fun e he hd => ?_, vflags_markIllegal _ _, plane_markIllegal _ _⟩
  rw [hlatch]
  exact maskBit_markIllegal hd (hvl.symm ▸ he) _

/-- Where no lane word is legal, VISSUE marks the active elements and raises ISS if there is one. -/
theorem vissue_illegal {d m : BitVec 3} {a : BitVec 6} (hb : s.Boundary) (hv : s.core.conv.vctl = 0)
    (hp : s.core.conv.vispos = 0) (hk : s.core.conv.startK = 0) (hn : (⟨a.toNat, 32, s.vl⟩ : Named).holds s)
    (hill : ∀ e ∈ (List.range s.vl).filter (fun e => maskBit m.toNat e s),
      laneInstr 1 [⟨(shapeAt a.toNat s).box, m.toNat, d.toNat⟩] (elemGet (shapeAt a.toNat s) 32 e s) s = none) :
    ∃ t, exec (.vissue d a m) s = .next t
      ∧ (∀ e, e < s.vl → d ≠ 0 → maskBit d.toNat e t = maskBit m.toNat e s)
      ∧ t.core.conv.vflags = (if (List.range s.vl).filter (fun e => maskBit m.toNat e s) = [] then s.core.conv.vflags
          else s.core.conv.vflags ||| flagISS)
      ∧ t.core.conv.plane = s.core.conv.plane ∧ t.core.conv.cpc = s.core.conv.cpc + 4 ∧ t.mem = s.mem := by
  have hfresh := vissueFresh_running (.vissue d a m) hb hv hp hk
  have hactive := activeOf_running (.vissue d a m) hb m.toNat
  have hcells := sameCells_running (.vissue d a m) hb
  have hvl := (SameOperands.running (i := .vissue d a m) hb).vl_eq
  have hlanes : vissueLanes d.toNat a.toNat m.toNat (running (.vissue d a m) s)
      = (activeOf m.toNat (running (.vissue d a m) s).elems (running (.vissue d a m) s)).map
          (fun e => (e, elemGet (shapeAt a.toNat s) 32 e s, none)) := by
    rw [vissueLanes_running _ hb, hactive]
    exact List.map_congr_left fun e he => by rw [hill e he]
  have hwork : LaneWork (running (.vissue d a m) s) (vissueGrouped d.toNat a.toNat m.toNat (running (.vissue d a m) s)) :=
    hfresh.grouped_work
  obtain ⟨hmarks, hflags, hplane⟩ := hfresh.grouped_of_illegal hlanes
  rw [hactive] at hmarks hflags
  rw [hcells.vflags] at hflags
  obtain ⟨hcpc, hmem⟩ := hwork.passed hb
  refine ⟨_, exec_vissue hb hn (hfresh.runVissue_of_illegal hlanes) hwork, fun e he hd => ?_, hflags,
    hplane.trans hcells.plane, hcpc, hmem⟩
  have hd' : d.toNat ≠ 0 := fun h => hd (BitVec.eq_of_toNat_eq h)
  refine (hmarks e (hvl.symm ▸ he) hd').trans ?_
  simp only [List.contains_eq_mem, List.mem_filter, List.mem_range, he, true_and, Bool.decide_eq_true]

end Illegal

/-! ### Elements with one legal word (R148, R149) -/

section One

variable {s u g : State} {F : ElementForm} {j : Instr} {w : Nat}

theorem clearVirtual_laneRun_work {elems : List Nat} (ht : s.core.trace.ltrc.getLsbD 8 = false) :
    LaneWork s (clearVirtual (laneRun F j elems s)) :=
  ((laneStart_work ht).trans (.of_planeWork (laneElements_work _ _ _))).trans (clearVirtual_work _)

/-- The end of a lane word marks its flight alone. -/
theorem endLane_laneRun_mark {elems : List Nat} (ht : s.core.trace.ltrc.getLsbD 8 = false) :
    LaneMark (clearVirtual (laneRun F j elems s)) (endLane (clearVirtual (laneRun F j elems s))) :=
  endLane_mark (by rw [(clearVirtual_laneRun_work ht).setting.trace, ht])

theorem ElementForm.Lane.not_vissue (h : F.Lane j) (d : BitVec 3) (a : BitVec 6) (m : BitVec 3) : j ≠ .vissue d a m := by
  rintro rfl
  exact absurd (congrArg Member.cls (h.member default)) nofun

theorem wake_nil (s : State) : wake [] s = s := by
  unfold wake wakeAll
  simp only [List.foldl_nil, ite_self]
  rfl

/-- Elements that run and access nothing do what those with a bit in the mask do alone. -/
theorem ElementForm.foldl_under_alone (hf : OfType F.f) {m : Nat} {b : Nat → Bool} (l : List Nat) (h : SameCells u g)
    (hb : ∀ e ∈ l, maskBit m e g = b e) :
    SameCells ((l.filter b).foldl (fun u e => F.put e u) u) (l.foldl (fun t e => F.under m e t) g) := by
  have hrun := F.foldl_under hf (fun _ _ => []) l h hb
  simpa only [wake_nil] using hrun

/-- A shape that no band that is OFF gates in one state is not gated in another. -/
def KeepsGates (s t : State) : Prop :=
  ∀ v, shapeGated s.core.conv.planepwr v = false → shapeGated t.core.conv.planepwr v = false

/-- What a word of a form asks of its shapes (R83) is asked, and met, in every state of the same setting and table. -/
theorem ElementForm.named_hold (hs : SameSetting s u) (htable : u.core.conv.table = s.core.conv.table) (hg : KeepsGates s u)
    (hn : ∀ n ∈ (F.word s).named, n.holds s) : ∀ n ∈ (F.word u).named, n.holds u := by
  have hnamed : (F.word u).named = (F.word s).named := by simp only [word, onElements, hs.ew, hs.vl_eq]
  rw [hnamed]
  intro n hmem
  have hshape : shapeAt n.shape u = shapeAt n.shape s := by rw [shapeAt, shapeAt, htable]
  obtain ⟨hoff, htype, hlength, hgated⟩ := hn n hmem
  unfold Named.holds
  rw [hshape]
  exact ⟨hoff, htype, hlength, hg _ hgated⟩

theorem keepsGates_running (i : Instr) (hb : s.Boundary) : KeepsGates s (running i s) := by
  intro v h
  have hissued : (issued i s).core.conv.planepwr = s.core.conv.planepwr := by rw [issued_eq i s hb.trace]; rfl
  exact shapeGated_wakeAll (hissued.symm ▸ h)

/-- Where VISSUE finds one word alone it has grouped its elements: md is clear below VL, and no cell has changed. -/
theorem VissueFresh.grouped_of_one {d a m : Nat} (h : VissueFresh u)
    (hl : vissueLanes d a m u = (activeOf m u.elems u).map (fun e => (e, w, some j))) :
    SameCells (writeBits d (fun _ => false) (List.range u.vl) u) (vissueGrouped d a m u)
      ∧ (vissueGrouped d a m u).core.conv.masks = (writeBits d (fun _ => false) (List.range u.vl) u).core.conv.masks
      ∧ KeepsGates u (vissueGrouped d a m u) := by
  rw [vissueGrouped, beginGrouping_eq h.latched, hl, markIllegal_of_legal, writeBits_eq, writeBits_eq]
  exact ⟨⟨rfl, rfl, rfl, rfl, rfl⟩, rfl, fun v hv => shapeGated_wakeAll hv⟩

/-- A state holds what elements of a form leave, active ones in order under the form's mask: their cells and flags, and
the masks that a program names. -/
structure ElementForm.Left (F : ElementForm) (active : List Nat) (u t : State) : Prop where
  cells : SameCells (active.foldl (fun u e => F.under F.m.toNat e u) u) t
  masks : ∀ k e, k < virtualMask → e < 8192 → maskBit k e t = maskBit k e u

theorem ElementForm.left_nil (s : State) : F.Left [] s s := ⟨.refl s, fun _ _ _ _ => rfl⟩

/-- It is left from every state with the same cells and masks. -/
theorem ElementForm.Left.of_start {active : List Nat} {t : State} (h : F.Left active g t) (hf : OfType F.f)
    (hu : SameCells u g) (hm : g.core.conv.masks = u.core.conv.masks) : F.Left active u t := by
  have hbits : ∀ k e, maskBit k e g = maskBit k e u := fun k e => by rw [maskBit, maskBit, hm]
  have hthere := F.foldl_under_alone hf active hu (fun e _ => hbits F.m.toNat e)
  have hhere := F.foldl_under_alone hf active (.refl u) (fun e _ => (rfl : _ = maskBit F.m.toNat e u))
  exact ⟨(hhere.symm.trans hthere).trans h.cells, fun k e hk he => (h.masks k e hk he).trans (hbits k e)⟩

/-- The word that has run has left what its elements leave. -/
theorem ElementForm.Lane.left (h : F.Lane j) (ht : g.core.trace.ltrc.getLsbD 8 = false)
    (hclear : VirtualClear g.core.conv.masks) {active elems : List Nat} {p : Nat → Bool}
    (ha : active = (List.range g.vl).filter p) (he : elems = active.filter (fun e => maskBit F.m.toNat e g)) :
    F.Left active g (endLane (clearVirtual (laneRun F j elems g))) := by
  obtain ⟨-, hend, hmasks⟩ := endLane_laneRun_mark (F := F) (j := j) (elems := elems) ht
  constructor
  · have hrun := laneRun_cells h.ofType (.refl g) ht hclear (j := j) (he.trans (by rw [ha, List.filter_filter]))
    have halone := F.foldl_under_alone h.ofType active (.refl g) (fun e _ => (rfl : _ = maskBit F.m.toNat e g))
    rw [← he] at halone
    have hclearVirtual : SameCells (laneRun F j elems g) (clearVirtual (laneRun F j elems g)) := ⟨rfl, rfl, rfl, rfl, rfl⟩
    exact (halone.symm.trans hrun).trans (hclearVirtual.trans hend)
  · intro k e hk hlt
    calc maskBit k e (endLane (clearVirtual (laneRun F j elems g)))
        = maskBit k e (clearVirtual (laneRun F j elems g)) := by rw [maskBit, maskBit, hmasks]
      _ = maskBit k e (laneRun F j elems g) := maskBit_clearVirtual hk hlt _
      _ = maskBit k e g := maskBit_laneRun ht hk hlt

/-- Keys of the masks that a program names lie below those of a VISSUE's own. -/
theorem virtualClear_of_keys_lt {masks : Sp Bool} (h : ∀ p ∈ masks, p.1 < 8192 * virtualMask) : VirtualClear masks := by
  intro k hk
  have hget := spGet_filter_key false (fun p => decide (p < 8192 * virtualMask)) masks k
  rwa [List.filter_eq_self.mpr (fun p hp => decide_eq_true (h p hp)), if_neg (by simpa using hk)] at hget

theorem VirtualClear.putBits {masks : Sp Bool} {d : Nat} {l : List Nat} (h : VirtualClear masks) :
    VirtualClear (putBits d (fun _ => false) l masks) := by
  intro k hk
  by_cases hput : ∃ e ∈ l, k = 8192 * d + e
  · obtain ⟨e, he, rfl⟩ := hput
    exact spGet_putBits he masks
  · rw [spGet_putBits_of_forall_ne (fun e he heq => hput ⟨e, he, heq⟩), h k hk]

/-- VISSUE whose active elements hold one integer word leaves what that word's elements leave. -/
theorem VissueFresh.runVissue_lane {d a m : Nat} (h : VissueFresh u) (hF : F.Lane j) (hi : F.types u.core.conv.type)
    (hn : ∀ n ∈ (F.word u).named, n.holds u) (ht : u.core.trace.ltrc.getLsbD 8 = false) (hp : u.core.pace = none)
    (hclear : VirtualClear u.core.conv.masks) (hw : w / 2 ^ maskPlace % 2 ^ 3 = F.m.toNat)
    (hl : vissueLanes d a m u = (activeOf m u.elems u).map (fun e => (e, w, some j))) :
    ∃ t, runVissue d a m u = .ok t [] [] ∧ LaneWork u t
      ∧ F.Left (activeOf m u.elems u) (writeBits d (fun _ => false) (List.range u.vl) u) t := by
  have hwork : LaneWork u (vissueGrouped d a m u) := h.grouped_work
  obtain ⟨hcells, hmasks, hgated⟩ := h.grouped_of_one hl
  by_cases hne : activeOf m u.elems u = []
  · have hnone : vissueLanes d a m u = (activeOf m u.elems u).map (fun e => (e, (fun _ => w) e, none)) := by
      rw [hl, hne]; rfl
    refine ⟨_, h.runVissue_of_illegal hnone, hwork, ?_⟩
    rw [hne]
    exact (F.left_nil _).of_start hF.ofType hcells hmasks
  · have hset : SameSetting u (vissueGrouped d a m u) := hwork.setting
    have htrace : (vissueGrouped d a m u).core.trace.ltrc.getLsbD 8 = false := by rw [hset.trace, ht]
    have hholds := F.named_hold hset (congrArg (·.conv.table) hwork.core) hgated hn
    have hrun := hF.runLaneWord_eq (elems := wordElems (vissueLanes d a m u) w (vissueGrouped d a m u))
      (hset.type.symm ▸ hi) (hset.vctl.trans h.vctl) hholds htrace ((congrArg (·.pace) hwork.core).trans hp) w (0, 0)
    have helems : wordElems (vissueLanes d a m u) w (vissueGrouped d a m u)
        = (activeOf m u.elems u).filter (fun e => maskBit F.m.toNat e (vissueGrouped d a m u)) := by
      rw [hl, wordElems_of_one, ← hw]
      rfl
    have hfinal := hwork.trans ((clearVirtual_laneRun_work htrace).trans (endLane_laneRun_mark (F := F) (j := j)
      (elems := wordElems (vissueLanes d a m u) w (vissueGrouped d a m u)) htrace).toLaneWork)
    refine ⟨_, h.runVissue_of_one hl hne hF.not_vissue hrun ((congrArg (·.pace) hfinal.core).trans hp)
      (hfinal.setting.vctl.trans h.vctl), hfinal, ?_⟩
    refine (hF.left htrace ?_ (p := fun e => maskBit m e u) ?_ helems).of_start hF.ofType hcells hmasks
    · rw [hmasks, writeBits_eq]
      exact hclear.putBits
    · rw [hset.vl_eq]
      rfl

end One

/-! ### VISSUE completes (R146 to R150) -/

section Complete

variable {s : State} {F : ElementForm} {j : Instr}

/-- Where every active element holds one legal integer word, VISSUE leaves what that word's elements leave. -/
theorem vissue_lane {d m : BitVec 3} {a : BitVec 6} (hb : s.Boundary) (hv : s.core.conv.vctl = 0)
    (hp : s.core.conv.vispos = 0) (hk : s.core.conv.startK = 0) (hn : (⟨a.toNat, 32, s.vl⟩ : Named).holds s)
    (hmasks : ∀ p ∈ s.core.conv.masks, p.1 < 65536) (hF : F.Lane j) (hi : F.types s.core.conv.type) (hc : endsConvoy j)
    (hwf : j.wf = true) (hop : laneOpcode 1 ((encode j).toNat % 128) = true) (hnamed : ∀ n ∈ (F.word s).named, n.holds s)
    (hapart : ∀ b ∈ cellBoxes (shapeAt F.d.toNat s), boxesMeet b (shapeAt a.toNat s).box = false)
    (hword : ∀ e ∈ (List.range s.vl).filter (fun e => maskBit m.toNat e s),
      elemGet (shapeAt a.toNat s) 32 e s = (encode j).toNat) :
    ∃ t, exec (.vissue d a m) s = .next (t.modConv Conv.passed) ∧ LaneWork (running (.vissue d a m) s) t
      ∧ F.Left ((List.range s.vl).filter (fun e => maskBit m.toNat e s))
        (writeBits d.toNat (fun _ => false) (List.range s.vl) s) t := by
  have hset : SameOperands s (running (.vissue d a m) s) := .running hb
  have hcells := sameCells_running (.vissue d a m) hb
  have hkeys := masks_running (.vissue d a m) hb
  have hpace : (running (.vissue d a m) s).core.pace = s.core.pace := by rw [running_eq _ hb]; rfl
  have hheld := F.named_hold hset.toSameSetting hcells.table (keepsGates_running (.vissue d a m) hb) hnamed
  have hread := (Laws.readVector_encode hF.word hwf (Laws.opcode_of_laneOpcode hop)).1
  have hlegal := hF.laneInstr_eq (e := ⟨(shapeAt a.toNat s).box, m.toNat, d.toNat⟩) hc hwf hop hi hapart
  have hlanes : vissueLanes d.toNat a.toNat m.toNat (running (.vissue d a m) s)
      = (activeOf m.toNat (running (.vissue d a m) s).elems (running (.vissue d a m) s)).map
          (fun e => (e, (encode j).toNat, some j)) := by
    rw [vissueLanes_running _ hb, activeOf_running _ hb]
    exact List.map_congr_left fun e he => by rw [hword e he, hlegal]
  have hclear : VirtualClear (running (.vissue d a m) s).core.conv.masks := by
    rw [hkeys]
    exact virtualClear_of_keys_lt hmasks
  have hfresh := vissueFresh_running (.vissue d a m) hb hv hp hk
  obtain ⟨t, hrun, hwork, hleft⟩ := hfresh.runVissue_lane hF (hset.type.symm ▸ hi) hheld
    (by rw [hset.trace, hb.trace]) (hpace.trans hb.whole) hclear (Laws.encode_field hread hF.field) hlanes
  refine ⟨t, exec_vissue hb hn hrun hwork, hwork, ?_⟩
  rw [activeOf_running _ hb, hset.vl_eq] at hleft
  have hstart : SameCells (writeBits d.toNat (fun _ => false) (List.range s.vl) s)
      (writeBits d.toNat (fun _ => false) (List.range s.vl) (running (.vissue d a m) s)) := by
    rw [writeBits_eq, writeBits_eq]
    exact ⟨hcells.vtype, hcells.table, hcells.k, hcells.plane, hcells.vflags⟩
  have hbits : (writeBits d.toNat (fun _ => false) (List.range s.vl) (running (.vissue d a m) s)).core.conv.masks
      = (writeBits d.toNat (fun _ => false) (List.range s.vl) s).core.conv.masks := by
    rw [writeBits_eq, writeBits_eq]
    exact congrArg (putBits d.toNat (fun _ => false) (List.range s.vl)) hkeys
  exact hleft.of_start hF.ofType hstart hbits

end Complete

/-- Settles O48: the elements of a VISSUE hold illegal words alone, which it marks and does not run, or one legal word, which
runs under a mask of VISSUE's own and leaves what the word's elements leave under the mask that the word names. -/
theorem vissueWord : Obligations.VissueWord := by
  unfold Obligations.VissueWord
  intro s d m a hb hv hp hk hn hmasks
  refine ⟨vissue_illegal hb hv hp hk hn, fun j w hw hissues hc hwf hop hnamed hapart hword => ?_⟩
  obtain ⟨F, hF, rfl⟩ := integerWord_lane hw
  have hd : ∀ b ∈ cellBoxes (shapeAt F.d.toNat s), boxesMeet b (shapeAt a.toNat s).box = false := hapart _ rfl
  obtain ⟨t, hexec, hwork, hcells, hbits⟩ := vissue_lane hb hv hp hk hn hmasks hF hissues hc hwf hop hnamed hd hword
  obtain ⟨hcpc, hmem⟩ := hwork.passed hb
  exact ⟨_, hexec, hcells.readCell, hbits, hcells.vflags, hcpc, hmem⟩

end Sys2Proof.Machine

/-! ## The integer words, branches and jumps (08_core_steering.md R167 to R177; 02_encoding.md R31)

What each operation of the model computes is the spec's formula, a fact about words alone; each word then retires with it. -/

namespace Sys2Proof.Machine

/-! ### Sums, products and bits (R170, R171) -/

theorem sub_eq_ofInt (x y : Word) : x - y = .ofInt 64 ((x.toNat : Int) - y.toNat) := by
  refine BitVec.eq_of_toNat_eq ?_
  rw [BitVec.toNat_sub, BitVec.toNat_ofInt]
  omega

theorem mul_eq_ofNat (x y : Word) : x * y = .ofNat 64 (x.toNat * y.toNat) := BitVec.eq_of_toNat_eq (by simp)

theorem add_sext64 {n : Nat} (x : Word) (y : BitVec n) : x + sext64 y = .ofInt 64 (x.toInt + y.toInt) := by
  rw [BitVec.ofInt_add, BitVec.ofInt_toInt]; rfl

theorem toNat_zext64 {n : Nat} (x : BitVec n) (h : n ≤ 64) : (zext64 x).toNat = x.toNat :=
  (BitVec.toNat_setWidth ..).trans (Nat.mod_eq_of_lt (x.isLt.trans_le (Nat.pow_le_pow_right (by omega) h)))

theorem and_eq_ofNat (x y : Word) : x &&& y = .ofNat 64 (x.toNat &&& y.toNat) := BitVec.eq_of_toNat_eq (by simp)

theorem or_eq_ofNat (x y : Word) : x ||| y = .ofNat 64 (x.toNat ||| y.toNat) := BitVec.eq_of_toNat_eq (by simp)

theorem xor_eq_ofNat (x y : Word) : x ^^^ y = .ofNat 64 (x.toNat ^^^ y.toNat) := BitVec.eq_of_toNat_eq (by simp)

theorem shiftLeft_eq_ofNat (x : Word) (n : Nat) : x <<< n = .ofNat 64 (x.toNat * 2 ^ n) :=
  BitVec.eq_of_toNat_eq (by simp [Nat.shiftLeft_eq])

theorem ushiftRight_eq_ofNat (x : Word) (n : Nat) : x >>> n = .ofNat 64 (x.toNat / 2 ^ n) := by
  refine BitVec.eq_of_toNat_eq ?_
  rw [BitVec.toNat_ushiftRight, Nat.shiftRight_eq_div_pow, BitVec.toNat_ofNat,
    Nat.mod_eq_of_lt ((Nat.div_le_self _ _).trans_lt x.isLt)]

theorem sshiftRight_eq_ofInt (x : Word) (n : Nat) : x.sshiftRight n = .ofInt 64 (x.toInt / 2 ^ n) := by
  rw [BitVec.sshiftRight_eq, Int.shiftRight_eq_div_pow]; norm_cast

theorem low6_zext64 (n : BitVec 6) : low6 (zext64 n) = n.toNat := by
  rw [low6, toNat_zext64 n (by omega)]; omega

theorem boolWord_decide (p : Prop) [Decidable p] : boolWord (decide p) = if p then 1 else 0 := by
  simp only [boolWord, decide_eq_true_eq]

theorem and_zext64 (x : Word) (y : BitVec 15) : x &&& zext64 y = .ofNat 64 (x.toNat &&& y.toNat) := by
  rw [and_eq_ofNat, toNat_zext64 y (by omega)]

theorem or_zext64 (x : Word) (y : BitVec 15) : x ||| zext64 y = .ofNat 64 (x.toNat ||| y.toNat) := by
  rw [or_eq_ofNat, toNat_zext64 y (by omega)]

theorem xor_zext64 (x : Word) (y : BitVec 15) : x ^^^ zext64 y = .ofNat 64 (x.toNat ^^^ y.toNat) := by
  rw [xor_eq_ofNat, toNat_zext64 y (by omega)]

theorem boolWord_slt_sext64 (x : Word) (y : BitVec 15) :
    boolWord (x.slt (sext64 y)) = if x.toInt < y.toInt then 1 else 0 := by
  have hsame : (sext64 y).toInt = y.toInt := BitVec.toInt_signExtend_of_le (by omega)
  rw [BitVec.slt_eq_decide, hsame, boolWord_decide]

theorem zext64_shiftLeft_twelve (x : BitVec 20) : zext64 x <<< 12 = .ofNat 64 (x.toNat * 2 ^ 12) := by
  rw [shiftLeft_eq_ofNat, toNat_zext64 x (by omega)]

/-! ### Quotients and remainders (R170) -/

/-- The one quotient that a word has no room for is that of the least number by -1. -/
theorem tdiv_bound {x y : Int} (hlo : -2 ^ 63 ≤ x) (hhi : x < 2 ^ 63) (hy : y ≠ 0) :
    2 ^ 63 ≤ x.tdiv y ↔ x = -2 ^ 63 ∧ y = -1 := by
  refine ⟨fun h => ?_, fun ⟨hx, hy⟩ => by rw [hx, hy]; decide⟩
  have habs : (x.tdiv y).natAbs = x.natAbs / y.natAbs := Int.natAbs_tdiv x y
  have hpos : 0 < y.natAbs := Int.natAbs_pos.mpr hy
  have hle : 2 ^ 63 * y.natAbs ≤ x.natAbs := (Nat.le_div_iff_mul_le hpos).mp (by omega)
  have hone : y.natAbs = 1 := by omega
  obtain rfl | rfl := Int.natAbs_eq_iff.mp hone
  · rw [Nat.cast_one, Int.tdiv_one] at h; omega
  · exact ⟨by omega, rfl⟩

theorem divSigned_eq (x y : Word) : divSigned x y = .ofInt 64 (quotientOf x.toInt y.toInt) := by
  have hzero : y.toInt = 0 ↔ y = 0 := by rw [← BitVec.toInt_inj]; rfl
  unfold divSigned quotientOf
  by_cases hy : y = 0
  · rw [if_pos hy, if_pos (hzero.mpr hy)]
    split <;> rfl
  · rw [if_neg hy, if_neg (mt hzero.mp hy)]
    have hbound := tdiv_bound (BitVec.le_toInt x) BitVec.toInt_lt (mt hzero.mp hy)
    by_cases hq : x.toInt = -2 ^ 63 ∧ y.toInt = -1
    · rw [if_pos hq, if_pos (hbound.mpr hq)]; rfl
    · rw [if_neg hq, if_neg (mt hbound.mp hq)]

theorem toNat_eq_zero (y : Word) : y = 0 ↔ y.toNat = 0 := BitVec.toNat_eq

theorem divUnsigned_eq (x y : Word) :
    divUnsigned x y = if y.toNat = 0 then .ofInt 64 (-1) else .ofNat 64 (x.toNat / y.toNat) :=
  if_congr (toNat_eq_zero y) rfl rfl

theorem remSigned_eq (x y : Word) :
    remSigned x y = if y.toNat = 0 then x else .ofInt 64 (x.toInt.tmod y.toInt) := if_congr (toNat_eq_zero y) rfl rfl

theorem remUnsigned_eq (x y : Word) : remUnsigned x y = if y.toNat = 0 then x else .ofNat 64 (x.toNat % y.toNat) :=
  if_congr (toNat_eq_zero y) rfl rfl

/-! ### Bit fields (R174) -/

theorem sextField_eq (x : Word) (n : Nat) : sextField x (n + 1) = .ofInt 64 (signedField x (n + 1)) := by
  have hpow : 2 ^ (n + 1) = 2 ^ n * 2 := Nat.pow_succ 2 n
  have hlt : x.toNat % 2 ^ (n + 1) < 2 ^ n * 2 := hpow ▸ Nat.mod_lt _ (Nat.two_pow_pos _)
  have htop : x.toNat % 2 ^ (n + 1) / 2 ^ n % 2 = 1 ↔ 2 ^ n ≤ x.toNat % 2 ^ (n + 1) := by
    rw [← Nat.one_le_div_iff (Nat.two_pow_pos n)]
    have htwo := Nat.div_lt_of_lt_mul hlt
    generalize x.toNat % 2 ^ (n + 1) / 2 ^ n = q at htwo ⊢
    omega
  simp only [sextField, signedField, Nat.add_sub_cancel, htop]
  split
  · push_cast; rfl
  · norm_cast

/-- A bit of the field that INS writes is a bit of sa, and every other bit is the old one. -/
theorem insertField_getLsbD (old x : Word) {lo n : Nat} (w : Nat) (hlo : lo < 64) (hn : n < 64) :
    (insertField old x lo (w + 1)).getLsbD n = if lo ≤ n ∧ n ≤ lo + w then x.getLsbD (n - lo) else old.getLsbD n := by
  have hinsert : insertField old x lo (w + 1) = .ofNat 64 (2 ^ (lo + min (w + 1) (64 - lo)) * (old.toNat / 2 ^ (lo + min (w + 1) (64 - lo)))
      + (2 ^ lo * (x.toNat % 2 ^ min (w + 1) (64 - lo)) + old.toNat % 2 ^ lo)) := by
    rw [insertField]; congr 1; ring
  generalize hm : min (w + 1) (64 - lo) = m at hinsert
  have hlow : old.toNat % 2 ^ lo < 2 ^ lo := Nat.mod_lt _ (Nat.two_pow_pos _)
  have hmid : 2 ^ lo * (x.toNat % 2 ^ m) + old.toNat % 2 ^ lo < 2 ^ (lo + m) := by
    have hx : x.toNat % 2 ^ m < 2 ^ m := Nat.mod_lt _ (Nat.two_pow_pos _)
    calc 2 ^ lo * (x.toNat % 2 ^ m) + old.toNat % 2 ^ lo < 2 ^ lo * (x.toNat % 2 ^ m + 1) := by rw [Nat.mul_succ]; omega
      _ ≤ 2 ^ (lo + m) := by rw [Nat.pow_add]; exact Nat.mul_le_mul_left _ hx
  rw [hinsert, BitVec.getLsbD_ofNat, decide_eq_true hn, Bool.true_and, Nat.testBit_two_pow_mul_add _ hmid,
    Nat.testBit_two_pow_mul_add _ hlow, BitVec.getLsbD, BitVec.getLsbD]
  by_cases hin : lo ≤ n ∧ n ≤ lo + w
  · rw [if_pos hin, if_pos (by omega), if_neg (by omega), Nat.testBit_mod_two_pow, decide_eq_true (by omega), Bool.true_and]
  · rw [if_neg hin]
    by_cases hbelow : n < lo
    · rw [if_pos (by omega), if_pos hbelow, Nat.testBit_mod_two_pow, decide_eq_true hbelow, Bool.true_and]
    · rw [if_neg (by omega), Nat.testBit_div_two_pow, Nat.sub_add_cancel (by omega)]

theorem leadingZeros_spec (x : Word) : LeadingZeros x (leadingZeros x) := by
  unfold leadingZeros
  split
  · next h => subst h; exact ⟨le_rfl, fun n _ _ => by simp, fun h => absurd h (by omega)⟩
  · next h =>
    have hx : x.toNat ≠ 0 := mt (toNat_eq_zero x).mpr h
    have hlog : x.toNat.log2 < 64 := (Nat.log2_lt hx).mpr x.isLt
    refine ⟨by omega, fun n hlo _ => ?_, fun _ => ?_⟩
    · exact Nat.testBit_lt_two_pow (Nat.lt_log2_self.trans_le (Nat.pow_le_pow_right (by omega) (by omega)))
    · rw [show 63 - (63 - x.toNat.log2) = x.toNat.log2 by omega]
      exact Nat.testBit_log2 hx

theorem trailingZeros_spec (x : Word) : TrailingZeros x (trailingZeros x) := by
  unfold trailingZeros
  cases h : (List.range 64).find? (fun i => x.getLsbD i) with
  | none =>
    have hzero : ∀ n, n < 64 → x.getLsbD n = false := by simpa [List.find?_range_eq_none] using h
    exact ⟨le_rfl, hzero, fun h => absurd h (by simp)⟩
  | some v =>
    obtain ⟨hbit, hmem, hbelow⟩ := List.find?_range_eq_some.mp h
    have hlt := List.mem_range.mp hmem
    exact ⟨hlt.le, fun n hn => by simpa using hbelow n hn, fun _ => hbit⟩

theorem popCount_eq (x : Word) : popCount x = (List.finRange 64).countP (fun n => x.getLsbD n) := by
  rw [popCount, ← List.countP_eq_length_filter, ← List.map_coe_finRange_eq_range, List.countP_map]
  rfl

/-! ### Targets (R31, R177) -/

theorem branchTarget_eq {n : Nat} (pc : BitVec 32) (off : BitVec n) :
    branchTarget pc off = pc + .ofInt 32 (4 * off.toInt) := by
  rw [branchTarget, BitVec.signExtend, Int.mul_comm, BitVec.ofInt_mul]; rfl

/-! ### The words complete with these results -/

/-- A three-register word retires with its result (R170). -/
theorem exec_of_registerResult {i : Instr} {s : State} {d a b : BitVec 5} {v : Word}
    (h : registerResult i (readReg a s) (readReg b s) = some (d, a, b, v)) : exec i s = retire d v s := by
  unfold registerResult at h
  split at h
  case h_18 => cases h
  all_goals cases h
  · exact congrArg (retire d · s) (BitVec.add_def ..)
  · exact congrArg (retire d · s) (sub_eq_ofInt ..)
  · exact congrArg (retire d · s) (and_eq_ofNat ..)
  · exact congrArg (retire d · s) (or_eq_ofNat ..)
  · exact congrArg (retire d · s) (xor_eq_ofNat ..)
  · exact congrArg (retire d · s) (shiftLeft_eq_ofNat ..)
  · exact congrArg (retire d · s) (ushiftRight_eq_ofNat ..)
  · exact congrArg (retire d · s) (sshiftRight_eq_ofInt ..)
  · exact congrArg (retire d · s) (boolWord_decide _)
  · exact congrArg (retire d · s) (boolWord_decide _)
  · exact congrArg (retire d · s) (mul_eq_ofNat ..)
  · rfl
  · rfl
  · exact congrArg (retire d · s) (divSigned_eq ..)
  · exact congrArg (retire d · s) (divUnsigned_eq ..)
  · exact congrArg (retire d · s) (remSigned_eq ..)
  · exact congrArg (retire d · s) (remUnsigned_eq ..)

/-- A word with an immediate retires with its result (R171 to R173). -/
theorem exec_of_immediateResult {i : Instr} {s : State} {d : BitVec 5} {v : Word}
    (h : immediateResult i (fun r => readReg r s) = some (d, v)) : exec i s = retire d v s := by
  unfold immediateResult at h
  split at h
  case h_11 => cases h
  all_goals cases h
  · exact congrArg (retire d · s) (add_sext64 ..)
  · exact congrArg (retire d · s) (and_zext64 ..)
  · exact congrArg (retire d · s) (or_zext64 ..)
  · exact congrArg (retire d · s) (xor_zext64 ..)
  · exact congrArg (retire d · s) ((congrArg (_ <<< ·) (low6_zext64 _)).trans (shiftLeft_eq_ofNat ..))
  · exact congrArg (retire d · s) ((congrArg (_ >>> ·) (low6_zext64 _)).trans (ushiftRight_eq_ofNat ..))
  · exact congrArg (retire d · s) ((congrArg (BitVec.sshiftRight _) (low6_zext64 _)).trans (sshiftRight_eq_ofInt ..))
  · exact congrArg (retire d · s) (boolWord_slt_sext64 ..)
  · exact congrArg (retire d · s) (boolWord_decide _)
  · exact congrArg (retire d · s) (zext64_shiftLeft_twelve ..)

/-- A word that extends, extracts or counts bits retires with its result (R174). -/
theorem exec_of_fieldResult {i : Instr} {s : State} {d : BitVec 5} {v : Word}
    (h : fieldResult i (fun r => readReg r s) = some (d, v)) : exec i s = retire d v s := by
  unfold fieldResult at h
  split at h
  case h_5 => cases h
  all_goals cases h
  · exact congrArg (retire d · s) (sextField_eq ..)
  · rfl
  · rfl
  · exact congrArg (fun n => retire d (.ofNat 64 n) s) (popCount_eq _)

theorem branch_eq {cond : Word → Word → Bool} {a b : BitVec 5} {off : BitVec 15} {s : State} {c : Bool}
    (h : cond (readReg a s) (readReg b s) = c) : branch cond a b off s =
      .next (setPc (if c then s.cur.pc + .ofInt 32 (4 * off.toInt) else s.cur.pc + 4) s) := by
  rw [branch, h, branchTarget_eq]
  cases c <;> rfl

theorem beq_eq_decide_toNat (x y : Word) : (x == y) = decide (x.toNat = y.toNat) := by
  rw [beq_eq_decide]
  exact decide_eq_decide.mpr BitVec.toNat_eq

theorem bne_eq_decide_toNat (x y : Word) : (x != y) = decide (x.toNat ≠ y.toNat) := by
  rw [bne, beq_eq_decide_toNat, decide_not]

theorem not_slt_eq_decide (x y : Word) : (!x.slt y) = decide (y.toInt ≤ x.toInt) := by
  rw [BitVec.slt_eq_decide, ← decide_not]
  exact decide_eq_decide.mpr Int.not_lt

theorem not_ult_eq_decide (x y : Word) : (!x.ult y) = decide (y.toNat ≤ x.toNat) := by
  rw [BitVec.ult_eq_decide, ← decide_not]
  exact decide_eq_decide.mpr Nat.not_lt

/-- A compare and jump sets PC (R175). -/
theorem exec_of_branchTaken {i : Instr} {s : State} {taken : Bool} {off : BitVec 15}
    (h : branchTaken i (fun r => readReg r s) = some (taken, off)) :
    exec i s = .next (setPc (if taken then s.cur.pc + .ofInt 32 (4 * off.toInt) else s.cur.pc + 4) s) := by
  unfold branchTaken at h
  split at h
  case h_7 => cases h
  all_goals cases h
  · exact branch_eq (beq_eq_decide_toNat ..)
  · exact branch_eq (bne_eq_decide_toNat ..)
  · exact branch_eq rfl
  · exact branch_eq (cond := fun x y => !x.slt y) (not_slt_eq_decide ..)
  · exact branch_eq rfl
  · exact branch_eq (cond := fun x y => !x.ult y) (not_ult_eq_decide ..)

/-- JR drops bits 1:0 of its target (R177). -/
theorem jumpTarget_eq (x : Word) : x.setWidth 32 &&& 0xFFFFFFFC = .ofNat 32 (x.toNat % 2 ^ 32 / 4 * 4) := by
  refine BitVec.eq_of_toNat_eq ((offNext_toNat x).trans ?_)
  rw [BitVec.toNat_ofNat]
  omega

theorem exec_jal (d : BitVec 5) (off : BitVec 20) (s : State) : exec (.jal d off) s =
    .next (setPc (s.cur.pc + .ofInt 32 (4 * off.toInt)) (writeReg d (zext64 (s.cur.pc + 4)) s)) := by
  rw [← branchTarget_eq]
  rfl

theorem exec_jr (d a : BitVec 5) (s : State) : exec (.jr d a) s =
    .next (setPc (.ofNat 32 ((readReg a s).toNat % 2 ^ 32 / 4 * 4)) (writeReg d (zext64 (s.cur.pc + 4)) s)) := by
  rw [← jumpTarget_eq]
  rfl

/-! ### The frame of a word that writes sd and PC -/

theorem besideCur_setPc_writeReg (p : BitVec 32) (d : BitVec 5) (v : Word) (s : State) :
    (setPc p (writeReg d v s)).besideCur = s.besideCur := by
  unfold State.besideCur setPc writeReg
  split <;> simp only [State.modCur_modCur] <;> rfl

theorem registerFrame_setPc_writeReg (p : BitVec 32) (d : BitVec 5) (v : Word) (s : State) :
    RegisterFrame [d] s (setPc p (writeReg d v s)) where
  regs := fun r hr => by
    rw [readReg_setPc, readReg_writeReg, if_neg fun h => hr (List.mem_singleton.mpr h.1)]
  special := by rw [setPc_cur, writeReg_cur]; rfl
  beside := besideCur_setPc_writeReg p d v s
  memory := fun k => readByte_mem (by rw [setPc_mem, writeReg_mem]) k

/-- A write of s0 is no write. -/
theorem registerFrame_setPc (p : BitVec 32) (s : State) : RegisterFrame [] s (setPc p s) where
  regs := fun r _ => readReg_setPc s r p
  special := by rw [setPc_cur]; rfl
  beside := besideCur_setPc_writeReg p 0 0 s
  memory := fun k => readByte_mem (setPc_mem s p) k

/-- A word that writes sd and sets PC leaves their frame. -/
theorem RegisterFrame.of_exec {i : Instr} {s t : State} {p : BitVec 32} {d : BitVec 5} {v : Word} (ht : exec i s = .next t)
    (h : exec i s = .next (setPc p (writeReg d v s))) : RegisterFrame [d] s t := by
  obtain rfl : t = _ := Host.Outcome.next.inj (ht.symm.trans h)
  exact registerFrame_setPc_writeReg p d v s

/-! ### Fields of the words (R31) -/

/-- A word of two registers and 15 more bits. -/
theorem encode_two_registers {i : Instr} {op : Nat} {d a : BitVec 5} {x : BitVec 15} (hop : op < 2 ^ 7)
    (h : i.fields = some ([.fixed 7 op, .operand 5, .operand 5, .operand 15], [d.toNat, a.toNat, x.toNat])) :
    (encode i).toNat = op + d.toNat * 2 ^ 7 + a.toNat * 2 ^ 12 + x.toNat * 2 ^ 17 := by
  have hfit := Laws.fitFixed (w := 7) (v := op) (Laws.fitOperand d (Laws.fitOperand a (Laws.fitOperand x Laws.fitNil)))
  rw [Laws.encode_toNat h (by simpa [Laws.segsOk] using hop) hfit rfl]
  simp only [segsPack]
  omega

/-- A word of one register and 20 more bits. -/
theorem encode_one_register {i : Instr} {op : Nat} {d : BitVec 5} {x : BitVec 20} (hop : op < 2 ^ 7)
    (h : i.fields = some ([.fixed 7 op, .operand 5, .operand 20], [d.toNat, x.toNat])) :
    (encode i).toNat = op + d.toNat * 2 ^ 7 + x.toNat * 2 ^ 12 := by
  have hfit := Laws.fitFixed (w := 7) (v := op) (Laws.fitOperand d (Laws.fitOperand x Laws.fitNil))
  rw [Laws.encode_toNat h (by simpa [Laws.segsOk] using hop) hfit rfl]
  simp only [segsPack]
  omega

theorem encode_jr (d a : BitVec 5) : (encode (.jr d a)).toNat = 0x1F + d.toNat * 2 ^ 7 + a.toNat * 2 ^ 12 := by
  have hfit := Laws.fitFixed (w := 7) (v := 0x1F) (Laws.fitOperand d (Laws.fitOperand a (Laws.fitFixed (w := 15) (v := 0) Laws.fitNil)))
  rw [Laws.encode_toNat (sg := segsJr) rfl (by decide) hfit rfl]
  simp only [segsPack, segsJr]
  omega

/-- The word of an instruction decodes to it on the processor that executes it (R27). -/
theorem decode_of_encode {i : Instr} {p : Proc} {w : IWord} (hw : encode i = w) (hp : procOf i = p) (hword : i.isWord = true)
    (hwf : i.wf = true) : decode p w = .instr i := by
  rw [← hw, ← hp]
  exact Laws.decodeOfEncode i hword hwf

/-! ### The obligations -/

/-- Settles O3: each word is its instruction's encoding, which decodes to the instruction. -/
theorem specWordsDecode : Obligations.SpecWordsDecode := by
  unfold Obligations.SpecWordsDecode
  refine ⟨?_, ?_, ?_, ?_, ?_, ?_, ?_, ?_, ?_, ?_, ?_, ?_⟩
  all_goals exact decode_of_encode (by decide) (by decide) rfl (by decide)

/-- Settles O5: each word retires with the result of R170. -/
theorem registerWords : Obligations.RegisterWords := by
  unfold Obligations.RegisterWords
  exact fun _ _ _ _ _ _ h => exec_of_registerResult h

/-- Settles O6: each word retires with its result, and its fields lie where R31 has them. -/
theorem immediateAndFieldWords : Obligations.ImmediateAndFieldWords := by
  unfold Obligations.ImmediateAndFieldWords
  refine ⟨fun _ _ _ _ h => h.elim exec_of_immediateResult exec_of_fieldResult, fun d a x y => ⟨fun n i h => ?_, ?_⟩⟩
  · simp only [List.mem_cons, Prod.mk.injEq, List.not_mem_nil, or_false] at h
    obtain ⟨rfl, rfl⟩ | ⟨rfl, rfl⟩ | ⟨rfl, rfl⟩ | ⟨rfl, rfl⟩ | ⟨rfl, rfl⟩ | ⟨rfl, rfl⟩ := h
    all_goals exact encode_two_registers (by omega) rfl
  · exact encode_one_register (by omega) rfl

/-- Settles O7: INS writes its field's bits, and the counts are those of R174. -/
theorem insertAndCountWords : Obligations.InsertAndCountWords := by
  unfold Obligations.InsertAndCountWords
  intro s d a b w
  exact ⟨⟨_, rfl, fun n hn => insertField_getLsbD _ _ w.toNat (Nat.mod_lt _ (by omega)) hn⟩,
    ⟨_, rfl, leadingZeros_spec _⟩, ⟨_, rfl, trailingZeros_spec _⟩⟩

/-- Settles O8: each word sets PC by its condition, and its fields lie where R31 has them. -/
theorem branchWords : Obligations.BranchWords := by
  unfold Obligations.BranchWords
  refine ⟨fun _ _ _ _ h => exec_of_branchTaken h, fun b a off n i h => ?_⟩
  simp only [List.mem_cons, Prod.mk.injEq, List.not_mem_nil, or_false] at h
  obtain ⟨rfl, rfl⟩ | ⟨rfl, rfl⟩ | ⟨rfl, rfl⟩ | ⟨rfl, rfl⟩ | ⟨rfl, rfl⟩ | ⟨rfl, rfl⟩ := h
  all_goals exact encode_two_registers (by omega) rfl

/-- Settles O9: the link and the target of JAL and JR, and the fields of their words. -/
theorem jumpWords : Obligations.JumpWords := by
  unfold Obligations.JumpWords
  exact fun s d a off => ⟨exec_jal d off s, exec_jr d a s, encode_one_register (by omega) rfl, encode_jr d a⟩

/-- Settles O10, by the law of a read after a write. -/
theorem registerZero : Obligations.RegisterZero := by
  unfold Obligations.RegisterZero
  intro s r q v
  refine ⟨readReg_zero s, rfl, fun hr => ?_, fun hq => ?_⟩
  · rw [readReg_writeReg, if_pos ⟨rfl, hr⟩]
  · rw [readReg_writeReg, if_neg fun h => hq h.1]

/-- Settles O11: each of the words writes sd, if it has one, and sets PC. -/
theorem integerFrame : Obligations.IntegerFrame := by
  unfold Obligations.IntegerFrame
  intro i s t ht
  refine ⟨fun d a b v h => .of_exec ht (exec_of_registerResult h), fun d v h => .of_exec ht (exec_of_immediateResult h),
    fun d v h => .of_exec ht (exec_of_fieldResult h), fun d a b w h => ?_, fun d a h => ?_, fun c off h => ?_, fun d off h => ?_⟩
  · subst h; exact .of_exec ht rfl
  · obtain rfl | rfl | rfl := h
    · exact .of_exec ht rfl
    · exact .of_exec ht rfl
    · exact .of_exec ht (exec_jr d a s)
  · obtain rfl : t = _ := Host.Outcome.next.inj (ht.symm.trans (exec_of_branchTaken h))
    exact registerFrame_setPc _ s
  · subst h; exact .of_exec ht (exec_jal d off s)

end Sys2Proof.Machine

/-! ## A step runs the word that it fetches (08_core_steering.md R168, R201; 05_convoy.md R135) -/

namespace Sys2Proof.Machine

section Runs

variable {s : State} {w : IWord} {i : Instr}

theorem runWord_of_instr (h : decode s.proc w = .instr i) : runWord w s = goodWord w (exec i) s := by
  simp only [runWord, h]

/-- Off the convoy stream, an instruction is a steering word. -/
theorem goodWord_of_steering {run : State → Result} (hs : s.agent ≠ .convoy) : goodWord w run s = steerWord w run s := by
  unfold goodWord
  split
  · contradiction
  · rfl

/-- On the convoy stream, an instruction runs as it stands. -/
theorem goodWord_of_convoy {run : State → Result} (hs : s.agent = .convoy) : goodWord w run s = run s := by
  simp only [goodWord, hs]

/-- A steering word that neither a request nor an outstanding access holds back runs. -/
theorem steerWord_of_free {run : State → Result} (hr : requested s = false) (hh : holdWord w s = false) :
    steerWord w run s = endWord s.cur.mode (run s) := by
  simp only [steerWord, hr, hh, Bool.false_and, Bool.false_eq_true, if_false]

/-- The clocks run, the convoy stream is live at a convoy boundary or inside a convoy that forms, and nothing goes before its
next word (05 R135; 08 R201, R206). -/
structure NothingHeld (s : State) : Prop where
  runs : clocksStopped s = false
  unparked : unparks s = false
  live : s.core.convoyLive = true
  landed : s.inFlight = false
  free : boundaryHeld s = false
  unformed : s.core.conv.formed = false
  block : s.core.conv.st ≠ .idle
  noBreak : s.core.conv.forming = [] → convoyBreakDue s = false

theorem NothingHeld.unmarked {b : Bool} (h : NothingHeld s) : NothingHeld { s with stalled := b } :=
  ⟨h.runs, h.unparked, h.live, h.landed, h.free, h.unformed, h.block, h.noBreak⟩

/-- CBREAK is due before the first word of a convoy alone. -/
theorem NothingHeld.breakDue_eq (h : NothingHeld s) : convoyBreakDue s = false := by
  by_cases hf : s.core.conv.forming = []
  · exact h.noBreak hf
  · simp [convoyBreakDue, hf]

/-- No trap stands at the convoy boundary. -/
theorem NothingHeld.convoyDue_eq (h : NothingHeld s) : convoyDue s = none := by
  have hbreak := h.breakDue_eq
  obtain ⟨-, -, hlive, hflight, hheld, -⟩ := h
  simp only [boundaryHeld, Bool.or_eq_false_iff, Option.isSome_eq_false_iff, Option.isNone_iff_eq_none] at hheld
  obtain ⟨⟨⟨⟨-, htrap⟩, hlad⟩, -⟩, -⟩ := hheld
  simp [convoyDue, hlive, hflight, htrap, hlad, hbreak]

/-- With nothing before it, a turn of the convoy stream runs the word at CPC. -/
theorem NothingHeld.convoyTurn_of_word {run : IWord → State → Result} (h : NothingHeld s)
    (hw : fetchWord (convoyFetch s) s = some w) : convoyTurn run s = run w s := by
  have hdue := h.convoyDue_eq
  obtain ⟨hruns, hparked, hlive, hflight, hheld, hformed, hblock, -⟩ := h
  simp only [boundaryHeld, Bool.or_eq_false_iff] at hheld
  obtain ⟨⟨⟨⟨hstep, -⟩, -⟩, hpreq⟩, hdrains⟩ := hheld
  simp only [convoyTurn, hruns, hparked, hlive, hflight, hstep, hdue, hpreq, hdrains, hformed, hblock, hw, Bool.or_self,
    Bool.true_eq_false, Bool.false_eq_true, if_false]

theorem turn_of_convoy {run : IWord → State → Result} (h : s.agent = .convoy) : turn run s = convoyTurn run s := by
  simp only [turn, h]

end Runs

/-- Settles O12: the turn reaches the fetch, and what it fetches decodes to the instruction. -/
theorem stepRunsDecoded : Obligations.StepRunsDecoded := by
  unfold Obligations.StepRunsDecoded
  intro s w i hagenda hdecode
  rw [step_of_agenda_nil hagenda]
  refine ⟨fun hagent hrun hstep howes hlad hbreak hw hreq hhold => congrArg (passTurn s.agent.after) ?_,
    fun hagent hrun hpark hlive hflight hheld hformed hblock hbreak hw => ?_⟩
  · have hsteer : s.agent ≠ .convoy := by
      obtain h | ⟨h, -⟩ := hagent <;> simp [h]
    have hdue : NothingDue { s with stalled := false } := NothingDue.unmarked ⟨hrun, hstep, howes, hlad, hbreak⟩
    calc turn runWord { s with stalled := false } = steerTurn runWord { s with stalled := false } := turn_of_steers hagent
      _ = runWord w { s with stalled := false } := hdue.steerTurn_of_word (fetchWord_unmarked.trans hw)
      _ = goodWord w (exec i) { s with stalled := false } := runWord_of_instr hdecode
      _ = steerWord w (exec i) { s with stalled := false } := goodWord_of_steering hsteer
      _ = endWord s.cur.mode (exec i { s with stalled := false }) := steerWord_of_free hreq hhold
  · have hfree : NothingHeld { s with stalled := false } :=
      NothingHeld.unmarked ⟨hrun, hpark, hlive, hflight, hheld, hformed, hblock, hbreak⟩
    have hnext : s.agent.after = .control := by rw [hagent]; rfl
    rw [hnext]
    refine congrArg (passTurn .control) ?_
    calc turn runWord { s with stalled := false } = convoyTurn runWord { s with stalled := false } := turn_of_convoy hagent
      _ = runWord w { s with stalled := false } := hfree.convoyTurn_of_word (fetchWord_unmarked.trans hw)
      _ = goodWord w (exec i) { s with stalled := false } := runWord_of_instr hdecode
      _ = exec i { s with stalled := false } := goodWord_of_convoy hagent

end Sys2Proof.Machine

/-! ## What reset leaves (08_core_steering.md R167, R194, R195; 18_package.md R371, R384; 19_fabric.md R394) -/

namespace Sys2Proof.Machine

/-- Whichever agent moves, its steering processor is as reset leaves one. -/
theorem cur_reset (a : Agent) : State.cur { State.reset with agent := a } = .reset := by cases a <;> rfl

theorem csrReadSteer_reset {n : Nat} {v : Word} (hn : n ≠ 0x049) (h : csrReadSteer n .reset = some v) : v = 0 := by
  unfold csrReadSteer at h
  split at h
  all_goals cases h
  case h_15 => exact absurd rfl hn
  all_goals rfl

/-- No task runs. -/
theorem clusterUse_reset (a : Agent) (l : Nat) : clusterUse { State.reset with agent := a } l = 0 := by
  rw [clusterUse, State.clusterAt]
  split <;> rfl

theorem csrReadCluster_reset {n : Nat} {v : Word} (a : Agent) (h : csrReadCluster n { State.reset with agent := a } = some v) :
    v = 0 := by
  unfold csrReadCluster at h
  dsimp only at h
  split at h
  all_goals cases h
  case h_5 =>
    rw [clusterUse_reset]
    rfl
  all_goals rfl

theorem csrReadTask_reset {n : Nat} (h12 : n ≠ 0x012) (h54 : n ≠ 0x054) : csrReadTask n .reset = 0 := by
  unfold csrReadTask
  split
  case h_13 => exact absurd rfl h12
  case h_36 => exact absurd rfl h54
  all_goals rfl

/-- Every control register but those of the clock, VMT, MFINFO and MXSCL reads 0. -/
theorem csrRead_reset {n : Nat} (a : Agent) (hn : n ∉ [0x008, 0x009, 0x012, 0x049, 0x054]) :
    csrRead n { State.reset with agent := a } = 0 := by
  simp only [List.mem_cons, List.not_mem_nil, or_false, not_or] at hn
  obtain ⟨h8, h9, h12, h49, h54⟩ := hn
  rw [csrRead, if_neg h8, if_neg h9, cur_reset]
  split
  · next h => exact csrReadSteer_reset h49 h
  · split
    · next h => exact csrReadCluster_reset a h
    · exact csrReadTask_reset h12 h54

/-- Every register of the package but PLIMIT and PTIME reads 0. -/
theorem pkgRead_reset {off : Nat} (h : off ∉ [0x28, 0x30]) : pkgRead State.reset off = 0 := by
  simp only [List.mem_cons, List.not_mem_nil, or_false, not_or] at h
  obtain ⟨h28, h30⟩ := h
  unfold pkgRead
  dsimp only
  split
  case h_5 => exact absurd rfl h28
  case h_6 => exact absurd rfl h30
  case h_10 => split_ifs <;> rfl
  all_goals rfl

/-- Each of the fabric's ports is down, its peer unknown. -/
theorem fabRead_reset_port : ∀ p, p < 18 → fabRead State.reset (0x100 + 8 * p) = 0xFFF000 := by decide

/-- Settles O16: the registers by the lemmas above, the rest as the values at reset stand. -/
theorem resetState : Obligations.ResetState := by
  unfold Obligations.ResetState
  refine ⟨reset_canonical, fun k => rfl, fun a r => ?_, rfl, rfl, rfl, rfl, rfl, rfl, rfl, rfl, rfl, rfl, rfl, rfl, rfl,
    ⟨rfl, rfl⟩, fun a n _ hn => csrRead_reset a hn, fun a => ?_, rfl, rfl, rfl, fun off h => pkgRead_reset h, rfl, rfl, rfl,
    rfl, fabRead_reset_port⟩
  · rw [readReg, cur_reset]
    split <;> rfl
  · refine ⟨rfl, ?_, rfl⟩
    cases a <;> rfl

end Sys2Proof.Machine

/-! ## Taking a trap, and the words that take one or return from it (08_core_steering.md R196 to R203, R210) -/

namespace Sys2Proof.Machine

section Processor

variable {s : State}

/-! ### The processor that moves: a task core's, or a control core's -/

theorem cur_of_task (h : s.agent ≠ .control) : s.cur = s.core.steer := by
  unfold State.cur
  split
  · contradiction
  · rfl

theorem cur_of_control (h : s.agent = .control) : s.cur = s.cluster.ctl := by simp only [State.cur, h]

theorem modCore_cur (h : s.agent ≠ .control) (f : Core → Core) : (s.modCore f).cur = (f s.core).steer := cur_of_task h

theorem modCluster_cur (h : s.agent = .control) (f : Cluster → Cluster) : (s.modCluster f).cur = (f s.cluster).ctl :=
  cur_of_control h

theorem takeTrap_of_task {t : Trap} (h : s.agent ≠ .control) : takeTrap t s = takeTrapTask t s := by
  unfold takeTrap
  split
  · contradiction
  · rfl

theorem takeTrap_of_control {t : Trap} (h : s.agent = .control) : takeTrap t s = takeTrapControl t s := by
  simp only [takeTrap, h]

/-- A fault that no convoy in flight delays is taken, and BKSUP is cleared (R194, R201). -/
theorem steerFault_of_idle {c : Cause} {v : Word} (h : convoyBusy s = false) : steerFault c v s =
    .next (takeTrap ⟨c, false, v, s.cur.pc⟩ (s.modCur (fun c => { c with bksup := false }))) := by
  rw [← boundaryFault_of_idle h, boundaryFault, h]
  rfl

/-- So is the trap of a word that traps as its effect, with EPC at the next word (R197, R198). -/
theorem steerTrapNext_of_idle {c : Cause} {v : Word} (h : convoyBusy s = false) : steerTrapNext c v s =
    .next (takeTrap ⟨c, false, v, s.cur.pc + 4⟩ (s.modCur (fun c => { c with bksup := false }))) := by
  have hidle : ¬(s.agent ≠ .control ∧ s.inFlight = true) := by simpa [convoyBusy] using h
  rw [steerTrapNext, if_neg hidle]

end Processor

section Entry

variable {s : State} {t : Trap}

/-! ### The three ways of taking a trap -/

/-- In task mode, with no request, a task core enters the handler and its convoy stream halts (R196). -/
theorem takeTrap_enters (ha : s.agent ≠ .control) (hm : s.core.steer.mode = false) (hp : s.core.preq = false) :
    takeTrap t s = s.modCore (fun c => { c with steer := enterHandler (recordTrap t c.steer), conv := haltConvoy c.conv }) := by
  rw [takeTrap_of_task ha, takeTrapTask, hm, hp]
  rfl

/-- In task mode a control core enters the handler (14 R292). -/
theorem takeTrap_enters_control (ha : s.agent = .control) (hm : s.cluster.ctl.mode = false) :
    takeTrap t s = s.modCluster (fun c => { c with ctl := { enterHandler (recordTrap t c.ctl) with chalt := false } }) := by
  rw [takeTrap_of_control ha, takeTrapControl, hm]
  rfl

/-- Under a request a task core records the trap and halts (R210). -/
theorem takeTrap_records (ha : s.agent ≠ .control) (hm : s.core.steer.mode = false) (hp : s.core.preq = true) :
    takeTrap t s = s.modCore (fun c => { c with
      run := .halted
      steer := { recordTrap t c.steer with tpend := true, expired := false, chalt := c.steer.chalt || t.strm }
      conv := { c.conv with forming := [], flight := none, st := if t.strm then .halted else c.conv.st } }) := by
  rw [takeTrap_of_task ha, takeTrapTask, hm, hp]
  rfl

/-- In supervisor mode a task core halts (R202). -/
theorem takeTrap_doubles (ha : s.agent ≠ .control) (hm : s.core.steer.mode = true) : takeTrap t s =
    s.modCore (fun c => { c with steer := { c.steer with dead := some (doubleTrap t) }, conv := haltConvoy c.conv }) := by
  rw [takeTrap_of_task ha, takeTrapTask, hm]
  rfl

/-- In supervisor mode a control core halts, and its cluster reports an error (R203). -/
theorem takeTrap_doubles_control (ha : s.agent = .control) (hm : s.cluster.ctl.mode = true) :
    takeTrap t s = haltControl (doubleTrap t) s := by
  rw [takeTrap_of_control ha, takeTrapControl, hm]
  rfl

end Entry

/-- Settles O17: the entry on a task core, and on a control core. -/
theorem trapEntry : Obligations.TrapEntry := by
  unfold Obligations.TrapEntry
  intro s t hmode hpreq u
  by_cases ha : s.agent = .control
  · have hcur := cur_of_control ha
    rw [hcur] at hmode
    have hu : u = _ := takeTrap_enters_control ha hmode
    have hcur' : u.cur = _ := (congrArg State.cur hu).trans (modCluster_cur ha _)
    refine ⟨?_, fun h => absurd ha h, fun _ => ?_, fun r => ?_⟩
    · rw [hcur', hcur]
      simp [enterHandler, recordTrap, hmode, ha]
    · rw [hcur', hu]
      rfl
    · rw [readReg, readReg, hcur', hcur]
      rfl
  · have hcur := cur_of_task ha
    rw [hcur] at hmode
    have hu : u = _ := takeTrap_enters ha hmode (hpreq ha)
    have hcur' : u.cur = _ := (congrArg State.cur hu).trans (modCore_cur ha _)
    refine ⟨?_, fun _ => ?_, fun h => absurd h ha, fun r => ?_⟩
    · rw [hcur', hcur]
      simp [enterHandler, recordTrap, hmode, ha]
    · rw [hcur', hu]
      rfl
    · rw [readReg, readReg, hcur', hcur]
      rfl

/-- Settles O18: the double trap on a task core, and on a control core. -/
theorem doubleTrapHalts : Obligations.DoubleTrapHalts := by
  unfold Obligations.DoubleTrapHalts
  intro s t hmode u
  by_cases ha : s.agent = .control
  · have hcur := cur_of_control ha
    have hu : u = _ := takeTrap_doubles_control ha (hcur ▸ hmode)
    rw [hu, hcur]
    exact ⟨cur_of_control ha, fun h => absurd ha h, fun _ => rfl, rfl⟩
  · have hcur := cur_of_task ha
    have hu : u = _ := takeTrap_doubles ha (hcur ▸ hmode)
    rw [hu, hcur]
    exact ⟨cur_of_task ha, fun _ => rfl, fun h => absurd h ha, rfl⟩

/-- Settles O19: the trap is recorded beside a handler that is not entered. -/
theorem requestRecordsTrap : Obligations.RequestRecordsTrap := by
  unfold Obligations.RequestRecordsTrap
  intro s t ha hmode hpreq u
  have hu : u = _ := takeTrap_records ha hmode hpreq
  rw [hu]
  exact ⟨rfl, rfl, rfl, rfl⟩

section Return

variable {s : State}

/-! ### HRET (R197) -/

theorem trapReturn_cur (s : State) : (trapReturn s).cur = { s.cur with
    mode := s.cur.pmode, pc := s.cur.epc, expired := false, chalt := s.cur.chalt && decide (s.agent = .control) } := by
  unfold trapReturn State.cur
  cases h : s.agent <;> simp [h]

theorem trapReturn_agent (s : State) : (trapReturn s).agent = s.agent := by
  unfold trapReturn
  split <;> rfl

theorem trapReturn_mem (s : State) : (trapReturn s).mem = s.mem := by
  unfold trapReturn
  split <;> rfl

/-- A convoy stream that the trap halted resumes. -/
theorem trapReturn_conv (h : s.agent ≠ .control) : (trapReturn s).core.conv =
    if s.core.steer.chalt then { s.core.conv with st := if s.core.conv.lc = 0 then .idle else .run } else s.core.conv := by
  unfold trapReturn
  split
  · contradiction
  · rfl

/-- A recorded trap that is taken afresh enters the handler. -/
theorem retakeTrap_cur (h : s.cur.mode = false) :
    (retakeTrap s).cur = { enterHandler s.cur with chalt := decide (s.agent ≠ .control) } := by
  by_cases ha : s.agent = .control
  · have hctl : retakeTrap s = s.modCluster (fun k => { k with ctl := { enterHandler s.cur with chalt := false } }) := by
      simp only [retakeTrap, ha, h, Bool.false_eq_true, if_false]
    rw [hctl, modCluster_cur ha]
    simp [ha]
  · have hcore : retakeTrap s = s.modCore (fun k => { k with steer := enterHandler s.cur, conv := haltConvoy k.conv }) := by
      unfold retakeTrap
      dsimp only
      split
      · contradiction
      · rw [h]; rfl
    rw [hcore, modCore_cur ha]
    simp [ha, enterHandler]

/-- In supervisor mode HRET returns, and takes a trap that TPEND recorded afresh. -/
theorem exec_hret_of_supervisor (h : s.cur.mode = true) :
    exec .hret s = .next (if s.cur.tpend then retakeTrap (trapReturn s) else trapReturn s) := by
  have hret : execHret s = .next (if (trapReturn s).cur.tpend then retakeTrap (trapReturn s) else trapReturn s) := if_pos h
  rw [trapReturn_cur] at hret
  exact hret

/-- In task mode it is refused. -/
theorem exec_hret_of_task (h : s.cur.mode = false) (hb : convoyBusy s = false) : exec .hret s =
    .next (takeTrap ⟨.privilege, false, 0x00400039, s.cur.pc⟩ (s.modCur (fun c => { c with bksup := false }))) := by
  have hword : (encode .hret).setWidth 64 = 0x00400039 := by decide
  have hfault : execHret s = steerFault .privilege ((encode .hret).setWidth 64) s := if_neg (by rw [h]; decide)
  rw [← steerFault_of_idle hb, ← hword]
  exact hfault

/-! ### BRK (R198; 07_prog_alias.md R166) -/

/-- BRK under BRKH leaves the state of the trap, and the processor stopped. -/
theorem brkStop_cur (t : Trap) (s : State) : (brkStop t s).cur =
    { enterHandler (recordTrap t s.cur) with stopped := true, chalt := decide (s.agent ≠ .control) } := by
  by_cases ha : s.agent = .control
  · have hctl : brkStop t s = s.modCluster (fun c => { c with
        ctl := { enterHandler (recordTrap t c.ctl) with stopped := true, chalt := false } }) := by
      simp only [brkStop, ha]
    rw [hctl, modCluster_cur ha, cur_of_control ha]
    simp [ha]
  · have hcore : brkStop t s = s.modCore (fun c => { c with
        steer := { enterHandler (recordTrap t c.steer) with stopped := true }, conv := haltConvoy c.conv }) := by
      unfold brkStop
      dsimp only
      split
      · contradiction
      · rfl
    rw [hcore, modCore_cur ha, cur_of_task ha]
    simp [ha, enterHandler]

theorem exec_brk_of_trap {n : BitVec 15} (h : s.cur.sdbg.getLsbD 1 = false) :
    exec (.brk n) s = steerTrapNext .brk (zext64 n) s := if_neg (by rw [h]; decide)

theorem exec_brk_of_stop {n : BitVec 15} (h : s.cur.sdbg.getLsbD 1 = true) (hb : convoyBusy s = false) : exec (.brk n) s =
    .next (brkStop ⟨.brk, false, zext64 n, s.cur.pc + 4⟩ (s.modCur (fun c => { c with bksup := false }))) := by
  have hidle : ¬(s.agent ≠ .control ∧ s.inFlight = true) := by simpa [convoyBusy] using hb
  exact (if_pos h).trans (if_neg hidle)

end Return

/-- Settles O20: HRET by the state that it returns to, HCALL and BRK by the traps that they take. -/
theorem callAndReturn : Obligations.CallAndReturn := by
  unfold Obligations.CallAndReturn
  intro s n u
  refine ⟨fun hm ht => ?_, fun hm ht hp => ?_, exec_hret_of_task, fun hb => ⟨steerTrapNext_of_idle hb, fun hd => ?_, fun hd => ?_⟩,
    rfl⟩
  · refine ⟨trapReturn s, ?_, trapReturn_cur s, trapReturn_conv, trapReturn_mem s⟩
    rw [exec_hret_of_supervisor hm, ht]
    rfl
  · have hcur := retakeTrap_cur (s := trapReturn s) (by rw [trapReturn_cur]; exact hp)
    refine ⟨retakeTrap (trapReturn s), ?_, ?_⟩
    · rw [exec_hret_of_supervisor hm, ht]
      rfl
    · rw [hcur, trapReturn_cur]
      exact ⟨rfl, rfl, rfl, rfl, rfl, rfl⟩
  · rw [exec_brk_of_trap hd, steerTrapNext_of_idle hb]
  · refine ⟨_, exec_brk_of_stop hd hb, ?_⟩
    rw [brkStop_cur, State.modCur_cur]
    exact ⟨rfl, rfl, rfl, rfl, rfl⟩

end Sys2Proof.Machine

/-! ## The control-register words (08_core_steering.md R178 to R180; 03_plane.md R68; 09_core_memory.md R234) -/

namespace Sys2Proof.Machine

section Access

variable {n : Nat} {s : State}

/-- The mode of the processor permits an access of the register (R179). -/
abbrev CsrOpen (n : Nat) (s : State) : Prop := csrSupervisor n = true → s.cur.mode = true

theorem CsrOpen.not_refused (h : CsrOpen n s) : (csrSupervisor n && !s.cur.mode) = false := by
  cases hn : csrSupervisor n with
  | false => rfl
  | true => rw [h hn]; rfl

theorem CsrOpen.not_supervisor (h : CsrOpen n s) (hm : s.cur.mode = false) : csrSupervisor n = false :=
  Bool.eq_false_iff.mpr fun hn => by rw [h hn] at hm; cases hm

theorem csr_refused (hn : csrSupervisor n = true) (hm : s.cur.mode = false) : (csrSupervisor n && !s.cur.mode) = true := by
  rw [hn, hm]; rfl

/-! ### CRGET -/

section Read

variable {d : BitVec 5} {c : BitVec 12}

theorem execCrget_of_refused (hn : csrSupervisor c.toNat = true) (hm : s.cur.mode = false) :
    execCrget d c s = steerFault .privilege ((encode (.crget d c)).setWidth 64) s := if_pos (csr_refused hn hm)

theorem execCrget_of_open (h : CsrOpen c.toNat s) : execCrget d c s = if csrWaits c.toNat s then .next (stall s)
    else retire d (csrRead c.toNat s) (if c.toNat = 0x008 then s.clockRead else if c.toNat = 0x009 then s.tickUp else s) :=
  if_neg (by rw [h.not_refused]; decide)

end Read

/-! ### CRPUT, CRSET and CRCLR -/

section Write

variable {op : CsrOp} {w : IWord} {a : BitVec 5} {c : BitVec 12}

/-- The write would change a field that only supervisor mode may change (R180). -/
abbrev csrChanges (op : CsrOp) (n : Nat) (x : Word) (s : State) : Word :=
  (csrRead n s ^^^ op.merge (csrRead n s) x) &&& csrGuarded n

theorem csrWriteWord_of_refused (hn : csrSupervisor c.toNat = true) (hm : s.cur.mode = false) :
    csrWriteWord op w a c s = steerFault .privilege (w.setWidth 64) s := if_pos (csr_refused hn hm)

theorem csrWriteWord_of_waits (h : CsrOpen c.toNat s) (hw : csrWaits c.toNat s = true) :
    csrWriteWord op w a c s = .next (stall s) := by
  simp only [csrWriteWord, h.not_refused, hw, Bool.false_eq_true, if_false, if_true]

theorem csrWriteWord_of_guarded (h : CsrOpen c.toNat s) (hw : csrWaits c.toNat s = false) (hm : s.cur.mode = false)
    (hc : csrChanges op c.toNat (readReg a s) s ≠ 0) : csrWriteWord op w a c s = steerFault .privilege (w.setWidth 64) s := by
  simp only [csrWriteWord, h.not_supervisor hm, hw, hm, hc, ne_eq, not_false_eq_true, decide_true, Bool.not_false,
    Bool.and_true, Bool.false_eq_true, if_false, if_true]

/-- A permitted write that waits for nothing but the accesses of a write of TLBINV. -/
theorem csrWriteWord_of_permitted (h : CsrOpen c.toNat s) (hw : csrWaits c.toNat s = false)
    (hc : s.cur.mode = true ∨ csrChanges op c.toNat (readReg a s) s = 0) : csrWriteWord op w a c s =
      if c.toNat = 0x04A ∧ op ≠ .clr ∧ tlbinvWaits (readReg a s) s = true then .next (stall s)
      else .next (advance (csrApply op c.toNat (readReg a s) s)) := by
  have hkept : (decide (csrChanges op c.toNat (readReg a s) s ≠ 0) && !s.cur.mode) = false := by
    obtain hc | hc := hc
    · rw [hc, Bool.not_true, Bool.and_false]
    · rw [hc]; rfl
  simp only [csrWriteWord, h.not_refused, hw, hkept, Bool.false_eq_true, if_false]

/-- A register that can be read back takes the merged value. -/
theorem csrApply_of_readable {x : Word} (h : csrWriteOnly n = false) :
    csrApply op n x s = csrStore n (op.merge (csrRead n s) x) (if op = .clr then 0 else x) s := by
  rw [csrApply, h]; rfl

theorem csrApply_of_writeOnly {x : Word} (h : csrWriteOnly n = true) :
    csrApply op n x s = if op = .clr then s else csrStore n x x s := if_pos h

/-- TLBINV is one of the write-only registers. -/
theorem csrWriteOnly_tlbinv (h : csrWriteOnly n = false) : n ≠ 0x04A := by
  rintro rfl
  exact absurd h (by decide)

/-- A write-only register is accessed without waiting, and has no guarded field. -/
theorem writeOnly_access (h : csrWriteOnly n = true) : csrWaits n s = false ∧ csrGuarded n = 0 := by
  simp only [csrWriteOnly, Bool.or_eq_true, beq_iff_eq] at h
  obtain (rfl | rfl) | rfl := h <;> exact ⟨rfl, rfl⟩

theorem csrWriteWord_of_writeOnly (h : CsrOpen c.toNat s) (ho : csrWriteOnly c.toNat = true) : csrWriteWord op w a c s =
      if c.toNat = 0x04A ∧ op ≠ .clr ∧ tlbinvWaits (readReg a s) s = true then .next (stall s)
      else .next (advance (if op = .clr then s else csrStore c.toNat (readReg a s) (readReg a s) s)) := by
  obtain ⟨hwaits, hguard⟩ := writeOnly_access (s := s) ho
  rw [csrWriteWord_of_permitted h hwaits (.inr (by rw [csrChanges, hguard]; exact BitVec.and_zero)), csrApply_of_writeOnly ho]

/-- What every way of writing a register does (R178 to R180), by the value that it merges. -/
theorem csrWriteWord_cases (op : CsrOp) (w : IWord) (a : BitVec 5) (c : BitVec 12) (s : State) :
    let n := c.toNat
    let v := op.merge (csrRead n s) (readReg a s)
    let refused := takeTrap ⟨.privilege, false, w.setWidth 64, s.cur.pc⟩ (s.modCur (fun c => { c with bksup := false }))
    (csrSupervisor n = true → s.cur.mode = false → convoyBusy s = false → csrWriteWord op w a c s = .next refused)
    ∧ (CsrOpen n s → csrWaits n s = true → csrWriteWord op w a c s = .next { s with stalled := true })
    ∧ (CsrOpen n s → csrWaits n s = false →
      (s.cur.mode = false → (csrRead n s ^^^ v) &&& csrGuarded n ≠ 0 → convoyBusy s = false →
        csrWriteWord op w a c s = .next refused)
      ∧ (s.cur.mode = true ∨ (csrRead n s ^^^ v) &&& csrGuarded n = 0 → csrWriteOnly n = false →
        csrWriteWord op w a c s = .next (advance (csrStore n v (if op = .clr then 0 else readReg a s) s)))) := by
  intro n v refused
  refine ⟨fun hn hm hb => ?_, csrWriteWord_of_waits, fun h hw => ⟨fun hm hc hb => ?_, fun hc ho => ?_⟩⟩
  · rw [csrWriteWord_of_refused hn hm, steerFault_of_idle hb]
  · rw [csrWriteWord_of_guarded h hw hm hc, steerFault_of_idle hb]
  · rw [csrWriteWord_of_permitted h hw hc, if_neg fun h => csrWriteOnly_tlbinv ho h.1, csrApply_of_readable ho]

end Write

end Access

/-- Settles O21: CRGET is refused, waits, or retires with the register's value. -/
theorem registerReads : Obligations.RegisterReads := by
  unfold Obligations.RegisterReads
  intro s d c
  have hexec : exec (.crget d c) s = execCrget d c s := rfl
  rw [hexec]
  refine ⟨fun h hw => ?_, fun hn hm hb => ?_, fun h hw => ?_⟩
  · rw [execCrget_of_open h, hw]; rfl
  · rw [execCrget_of_refused hn hm, steerFault_of_idle hb]
  · rw [execCrget_of_open h, hw]; rfl

/-- Settles O22: the three words are the three ways of writing; on a write-only register, what the last two leave. -/
theorem registerWrites : Obligations.RegisterWrites := by
  unfold Obligations.RegisterWrites
  intro s a c n x old refused
  refine ⟨fun i v marks h => ?_, fun h ho => ?_⟩
  · simp only [List.mem_cons, Prod.mk.injEq, List.not_mem_nil, or_false] at h
    obtain ⟨rfl, rfl, rfl⟩ | ⟨rfl, rfl, rfl⟩ | ⟨rfl, rfl, rfl⟩ := h
    · exact csrWriteWord_cases .put (encode (.crput a c)) a c s
    · exact csrWriteWord_cases .set (encode (.crset a c)) a c s
    · exact csrWriteWord_cases .clr (encode (.crclr a c)) a c s
  · have hexec := fun (op : CsrOp) (w : IWord) => csrWriteWord_of_writeOnly (op := op) (w := w) (a := a) h ho
    have hput : ∀ op w, op ≠ .clr → (n = 0x04A → tlbinvWaits x s = false) →
        csrWriteWord op w a c s = .next (advance (csrStore n x x s)) := fun op w hop hw => by
      rw [hexec, if_neg (by rintro ⟨hn, -, ht⟩; rw [hw hn] at ht; cases ht), if_neg hop]
    have hwait : ∀ op w, op ≠ .clr → n = 0x04A → tlbinvWaits x s = true →
        csrWriteWord op w a c s = .next { s with stalled := true } := fun op w hop hn hw => by
      rw [hexec, if_pos ⟨hn, hop, hw⟩]; rfl
    refine ⟨fun hw => ⟨hput .put _ (by decide) hw, hput .set _ (by decide) hw⟩,
      fun hn hw => ⟨hwait .put _ (by decide) hn hw, hwait .set _ (by decide) hn hw⟩, ?_⟩
    refine (hexec .clr (encode (.crclr a c))).trans ?_
    rw [if_neg fun h => h.2.1 rfl, if_pos rfl]

end Sys2Proof.Machine

/-! ## The queue words (08_core_steering.md R181 to R186; 14_cluster.md R293, R294; 09_core_memory.md R244) -/

namespace Sys2Proof.Machine

section Queues

variable {s : State} {d a b : BitVec 5}

/-! ### What a push releases -/

theorem releaseGate_of_released (h : s.released) : releaseGate s = none := by
  obtain ⟨houts, hstore⟩ := h
  rw [releaseGate, if_neg (not_not.mpr houts), failedGate, hstore]
  rfl

theorem releaseGate_of_outstanding (h : s.cur.outs ≠ []) : releaseGate s = some (.next (stall s)) := if_pos h

/-! ### BPUSH and DPUSH -/

theorem blockFaults_eq (x y : Word) :
    blockFaults x y = true ↔ 2 ^ 32 ≤ x.toNat ∨ x.toNat % 4 ≠ 0 ∨ 2 ^ 32 ≤ y.toNat := decide_eq_true_iff

/-- The operands of a BPUSH are in range and aligned. -/
theorem blockFaults_of_sound {x y : Word} (hx : x.toNat < 2 ^ 32) (hal : x.toNat % 4 = 0) (hy : y.toNat < 2 ^ 32) :
    blockFaults x y = false := by
  rw [Bool.eq_false_iff, ne_eq, blockFaults_eq]
  omega

theorem execBpush_of_fault (h : blockFaults (readReg a s) (readReg b s) = true) :
    execBpush a b s = steerFault .queueArg (readReg a s) s := if_pos h

theorem execBpush_of_room (hf : blockFaults (readReg a s) (readReg b s) = false) (hq : s.core.q.bq.length < 16)
    (hr : s.released) : execBpush a b s = .next (advance (s.modQ (fun q => { q with
      bq := q.bq ++ [⟨.ofNat 32 (readReg a s).toNat, .ofNat 32 (readReg b s).toNat⟩] }))) := by
  simp only [execBpush, hf, Nat.not_le.mpr hq, releaseGate_of_released hr, Bool.false_eq_true, if_false, BitVec.ofNat_toNat]

theorem execBpush_of_wait (hf : blockFaults (readReg a s) (readReg b s) = false)
    (h : 16 ≤ s.core.q.bq.length ∨ s.cur.outs ≠ []) : execBpush a b s = .next (stall s) := by
  by_cases hq : 16 ≤ s.core.q.bq.length
  · simp only [execBpush, hf, hq, Bool.false_eq_true, if_false, if_true]
  · simp only [execBpush, hf, hq, releaseGate_of_outstanding (h.resolve_left hq), Bool.false_eq_true, if_false]

theorem execDpush_of_room (hq : s.core.q.dq.length < 32) (hr : s.released) :
    execDpush a s = .next (advance (s.modQ (fun q => { q with dq := q.dq ++ [readReg a s] }))) := by
  simp only [execDpush, Nat.not_le.mpr hq, releaseGate_of_released hr, if_false]

theorem execDpush_of_wait (h : 32 ≤ s.core.q.dq.length ∨ s.cur.outs ≠ []) : execDpush a s = .next (stall s) := by
  by_cases hq : 32 ≤ s.core.q.dq.length
  · simp only [execDpush, hq, if_true]
  · simp only [execDpush, hq, releaseGate_of_outstanding (h.resolve_left hq), if_false]

/-! ### The pops -/

theorem execRpop_of_cons {v : Word} {l : List Word} (h : s.core.q.rq = v :: l) :
    execRpop d s = retire d v (s.modQ (fun q => { q with rq := l })) := by simp only [execRpop, h]

theorem execRpop_of_nil (h : s.core.q.rq = []) : execRpop d s = .next (stall s) := by simp only [execRpop, h]

/-- With no event waiting for room, the head of eq goes and nothing enters. -/
theorem popEvent_eq {v : Word} {l : List Word} (h : s.core.q.eq = v :: l) (hp : s.core.q.posts = []) :
    popEvent s = s.modQ (fun q => { q with eq := l }) := by
  simp only [popEvent, State.modQ, State.modCore, Queues.settle, h, hp, List.tail_cons, List.take_nil, List.drop_nil,
    List.append_nil]

theorem execEpop_of_cons {v : Word} {l : List Word} (h : s.core.q.eq = v :: l) : execEpop d s = retire d v (popEvent s) := by
  simp only [execEpop, h]

theorem execEpop_of_nil (h : s.core.q.eq = []) : execEpop d s = .next (stall s) := by simp only [execEpop, h]

theorem execEpopTry_of_cons {v : Word} {l : List Word} (h : s.core.q.eq = v :: l) :
    execEpopTry d s = retire d v (popEvent s) := by simp only [execEpopTry, h]

theorem execEpopTry_of_nil (h : s.core.q.eq = []) : execEpopTry d s = retire d 0 s := by simp only [execEpopTry, h]

/-- The cluster in focus is changed where it stands. -/
theorem modClusterAt_focus {l : Nat} (h : l = s.clusterId) (f : Cluster → Cluster) : s.modClusterAt l f = s.modCluster f := by
  rw [State.modClusterAt, State.setClusterAt, if_pos h, State.clusterAt, if_pos h]
  rfl

/-- With no message waiting for room, the head of cq goes and nothing enters. -/
theorem popMessage_eq {v : Word} {l : List Word} (h : s.cluster.cq = v :: l) (hp : s.cluster.cqPosts = []) :
    popMessage s = s.modCluster (fun c => { c with cq := l }) := by
  rw [popMessage, cqSettle, modClusterAt_focus]
  · simp only [State.modCluster, h, hp, List.tail_cons, settleCq]
  · rfl

theorem execEpopMsg_of_cons {v : Word} {l : List Word} (h : s.cluster.cq = v :: l) :
    execEpopMsg d s = retire d v (popMessage s) := by simp only [execEpopMsg, h]

theorem execEpopMsg_of_nil (h : s.cluster.cq = []) : execEpopMsg d s = .next (stall s) := by simp only [execEpopMsg, h]

theorem execEpopMsgTry_of_cons {v : Word} {l : List Word} (h : s.cluster.cq = v :: l) :
    execEpopMsgTry d s = retire d v (popMessage s) := by simp only [execEpopMsgTry, h]

theorem execEpopMsgTry_of_nil (h : s.cluster.cq = []) : execEpopMsgTry d s = retire d 0 s := by
  simp only [execEpopMsgTry, h]

end Queues

/-- Settles O30: each word by what stands in its queue, and a push by what is outstanding. -/
theorem queueWords : Obligations.QueueWords := by
  unfold Obligations.QueueWords
  intro s d a b wait
  refine ⟨fun hx hal hy hq hr => execBpush_of_room (blockFaults_of_sound hx hal hy) hq hr, execDpush_of_room,
    fun v l h => execRpop_of_cons h, fun v l h hp => ?_, execEpopTry_of_nil, fun v l h hp => ?_, execEpopMsgTry_of_nil,
    fun hx hal hy h => execBpush_of_wait (blockFaults_of_sound hx hal hy) h, execDpush_of_wait, execRpop_of_nil,
    execEpop_of_nil, execEpopMsg_of_nil, fun h hb => ?_⟩
  · rw [← popEvent_eq h hp]
    exact ⟨execEpop_of_cons h, execEpopTry_of_cons h⟩
  · have hpop := popMessage_eq h hp
    exact ⟨⟨popMessage s, execEpopMsg_of_cons h, hpop⟩, ⟨popMessage s, execEpopMsgTry_of_cons h, hpop⟩⟩
  · exact (execBpush_of_fault ((blockFaults_eq _ _).mpr h)).trans (steerFault_of_idle hb)

end Sys2Proof.Machine

/-! ## END (08_core_steering.md R190 to R192) -/

namespace Sys2Proof.Machine

/-! ### The completion word -/

/-- The fields above COUNT leave it alone, which is one more (R190). -/
theorem completionNext_count (w : Word) (flags : BitVec 8) (aborted : Bool) :
    (completionNext w flags aborted).toNat % 2 ^ 40 = (w.toNat % 2 ^ 40 + 1) % 2 ^ 40 := by
  have hflags : (flags.setWidth 64 <<< 48 : Word).toNat % 2 ^ 40 = 0 := by
    rw [BitVec.toNat_shiftLeft, Nat.shiftLeft_eq]
    omega
  have habort : (if aborted then 2 ^ 56 else 0 : Word).toNat % 2 ^ 40 = 0 := by cases aborted <;> rfl
  rw [completionNext, BitVec.toNat_or, BitVec.toNat_or, Nat.or_mod_two_pow, Nat.or_mod_two_pow, hflags, habort, Nat.or_zero,
    Nat.or_zero, BitVec.toNat_ofNat]
  omega

/-! ### The core lets go of its task -/

/-- A cluster that changes leaves every core as it is. -/
theorem coreAt_setClusterAt (s : State) (l k : Nat) (v : Cluster) : (s.setClusterAt l v).coreAt k = s.coreAt k := by
  unfold State.setClusterAt
  split <;> rfl

theorem coreAt_modClusterAt (s : State) (l k : Nat) (f : Cluster → Cluster) : (s.modClusterAt l f).coreAt k = s.coreAt k :=
  coreAt_setClusterAt ..

theorem coreAt_proxyCount (l i k : Nat) (s : State) : (proxyCount l i s).coreAt k = s.coreAt k := by
  unfold proxyCount
  split
  · rfl
  · split
    · exact coreAt_modClusterAt ..
    · rfl

theorem coreAt_releaseCore_run (core : Nat) (s : State) : ((releaseCore core s).coreAt core).run = .clearing := by
  rw [releaseCore, coreAt_modCoreAt, if_pos rfl]

/-- A core whose task has ended clears its TCM (R191; 03_plane.md R80). -/
theorem endTaskOn_run (core : Nat) (aborted : Bool) (s : State) : ((endTaskOn core aborted s).coreAt core).run = .clearing := by
  unfold endTaskOn
  dsimp only
  split
  · exact coreAt_releaseCore_run core s
  · rw [coreAt_proxyCount, apply_ite (fun t : State => t.coreAt core), coreAt_modClusterAt, ite_self]
    exact coreAt_releaseCore_run core _

/-! ### The word completes -/

section Ends

variable {s : State} {key : Nat}

/-- A drained task with nothing outstanding updates its completion word and ends (R190, R191). -/
theorem execEndTask_of_released (ha : s.agent = .steer)
    (hd : s.core.steer.mode = true ∨ (s.core.drained = true ∧ s.core.chainRuns = false)) (hr : s.released)
    (hs : s.core.conv.failedStore = none) : execEndTask s = completeTask s := by
  have hcur : s.cur = s.core.steer := cur_of_task (by rw [ha]; decide)
  have hdrained : endDrained s = true := by
    rw [endDrained, hcur]
    obtain h | ⟨h, hc⟩ := hd
    · rw [h]; rfl
    · rw [h, hc, Bool.not_false, Bool.and_true, Bool.or_true]
  have hgate : (releaseGate s).or (convoyGate s) = none := by
    rw [releaseGate_of_released hr, convoyGate, hs]
    rfl
  simp only [execEndTask, hdrained, hgate, Bool.true_eq_false, if_false]

/-- The completion word lies in this package, and reads without an error. -/
theorem completeTask_of_mem (hres : resolve s 3 s.core.task.cwaddr atomicWant = .ok (.mem key false))
    (hp : poisoned s key 8 = false) : completeTask s = .next (endTaskOn s.coreId s.core.steer.mode (leaveShares
      (storeMem key 8 (completionNext (.ofNat 64 (readMem s key 8)) s.core.conv.vflags s.core.steer.mode).toNat s.tickUp))) := by
  have hfail : (locPoisoned s (.mem key false) 8 || remoteFails s (.mem key false)) = false := by
    rw [locPoisoned, hp]; rfl
  simp only [completeTask, hres, hfail, Bool.false_eq_true, if_false]
  rfl

/-- COMPLETION_WORD_UPDATE is the END at PC. -/
theorem execCompletionWordUpdate_of_end (ha : s.agent = .steer) (hl : s.core.live = true) (hp : s.core.preq = false)
    (he : executes s = true) (hw : fetchWord s.core.steer.pc s = some 0x00000025) :
    execCompletionWordUpdate s = execEndTask s := by
  have hsame : { s with agent := .steer } = s := by rw [← ha]
  have hword : encode .endTask = 0x00000025 := by decide
  simp only [execCompletionWordUpdate, hsame, hl, hp, he, hw, hword, Bool.not_false, Bool.and_self, decide_true, if_true]

end Ends

/-- Settles O31: END reaches the update, and what ends with it. -/
theorem endOfTask : Obligations.EndOfTask := by
  unfold Obligations.EndOfTask
  intro s key ha hd hr hs hres hp old t
  have hend : execEndTask s = .next t := (execEndTask_of_released ha hd hr hs).trans (completeTask_of_mem hres hp)
  refine ⟨hend, fun hl hq he hw => (execCompletionWordUpdate_of_end ha hl hq he hw).trans hend, ?_, endTaskOn_run _ _ _⟩
  rw [completionNext_count, BitVec.toNat_ofNat]
  omega

end Sys2Proof.Machine

/-! ## What the stream controller changes, and what it leaves (14_cluster.md R302 to R306, R325 to R330)

The events of a task's context run through the stream controller's operations. Most of these change clusters and the
package's contexts alone; those that end shares or post events also change cores and memory, and leave every task its place,
every scoreboard its entries and every cq its messages. -/

namespace Sys2Proof.Machine

/-! ### Cores, clusters and dies by number -/

/-- A cluster read after a write. -/
theorem clusterAt_setClusterAt (s : State) (l k : Nat) (c : Cluster) :
    (s.setClusterAt l c).clusterAt k = if k = l then c else s.clusterAt k := by
  unfold State.setClusterAt
  by_cases hl : l = s.clusterId
  · rw [if_pos hl]
    show (if k = s.clusterId then c else poolGet .reset s.clusters k) = _
    rw [← hl]
    by_cases hk : k = l
    · rw [if_pos hk, if_pos hk]
    · rw [if_neg hk, if_neg hk, State.clusterAt, if_neg (fun h => hk (h.trans hl.symm))]
  · rw [if_neg hl]
    show (if k = s.clusterId then s.cluster else poolGet .reset (poolSet s.clusters l c) k) = _
    by_cases hk : k = s.clusterId
    · rw [if_pos hk, if_neg (fun h => hl (h.symm.trans hk)), State.clusterAt, if_pos hk]
    · rw [if_neg hk, poolGet_poolSet, State.clusterAt, if_neg hk]

theorem clusterAt_modClusterAt (s : State) (l k : Nat) (f : Cluster → Cluster) :
    (s.modClusterAt l f).clusterAt k = if k = l then f (s.clusterAt k) else s.clusterAt k := by
  rw [State.modClusterAt, clusterAt_setClusterAt]
  split
  · next h => rw [h]
  · rfl

/-- What comes into focus, and what leaves it, is as it was. -/
theorem coreAt_focus (s : State) (c k : Nat) : (s.focus c).coreAt k = s.coreAt k := by
  unfold State.focus
  split
  · rfl
  · next hc =>
    show (if k = c then s.coreAt c else poolGet .reset (poolSet s.cores s.coreId s.core) k) = _
    by_cases hk : k = c
    · rw [if_pos hk, hk]
    · rw [if_neg hk]
      exact poolGet_poolSet _ _ _ _ _

theorem clusterAt_focus (s : State) (c l : Nat) : (s.focus c).clusterAt l = s.clusterAt l := by
  unfold State.focus
  split
  · rfl
  · show (if l = clusterOf c then s.clusterAt (clusterOf c)
      else poolGet .reset (if clusterOf c = s.clusterId then s.clusters else poolSet s.clusters s.clusterId s.cluster) l) = _
    by_cases hl : l = clusterOf c
    · rw [if_pos hl, hl]
    · rw [if_neg hl]
      by_cases hc : clusterOf c = s.clusterId
      · rw [if_pos hc, State.clusterAt, if_neg (hc ▸ hl)]
      · rw [if_neg hc, poolGet_poolSet]
        rfl

theorem dieAt_focus (s : State) (c d : Nat) : (s.focus c).dieAt d = s.dieAt d := by
  unfold State.focus
  split
  · rfl
  · show (if d = dieOf c then s.dieAt (dieOf c)
      else poolGet .reset (if dieOf c = s.dieId then s.dies else poolSet s.dies s.dieId s.die) d) = _
    by_cases hl : d = dieOf c
    · rw [if_pos hl, hl]
    · rw [if_neg hl]
      by_cases hc : dieOf c = s.dieId
      · rw [if_pos hc, State.dieAt, if_neg (hc ▸ hl)]
      · rw [if_neg hc, poolGet_poolSet]
        rfl

theorem clusterAt_modCoreAt (s : State) (c l : Nat) (f : Core → Core) : (s.modCoreAt c f).clusterAt l = s.clusterAt l := by
  unfold State.modCoreAt State.setCoreAt
  split <;> rfl

theorem dieAt_modCoreAt (s : State) (c d : Nat) (f : Core → Core) : (s.modCoreAt c f).dieAt d = s.dieAt d := by
  unfold State.modCoreAt State.setCoreAt
  split <;> rfl

theorem dieAt_modClusterAt (s : State) (l d : Nat) (f : Cluster → Cluster) : (s.modClusterAt l f).dieAt d = s.dieAt d := by
  unfold State.modClusterAt State.setClusterAt
  split <;> rfl

/-- The core in focus is changed where it stands. -/
theorem modCoreAt_focus (s : State) (f : Core → Core) : s.modCoreAt s.coreId f = s.modCore f := by
  rw [State.modCoreAt, State.setCoreAt, if_pos rfl, State.coreAt, if_pos rfl]
  rfl

/-! ### Clusters and contexts alone -/

/-- Nothing changes but clusters and the package's own state. -/
def SchedulerOnly (s t : State) : Prop := t = { s with cluster := t.cluster, clusters := t.clusters, pkg := t.pkg }

namespace SchedulerOnly

variable {s t u : State}

theorem refl (s : State) : SchedulerOnly s s := rfl

theorem trans (h : SchedulerOnly s t) (h' : SchedulerOnly t u) : SchedulerOnly s u := Eq.trans h' (by rw [h])

theorem ite {c : Prop} {_ : Decidable c} (h : SchedulerOnly s t) (h' : SchedulerOnly s u) :
    SchedulerOnly s (if c then t else u) := by
  split
  · exact h
  · exact h'

theorem foldl {α : Type} {g : State → α → State} (hg : ∀ t a, SchedulerOnly t (g t a)) (l : List α) (s : State) :
    SchedulerOnly s (l.foldl g s) := by
  induction l generalizing s with
  | nil => exact refl s
  | cons a l ih => exact (hg s a).trans (ih _)

theorem eq (h : SchedulerOnly s t) : t = { s with cluster := t.cluster, clusters := t.clusters, pkg := t.pkg } := h
theorem mem_eq (h : SchedulerOnly s t) : t.mem = s.mem := by rw [h.eq]
theorem core_eq (h : SchedulerOnly s t) : t.core = s.core := by rw [h.eq]
theorem coreAt_eq (h : SchedulerOnly s t) (k : Nat) : t.coreAt k = s.coreAt k := by rw [h.eq]; rfl
theorem dieAt_eq (h : SchedulerOnly s t) (d : Nat) : t.dieAt d = s.dieAt d := by rw [h.eq]; rfl

theorem modPkg (f : Pkg → Pkg) (s : State) : SchedulerOnly s (s.modPkg f) := rfl

theorem modCluster (f : Cluster → Cluster) (s : State) : SchedulerOnly s (s.modCluster f) := rfl

theorem modClusterAt (l : Nat) (f : Cluster → Cluster) (s : State) : SchedulerOnly s (s.modClusterAt l f) := by
  unfold State.modClusterAt State.setClusterAt
  split <;> rfl

theorem refreshHome (l i : Nat) (s : State) : SchedulerOnly s (refreshHome l i s) := ite (refl s) (modClusterAt ..)

theorem refreshEntries (l : Nat) (s : State) : SchedulerOnly s (refreshEntries l s) :=
  (modClusterAt ..).trans ((foldl (fun t (p : Nat × Entry) => refreshHome l p.1 t) _ _).trans
    (foldl (fun t (p : Nat × Entry) => ite (refreshHome p.2.home.1 p.2.home.2 t) (refl t)) _ _))

theorem placeTask (l serial : Nat) (p : TaskPlace) (s : State) : SchedulerOnly s (s.placeTask l serial p) :=
  (modClusterAt ..).trans (refreshEntries ..)

theorem cqPost (l : Nat) (m : List Word) (s : State) : SchedulerOnly s (cqPost l m s) :=
  ite (modClusterAt ..) ((modClusterAt ..).trans (modClusterAt ..))

theorem proxyCount (l i : Nat) (s : State) : SchedulerOnly s (proxyCount l i s) := by
  unfold Machine.proxyCount
  split
  · exact refl s
  · exact ite (modClusterAt ..) (refl s)

theorem entryDone (l i : Nat) (err : BitVec 8) (s : State) : SchedulerOnly s (entryDone l i err s) := by
  unfold Machine.entryDone
  split
  · exact refl s
  · exact trans (modPkg ..) (modClusterAt ..)

theorem kernelCount (l i : Nat) (s : State) : SchedulerOnly s (kernelCount l i s) := by
  unfold Machine.kernelCount
  split
  · exact refl s
  · exact ite (entryDone ..) (refl s)

theorem countLost (l i n : Nat) (s : State) : SchedulerOnly s (countLost l i n s) :=
  ite (modClusterAt ..) ((modClusterAt ..).trans (kernelCount ..))

end SchedulerOnly

/-! ### Inboxes: what a cluster's cq takes a message by -/

/-- The cq of a cluster, what waits for it, and whether the cluster stands still. -/
def Cluster.inbox (c : Cluster) : List Word × List (List Word) × Bool := (c.cq, c.cqPosts, c.frozen)

/-- Every cluster keeps its inbox, and every die is as it was. -/
structure KeepsInboxes (s t : State) : Prop where
  inbox : ∀ l, (t.clusterAt l).inbox = (s.clusterAt l).inbox
  die : ∀ d, t.dieAt d = s.dieAt d

theorem Cluster.startPump_inbox (c : Cluster) : c.startPump.inbox = c.inbox := by
  unfold Cluster.startPump
  split
  · rfl
  · split <;> rfl

theorem Cluster.refresh_inbox (c : Cluster) : c.refresh.inbox = c.inbox := Cluster.startPump_inbox _

namespace KeepsInboxes

variable {s t u : State}

theorem refl (s : State) : KeepsInboxes s s := ⟨fun _ => rfl, fun _ => rfl⟩

theorem trans (h : KeepsInboxes s t) (h' : KeepsInboxes t u) : KeepsInboxes s u :=
  ⟨fun l => (h'.inbox l).trans (h.inbox l), fun d => (h'.die d).trans (h.die d)⟩

theorem ite {c : Prop} {_ : Decidable c} (h : KeepsInboxes s t) (h' : KeepsInboxes s u) :
    KeepsInboxes s (if c then t else u) := by
  split
  · exact h
  · exact h'

theorem foldl {α : Type} {g : State → α → State} (hg : ∀ t a, KeepsInboxes t (g t a)) (l : List α) (s : State) :
    KeepsInboxes s (l.foldl g s) := by
  induction l generalizing s with
  | nil => exact refl s
  | cons a l ih => exact (hg s a).trans (ih _)

theorem modClusterAt (l : Nat) {f : Cluster → Cluster} (hf : ∀ c, (f c).inbox = c.inbox) (s : State) :
    KeepsInboxes s (s.modClusterAt l f) where
  inbox := fun k => by
    rw [clusterAt_modClusterAt]
    split
    · exact hf _
    · rfl
  die := (dieAt_modClusterAt s l · f)

theorem modCoreAt (c : Nat) (f : Core → Core) (s : State) : KeepsInboxes s (s.modCoreAt c f) :=
  ⟨fun l => congrArg Cluster.inbox (clusterAt_modCoreAt s c l f), (dieAt_modCoreAt s c · f)⟩

theorem refreshHome (l i : Nat) (s : State) : KeepsInboxes s (refreshHome l i s) :=
  ite (refl s) (modClusterAt l (fun _ => by rfl) s)

theorem refreshEntries (l : Nat) (s : State) : KeepsInboxes s (refreshEntries l s) :=
  (modClusterAt l Cluster.refresh_inbox s).trans ((foldl (fun t (p : Nat × Entry) => refreshHome l p.1 t) _ _).trans
    (foldl (fun t (p : Nat × Entry) => ite (refreshHome p.2.home.1 p.2.home.2 t) (refl t)) _ _))

theorem placeTask (l serial : Nat) (p : TaskPlace) (s : State) : KeepsInboxes s (s.placeTask l serial p) :=
  (modClusterAt l (fun _ => by rfl) s).trans (refreshEntries l _)

theorem proxyCount (l i : Nat) (s : State) : KeepsInboxes s (proxyCount l i s) := by
  unfold Machine.proxyCount
  split
  · exact refl s
  · exact ite (modClusterAt l (fun c => by split <;> rfl) s) (refl s)

theorem entryDone (l i : Nat) (err : BitVec 8) (s : State) : KeepsInboxes s (entryDone l i err s) := by
  unfold Machine.entryDone
  split
  · exact refl s
  · next e _ =>
    have hcontext : KeepsInboxes s (s.modContext (entryCtx l e) (Context.finish e.num err)) := ⟨fun _ => rfl, fun _ => rfl⟩
    refine hcontext.trans (modClusterAt l (fun c => (Cluster.refresh_inbox _).trans ?_) _)
    split <;> rfl

theorem kernelCount (l i : Nat) (s : State) : KeepsInboxes s (kernelCount l i s) := by
  unfold Machine.kernelCount
  split
  · exact refl s
  · exact ite (entryDone ..) (refl s)

theorem countLost (l i n : Nat) (s : State) : KeepsInboxes s (countLost l i n s) :=
  ite (modClusterAt l (fun _ => by rfl) s) ((modClusterAt l (fun _ => by rfl) s).trans (kernelCount ..))

end KeepsInboxes

/-! ### The end of shares and the posts of events leave every task its place -/

/-- What a core runs. -/
def Core.life (c : Core) : CoreRun × Task := (c.run, c.task)

/-- The groups and the entries of a cluster. -/
def Cluster.board (c : Cluster) : List PlacedGroup × List (Nat × Entry) := (c.groups, c.entries)

/-- Every core runs what it ran, every scoreboard and every inbox is as it was. -/
structure KeepsTasks (s t : State) : Prop extends KeepsInboxes s t where
  core : ∀ k, (t.coreAt k).life = (s.coreAt k).life
  board : ∀ l, (t.clusterAt l).board = (s.clusterAt l).board

namespace KeepsTasks

variable {s t u : State}

theorem refl (s : State) : KeepsTasks s s := ⟨.refl s, fun _ => rfl, fun _ => rfl⟩

theorem trans (h : KeepsTasks s t) (h' : KeepsTasks t u) : KeepsTasks s u :=
  ⟨h.toKeepsInboxes.trans h'.toKeepsInboxes, fun k => (h'.core k).trans (h.core k), fun l => (h'.board l).trans (h.board l)⟩

theorem ite {c : Prop} {_ : Decidable c} (h : KeepsTasks s t) (h' : KeepsTasks s u) : KeepsTasks s (if c then t else u) := by
  split
  · exact h
  · exact h'

theorem foldl {α : Type} {g : State → α → State} (hg : ∀ t a, KeepsTasks t (g t a)) (l : List α) (s : State) :
    KeepsTasks s (l.foldl g s) := by
  induction l generalizing s with
  | nil => exact refl s
  | cons a l ih => exact (hg s a).trans (ih _)

theorem focus (c : Nat) (s : State) : KeepsTasks s (s.focus c) :=
  ⟨⟨fun l => congrArg Cluster.inbox (clusterAt_focus s c l), dieAt_focus s c⟩,
    fun k => congrArg Core.life (coreAt_focus s c k), fun l => congrArg Cluster.board (clusterAt_focus s c l)⟩

theorem modCoreAt (c : Nat) {f : Core → Core} (hf : ∀ k, (f k).life = k.life) (s : State) :
    KeepsTasks s (s.modCoreAt c f) where
  toKeepsInboxes := .modCoreAt c f s
  core := fun k => by
    rw [coreAt_modCoreAt]
    split
    · exact hf _
    · rfl
  board := fun l => congrArg Cluster.board (clusterAt_modCoreAt s c l f)

theorem modCore {f : Core → Core} (hf : ∀ k, (f k).life = k.life) (s : State) : KeepsTasks s (s.modCore f) :=
  modCoreAt_focus s f ▸ modCoreAt s.coreId hf s

theorem modClusterAt (l : Nat) {f : Cluster → Cluster} (hi : ∀ c, (f c).inbox = c.inbox) (hb : ∀ c, (f c).board = c.board)
    (s : State) : KeepsTasks s (s.modClusterAt l f) where
  toKeepsInboxes := .modClusterAt l hi s
  core := fun k => congrArg Core.life (coreAt_modClusterAt s l k f)
  board := fun k => by
    rw [clusterAt_modClusterAt]
    split
    · exact hb _
    · rfl

theorem modCluster {f : Cluster → Cluster} (hi : ∀ c, (f c).inbox = c.inbox) (hb : ∀ c, (f c).board = c.board)
    (s : State) : KeepsTasks s (s.modCluster f) :=
  modClusterAt_focus (s := s) rfl f ▸ modClusterAt s.clusterId hi hb s

theorem writeMem (key n v : Nat) (s : State) : KeepsTasks s (writeMem key n v s) := by
  rw [writeMem_eq]
  exact ⟨⟨fun _ => rfl, fun _ => rfl⟩, fun _ => rfl, fun _ => rfl⟩

theorem tickUp (s : State) : KeepsTasks s s.tickUp := ⟨⟨fun _ => rfl, fun _ => rfl⟩, fun _ => rfl, fun _ => rfl⟩

theorem endWatch (entry : Nat) (s : State) : KeepsTasks s (endWatch entry s) :=
  ⟨⟨fun _ => rfl, fun _ => rfl⟩, fun _ => rfl, fun _ => rfl⟩

theorem postSaved (l : Nat) (g : GangTask) (ev : Word) (s : State) : KeepsTasks s (postSaved l g ev s) := by
  have hwait : KeepsTasks s (s.modClusterAt l (fun c => { c with eqPosts := c.eqPosts ++ [(g.serial, ev)] })) :=
    modClusterAt l (fun _ => by rfl) (fun _ => by rfl) s
  unfold Machine.postSaved
  split
  · exact hwait
  · split
    · exact hwait
    · dsimp only
      split
      · exact ite ((writeMem ..).trans (writeMem ..)) hwait
      · exact hwait

theorem postTask (serial : Nat) (ev : Word) (s : State) : KeepsTasks s (postTask serial ev s) := by
  unfold Machine.postTask
  split
  · exact refl s
  · split
    · exact postSaved ..
    · split
      · exact modCoreAt _ (fun _ => by rfl) s
      · exact postSaved ..
      · exact refl s

theorem withdrawSaved (l : Nat) (g : GangTask) (slot : Nat) (s : State) : KeepsTasks s (withdrawSaved l g slot s) := by
  unfold Machine.withdrawSaved
  split
  · exact refl s
  · exact ite (writeMem ..) (refl s)

theorem tellGang (l : Nat) (g : PlacedGroup) (slot : Nat) (code : BitVec 8) (s : State) :
    KeepsTasks s (tellGang l g slot code s) :=
  foldl (fun _ _ => (postTask ..).trans (ite (modCoreAt _ (fun c => by dsimp only; split <;> rfl) _) (withdrawSaved ..))) _ s

theorem modConv (f : Conv → Conv) (s : State) : KeepsTasks s (s.modConv f) := modCore (fun _ => by rfl) s
theorem modGang (f : Gang → Gang) (s : State) : KeepsTasks s (s.modGang f) := modCore (fun _ => by rfl) s
theorem modQ (f : Queues → Queues) (s : State) : KeepsTasks s (s.modQ f) := modCore (fun _ => by rfl) s
theorem modMat (f : Matrix → Matrix) (s : State) : KeepsTasks s (s.modMat f) := modCore (fun _ => by rfl) s

theorem product2 (n : Nat) (z : BitVec 26) (rowp colp : Word) (kc : Nat) (x y : Nat → Nat → FVal) (s : State) :
    KeepsTasks s (product2 n z rowp colp kc x y s) :=
  foldl (fun t _ => foldl (fun _ _ => (modMat _ _).trans (modConv _ _)) _ t) _ s

theorem failAtIssuer (h : Share) (s : State) : KeepsTasks s (failAtIssuer h s) :=
  modCoreAt _ (fun c => by split <;> rfl) s

theorem performShare (h : Share) (s : State) : KeepsTasks s (performShare h s).1 := by
  unfold Machine.performShare
  split
  · exact ((modConv _ s).trans (tickUp _)).trans (product2 ..)
  · exact (((modGang _ s).trans (failAtIssuer ..)).trans (postTask ..)).trans (modQ ..)

theorem endShare (h : Share) (s : State) : KeepsTasks s (endShare h s) := by
  have hperformed : KeepsTasks s (if h.pos < 8 then Machine.performShare h s else (s, [])).1 := by
    split
    · exact performShare h s
    · exact refl s
  unfold Machine.endShare
  exact hperformed.trans (modGang ..)

theorem disarmPlane (s : State) : KeepsTasks s (disarmPlane s) := ite (refl s) (modConv ..)

theorem arrive (bar : BitVec 5) (s : State) : KeepsTasks s (arrive bar s) := by
  unfold Machine.arrive
  exact modCluster (fun _ => by rfl) (fun _ => by rfl) s

theorem completeShare (h : Share) (s : State) : KeepsTasks s (completeShare h s) := by
  have hdisarmed : KeepsTasks s (Machine.disarmPlane (s.modGang (fun g => { g with shares := g.shares.erase h }))) :=
    (modGang ..).trans (disarmPlane _)
  unfold Machine.completeShare
  split
  · exact hdisarmed.trans (arrive ..)
  · exact hdisarmed

theorem handOverShares (task : Nat) (l : List Share) (s : State) : KeepsTasks s (s.modCluster (handOverShares task l)) :=
  modCluster (fun _ => by rfl) (fun _ => by rfl) s

theorem endShares (s : State) : KeepsTasks s (endShares s) :=
  (foldl (fun t h => endShare h t) _ s).trans ((foldl (fun t h => completeShare h t) _ _).trans (handOverShares ..))

theorem leaveShares (s : State) : KeepsTasks s (leaveShares s) :=
  (foldl (fun t n => (focus n t).trans (foldl (fun u h => endShare h u) _ _)) _ s).trans ((focus _ _).trans (endShares _))

end KeepsTasks

end Sys2Proof.Machine

/-! ## Saving a context (08_core_steering.md R207) -/

namespace Sys2Proof.Machine

/-! ### Stores of a list of words -/

namespace Stored

variable {key n k m : Nat} {s t u : State}

theorem ite {c : Prop} {_ : Decidable c} (h : Stored key n s t) (h' : Stored key n s u) :
    Stored key n s (if c then t else u) := by
  split
  · exact h
  · exact h'

theorem writeMem (v : Nat) (s : State) (hlo : key ≤ k) (hhi : k + m ≤ key + n) : Stored key n s (writeMem k m v s) where
  state := by rw [writeMem_eq]
  bytes := fun a ha => readByte_writeMem_of_not_inside _ _ _ _ _ fun hi => ha ⟨by omega, by omega⟩

theorem writeByte (v : Byte) (s : State) (hlo : key ≤ k) (hhi : k < key + n) : Stored key n s (writeByte k v s) where
  state := rfl
  bytes := fun a ha => spGet_put_ne _ _ _ fun he => ha ⟨by omega, by omega⟩

theorem clearMem (s : State) (hlo : key ≤ k) (hhi : k + m ≤ key + n) : Stored key n s (clearMem k m s) where
  state := by rw [clearMem_eq]
  bytes := fun a ha => by rw [readByte_clearMem, if_neg fun hi => ha ⟨by omega, by omega⟩]

theorem writeWords (l : List Word) (s : State) (hlo : key ≤ k) (hhi : k + 8 * l.length ≤ key + n) :
    Stored key n s (writeWords k l s) := by
  induction l generalizing k s with
  | nil => exact refl s
  | cons w l ih =>
    rw [List.length_cons] at hhi
    exact (writeMem _ s hlo (by omega)).trans (ih _ (by omega) (by omega))

/-- Who moves is no part of what is stored. -/
theorem withAgent {a : Agent} (h : Stored key n { s with agent := a } t) : Stored key n s { t with agent := s.agent } where
  state := by rw [h.state]
  bytes := h.bytes

theorem readMem64_eq (h : Stored key n s t) (hout : k + 8 ≤ key ∨ key + n ≤ k) : readMem64 t k = readMem64 s k := by
  rw [readMem64, readMem64, h.readMem_eq hout]

end Stored

theorem readMem64_mem {s t : State} (h : t.mem = s.mem) (k : Nat) : readMem64 t k = readMem64 s k := by
  rw [readMem64, readMem64, readMem_congr _ _ fun a _ => readByte_mem h a]

theorem readMem64_withAgent (a : Agent) (s : State) (k : Nat) : readMem64 { s with agent := a } k = readMem64 s k :=
  readMem64_mem rfl k

theorem readMem64_writeMem (key : Nat) (v : Word) (s : State) : readMem64 (writeMem key 8 v.toNat s) key = v := by
  rw [readMem64, readMem_writeMem]
  exact BitVec.eq_of_toNat_eq (by rw [BitVec.toNat_ofNat]; omega)

theorem readMem64_writeWords {l : List Word} {i : Nat} {v : Word} (h : l[i]? = some v) (key : Nat) (s : State) :
    readMem64 (writeWords key l s) (key + 8 * i) = v := by
  induction l generalizing key i s with
  | nil => cases h
  | cons w l ih =>
    cases i with
    | zero =>
      obtain rfl := Option.some.inj h
      exact (Stored.writeWords (n := 8 * l.length) l _ le_rfl le_rfl |>.readMem64_eq (.inl le_rfl)).trans
        (readMem64_writeMem key w s)
    | succ i =>
      rw [show key + 8 * (i + 1) = key + 8 + 8 * i by omega]
      exact ih h (key + 8) _

/-- A word for each number of a list, at its number's place. -/
def writeEach (key : Nat) (l : List Nat) (v : Nat → Word) (s : State) : State :=
  l.foldl (fun u n => writeMem (key + 8 * n) 8 (v n).toNat u) s

theorem writeEach_cons (key n : Nat) (l : List Nat) (v : Nat → Word) (s : State) :
    writeEach key (n :: l) v s = writeEach key l v (writeMem (key + 8 * n) 8 (v n).toNat s) := by
  rw [writeEach, List.foldl_cons, writeEach]

theorem readMem64_writeEach_of_not_mem {l : List Nat} {n : Nat} (hn : n ∉ l) (key : Nat) (v : Nat → Word) (s : State) :
    readMem64 (writeEach key l v s) (key + 8 * n) = readMem64 s (key + 8 * n) := by
  induction l generalizing s with
  | nil => rfl
  | cons m l ih =>
    rw [List.mem_cons, not_or] at hn
    obtain ⟨hne, hn⟩ := hn
    have hstored : Stored (key + 8 * m) 8 s (writeMem (key + 8 * m) 8 (v m).toNat s) := .writeMem _ s le_rfl le_rfl
    rw [writeEach_cons, ih hn, hstored.readMem64_eq (by omega)]

theorem readMem64_writeEach {l : List Nat} (hl : l.Nodup) {n : Nat} (hn : n ∈ l) (key : Nat) (v : Nat → Word) (s : State) :
    readMem64 (writeEach key l v s) (key + 8 * n) = v n := by
  induction l generalizing s with
  | nil => cases hn
  | cons m l ih =>
    obtain ⟨hm, hl⟩ := List.nodup_cons.mp hl
    obtain rfl | hn := List.mem_cons.mp hn
    · rw [writeEach_cons, readMem64_writeEach_of_not_mem hm, readMem64_writeMem]
    · rw [writeEach_cons, ih hl hn]

/-! ### The parts of the save slot -/

section Parts

variable (key : Nat) {c : Core} (s : State)

theorem bandState_of_ge (pwr : BitVec 16) {b : Nat} (hb : 8 ≤ b) : bandState pwr b = 0 := by
  have hpow : 4 ^ 8 ≤ 4 ^ b := Nat.pow_le_pow_right (by decide) hb
  rw [bandState, Nat.div_eq_of_lt (by omega)]

theorem lt_of_mem_dropOffBands {pwr : BitVec 16} {plane : Sp Cell32} {p : Nat × Cell32} (h : p ∈ dropOffBands pwr plane) :
    p.1 < 32768 := by
  have hon := (List.mem_filter.mp h).2
  by_contra hge
  rw [bandState_of_ge pwr (by omega)] at hon
  cases hon

theorem savePlane_stored (c : Conv) : Stored key 0x20000 s (savePlane key c s) := by
  refine (Stored.foldl (fun t b hb => ?_) s).trans (Stored.foldl (fun t p hp => ?_) _)
  · have hlt := List.mem_range.mp (List.mem_filter.mp hb).1
    exact .clearMem t (by omega) (by omega)
  · have hlt := lt_of_mem_dropOffBands hp
    exact .writeMem _ t (by omega) (by omega)

theorem saveSlabs_stored {m : Matrix} (h : ∀ p ∈ m.acc, p.1 < 16384) :
    Stored (key + 0x20000) 0x10000 s (saveSlabs key m s) := by
  refine .ite ((Stored.clearMem s le_rfl le_rfl).trans (.foldl (fun t p hp => ?_) _)) (.refl s)
  have hlt := h p hp
  exact .writeMem _ t (by omega) (by omega)

theorem saveMasks_stored {c : Conv} (h : ∀ p ∈ c.masks, p.1 < 65536) :
    Stored (key + 0x30000) 0x2000 s (saveMasks key c s) := by
  refine ((Stored.clearMem s le_rfl le_rfl).trans (.foldl (fun t i hi => ?_) _)).trans (.foldl (fun t p hp => ?_) _)
  · have hlt := List.mem_range.mp hi
    exact .writeByte _ t (by omega) (by omega)
  · have hlt := h p hp
    exact .ite (.writeByte _ t (by omega) (by omega)) (.refl t)

theorem saveQueues_stored (hb : c.q.bq.length ≤ 16) (hd : c.q.dq.length ≤ 32) (hr : c.q.rq.length ≤ 32)
    (he : c.q.eq.length ≤ 16) : Stored (key + 0x32200) 0x445 s (saveQueues key c s) := by
  refine Stored.trans ?_ (.writeMem _ _ (by omega) (by omega))
  refine Stored.trans ?_ (.writeWords _ _ (by omega) (by omega))
  refine Stored.trans ?_ (.writeWords _ _ (by omega) (by omega))
  refine Stored.trans ?_ (.writeWords _ _ (by omega) (by omega))
  exact .writeWords _ s (by omega) (by rw [List.length_map]; omega)

end Parts

/-! ### The whole slot -/

/-- The sizes of the machine: those of the masks, of the slabs and of the queues (R181; 03_plane.md R65; 10 R253). -/
structure Core.Sized (c : Core) : Prop where
  masks : ∀ p ∈ c.conv.masks, p.1 < 65536
  slabs : ∀ p ∈ c.mat.acc, p.1 < 16384
  bq : c.q.bq.length ≤ 16
  dq : c.q.dq.length ≤ 32
  rq : c.q.rq.length ≤ 32
  eq : c.q.eq.length ≤ 16

/-- PC and the general registers, as they are saved. -/
def Steer.savedWords (c : Steer) : List Word := c.pc.setWidth 64 :: (List.range 31).map (fun i => spGet 0 c.regs (i + 1))

/-- The convoy scalars, as they are saved. -/
def Conv.savedScalars (c : Conv) : List Word := (List.range 8).map (spGet 0 c.k)

/-- The slot up to the queues. -/
def savedArrays (key : Nat) (c : Core) (s : State) : State :=
  saveQueues key c (writeWords (key + 0x32000) ((List.range 64).map (spGet 0 c.conv.table))
    (saveMasks key c.conv (saveSlabs key c.mat (savePlane key c.conv s))))

/-- The slot up to PC and the general registers. -/
def savedThroughRegs (key : Nat) (c : Core) (s : State) : State :=
  writeWords (key + 0x32500) c.steer.savedWords (savedArrays key c s)

/-- The slot up to the convoy scalars. -/
def savedThroughScalars (key : Nat) (c : Core) (s : State) : State :=
  writeWords (key + 0x32600) c.conv.savedScalars (savedThroughRegs key c s)

theorem saveContext_eq (s : State) : saveContext s = { writeEach (slotKey s.coreId + 0x32680) contextCsrs
    (fun n => csrRead n { s with agent := .steer })
    (savedThroughScalars (slotKey s.coreId) s.core { s with agent := .steer }) with agent := s.agent } := rfl

section Slot

variable (key : Nat) {c : Core} (v : Nat → Word) (s : State)

theorem savedWords_stored : Stored (key + 0x32500) 0x100 (savedArrays key c s) (savedThroughRegs key c s) :=
  .writeWords _ _ le_rfl (by rw [Steer.savedWords, List.length_cons, List.length_map, List.length_range])

theorem savedScalars_stored : Stored (key + 0x32600) 0x40 (savedThroughRegs key c s) (savedThroughScalars key c s) :=
  .writeWords _ _ le_rfl (by rw [Conv.savedScalars, List.length_map, List.length_range])

theorem contextCsrs_lt {n : Nat} (h : n ∈ contextCsrs) : n < 0x80 :=
  (by decide : ∀ n ∈ contextCsrs, n < 0x80) n h

theorem writeEach_contextCsrs_stored : Stored key 0x400 s (writeEach key contextCsrs v s) :=
  .foldl (fun t n hn => .writeMem _ t (by omega) (by have := contextCsrs_lt hn; omega)) s

theorem savedArrays_stored (h : c.Sized) : Stored key 0x40000 s (savedArrays key c s) := by
  have hplane := (savePlane_stored key s c.conv).mono (key' := key) (n' := 0x40000) (by omega) (by omega)
  have hslabs := (saveSlabs_stored key (savePlane key c.conv s) h.slabs).mono (key' := key) (n' := 0x40000)
    (by omega) (by omega)
  have hmasks := (saveMasks_stored key (saveSlabs key c.mat (savePlane key c.conv s)) h.masks).mono (key' := key)
    (n' := 0x40000) (by omega) (by omega)
  have htable := Stored.writeWords (key := key) (n := 0x40000) (k := key + 0x32000)
    ((List.range 64).map (spGet 0 c.conv.table)) (saveMasks key c.conv (saveSlabs key c.mat (savePlane key c.conv s)))
    (by omega) (by rw [List.length_map, List.length_range]; omega)
  exact (((hplane.trans hslabs).trans hmasks).trans htable).trans
    ((saveQueues_stored key _ h.bq h.dq h.rq h.eq).mono (by omega) (by omega))

end Slot

section Saved

variable {s : State}

theorem saveContext_stored (h : s.core.Sized) : Stored (slotKey s.coreId) 0x40000 s (saveContext s) := by
  rw [saveContext_eq]
  have hregs := (savedWords_stored (slotKey s.coreId) (c := s.core) { s with agent := .steer }).mono
    (key' := slotKey s.coreId) (n' := 0x40000) (by omega) (by omega)
  have hscalars := (savedScalars_stored (slotKey s.coreId) (c := s.core) { s with agent := .steer }).mono
    (key' := slotKey s.coreId) (n' := 0x40000) (by omega) (by omega)
  exact ((((savedArrays_stored (slotKey s.coreId) { s with agent := .steer } h).trans hregs).trans hscalars).trans
    ((writeEach_contextCsrs_stored _ _ _).mono (by omega) (by omega))).withAgent

theorem readMem64_saveContext_csr {n : Nat} (hn : n ∈ contextCsrs) :
    readMem64 (saveContext s) (slotKey s.coreId + 0x32680 + 8 * n) = csrRead n { s with agent := .steer } := by
  rw [saveContext_eq, readMem64_withAgent]
  exact readMem64_writeEach (by decide) hn _ _ _

theorem readMem64_saveContext_of_lt {k : Nat} (hk : k + 8 ≤ slotKey s.coreId + 0x32680) : readMem64 (saveContext s) k
    = readMem64 (savedThroughScalars (slotKey s.coreId) s.core { s with agent := .steer }) k := by
  rw [saveContext_eq, readMem64_withAgent]
  exact (writeEach_contextCsrs_stored _ _ _).readMem64_eq (.inl hk)

theorem readMem64_saveContext_scalar {k : Nat} (hk : k < 8) :
    readMem64 (saveContext s) (slotKey s.coreId + 0x32600 + 8 * k) = readK k s := by
  rw [readMem64_saveContext_of_lt (by omega)]
  exact readMem64_writeWords (by rw [Conv.savedScalars, List.getElem?_map, List.getElem?_range hk]; rfl) _ _

theorem readMem64_saveContext_word {i : Nat} {v : Word} (h : s.core.steer.savedWords[i]? = some v) :
    readMem64 (saveContext s) (slotKey s.coreId + 0x32500 + 8 * i) = v := by
  have hi : i < 32 := by
    have hlt := (List.getElem?_eq_some_iff.mp h).1
    rwa [Steer.savedWords, List.length_cons, List.length_map, List.length_range] at hlt
  rw [readMem64_saveContext_of_lt (by omega), (savedScalars_stored _ _).readMem64_eq (.inl (by omega))]
  exact readMem64_writeWords h _ _

theorem readMem64_saveContext_pc :
    readMem64 (saveContext s) (slotKey s.coreId + 0x32500) = s.core.steer.pc.setWidth 64 := by
  have hword := readMem64_saveContext_word (s := s) (i := 0) rfl
  rwa [Nat.mul_zero, Nat.add_zero] at hword

theorem readMem64_saveContext_reg {r : Nat} (hr : 1 ≤ r) (hr' : r ≤ 31) :
    readMem64 (saveContext s) (slotKey s.coreId + 0x32500 + 8 * r) = spGet 0 s.core.steer.regs r := by
  obtain ⟨i, rfl⟩ := Nat.exists_eq_add_of_le' hr
  exact readMem64_saveContext_word (by
    rw [Steer.savedWords, List.getElem?_cons_succ, List.getElem?_map, List.getElem?_range (by omega)]; rfl)

/-- After the image is written the core keeps nothing of the task, and the stream controller notes the place. -/
theorem execContextSave_of_ready (h : saveReady s = true) : ∃ t, execContextSave s = .next t
    ∧ SchedulerOnly ((saveContext s).modCore Core.afterSave) t :=
  ⟨_, if_neg (by rw [h]; decide), ((SchedulerOnly.modCluster _ _).trans (.placeTask _ _ _ _)).trans (.modPkg _ _)⟩

end Saved

end Sys2Proof.Machine

/-! ## Restoring a context (08_core_steering.md R208) -/

namespace Sys2Proof.Machine

theorem SchedulerOnly.withAgent {s t : State} {a : Agent} (h : SchedulerOnly s t) :
    SchedulerOnly s { { t with agent := a } with agent := s.agent } := by
  show _ = _
  rw [h.eq]

/-- A map filled from a key upward holds at each place what was put there. -/
theorem spGet_putRange {α : Type} [DecidableEq α] (d : α) (c : Nat) (f : Nat → α) {n i : Nat} (hi : i < n) :
    spGet d ((List.range n).foldl (fun m j => spPut d m (j + c) (f j)) []) (i + c) = f i := by
  induction n with
  | zero => omega
  | succ n ih =>
    rw [List.range_succ, List.foldl_append, List.foldl_cons, List.foldl_nil]
    obtain hlt | rfl := Nat.lt_succ_iff_lt_or_eq.mp hi
    · rw [spGet_put_ne d _ _ (by omega), ih hlt]
    · exact spGet_put_self d _ _ _

theorem spGet_spOf {α : Type} [DecidableEq α] (d : α) (f : Nat → α) {n i : Nat} (hi : i < n) : spGet d (spOf d n f) i = f i :=
  spGet_putRange d 0 f hi

section Restored

variable {s : State}

theorem reportRestore_schedulerOnly (key : Nat) (s : State) : SchedulerOnly s (reportRestore key s) := by
  unfold reportRestore
  split
  · exact .refl s
  · exact .cqPost ..

theorem loadSteer_reg (s : State) (key : Nat) (kept : GangTask) (old : Steer) {r : Nat} (hr : 1 ≤ r) (hr' : r ≤ 31) :
    spGet 0 (loadSteer s key kept old).regs r = readMem64 s (key + 0x32500 + 8 * r) := by
  obtain ⟨i, rfl⟩ := Nat.exists_eq_add_of_le' hr
  have haddress : key + 0x32508 + 8 * i = key + 0x32500 + 8 * (i + 1) := by omega
  rw [loadSteer, ← haddress]
  dsimp only
  rw [spGet_putRange 0 1 _ (by omega)]

theorem loadConv_scalar (s : State) (key : Nat) (kept : GangTask) (old : Conv) {k : Nat} (hk : k < 8) :
    spGet 0 (loadConv s key kept old).k k = readMem64 s (key + 0x32600 + 8 * k) := by
  rw [loadConv]
  dsimp only
  rw [spGet_spOf 0 _ hk]

/-- Without a recorded trap the core resumes with the context loaded. -/
theorem execContextRestore_of_restoring (hr : s.core.run = .restoring)
    (ht : (readMem64 s (slotKey s.coreId + 0x32680 + 8 * 0x028)).getLsbD 4 = false) :
    ∃ posts t, execContextRestore s = .next t ∧ SchedulerOnly (loadContext (taskHandle s) (keptTask s) posts s) t := by
  let posts := (s.cluster.eqPosts.filter (fun p => p.1 == s.core.task.serial)).map (·.2)
  let loaded := loadContext (taskHandle s) (keptTask s) posts s
  let taken := loaded.modCluster (fun c => { c with eqPosts := c.eqPosts.filter (fun p => p.1 != s.core.task.serial) })
  have honly : SchedulerOnly loaded (reportRestore (slotKey s.coreId) taken) :=
    (SchedulerOnly.modCluster _ _).trans (reportRestore_schedulerOnly _ _)
  have htpend : (reportRestore (slotKey s.coreId) taken).core.steer.tpend = false := by
    rw [honly.core_eq]
    exact ht
  have hresume : resumeRestored { reportRestore (slotKey s.coreId) taken with agent := .steer }
      = { reportRestore (slotKey s.coreId) taken with agent := .steer } := if_pos htpend
  refine ⟨posts, _, (if_neg (not_not.mpr hr)).trans (congrArg (fun u : State => (.next { u with agent := s.agent } : Result)) hresume),
    honly.withAgent⟩

end Restored

end Sys2Proof.Machine

/-! ## Reports of tasks and the end of an entry (14_cluster.md R303, R305) -/

namespace Sys2Proof.Machine

theorem clusterAt_self (s : State) : s.clusterAt s.clusterId = s.cluster := if_pos rfl

theorem modClusterAt_pkg (s : State) (l : Nat) (f : Cluster → Cluster) : (s.modClusterAt l f).pkg = s.pkg := by
  unfold State.modClusterAt State.setClusterAt
  split <;> rfl

/-! ### Entries by index -/

namespace Cluster

variable (c : Cluster) (i : Nat)

/-- The indices in use. -/
def indices (c : Cluster) : List Nat := c.entries.map (·.1)

theorem entry?_eq_none : c.entry? i = none ↔ i ∉ c.indices := by
  rw [entry?, Option.map_eq_none_iff, List.find?_eq_none, indices, List.mem_map]
  constructor
  · rintro h ⟨p, hp, rfl⟩
    exact h p hp (beq_self_eq_true p.1)
  · exact fun h p hp he => h ⟨p, hp, eq_of_beq he⟩

theorem entry?_modEntry (f : Entry → Entry) : (c.modEntry i f).entry? i = (c.entry? i).map f := by
  rw [entry?, entry?, modEntry]
  induction c.entries with
  | nil => rfl
  | cons p l ih =>
    by_cases hp : p.1 = i
    · simp only [List.map_cons, if_pos hp, List.find?_cons, beq_iff_eq.mpr hp, Option.map_some]
    · simp only [List.map_cons, if_neg hp, List.find?_cons, beq_false_of_ne hp]
      exact ih

theorem entry?_modFeed (q : Nat) (f : FeedQueue → FeedQueue) : (c.modFeed q f).entry? i = c.entry? i := rfl

theorem indices_modEntry (f : Entry → Entry) : (c.modEntry i f).indices = c.indices := by
  rw [indices, indices, modEntry, List.map_map]
  refine List.map_congr_left fun p _ => ?_
  show (if p.1 = i then (p.1, f p.2) else p).1 = p.1
  split <;> rfl

theorem indices_refresh : c.refresh.indices = c.indices := by
  have hstates : indices { c with entries := c.entries.map (fun p => (p.1, { p.2 with st := c.entryState p.1 p.2 })) } = c.indices :=
    List.map_map
  unfold refresh startPump
  split
  · exact hstates
  · split
    · rw [indices_modEntry]
      exact hstates
    · exact hstates

theorem not_mem_indices_freeEntry : i ∉ (c.freeEntry i).indices := by
  rintro h
  obtain ⟨p, hp, rfl⟩ := List.mem_map.mp h
  exact of_decide_eq_true (List.mem_filter.mp hp).2 rfl

end Cluster

/-! ### The entry is done -/

section Done

variable {s : State} {l i : Nat} {e : Entry}

/-- A kernel entry that is done is freed. -/
theorem entryDone_entry? (h : (s.clusterAt l).entry? i = some e) (hk : e.kind = .kernel) (err : BitVec 8) :
    ((entryDone l i err s).clusterAt l).entry? i = none := by
  simp only [entryDone, h, hk, clusterAt_modClusterAt, if_true]
  rw [Cluster.entry?_eq_none, Cluster.indices_refresh]
  exact Cluster.not_mem_indices_freeEntry _ _

/-- Its context records it. -/
theorem entryDone_context (h : (s.clusterAt l).entry? i = some e) (err : BitVec 8) :
    (entryDone l i err s).context (entryCtx l e) = (s.context (entryCtx l e)).finish e.num err := by
  simp only [entryDone, h]
  rw [State.context, modClusterAt_pkg, ← State.context, State.context_modContext, if_pos rfl]

theorem kernelCount_of_ne (h : (s.clusterAt l).entry? i = some e) (hn : e.ended + e.abandoned ≠ e.block.total) :
    kernelCount l i s = s := by
  simp only [kernelCount, h, if_neg hn]

theorem kernelCount_of_eq (h : (s.clusterAt l).entry? i = some e) (hn : e.ended + e.abandoned = e.block.total) :
    kernelCount l i s = entryDone l i (if e.abandoned ≠ 0 then 1 else if e.aborted then 2 else 0) s := by
  simp only [kernelCount, h, if_pos hn]

end Done

/-! ### A report is counted -/

/-- A report's task is counted in its entry. -/
def countReport (r : Report) (e : Entry) : Entry := { e with ended := e.ended + 1, aborted := e.aborted || r.aborted }

/-- The oldest report is taken, and its task counted. -/
def takeReport (r : Report) (l : List Report) (e : Entry) (c : Cluster) : Cluster :=
  (if e.block.feed then feedReport r.entry e r.task { c with reports := l } else { c with reports := l }).modEntry r.entry
    (countReport r)

theorem entry?_feedReport {c : Cluster} {i : Nat} {e : Entry} (h : c.entry? i = some e) (task : Nat) :
    ∃ fed, (feedReport i e task c).entry? i = some { e with fedEnded := fed } :=
  ⟨_, by rw [feedReport, Cluster.entry?_modFeed, Cluster.entry?_modEntry, h]; rfl⟩

theorem entry?_takeReport {c : Cluster} {r : Report} {e : Entry} (h : c.entry? r.entry = some e) (l : List Report) :
    ∃ fed, (takeReport r l e c).entry? r.entry = some (countReport r { e with fedEnded := fed }) := by
  unfold takeReport
  rw [Cluster.entry?_modEntry]
  split
  · obtain ⟨fed, hfed⟩ := entry?_feedReport (c := { c with reports := l }) h r.task
    exact ⟨fed, congrArg (Option.map (countReport r)) hfed⟩
  · exact ⟨e.fedEnded, congrArg (Option.map (countReport r)) h⟩

theorem execEndReport_of_cons {s : State} {r : Report} {l : List Report} {e : Entry} (hr : s.cluster.reports = r :: l)
    (h : s.cluster.entry? r.entry = some e) :
    execEndReport s = .next (kernelCount s.clusterId r.entry (s.modCluster (takeReport r l e))) := by
  have hentry : (s.modCluster (fun c => { c with reports := l })).cluster.entry? r.entry = some e := h
  simp only [execEndReport, hr, hentry]
  unfold takeReport
  split <;> rfl

end Sys2Proof.Machine

/-! ## A task that is abandoned (14_cluster.md R293, R306) -/

namespace Sys2Proof.Machine

section Kept

variable {s t : State}

theorem KeepsInboxes.frozenAt (h : KeepsInboxes s t) (l : Nat) : t.frozenAt l = s.frozenAt l := by
  have hfrozen : (t.clusterAt l).frozen = (s.clusterAt l).frozen := congrArg (·.2.2) (h.inbox l)
  rw [State.frozenAt, State.frozenAt, hfrozen, h.die]

theorem KeepsInboxes.cq (h : KeepsInboxes s t) (l : Nat) : (t.clusterAt l).cq = (s.clusterAt l).cq := congrArg (·.1) (h.inbox l)

theorem KeepsInboxes.cqPosts (h : KeepsInboxes s t) (l : Nat) : (t.clusterAt l).cqPosts = (s.clusterAt l).cqPosts :=
  congrArg (·.2.1) (h.inbox l)

theorem KeepsTasks.run (h : KeepsTasks s t) (k : Nat) : (t.coreAt k).run = (s.coreAt k).run := congrArg (·.1) (h.core k)

theorem KeepsTasks.task (h : KeepsTasks s t) (k : Nat) : (t.coreAt k).task = (s.coreAt k).task := congrArg (·.2) (h.core k)

theorem KeepsTasks.entry? (h : KeepsTasks s t) (l i : Nat) : (t.clusterAt l).entry? i = (s.clusterAt l).entry? i := by
  have hentries : (t.clusterAt l).entries = (s.clusterAt l).entries := congrArg (·.2) (h.board l)
  rw [Cluster.entry?, Cluster.entry?, hentries]

theorem KeepsTasks.taskOf (h : KeepsTasks s t) (k : Nat) : t.taskOf k = s.taskOf k := by
  have hgroups : (t.clusterAt (clusterOf k)).groups = (s.clusterAt (clusterOf k)).groups := congrArg (·.1) (h.board _)
  rw [State.taskOf, State.taskOf, h.task, Cluster.groupOf, Cluster.groupOf, hgroups]

/-- A message enters a cq that has room and where none waits. -/
theorem cqPost_cq {l : Nat} (hf : s.frozenAt l = false) (hp : (s.clusterAt l).cqPosts = [])
    (hroom : (s.clusterAt l).cq.length + 4 ≤ 64) (m : List Word) :
    ((cqPost l m s).clusterAt l).cq = (s.clusterAt l).cq ++ m := by
  rw [cqPost, hf, cqSettle]
  simp only [Bool.false_eq_true, if_false, clusterAt_modClusterAt, if_true, hp, List.nil_append, settleCq, if_pos hroom]

end Kept

/-- The entry that a group's task is abandoned in, at its home. -/
def abandonHome (l : Nat) (g : PlacedGroup) (s : State) : Option Entry :=
  let (hl, hi) := homeOf l g.entry (s.clusterAt l)
  if homeHolds s l g.entry then (s.clusterAt hl).entry? hi else none

/-- The message that tells a home's control core. -/
def abandonMessage (core : Nat) (d : DoubleTrap) (home : Option Entry) (wid : Word) : List Word :=
  [.ofNat 64 (0x11 * 2 ^ 56 + (BitVec.ofNat 8 d.cause.toNat).toNat * 2 ^ 48 + ((home.map (·.ctx)).getD 0) % 16 * 2 ^ 44
    + ((home.map (·.num)).getD 0) % 2 ^ 24 * 2 ^ 16 + core % 96), d.tval, d.epc.setWidth 64, wid]

/-- The home's stream controller is told, and counts the task, which a share counts too. -/
def tellHome (core : Nat) (d : DoubleTrap) (g : PlacedGroup) (home : Option Entry) (h : Nat × Nat) (wid : Word) (s : State) :
    State :=
  let t := cqPost h.1 (abandonMessage core d home wid) s
  proxyCount (clusterOf core) g.entry (if home.isNone then t else countLost h.1 h.2 1 t)

section Abandoned

variable {s : State} {core slot : Nat} {d : DoubleTrap} {g : PlacedGroup} {e : Entry}

theorem tellHome_schedulerOnly (home : Option Entry) (h : Nat × Nat) (wid : Word) (s : State) :
    SchedulerOnly s (tellHome core d g home h wid s) :=
  (SchedulerOnly.cqPost ..).trans ((SchedulerOnly.ite (.refl _) (.countLost ..)).trans (.proxyCount ..))

theorem tellHome_inbox (home : Option Entry) (h : Nat × Nat) (wid : Word) (s : State) :
    KeepsInboxes (cqPost h.1 (abandonMessage core d home wid) s) (tellHome core d g home h wid s) :=
  (KeepsInboxes.ite (.refl _) (.countLost ..)).trans (.proxyCount ..)

theorem abandonTask_of_none (h : s.taskOf core = none) : abandonTask core d s = releaseCore core s := by
  simp only [abandonTask, h]

/-- The core lets go of its task, its gang is told, and then its home. -/
theorem abandonTask_of_some (h : s.taskOf core = some (g, slot)) : ∃ t, KeepsInboxes s t ∧ (t.coreAt core).run = .clearing
    ∧ abandonTask core d s = tellHome core d g (abandonHome (clusterOf core) g s)
      (homeOf (clusterOf core) g.entry (s.clusterAt (clusterOf core))) (s.coreAt core).task.wid t := by
  let placed := endWatch (ladderWatch (s.coreAt core).task.serial)
    (s.placeTask (clusterOf core) (s.coreAt core).task.serial (.abandoned (.ofNat 8 d.cause.toNat)))
  let released := releaseCore core placed
  let told := if g.tasks.length ≤ 1 then released else tellGang (clusterOf core)
    { g with tasks := g.tasks.filter (fun u => decide (u.serial ≠ (s.coreAt core).task.serial)) } slot
    (.ofNat 8 d.cause.toNat) released
  have hplaced : KeepsInboxes s placed := (KeepsInboxes.placeTask ..).trans (KeepsTasks.endWatch ..).toKeepsInboxes
  have htold : KeepsTasks released told := .ite (.refl _) (.tellGang ..)
  refine ⟨told, (hplaced.trans (.modCoreAt ..)).trans htold.toKeepsInboxes, ?_, ?_⟩
  · rw [htold.run]
    exact coreAt_releaseCore_run core placed
  · simp only [abandonTask, h]
    rfl

theorem homeOf_kernel {c : Cluster} {l i : Nat} (h : c.entry? i = some e) (hk : e.kind = .kernel) : homeOf l i c = (l, i) := by
  simp only [homeOf, h, hk]
  rfl

theorem abandonHome_kernel {l : Nat} (h : (s.clusterAt l).entry? g.entry = some e) (hk : e.kind = .kernel) :
    abandonHome l g s = some e := by
  simp only [abandonHome, homeHolds, homeOf_kernel h hk, h, beq_self_eq_true, if_true]

theorem abandonTask_run (core : Nat) (d : DoubleTrap) (s : State) : ((abandonTask core d s).coreAt core).run = .clearing := by
  cases h : s.taskOf core with
  | none => rw [abandonTask_of_none h, coreAt_releaseCore_run]
  | some p =>
    obtain ⟨t, -, hrun, heq⟩ := abandonTask_of_some (d := d) h
    rw [heq, (tellHome_schedulerOnly ..).coreAt_eq, hrun]

/-- The cq of the home takes the message. -/
theorem abandonTask_cq (ht : s.taskOf core = some (g, slot)) (he : (s.clusterAt (clusterOf core)).entry? g.entry = some e)
    (hk : e.kind = .kernel) (hf : s.frozenAt (clusterOf core) = false) (hp : (s.clusterAt (clusterOf core)).cqPosts = [])
    (hroom : (s.clusterAt (clusterOf core)).cq.length + 4 ≤ 64) :
    ((abandonTask core d s).clusterAt (clusterOf core)).cq
      = (s.clusterAt (clusterOf core)).cq ++ abandonMessage core d (some e) (s.coreAt core).task.wid := by
  obtain ⟨t, hkept, -, heq⟩ := abandonTask_of_some (d := d) ht
  rw [homeOf_kernel he hk, abandonHome_kernel he hk] at heq
  rw [heq, (tellHome_inbox ..).cq, cqPost_cq ((hkept.frozenAt _).trans hf) ((hkept.cqPosts _).trans hp)
    (by rw [hkept.cq]; exact hroom), hkept.cq]

theorem execTaskAbandon_of_dead (hd : s.core.steer.dead = some d) (hr : s.core.run = .running ∨ s.core.run = .halted) :
    execTaskAbandon s = .next (abandonTask s.coreId d (leaveShares s)) := by
  simp only [execTaskAbandon, hd, if_pos hr]

end Abandoned

/-! ### The events of a context -/

section Events

variable (s : State)

/-- What CONTEXT_SAVE writes, and where. -/
theorem contextSave_image {t : State} (h : t.mem = (saveContext s).mem) (hsized : s.core.Sized) :
    let key := slotKey s.coreId
    readMem64 t (key + 0x32500) = s.core.steer.pc.setWidth 64
    ∧ (∀ r, 1 ≤ r → r ≤ 31 → readMem64 t (key + 0x32500 + 8 * r) = spGet 0 s.core.steer.regs r)
    ∧ (∀ k, k < 8 → readMem64 t (key + 0x32600 + 8 * k) = readK k s)
    ∧ (∀ n ∈ contextCsrs, readMem64 t (key + 0x32680 + 8 * n) = csrRead n { s with agent := .steer })
    ∧ ∀ a, ¬Inside key 0x40000 a → readByte t a = readByte s a := by
  have hread := readMem64_mem h
  refine ⟨?_, ?_, ?_, ?_, ?_⟩
  · exact (hread _).trans readMem64_saveContext_pc
  · exact fun r hr hr' => (hread _).trans (readMem64_saveContext_reg hr hr')
  · exact fun k hk => (hread _).trans (readMem64_saveContext_scalar hk)
  · exact fun n hn => (hread _).trans (readMem64_saveContext_csr hn)
  · exact fun a ha => (readByte_mem h a).trans ((saveContext_stored hsized).bytes a ha)

/-- What CONTEXT_RESTORE loads, and from where. -/
theorem loadContext_core (handle : Word) (kept : GangTask) (posts : List Word) {t : State}
    (h : t.core = (loadContext handle kept posts s).core) :
    let key := slotKey s.coreId
    t.core.steer.pc = (readMem64 s (key + 0x32500)).setWidth 32
    ∧ (∀ r, 1 ≤ r → r ≤ 31 → spGet 0 t.core.steer.regs r = readMem64 s (key + 0x32500 + 8 * r))
    ∧ (∀ k, k < 8 → readK k t = readMem64 s (key + 0x32600 + 8 * k))
    ∧ t.core.steer.tval = readMem64 s (key + 0x32680 + 8 * 0x02A)
    ∧ t.core.mat.mrowp = readMem64 s (key + 0x32680 + 8 * 0x052)
    ∧ t.core.lad.lcnt = readMem64 s (key + 0x32680 + 8 * 0x061)
    ∧ t.core.steer.tvec = s.core.steer.tvec := by
  intro key
  have hsteer : t.core.steer = loadSteer s key kept s.core.steer := by rw [h]; rfl
  have hconv : t.core.conv = loadConv s key kept s.core.conv := by rw [h]; rfl
  have hmat : t.core.mat = loadMatrix s key := by rw [h]; rfl
  have hlad : t.core.lad = loadLadder s key kept := by rw [h]; rfl
  clear_value key
  rw [hsteer, hmat, hlad]
  refine ⟨by rw [loadSteer], fun r h1 h31 => loadSteer_reg s key kept _ h1 h31, fun k hk => ?_, by rw [loadSteer],
    by rw [loadMatrix], by rw [loadLadder], by rw [loadSteer]⟩
  rw [readK, hconv]
  exact loadConv_scalar s key kept _ hk

end Events

/-- Settles O52: the slot is written part by part and read back; the rest is what the stream controller changes. -/
theorem contextEvents : Obligations.ContextEvents := by
  unfold Obligations.ContextEvents
  refine ⟨?_, ?_, ?_, ?_, ?_⟩
  · intro s hready hmasks hslabs hbq hdq hrq heq
    obtain ⟨t, hexec, honly⟩ := execContextSave_of_ready hready
    have hmem : t.mem = (saveContext s).mem := by rw [honly.mem_eq, State.modCore_mem]
    exact ⟨t, hexec, by rw [honly.core_eq]; rfl,
      contextSave_image s hmem ⟨hmasks, hslabs, hbq, hdq, hrq, heq⟩⟩
  · intro s hr hstatus
    obtain ⟨posts, t, hexec, honly⟩ := execContextRestore_of_restoring hr hstatus
    exact ⟨t, hexec, by rw [honly.core_eq]; rfl, by rw [honly.mem_eq]; rfl, loadContext_core s _ _ posts honly.core_eq⟩
  · intro s r l e hreports hentry hkind
    have hexec := execEndReport_of_cons hreports hentry
    obtain ⟨fed, hcounted⟩ := entry?_takeReport hentry l
    have hfocus : ((s.modCluster (takeReport r l e)).clusterAt s.clusterId).entry? r.entry
        = some (countReport r { e with fedEnded := fed }) :=
      (congrArg (Cluster.entry? · r.entry) (clusterAt_self (s.modCluster (takeReport r l e)))).trans hcounted
    refine ⟨fun hne => ?_, fun heq => ⟨_, hexec, ?_, ?_⟩⟩
    · exact hexec.trans (congrArg (.next : State → Result) (kernelCount_of_ne hfocus hne))
    · have hid : ∀ t, SchedulerOnly (s.modCluster (takeReport r l e)) t → t.cluster = t.clusterAt s.clusterId := by
        intro t ht
        rw [← clusterAt_self, State.clusterId, ht.eq]
        rfl
      rw [hid _ (.kernelCount ..), kernelCount_of_eq hfocus heq]
      exact entryDone_entry? hfocus hkind _
    · rw [kernelCount_of_eq hfocus heq]
      exact entryDone_context hfocus _
  · intro s d hdead hrun
    have hkept := KeepsTasks.leaveShares s
    refine ⟨_, execTaskAbandon_of_dead hdead hrun, abandonTask_run .., ?_⟩
    intro g slot e htask hentry hkind hfrozen hposts hroom
    have hcluster : s.clusterAt (clusterOf s.coreId) = s.cluster := clusterAt_self s
    have hcore : s.coreAt s.coreId = s.core := if_pos rfl
    have hcq : ((leaveShares s).clusterAt (clusterOf s.coreId)).cq = s.cluster.cq := by rw [hkept.cq, hcluster]
    refine (abandonTask_cq ((hkept.taskOf _).trans htask) ?_ hkind ((hkept.frozenAt _).trans hfrozen) ?_ ?_).trans ?_
    · rw [hkept.entry?, hcluster, hentry]
    · rw [hkept.cqPosts, hcluster, hposts]
    · rw [hcq]
      exact hroom
    · rw [hcq, hkept.task, hcore, abandonMessage, BitVec.toNat_ofNat, Option.map_some, Option.map_some, Option.getD_some,
        Option.getD_some]
  · intro s hr
    refine ⟨_, if_pos hr, by rw [clearMem_eq]; rfl, fun a ha => ?_, fun a ha => ?_⟩
    · exact (readByte_clearMem _ _ _ _).trans (if_pos ha)
    · exact (readByte_clearMem _ _ _ _).trans (if_neg ha)

end Sys2Proof.Machine

/-! ## The words of the matrix unit (10_core_matrix.md R248 to R262) -/

namespace Sys2Proof.Machine

/-! ### Members that ask more than R83 of what they name -/

section Asked

variable {s : State} {n : BitVec 2} {w : ElementWord} {i : Instr}

/-- Elements that leave the setting leave it as issue does. -/
theorem ElementWord.before_setting (hb : s.Boundary) (hk : ∀ e t, SameSetting t (w.element e t)) (k : Nat) :
    SameSetting s (w.before i k s) :=
  (SameSetting.issued i hb).trans
    (.foldl _ (fun _ e => (SameSetting.accessing _ _ _ _).trans (hk e _)) _ _)

/-- Alone in its convoy a word of elements completes when what its member does, as the word issued, is what its formula
says; the member may have taken VSTART.K at issue. -/
theorem completes_of_issued_elem (hvector : exec i s = vectorWord i s) (hb : s.Boundary) (hc : endsConvoy i)
    (hcls : (memberOf i (issued i s)).cls = .e ∨ (memberOf i (issued i s)).cls = .p) (hp : (memberOf i s).paired = true)
    (ha : (memberOf i s).Asks w.named) (hq : (memberOf i s).pops = 0 ∧ (memberOf i s).pushes = 0)
    (hv : s.core.conv.vctl = 0) (hn : ∀ x ∈ w.named, x.holds s) (hk : ∀ e t, SameSetting t (w.element e t))
    (he : ∀ {t}, t.core.conv.vctl = 0 → ∀ e, (memberOf i (issued i s)).elem e t = .ok (w.element e t) [] []) :
    exec i s = .next (retired i [] [] (w.all i s)) := by
  have hset : ∀ k, SameSetting s (w.before i k s) := ElementWord.before_setting hb hk
  have hready := convoyReady_alone i hb ha.ready (by omega) (by omega)
  rw [hvector]
  exact completes_elements i s w hb hc hp ha.settled (ha.shapeFault_eq_none hn) ha.check hready hcls
    (fun k _ => he ((hset k).running.vctl.trans hv) _) (hset _).vl_eq (hset _).trace

/-- A member whose shapes are not walked by VL: R83 asks the three other conditions of them. -/
theorem shapeFault_none_of_free {m : Member} {l : List Named}
    (hu : m.uses.map (fun u => (u.shape, u.ew, u.need)) = l.map (fun x => (x.shape, x.ew, none)))
    (hn : ∀ x ∈ l, x.holds s) : shapeFault m s = none := by
  refine shapeFault_none m s fun u hmem => ?_
  obtain ⟨x, hx, heq⟩ := List.mem_map.mp (hu ▸ List.mem_map_of_mem hmem)
  obtain ⟨hshape, hew, hneed⟩ : x.shape = u.shape ∧ x.ew = u.ew ∧ none = u.need := by simpa using heq
  obtain ⟨hoff, htype, -, hgated⟩ := hn x hx
  rw [hshape] at hoff htype hgated
  rw [hew] at htype
  exact ⟨hoff, htype, by rw [← hneed]; exact nofun, fun _ => hgated⟩

/-- MAT-OFF is not raised of a unit that is on (R249). -/
theorem matOff_of_slabFree (h : slabFree s n) : matOff s n = none := if_pos h.1

/-- No arm and no incomplete share holds the slab back (R249; 14_cluster.md R328). -/
theorem ready_of_slabFree (h : slabFree s n) : (!slabHeld s n) = true := by rw [h.2]; rfl

end Asked

/-! ### What the unit's effects leave -/

theorem KeepsRecords.foldl {α : Type} {g : State → α → State} (hg : ∀ a, KeepsRecords (g · a)) (l : List α) :
    KeepsRecords (fun t => l.foldl g t) := by
  intro t
  induction l generalizing t with
  | nil => exact ⟨rfl, rfl⟩
  | cons a l ih => exact ⟨(ih _).1.trans (hg a t).1, (ih _).2.trans (hg a t).2⟩

/-- Writes into the accumulators, with the flags they raise. -/
theorem keepsRecords_productInto (n : Nat) (z : BitVec 26) (rowp colp : Word) (kc : Nat)
    (p : Nat → Nat → Nat → FVal × FlagSet) : KeepsRecords (productInto n z rowp colp kc p) := by
  unfold productInto
  refine .foldl (fun i => .foldl (fun j t => ?_) _) _
  exact ⟨rfl, rfl⟩

/-! ### The products (R256, R257, R262) -/

section Products

variable {s : State} {n : BitVec 2} {a b : BitVec 6} {c : BitVec 1} {w : WholeWord}

theorem isMma_iff (t : Nat) : isMma t = true ↔ t ≤ 4 := decide_eq_true_iff

theorem isMmas_iff (t : Nat) : isMmas t = true ↔ 3 ≤ t ∧ t ≤ 5 := by
  simp only [isMmas, isFp8, isE2, Bool.or_eq_true, beq_iff_eq]
  omega

theorem mma_describes (h : matrixWord (.mma n a b c) s = some w) (hf : w.fits) : w.Describes (.mma n a b c) s := by
  cases h
  obtain ⟨htype, hfree, hviews⟩ := hf
  exact setting_describes rfl (fun _ => ⟨nofun, nofun⟩) ((isMma_iff _).mpr htype)
    ⟨rfl, productCheck_eq_none hfree.1 hviews, ready_of_slabFree hfree, rfl, rfl⟩ ⟨rfl, rfl⟩ (fun _ _ _ _ => rfl)
    (fun _ => keepsRecords_productInto _ _ _ _ _ _ _)

/-- The counts of R257 pass on views whose rows are whole blocks, with a metadata word for every block. -/
theorem scaleCheck_eq_none {qa qb : Nat} (ha : (viewDims (shapeAt a.toNat s) s.core.conv.ew).2 = qa)
    (hb : (viewDims (shapeAt b.toNat s) s.core.conv.ew).1 = qb) (hqa : qa % 32 = 0) (hqb : qb % 32 = 0)
    (hwa : wordsNeeded (sizeM s.core.mat.msize) (blocksOf qa) (sizeK s.core.mat.msize) ≤ (shapeAt 63 s).cap 16)
    (hwb : wordsNeeded (sizeN s.core.mat.msize) (blocksOf qb) (sizeK s.core.mat.msize) ≤ (shapeAt 62 s).cap 16) :
    scaleCheck s a.toNat b.toNat = none := by
  simp only [wordsNeeded, blocksOf] at hwa hwb
  simp only [scaleCheck, ha, hb, shapeCheck, hqa, hqb, decide_eq_false (Nat.not_lt.mpr hwa),
    decide_eq_false (Nat.not_lt.mpr hwb)]
  rfl

/-- The checks of R262 on a scaled product: those of a product, and the counts. -/
theorem scaledCheck_eq_none (hen : s.core.mat.en = true) (hv : viewsHold s a b)
    (hqa : (viewDims (shapeAt a.toNat s) s.core.conv.ew).2 % 32 = 0)
    (hqb : (viewDims (shapeAt b.toNat s) s.core.conv.ew).1 % 32 = 0) (hcounts : scaleCheck s a.toNat b.toNat = none) :
    scaledCheck s n a.toNat b.toNat = none := by
  obtain ⟨ha, hk, hb⟩ := hv
  simp [scaledCheck, orCheck, matOff, shapeCheck, hen, ha, hb, hk, hqa, hqb, hcounts]

/-- The table of shapes stands as the word runs. -/
theorem shapeAt_running (i : Instr) (hb : s.Boundary) (k : Nat) : shapeAt k (running i s) = shapeAt k s := by
  rw [running_eq i hb]
  rfl

theorem mmas_describes (h : matrixWord (.mmas n a b c) s = some w) (hf : w.fits) (hn : ∀ x ∈ w.named, x.holds s) :
    w.Describes (.mmas n a b c) s := by
  cases h
  obtain ⟨hlow, hhigh, hfree, hviews, hqa, hqb⟩ := hf
  have hcounts : scaleCheck s a.toNat b.toNat = none := by
    simp only [List.cons_append, List.nil_append, List.forall_mem_cons] at hn
    obtain ⟨-, -, ⟨-, -, hwa, -⟩, ⟨-, -, hwb, -⟩, -⟩ := hn
    exact scaleCheck_eq_none rfl rfl hqa hqb hwa hwb
  exact {
    vector := rfl
    cls := fun _ => ⟨nofun, nofun⟩
    paired := fun _ => (isMmas_iff _).mpr ⟨hlow, hhigh⟩
    settled := rfl
    check := scaledCheck_eq_none hfree.1 hviews hqa hqb hcounts
    ready := ready_of_slabFree hfree
    shapes := fun _ => shapeFault_none_of_free rfl
    pops := fun _ => Nat.zero_le _
    pushes := fun _ => Nat.zero_le _
    run := fun _ hb _ => by
      have hset := (SameOperands.running (i := .mmas n a b c) hb).toSameSetting
      show (mmasMember _ n a.toNat b.toNat).run _ = _
      simp only [mmasMember, hset.ew, hset.type, shapeAt_running _ hb, blocksOf]
      rfl
    trace := (keepsRecords_productInto _ _ _ _ _ _ _).1
    kept := .inl rfl }

end Products

/-! ### Power, sizes and scale (R250 to R255) -/

/-- The grant of MSHAPE: each field of 16 bits, up to its bound. -/
theorem grantShape_eq (ew : Nat) (x : Word) : grantShape ew x
    = .ofNat 64 (min (x.toNat / 2 ^ (16 * 0) % 2 ^ 16) 64 * 2 ^ (16 * 0) + min (x.toNat / 2 ^ (16 * 1) % 2 ^ 16) 64 * 2 ^ (16 * 1)
      + min (x.toNat / 2 ^ (16 * 2) % 2 ^ 16) (64 * (32 / ew)) * 2 ^ (16 * 2)) := by
  simp only [grantShape, kMax, Nat.mul_zero, Nat.pow_zero, Nat.div_one, Nat.mul_one, Nat.reduceMul]

theorem mshape_describes {s : State} {k : BitVec 3} {c : BitVec 1} {w : WholeWord}
    (h : matrixWord (.mshape k c) s = some w) (hf : w.fits) : w.Describes (.mshape k c) s := by
  cases h
  have hpaired : (isMma s.core.conv.type || isMmas s.core.conv.type) = true := by
    rw [Bool.or_eq_true, isMma_iff, isMmas_iff]
    have htype : s.core.conv.type ≤ 5 := hf
    omega
  refine setting_describes rfl (fun _ => ⟨nofun, nofun⟩) hpaired ⟨rfl, rfl, rfl, rfl, rfl⟩ ⟨rfl, rfl⟩ (fun _ r t _ => ?_)
    keepsRecords_id
  show (mshapeMember r k.toNat).run t = _
  simp only [mshapeMember, grantShape_eq]
  rfl

/-- MEN enables a unit that is off, with every element of the slabs +0. -/
theorem modMat_enable (u : State) : u.modMat Matrix.enable
    = if u.core.mat.en then u else u.modMat (fun m => { m with en := true, acc := [] }) := by
  unfold Matrix.enable State.modMat State.modCore
  split
  · next h => simp only [h, if_true]
  · next h => simp only [h]; rfl

/-! ### MINS (R260) -/

/-- The metadata words of a word that reads or writes scaled elements, under E2M1x. -/
theorem scaleUses_named {ty vl : Nat} {rd wr : Bool} :
    (if isE2 ty then [(⟨63, 16, rd, wr, some (blockCount vl), true⟩ : Use)] else []).map Use.named
      = if ty = 5 then [⟨63, 16, (vl + 31) / 32⟩] else [] := by
  simp only [isE2, beq_iff_eq, apply_ite (List.map Use.named)]
  rfl

theorem scaleUses_boxed {ty vl : Nat} {rd wr : Bool} :
    (if isE2 ty then [(⟨63, 16, rd, wr, some (blockCount vl), true⟩ : Use)] else []).all Use.box = true := by
  split <;> rfl

/-- MINS of a slice, as its formula has it. -/
def insertWord (s : State) (d : BitVec 6) (n : BitVec 2) (k : Slice) (m : BitVec 3) : WholeWord :=
  { WholeWord.plain with
    named := ⟨d.toNat, s.core.conv.ew, s.vl⟩ :: (if s.core.conv.type = 5 then [⟨63, 16, (s.vl + 31) / 32⟩] else [])
    fits := slabFree s n
    effect := fun u =>
      ((List.range u.vl).filter (fun j => decide (u.core.conv.startK.toNat ≤ j) && takesPart k m.toNat j u)).foldl
        (fun w j =>
          let r := k.slot u.core.mat.msize j
          raiseFlags (insertVal d.toNat j u).2 (writeAcc n.toNat r.1 r.2 (insertVal d.toNat j u).1 w)) u }

theorem insert_describes {s : State} {i : Instr} {d : BitVec 6} {n : BitVec 2} {k : Slice} {m : BitVec 3}
    (hv : exec i s = vectorWord i s) (hm : ∀ s, memberOf i s = minsMember s d.toNat n k m.toNat) (hf : slabFree s n) :
    (insertWord s d n k m).Describes i s := by
  have hasks : (memberOf i s).Asks (insertWord s d n k m).named := by
    rw [hm]
    exact ⟨rfl, matOff_of_slabFree hf, ready_of_slabFree hf, congrArg (_ :: ·) scaleUses_named, scaleUses_boxed⟩
  refine setting_describes hv (fun t => by rw [hm]; exact ⟨nofun, nofun⟩) (by rw [hm]; rfl) hasks (by rw [hm]; exact ⟨rfl, rfl⟩)
    (fun _ r t _ => by rw [hm]; rfl) (fun t => ?_)
  refine KeepsRecords.foldl (fun j u => ?_) _ t
  exact ⟨rfl, rfl⟩

/-- What a word of the unit that runs as a whole does is what its formula says. -/
theorem matrixWord_describes {i : Instr} {s : State} {w : WholeWord} (h : matrixWord i s = some w) (hf : w.fits)
    (hn : ∀ x ∈ w.named, x.holds s) : w.Describes i s := by
  unfold matrixWord at h
  split at h
  case h_1 => exact mma_describes h hf
  case h_2 => exact mmas_describes h hf hn
  -- MEN
  case h_3 =>
    cases h
    refine setting_describes rfl (fun _ => ⟨nofun, nofun⟩) rfl ⟨rfl, rfl, rfl, rfl, rfl⟩ ⟨rfl, rfl⟩
      (fun _ _ t _ => congrArg Step.done (modMat_enable t)) (fun t => ?_)
    dsimp only
    split <;> exact ⟨rfl, rfl⟩
  -- MDIS waits for every slab
  case h_4 =>
    cases h
    have hready : (!anySlabHeld s) = true := by rw [show anySlabHeld s = false from hf]; rfl
    exact setting_describes rfl (fun _ => ⟨nofun, nofun⟩) rfl ⟨rfl, rfl, hready, rfl, rfl⟩ ⟨rfl, rfl⟩ (fun _ _ _ _ => rfl)
      keepsRecords_id
  -- MZERO
  case h_5 =>
    cases h
    exact setting_describes rfl (fun _ => ⟨nofun, nofun⟩) rfl ⟨rfl, matOff_of_slabFree hf, ready_of_slabFree hf, rfl, rfl⟩
      ⟨rfl, rfl⟩ (fun _ _ _ _ => rfl) (fun _ => ⟨rfl, rfl⟩)
  case h_6 => exact mshape_describes h hf
  -- MSCL
  case h_7 =>
    cases h
    exact setting_describes rfl (fun _ => ⟨nofun, nofun⟩) rfl ⟨rfl, rfl, rfl, rfl, rfl⟩ ⟨rfl, rfl⟩ (fun _ _ _ _ => rfl)
      keepsRecords_id
  case h_8 | h_9 | h_10 => cases h; exact insert_describes rfl (fun _ => rfl) hf
  case h_11 => cases h

/-! ### MEXT (R260; log entries 20 and 67) -/

theorem SameSetting.block (b : Option Block) (s : State) : SameSetting s (s.modConv (fun c => { c with block := b })) :=
  ⟨rfl, rfl, rfl, rfl⟩

theorem SameSetting.putBlock (d : BitVec 6) (vl : Nat) (blk : State → Option Block) (e : Nat) (s : State) :
    SameSetting s (putBlock d vl blk e s) := by
  have hword : ∀ {u : State} (o : Option Block), SameSetting s u →
      SameSetting s (match o with
        | some b => Machine.elemSet (shapeAt 63 u) 16 (e / 32) b.word u
        | none => u) := by
    intro u o hu
    cases o with
    | none => exact hu
    | some b => exact hu.trans (.elemSet _ _ _ _ _)
  refine hword _ ?_
  split
  · exact (SameSetting.block _ _).trans ((SameSetting.elemSet _ _ _ _ _).trans (.raiseFlags _ _))
  · exact .block _ _

/-- MEXT of a slice, as its formula has it. -/
def extractSlice (s : State) (d : BitVec 6) (n : BitVec 2) (k : Slice) (m : BitVec 3) : ElementWord :=
  { named := ⟨d.toNat, s.core.conv.ew, s.vl⟩ :: (if s.core.conv.type = 5 then [⟨63, 16, (s.vl + 31) / 32⟩] else [])
    issues := slabFree s n
    element := fun e u =>
      let c := u.core.conv
      if c.type = 5 then putBlock d u.vl (extractBlock s.core.conv.startK.toNat n.toNat k m.toNat (e / 32)) e u
      else if takesPart k m.toNat e u then
        let v := extractVal n.toNat k e u
        let r := convertTo c.type c.rm c.sat v.1
        raiseFlags (v.2 ||| r.2) (elemSet (shapeAt d.toNat u) c.ew e r.1 u)
      else u
    fits := fun _ _ => True }

section Extract

variable {s t : State} {i : Instr} {d : BitVec 6} {n : BitVec 2} {k : Slice} {m : BitVec 3}

theorem SameSetting.extractSlice (e : Nat) (t : State) : SameSetting t ((extractSlice s d n k m).element e t) := by
  simp only [Machine.extractSlice]
  split
  · exact .putBlock _ _ _ _ _
  · split
    · exact (SameSetting.elemSet _ _ _ _ _).trans (.raiseFlags _ _)
    · exact .refl t

/-- What MEXT does at an element is what its formula says, with VSTART.K as the word issued. -/
theorem mextMember_elem {r : State} (hk : r.core.conv.startK = s.core.conv.startK) (hv : t.core.conv.vctl = 0) (e : Nat) :
    (mextMember r d.toNat n k m.toNat).elem e t = .ok ((extractSlice s d n k m).element e t) [] [] := by
  simp only [mextMember, extractSlice, hk, isE2, beq_iff_eq]
  split
  · -- a block of E2M1x
    exact blockElem_eq hv
  · -- one element
    rw [finishElem_quiet _ _ _ t hv]
    cases takesPart k m.toNat e t <;> rfl

theorem extract_completes (hv : exec i s = vectorWord i s) (hm : ∀ s, memberOf i s = mextMember s d.toNat n k m.toNat)
    (hb : s.Boundary) (hc : endsConvoy i) (hf : slabFree s n) (hvctl : s.core.conv.vctl = 0)
    (hn : ∀ x ∈ (extractSlice s d n k m).named, x.holds s) :
    exec i s = .next (retired i [] [] ((extractSlice s d n k m).all i s)) := by
  have hasks : (memberOf i s).Asks (extractSlice s d n k m).named := by
    rw [hm]
    exact ⟨rfl, matOff_of_slabFree hf, ready_of_slabFree hf, congrArg (_ :: ·) scaleUses_named, scaleUses_boxed⟩
  obtain ⟨-, -, -, -, -, hstart⟩ := issued_setting i s hb
  exact completes_of_issued_elem hv hb hc (by rw [hm]; exact .inr rfl) (by rw [hm]; rfl) hasks (by rw [hm]; exact ⟨rfl, rfl⟩)
    hvctl hn SameSetting.extractSlice (fun ht e => by rw [hm]; exact mextMember_elem hstart ht e)

end Extract

/-- Settles O45: the checks of the unit pass on what the formulas ask, and its members then run as the formulas say. -/
theorem matrixWords : Obligations.MatrixWords := by
  unfold Obligations.MatrixWords
  constructor
  · intro i s w hw hb hc hf hv hn
    exact ((matrixWord_describes hw hf hn).completes hb hc hf hv hn).1
  · intro i s w hw hb hc hi hv hn _
    unfold extractWord at hw
    extract_lets extract at hw
    split at hw
    case h_1 | h_2 | h_3 => cases hw; exact extract_completes rfl (fun _ => rfl) hb hc hi hv hn
    case h_4 => cases hw

end Sys2Proof.Machine

/-! ## The ladder words (11_core_ladder.md R276 to R283) -/

namespace Sys2Proof.Machine

/-! ### What the words of a tile write -/

theorem SameSetting.putFloat (d : BitVec 6) (e raw : Nat) (s : State) : SameSetting s (putFloat d e raw s) :=
  (SameSetting.elemSet _ _ _ _ s).trans (.raiseFlags _ _)

theorem raiseFlags_zero (s : State) : raiseFlags 0 s = s := by
  have hflags : s.core.conv.vflags ||| 0 = s.core.conv.vflags := BitVec.or_zero
  show s.modConv (fun c => { c with vflags := s.core.conv.vflags ||| 0 }) = s
  rw [hflags]
  rfl

/-- Under f32 the bits themselves are written, and no flag is raised. -/
theorem putFp32_eq_putFloat (d : BitVec 6) (e raw : Nat) (s : State) : putFp32 d.toNat e raw s = putFloat d e raw s := by
  unfold putFp32 putFloat
  dsimp only
  split
  · exact (raiseFlags_zero _).symm
  · rfl

/-- Writes into a rung leave the core. -/
theorem writeCells_core (r lo hi : Nat) (t : Nat → Nat) (s : State) : (writeCells r lo hi t s).core = s.core :=
  storeMem_core _ _ _ _

/-! ### A turn of a ladder word -/

section Turn

variable {u : State}

/-- A turn runs the word whole (log entry 36). -/
theorem ladderEnd_whole (hp : u.core.pace = none) : ladderEnd u = lcfgCells u.core.lad.lcfgr := by
  rw [ladderEnd, hp]

theorem ladderElems_whole (hp : u.core.pace = none) :
    ladderElems u = (List.range (lcfgCells u.core.lad.lcfgr)).filter (fun e => decide (u.lk ≤ e)) := by
  rw [ladderElems, ladderEnd_whole hp]

theorem ladderGoes_whole (hp : u.core.pace = none) (t : State) : ladderGoes u t = .done t := by
  rw [ladderGoes, ladderEnd_whole hp, if_neg (Nat.lt_irrefl _)]

end Turn

section Runs

variable {s : State}

theorem running_pace (i : Instr) (hb : s.Boundary) : (running i s).core.pace = none := by
  rw [running_eq i hb]; exact hb.whole

theorem running_lad (i : Instr) (hb : s.Boundary) : (running i s).core.lad = s.core.lad := by
  rw [running_eq i hb]; rfl

theorem issued_lad (i : Instr) (hb : s.Boundary) : (issued i s).core.lad = s.core.lad := by
  rw [issued_eq i s hb.trace]; rfl

theorem running_lk (i : Instr) (hb : s.Boundary) : (running i s).lk = s.core.conv.startLk.toNat := by
  rw [State.lk, running_flight i hb]; rfl

theorem running_rungPoison (i : Instr) (hb : s.Boundary) (r from' : Nat) :
    rungPoison (running i s) r from' = rungPoison s r from' := by
  rw [running_eq i hb]; rfl

end Runs

/-! ### The words that wait for the chain (R271, R282) -/

section Words

variable {s : State} {i : Instr} {d : BitVec 6} {w : WholeWord}

/-- Where no chain runs, a word that waits for the chain goes on. -/
theorem ladder_waits (h : ladderStill s) : (!true || !s.core.chainRuns) = true := by
  have hruns : s.core.chainRuns = false := h
  rw [hruns]
  rfl

theorem ladder_settled (h : ladderStill s) : (!s.core.chainRuns) = true := ladder_waits h

theorem ladOff_eq_none (h : ladderOn s) : ladOff s = none := if_neg h

/-- The shape of a tile has room for its cells. -/
theorem tileCheck_eq_none (h : Named.holds ⟨d.toNat, s.core.conv.ew, lcfgCells s.core.lad.lcfgr⟩ s) :
    tileCheck s d.toNat = none := by
  obtain ⟨-, -, hroom, -⟩ := h
  simp only [tileCheck, shapeCheck, decide_eq_false (Nat.not_lt.mpr hroom)]
  rfl

theorem lcfg_describes {k : BitVec 3} {c : BitVec 1} (h : ladderWord (.lcfg k c) s = some w) (hf : w.fits) :
    w.Describes (.lcfg k c) s := by
  cases h
  obtain ⟨hstill, hvalid⟩ := hf
  exact setting_describes rfl (fun _ => ⟨nofun, nofun⟩) rfl ⟨rfl, if_pos hvalid, ladder_waits hstill, rfl, rfl⟩ ⟨rfl, rfl⟩
    (fun _ _ _ _ => rfl) (fun _ => ⟨rfl, rfl⟩)

theorem lreset_describes {c : BitVec 1} (h : ladderWord (.lreset c) s = some w) (hf : w.fits) : w.Describes (.lreset c) s := by
  cases h
  exact setting_describes rfl (fun _ => ⟨nofun, nofun⟩) rfl ⟨rfl, rfl, ladder_waits hf, rfl, rfl⟩ ⟨rfl, rfl⟩
    (fun _ _ _ _ => rfl) (fun _ => ⟨rfl, rfl⟩)

theorem lstep_describes {n : BitVec 2} {c : BitVec 1} (h : ladderWord (.lstep n c) s = some w) (hf : w.fits) :
    w.Describes (.lstep n c) s := by
  cases h
  obtain ⟨hstill, hfree, hon, hrange⟩ := hf
  have hcheck : (memberOf (.lstep n c) s).check = none := by
    show orCheck (matOff s n) (orCheck (ladOff s) _) = none
    rw [matOff_of_slabFree hfree, ladOff_eq_none hon, if_neg hrange]
    rfl
  have hready : (memberOf (.lstep n c) s).ready = true := by
    show ((!true || !s.core.chainRuns) && !slabHeld s n) = true
    rw [ladder_waits hstill, ready_of_slabFree hfree]
    rfl
  exact setting_describes rfl (fun _ => ⟨nofun, nofun⟩) rfl ⟨ladder_settled hstill, hcheck, hready, rfl, rfl⟩ ⟨rfl, rfl⟩
    (fun _ _ _ _ => rfl) (fun _ => ⟨rfl, rfl⟩)

theorem lstat_describes {k : BitVec 3} {carry : Bool} (hv : exec i s = vectorWord i s)
    (hm : ∀ t, memberOf i t = lstatMember t k.toNat carry) : (onStatus k carry).Describes i s :=
  setting_describes hv (fun t => by rw [hm]; exact ⟨nofun, nofun⟩) (by rw [hm]; rfl)
    (by rw [hm]; exact ⟨rfl, rfl, rfl, rfl, rfl⟩) (by rw [hm]; exact ⟨rfl, rfl⟩) (fun _ _ _ _ => by rw [hm]; rfl)
    (fun _ => ⟨rfl, rfl⟩)

end Words

/-! ### The words that move tiles (R280, R281) -/

section Tiles

variable {s : State} {i : Instr} {d : BitVec 6} {w : WholeWord}

/-- The checks of LBLEND pass on a shape of weights and a destination that hold the ladder. -/
theorem lblend_check (hon : ladderOn s) (hd : Named.holds ⟨d.toNat, s.core.conv.ew, lcfgCells s.core.lad.lcfgr⟩ s)
    (hweights : Named.holds ⟨lcfgWsh s.core.lad.lcfgr, 32, lcfgMax s.core.lad.lcfgr⟩ s) :
    (lblendMember s d.toNat).check = none := by
  obtain ⟨hkind, -, hroom, hgated⟩ := hweights
  show orCheck (ladOff s) (orCheck _ (orCheck _ (orCheck (tileCheck s d.toNat) _))) = none
  rw [ladOff_eq_none hon, tileCheck_eq_none hd]
  simp only [orCheck, shapeCheck, hgated, decide_eq_false (Nat.not_lt.mpr hroom), beq_eq_false_iff_ne.mpr hkind]
  rfl

/-- No cell that the blend reads lies in an uncorrectable granule (R283). -/
theorem blend_unpoisoned {from' : Nat}
    (h : ∀ r, r < lcfgMax s.core.lad.lcfgr → rungFull s.core.lad r = true → rungPoison s r from' = none) :
    (List.range (lcfgCells s.core.lad.lcfgr)).findSome? (fun e => if e < from' then none else
      ((List.range (lcfgMax s.core.lad.lcfgr)).filter (fun r => rungFull s.core.lad r)).findSome? (fun r => cellPoison s r e))
      = none := by
  rw [List.findSome?_eq_none_iff]
  intro e he
  split
  · rfl
  · next hfrom =>
    rw [List.findSome?_eq_none_iff]
    intro r hr
    obtain ⟨hmax, hfull⟩ := List.mem_filter.mp hr
    have hcell := List.findSome?_eq_none_iff.mp (h r (List.mem_range.mp hmax) hfull) e he
    rwa [if_neg hfrom] at hcell

/-- Where a turn blends every element left, and no rung is uncorrectable. -/
theorem lblend_run {r u : State} (hp : u.core.pace = none)
    (hpoison : ∀ n, n < lcfgMax u.core.lad.lcfgr → rungFull u.core.lad n = true → rungPoison u n u.lk = none) :
    (lblendMember r d.toNat).run u = .done
      (((List.range (lcfgCells u.core.lad.lcfgr)).filter (fun e => decide (u.lk ≤ e))).foldl (fun t e =>
        putFloat d e (blendElem t (lcfgWsh r.core.lad.lcfgr) e).1 (raiseFlags (blendElem t (lcfgWsh r.core.lad.lcfgr) e).2 t))
        u).tickUp := by
  have hclean := blend_unpoisoned hpoison
  simp only [lblendMember, ladderMember, hclean, ladderElems_whole hp, ladderGoes_whole hp, putFp32_eq_putFloat]

theorem lblend_describes {c : BitVec 1} (h : ladderWord (.lblend d c) s = some w) (hf : w.fits)
    (hn : ∀ x ∈ w.named, x.holds s) : w.Describes (.lblend d c) s := by
  cases h
  obtain ⟨htype, hstill, hon, hpoison⟩ := hf
  obtain ⟨hd, hweights, -⟩ := by simpa only [List.forall_mem_cons] using hn
  exact {
    vector := rfl
    cls := fun _ => ⟨nofun, nofun⟩
    paired := fun _ => decide_eq_true htype
    settled := ladder_settled hstill
    check := lblend_check hon hd hweights
    ready := ladder_waits hstill
    shapes := fun _ _ => shapeFault_none_of_free (l := [⟨d.toNat, s.core.conv.ew, lcfgCells s.core.lad.lcfgr⟩]) rfl
      (List.forall_mem_singleton.mpr hd)
    pops := fun _ => Nat.zero_le _
    pushes := fun _ => Nat.zero_le _
    run := fun _ hb _ => by
      refine (lblend_run (running_pace _ hb) fun r => ?_).trans ?_
      · rw [running_lad _ hb, running_lk _ hb, running_rungPoison _ hb]
        exact hpoison r
      · rw [issued_lad _ hb, running_lad _ hb, running_lk _ hb]
        rfl
    trace := (SameSetting.foldl _ (fun t e => (SameSetting.raiseFlags _ t).trans (.putFloat _ _ _ _)) _ _).trace
    kept := .inl rfl }

/-! #### The rung words -/

/-- A load writes the rung to the elements left, or zeros where it is empty. -/
theorem lrung_load_run {r u : State} {level : State → Word} (hp : u.core.pace = none)
    (hpoison : rungFull u.core.lad (level u).toNat = true → rungPoison u (level u).toNat u.lk = none) :
    (lrungMember r true d.toNat level).run u = .done
      (((List.range (lcfgCells u.core.lad.lcfgr)).filter (fun e => decide (u.lk ≤ e))).foldl (fun t e =>
        putFloat d e (if rungFull u.core.lad (level u).toNat then readRung u (level u).toNat e else 0) t) u).tickUp := by
  have hclean : (if rungFull u.core.lad (level u).toNat = true then rungPoison u (level u).toNat u.lk else none) = none := by
    split
    · next hfull => exact hpoison hfull
    · rfl
  simp only [lrungMember, ladderMember, if_true, hclean, ladderElems_whole hp, ladderGoes_whole hp, putFp32_eq_putFloat]

/-- An element of a source as a store takes it to FP32: that of a type of class F has no metadata word. -/
theorem rungCell_eq {u : State} (htype : u.core.conv.type ≤ 2) (e : Nat) :
    (if u.core.conv.type = 0 then (elemGet (shapeAt d.toNat u) 32 e u, (0 : FlagSet))
      else convertTo 0 rmNearest false (elemVal (shapeAt d.toNat u) u.core.conv.type e u))
    = if u.core.conv.type = 0 then (under d e u, 0)
      else convertTo 0 rmNearest false (typeVal u.core.conv.type (under d e u)) := by
  split
  · next h => rw [under, Conv.ew, h]; rfl
  · have hplain : isE2 u.core.conv.type = false := by
      rw [isE2, beq_eq_false_iff_ne]
      omega
    rw [elemVal, hplain]
    rfl

/-- A store writes the elements left to the rung. -/
theorem lrung_store_run {r u : State} {level : State → Word} (hp : u.core.pace = none) (htype : u.core.conv.type ≤ 2) :
    let cell := fun (e : Nat) => if u.core.conv.type = 0 then (under d e u, (0 : FlagSet))
      else convertTo 0 rmNearest false (typeVal u.core.conv.type (under d e u))
    (lrungMember r false d.toNat level).run u = .done
      (raiseFlags (((List.range (lcfgCells u.core.lad.lcfgr)).filter (fun e => decide (u.lk ≤ e))).foldl (fun f e =>
          f ||| (cell e).2) 0)
        (writeCells (level u).toNat u.lk (lcfgCells u.core.lad.lcfgr) (fun e => (cell e).1) u)) := by
  simp only [lrungMember, ladderMember, Bool.false_eq_true, if_false, ladderElems_whole hp, ladderGoes_whole hp,
    ladderEnd_whole hp, rungCell_eq htype]

/-- The checks of a rung word pass on a level that exists (R282). -/
theorem lrung_check {load : Bool} {level : State → Word} (hon : ladderOn s) (hlevel : (level s).toNat < lcfgMax s.core.lad.lcfgr)
    (hd : Named.holds ⟨d.toNat, s.core.conv.ew, lcfgCells s.core.lad.lcfgr⟩ s) :
    (lrungMember s load d.toNat level).check = none := by
  show orCheck (ladOff s) (orCheck (tileCheck s d.toNat) _) = none
  rw [ladOff_eq_none hon, tileCheck_eq_none hd, if_neg (Nat.not_le.mpr hlevel)]
  rfl

theorem onRung_trace (s : State) (load : Bool) (d : BitVec 6) (level : State → Word) (u : State) :
    ((onRung s load d level).effect u).core.trace = u.core.trace := by
  unfold onRung
  cases load
  · show (raiseFlags _ (writeCells _ _ _ _ u)).core.trace = _
    rw [(SameSetting.raiseFlags _ _).trace, writeCells_core]
  · exact (SameSetting.foldl _ (fun t e => .putFloat _ _ _ t) _ u).trace

/-- A rung word whose level is that of the state in which it runs. -/
theorem onRung_describes {load : Bool} {level : State → Word} (hv : exec i s = vectorWord i s)
    (hm : ∀ t, memberOf i t = lrungMember t load d.toNat level) (hl : ∀ t, SameOperands s t → level t = level s)
    (hf : (onRung s load d level).fits) (hn : ∀ x ∈ (onRung s load d level).named, x.holds s) :
    (onRung s load d level).Describes i s := by
  obtain ⟨htype, hstill, hon, hlevel, hpoison⟩ := hf
  have hd : Named.holds ⟨d.toNat, s.core.conv.ew, lcfgCells s.core.lad.lcfgr⟩ s := hn _ (.head _)
  exact {
    vector := hv
    cls := fun t => by rw [hm]; exact ⟨nofun, nofun⟩
    paired := fun _ => by rw [hm]; exact decide_eq_true htype
    settled := by rw [hm]; exact ladder_settled hstill
    check := by rw [hm]; exact lrung_check hon hlevel hd
    ready := by rw [hm]; exact ladder_waits hstill
    shapes := fun _ _ => by
      rw [hm]
      refine shapeFault_none_of_free (l := [⟨d.toNat, s.core.conv.ew, lcfgCells s.core.lad.lcfgr⟩]) ?_
        (List.forall_mem_singleton.mpr hd)
      cases load <;> rfl
    pops := fun _ => by rw [hm]; exact Nat.zero_le _
    pushes := fun _ => by rw [hm]; exact Nat.zero_le _
    run := fun _ hb _ => by
      have hoperands : SameOperands s (running i s) := .running hb
      rw [hm]
      cases load with
      | true =>
        refine (lrung_load_run (running_pace _ hb) ?_).trans ?_
        · rw [running_lad _ hb, running_lk _ hb, running_rungPoison _ hb, hl _ hoperands]
          exact hpoison rfl
        · rw [running_lk _ hb]
          rfl
      | false =>
        refine (lrung_store_run (running_pace _ hb) ?_).trans ?_
        · rw [hoperands.type]
          exact htype
        · rw [running_lk _ hb]
          rfl
    trace := onRung_trace s load d level _
    kept := .inl rfl }

end Tiles

/-- What a ladder word does is what its formula says. -/
theorem ladderWord_describes {i : Instr} {s : State} {w : WholeWord} (h : ladderWord i s = some w) (hf : w.fits)
    (hn : ∀ x ∈ w.named, x.holds s) : w.Describes i s := by
  unfold ladderWord at h
  split at h
  -- LCFG and LRESET
  case h_1 => exact lcfg_describes h hf
  case h_2 => exact lreset_describes h hf
  -- LSTAT of either register
  case h_3 | h_4 => cases h; exact lstat_describes rfl (fun _ => rfl)
  case h_5 => exact lstep_describes h hf
  case h_6 => exact lblend_describes h hf hn
  -- the rung words, with the level in the word and in a scalar
  case h_7 | h_8 => cases h; exact onRung_describes rfl (fun _ => rfl) (fun _ _ => rfl) hf hn
  case h_9 | h_10 => cases h; exact onRung_describes rfl (fun _ => rfl) (fun _ ho => ho.readK _) hf hn
  case h_11 => cases h

/-- Settles O46: where no chain runs and no rung is uncorrectable, a turn of a member takes every element left. -/
theorem ladderWords : Obligations.LadderWords := by
  intro i s w hw hb hc hf hv hn
  exact ((ladderWord_describes hw hf hn).completes hb hc hf hv hn).1

end Sys2Proof.Machine

/-! ## The carry chain and the shares of ganged products (11_core_ladder.md R270, R272; 14_cluster.md R326, R327) -/

namespace Sys2Proof.Machine

/-! ### A stage of the chain -/

section Chain

variable {s : State} {t : Sp (BitVec 32)}

/-- No rung merges where bit 0 of LCNT is 0 (R270). -/
theorem chainMerges_eq_zero {l : Ladder} (h : l.lcnt.getLsbD 0 = false) : chainMerges l = 0 := by
  unfold chainMerges
  cases lcfgMax l.lcfgr - 1 with
  | zero => rfl
  | succ n => rw [trailingOnes, h]; rfl

/-- A chain that runs and whose input tile is still in the unit at level 0 has a stage to run, also under a request: the
core does not stand at a merge boundary (R273). -/
theorem chainMoves_of_tile (hruns : s.core.chainRuns = true) (ht : s.core.lad.tile = some t) (hl : s.core.lad.lvl = 0) :
    chainMoves s.core = true := by
  have hboundary : atMergeBoundary s.core.lad = false := by
    obtain ⟨⟨hact, herr⟩, -⟩ : (s.core.lad.act = true ∧ s.core.lad.err = false) ∧ _ := by
      simpa only [Core.chainRuns, Bool.and_eq_true, Bool.not_eq_true'] using hruns
    simp [atMergeBoundary, hact, herr, hl, ht]
  unfold chainMoves
  split
  · rw [hboundary]; rfl
  · exact hruns

/-- With no rung to merge, and none to absorb the tile at the top, the tile becomes rung 0. -/
theorem chainStage_at_rung_zero (hl : s.core.lad.lvl = 0) (hmax : 2 ≤ lcfgMax s.core.lad.lcfgr)
    (hbit : s.core.lad.lcnt.getLsbD 0 = false) :
    chainStage t s = chainDone (writeTile 0 (fun e => (spGet 0 t e).toNat) s) := by
  have hmerges : chainMerges s.core.lad = 0 := chainMerges_eq_zero hbit
  have htop : chainTop s.core.lad = false := by
    unfold chainTop
    rw [hmerges, decide_eq_false (by omega), Bool.false_and]
  simp only [chainStage, hl, hmerges, htop]
  rfl

end Chain

/-! ### The shares of the core in focus -/

/-- What every step of a run keeps the run keeps. -/
theorem foldl_keeps {α β : Type} (p : State → β) {g : State → α → State} (hg : ∀ u x, p (g u x) = p u) (l : List α)
    (u : State) : p (l.foldl g u) = p u := by
  induction l generalizing u with
  | nil => rfl
  | cons x l ih => exact (ih _).trans (hg u x)

/-- Products leave the gang. -/
theorem product2_gang (n : Nat) (z : BitVec 26) (rowp colp : Word) (kc : Nat) (a b : Nat → Nat → FVal) (s : State) :
    (product2 n z rowp colp kc a b s).core.gang = s.core.gang := by
  unfold product2 productInto
  refine foldl_keeps (·.core.gang) (fun u _ => foldl_keeps (·.core.gang) (fun _ _ => ?_) _ u) _ s
  rfl

theorem modGang_congr {s : State} {f g : Gang → Gang} (h : f s.core.gang = g s.core.gang) : s.modGang f = s.modGang g :=
  congrArg (fun x => s.modCore (fun c => { c with gang := x })) h

theorem disarmPlane_task (s : State) : (disarmPlane s).core.task = s.core.task := by
  unfold disarmPlane
  split <;> rfl

section Shares

variable {s u : State} {h : Share} {l : List Share}

/-- The oldest share that has posted no event ends, and no other does. -/
theorem oldest_ended (hshares : u.core.gang.shares = h :: l) (hl : h ∉ l) :
    u.modGang (fun g => { g with shares := g.shares.map (fun x =>
      if x = h then { x with ended := true, events := x.events ++ [] } else x) })
    = u.modGang (fun g => { g with shares := { h with ended := true } :: l }) := by
  refine modGang_congr ?_
  have hrest : l.map (fun x => if x = h then { x with ended := true } else x) = l :=
    (List.map_congr_left fun x hx => if_neg (ne_of_mem_of_not_mem hx hl)).trans l.map_id
  simp only [hshares, List.map_cons, if_true, List.append_nil, hrest]

/-- The multicast reaches the oldest share when it can end (R326). -/
theorem multicastArrives_oldest (hshares : s.core.gang.shares = h :: l) (hends : shareEnds s h = true) :
    multicastArrives s = endShare h s := by
  simp only [multicastArrives, hshares, List.find?_cons_of_pos (p := shareEnds s) hends]

/-- The types of a product have elements of no more than 32 bits (R326). -/
theorem ewOf_ne_of_le {t : Nat} (h : t ≤ 4) : ewOf t ≠ 64 := by
  interval_cases t <;> decide

theorem shareFault_eq_none (hen : s.core.mat.en = true) (hkind : (shapeAt h.a.toNat s).kind ≠ 0) (ht : h.vtype.toNat % 16 ≤ 4)
    (hgated : shapeGated s.core.conv.planepwr (shapeAt h.a.toNat s) = false)
    (hview : viewHolds (shapeAt h.a.toNat s) (ewOf (h.vtype.toNat % 16)) (sizeM h.msize) (sizeK h.msize) = true) :
    shareFault s h = none := by
  simp [shareFault, hen, hkind, ewOf_ne_of_le ht, hgated, hview]

/-- The product of a share of a participant, whose checks pass (R326, R328). -/
def shareProduct (h : Share) (s : State) : State :=
  let t := h.vtype.toNat % 16
  let v := shapeAt h.a.toNat s
  let read := viewElems v (ewOf t) (rowsOn h.msize h.mrowp) (List.range (sizeK h.msize))
  product2 h.slab.toNat h.msize h.mrowp h.mcolp (32 / ewOf t)
    (fun i k => typeVal t (viewElem v (ewOf t) i k (armedPlane h s))) (fun k j => typeVal t (spGet 0 h.b (64 * k + j)))
    (s.modConv (fun c => { c with planepwr := wakeBands c.planepwr v (ewOf t) read })).tickUp

theorem performShare_of_checks (hchecks : shareFault s h = none) : performShare h s = (shareProduct h s, []) := by
  unfold performShare
  rw [hchecks]
  rfl

/-- A participant's share ends with its product. -/
theorem endShare_participant (hshares : s.core.gang.shares = h :: l) (hl : h ∉ l) (hpos : h.pos < 8)
    (hchecks : shareFault s h = none) :
    endShare h s = (shareProduct h s).modGang (fun g => { g with shares := { h with ended := true } :: l }) := by
  have hgang : (shareProduct h s).core.gang.shares = h :: l := (congrArg Gang.shares (product2_gang ..)).trans hshares
  rw [← oldest_ended hgang hl]
  simp only [endShare, if_pos hpos, performShare_of_checks hchecks]

/-- The issuer's own share has been performed with its GMMA (R325). -/
theorem endShare_issuer (hshares : s.core.gang.shares = h :: l) (hl : h ∉ l) (hpos : 8 ≤ h.pos) :
    endShare h s = s.modGang (fun g => { g with shares := { h with ended := true } :: l }) := by
  rw [← oldest_ended hshares hl]
  simp only [endShare, if_neg (Nat.not_lt.mpr hpos)]

/-- The oldest share is complete when it has ended and its events are in (R327). -/
theorem shareCompletes_oldest (hshares : s.core.gang.shares = h :: l) (hended : h.ended = true) (hin : eventsIn s h = true) :
    shareCompletes s = completeShare h s := by
  have hdone : (h.ended && eventsIn s h) = true := by rw [hended, hin]; rfl
  simp only [shareCompletes, hshares, List.find?_cons_of_pos (p := fun x => x.ended && eventsIn s x) hdone]

/-- A share that is complete leaves the others. -/
theorem erase_oldest (hshares : s.core.gang.shares = h :: l) :
    s.modGang (fun g => { g with shares := g.shares.erase h }) = s.modGang (fun g => { g with shares := l }) := by
  refine modGang_congr ?_
  rw [hshares, List.erase_cons_head]

end Shares

/-- Settles O54: the chain goes on where no merge boundary holds it, and at an empty rung 0 it ends; the share that
moves is the oldest. -/
theorem gangAndChainEvents : Obligations.GangAndChainEvents := by
  refine ⟨?_, ?_, ?_, ?_⟩
  · intro s t hruns ht hl hmax hbit
    show execCarryChain s = _
    rw [execCarryChain, if_pos (chainMoves_of_tile hruns ht hl), chainNext, ht]
    exact congrArg _ (chainStage_at_rung_zero hl hmax hbit)
  · intro s h l hshares hended hl hpos hen t v read hkind ht hgated hview
    have hends : shareEnds s h = true := by simp [shareEnds, hended, hpos]
    show Host.Outcome.next (multicastArrives s) = _
    rw [multicastArrives_oldest hshares hends,
      endShare_participant hshares hl hpos (shareFault_eq_none hen hkind ht hgated hview)]
    rfl
  · intro s h l hshares hended hl hpos hpending
    have hends : shareEnds s h = true := by simp [shareEnds, hended, hpending]
    show Host.Outcome.next (multicastArrives s) = _
    rw [multicastArrives_oldest hshares hends, endShare_issuer hshares hl hpos]
  · intro s h l hshares hended hin u
    have hcompletes : exec .gmmaShareCompletion s = .next (completeShare h s) :=
      congrArg Host.Outcome.next (shareCompletes_oldest hshares hended hin)
    rw [hcompletes, completeShare, erase_oldest hshares]
    refine ⟨fun hbar => ?_, fun bar hbar => ?_⟩
    · rw [hbar]
    · rw [hbar]
      show Host.Outcome.next (arrive bar u) = _
      rw [arrive, disarmPlane_task]
      rfl

end Sys2Proof.Machine

/-! ## The words of barriers, arms and feed queues (14_cluster.md R316, R317, R319 to R321, R324, R328) -/

namespace Sys2Proof.Machine

/-- A field of a word, from bit k on. -/
theorem setWidth_ushiftRight (x : Word) (k n : Nat) : (x >>> k).setWidth n = .ofNat n (x.toNat / 2 ^ k) := by
  rw [← BitVec.ofNat_toNat, BitVec.toNat_ushiftRight, Nat.shiftRight_eq_div_pow]

/-! ### Barriers (R319 to R321) -/

section Barriers

variable {s : State} {d a b : BitVec 5} {t : BitVec 6} {n : Nat}

/-- A control core names every barrier. -/
theorem barrierOf_of_control (x : Word) (h : s.agent = .control) :
    barrierOf x s = if x.toNat < 32 then some x.toNat else none := by
  simp only [barrierOf, h, ← Nat.not_lt, ite_not]

/-- A task core names those of its window. -/
theorem barrierOf_of_steer (x : Word) (h : s.agent = .steer) :
    barrierOf x s = if x.toNat < 32 ∧ x.toNat < s.core.task.barwin.toNat / 2 ^ 8 % 64
      then some ((s.core.task.barwin.toNat % 32 + x.toNat) % 32) else none := by
  simp only [barrierOf, h, ← Nat.not_lt, ite_not, ite_and]

theorem limitPassed_eq : limitPassed t s = true ↔ t = 0 ∨ (t ≠ 63 ∧ s.cur.expired = true) := by
  simp only [limitPassed, Bool.or_eq_true, Bool.and_eq_true, beq_iff_eq, bne_iff_ne]

theorem execBarv_of_named (h : barrierOf (readReg a s) s = some n) (hr : s.released) :
    execBarv d a b s = retire d (spGet 0 s.cluster.barriers n) (s.modCluster (fun c => { c with
      barriers := spPut 0 c.barriers n (spGet 0 s.cluster.barriers n + readReg b s) })) := by
  simp only [execBarv, h, releaseGate_of_released hr]

theorem execBarv_of_unnamed (h : barrierOf (readReg a s) s = none) :
    execBarv d a b s = steerFault .barRange (readReg a s) s := by simp only [execBarv, h]

theorem execBarw_of_named (h : barrierOf (readReg a s) s = some n) : execBarw d a b t s =
    if (readReg b s).toNat ≤ (spGet 0 s.cluster.barriers n).toNat ∨ limitPassed t s
    then retire d (spGet 0 s.cluster.barriers n) s else .next (stall s) := by simp only [execBarw, h]

theorem execBarw_of_unnamed (h : barrierOf (readReg a s) s = none) :
    execBarw d a b t s = steerFault .barRange (readReg a s) s := by simp only [execBarw, h]

end Barriers

/-- Settles O33: a barrier that has a name is added to, read or waited for; a number without one traps. -/
theorem barrierWords : Obligations.BarrierWords := by
  unfold Obligations.BarrierWords
  intro s d a b t i y win
  refine ⟨barrierOf_of_control i, barrierOf_of_steer i, fun n hn => ⟨fun hr => ?_, fun h => ?_, fun hlow h0 h63 => ?_⟩,
    fun hn hb => ?_⟩
  · rw [← BitVec.add_def]
    exact execBarv_of_named hn hr
  · exact (execBarw_of_named hn).trans (if_pos (h.imp_right limitPassed_eq.mpr))
  · have hwaits : ¬limitPassed t s = true := by
      rw [limitPassed_eq]
      rintro (rfl | ⟨hne, hexpired⟩)
      · exact h0 rfl
      · obtain rfl | hrun := h63
        · exact hne rfl
        · rw [hrun] at hexpired; contradiction
    exact (execBarw_of_named hn).trans (if_neg (not_or.mpr ⟨Nat.not_le.mpr hlow, hwaits⟩))
  · exact ⟨(execBarv_of_unnamed hn).trans (steerFault_of_idle hb), (execBarw_of_unnamed hn).trans (steerFault_of_idle hb)⟩

/-! ### Arms (R324, R328) -/

section Arms

variable {s : State} {d a b : BitVec 5}

/-- What the shares that stand have noted of the convoys' writes (R328). -/
def notedCells (s : State) : List Nat := if s.core.gang.shares.isEmpty then [] else s.core.conv.wrote.getD []

theorem notePlane_eq (s : State) : notePlane s =
    (s.modGang (fun g => { g with armMark := (notedCells s).length })).modConv (fun c => { c with
      wrote := some (notedCells s) }) := rfl

theorem execGarm_of_sound (ho : orderedReady s = true) (hf : armFaults (readReg a s) (readReg b s) s = false) :
    execGarm a b s = .next (advance ((s.modGang (fun g => { g with
      armIslot := (readReg a s).setWidth 7, armSlab := .ofNat 2 (readReg b s).toNat
      armBar := .ofNat 5 ((readReg b s).toNat / 2 ^ 8), armFault := false, armed := true
      armMark := (notedCells s).length })).modConv (fun c => { c with wrote := some (notedCells s) }))) := by
  have hslab : (readReg b s).setWidth 2 = .ofNat 2 (readReg b s).toNat := (BitVec.ofNat_toNat ..).symm
  have hbar : (readReg b s >>> 8).setWidth 5 = .ofNat 5 ((readReg b s).toNat / 2 ^ 8) :=
    setWidth_ushiftRight ..
  simp only [execGarm, ho, hf, hslab, hbar, notePlane_eq, Bool.true_eq_false, Bool.false_eq_true, if_false]
  rfl

theorem execGarm_of_fault (ho : orderedReady s = true) (hf : armFaults (readReg a s) (readReg b s) s = true) :
    execGarm a b s = steerFault .gangArm (readReg a s) s := by
  simp only [execGarm, ho, hf, Bool.true_eq_false, if_false, if_true]

theorem execGarmOff_of_ready (ho : orderedReady s = true) : execGarmOff d s =
    retire d (boolWord s.core.gang.armed) (disarmPlane (s.modGang (fun g => { g with armed := false }))) := by
  simp only [execGarmOff, ho, Bool.true_eq_false, if_false]

end Arms

/-! ### Feed queues (R316, R317) -/

theorem execFqset_of_free {s : State} {a b : BitVec 5} {q : BitVec 4}
    (hf : feedFaults (readReg a s) (readReg b s) (s.cluster.feed q.toNat) = false)
    (hw : (s.cluster.feed q.toNat).written = []) :
    execFqset a b q s = .next (advance (s.modCluster (·.modFeed q.toNat (fun _ => { FeedQueue.reset with
      base := .ofNat 25 (readReg a s).toNat, cap := .ofNat 16 ((readReg a s).toNat / 2 ^ 32)
      vlfeed := .ofNat 16 (readReg b s).toNat, even := decide ((readReg b s).toNat / 2 ^ 16 % 2 = 1) })))) := by
  have hbase : (readReg a s).setWidth 25 = .ofNat 25 (readReg a s).toNat := (BitVec.ofNat_toNat ..).symm
  have hcap : (readReg a s >>> 32).setWidth 16 = .ofNat 16 ((readReg a s).toNat / 2 ^ 32) :=
    setWidth_ushiftRight ..
  have hvl : (readReg b s).setWidth 16 = .ofNat 16 (readReg b s).toNat := (BitVec.ofNat_toNat ..).symm
  have heven : (readReg b s).getLsbD 16 = decide ((readReg b s).toNat / 2 ^ 16 % 2 = 1) := Nat.testBit_eq_decide_div_mod_eq
  simp only [execFqset, hf, hw, hbase, hcap, hvl, heven, Bool.false_eq_true, ne_eq, not_true_eq_false, if_false]

/-- Settles O34: the arm words by what they wait for and refuse, the feed words by what the queue holds. -/
theorem armAndFeedWords : Obligations.ArmAndFeedWords := by
  unfold Obligations.ArmAndFeedWords
  intro s d a b q x y f
  refine ⟨fun ho hf => ⟨_, _, execGarm_of_sound ho hf⟩,
    fun ho hf hb => (execGarm_of_fault ho hf).trans (steerFault_of_idle hb), execGarmOff_of_ready,
    fun hf hw => ⟨_, execFqset_of_free hf hw, rfl⟩, rfl, f.advance (x.setWidth 32), rfl, FeedQueue.advance_eq x f⟩

end Sys2Proof.Machine

/-! ## The stream and launch words (14_cluster.md R293, R297 to R301, R304; 19_fabric.md R398) -/

namespace Sys2Proof.Machine

/-! ### An entry is made (R301) -/

section Entries

variable {s : State} {ctx i : Nat} {e : Nat → Entry} {also : Nat → State → State}

/-- The context of a launch word of the cluster in focus. -/
def State.launchKey (s : State) (ctx : Nat) : Nat := ctxKey (launchHandle s.clusterId ctx)

/-- A new entry stands at an index under the next number of its context, and the states of the others follow. -/
def State.withEntry (s : State) (ctx i : Nat) (e : Entry) : State :=
  ((s.modContext (s.launchKey ctx) (fun k => { k with next := k.next + 1 })).modPkg (fun p => { p with
    serials := s.pkg.serials + 1 })).modCluster (fun k => (k.addEntry i { e with age := s.pkg.serials + 1 }).refresh)

theorem createEntry_of_full (h : s.cluster.freeIndex = none) : createEntry ctx e also s = .full := by
  simp only [createEntry, h]

theorem createEntry_of_room (h : s.cluster.freeIndex = some i) : createEntry ctx e also s =
    .entry i (s.context (s.launchKey ctx)).next (also i (s.withEntry ctx i (e (s.context (s.launchKey ctx)).next))) := by
  simp only [createEntry, h]
  rfl

end Entries

/-! ### Streams (R297, R298) -/

section Streams

variable {s : State} {dst src n name : Word} {ctx i : Nat}

/-- The stream-in entry of a STRIN. -/
def streamInEntry (s : State) (dst src n : Word) (ctx num : Nat) : Entry :=
  { Entry.fresh .streamIn .ready ctx num with
    ptroot := s.cur.ptroot, super := s.cur.mode, direct := s.cluster.dispatch.isSome, src := src, dst := dst
    len := n.toNat, deadline := s.deadline }

/-- The stream-out entry of a STROUT, which releases a stream with this destination. -/
def streamOutEntry (s : State) (dst src n : Word) (target ctx num : Nat) : Entry :=
  { Entry.fresh .streamOut .waiting ctx num with
    ptroot := s.cur.ptroot, super := s.cur.mode, direct := s.cluster.dispatch.isSome, src := src, dst := dst
    len := n.toNat, target := target, deadline := s.deadline }

theorem makeStreamIn_of_bad (h : copyArgsBad dst n = true ∨ src.toNat % 64 ≠ 0) : makeStreamIn dst src n ctx s = .error 5 :=
  if_pos (by simpa only [Bool.or_eq_true, bne_iff_ne] using h)

theorem makeStreamIn_of_good (h : copyArgsBad dst n = false) (hs : src.toNat % 64 = 0) : makeStreamIn dst src n ctx s =
    createEntry ctx (streamInEntry s dst src n ctx) (fun _ t => t.clockRead) s := by
  have hgood : ¬(copyArgsBad dst n || src.toNat % 64 != 0) = true := by simp [h, hs]
  exact if_neg hgood

theorem makeStreamOut_of_bad (hn : n ≠ 0) (h : copyArgsBad dst n = true) : makeStreamOut dst name n ctx s = .error 5 :=
  if_pos ⟨hn, h⟩

section Sound

variable (h : n = 0 ∨ copyArgsBad dst n = false)

include h

/-- The arguments of a copy, where there is one, are in range. -/
theorem not_copyArgsBad : ¬(n ≠ 0 ∧ copyArgsBad dst n = true) := fun ⟨hn, hbad⟩ =>
  Bool.false_ne_true ((h.resolve_left hn).symm.trans hbad)

theorem makeStreamOut_of_dead (hdead : 64 ≤ name.toNat ∨ streamLive s.cluster name.toNat = false) :
    makeStreamOut dst name n ctx s = .error 7 := by
  refine (if_neg (not_copyArgsBad h)).trans (if_pos ?_)
  by_cases hname : 64 ≤ name.toNat
  · exact .inl hname
  · rw [Nat.mod_eq_of_lt (Nat.lt_of_not_le hname)]
    exact hdead

theorem makeStreamOut_of_live (hname : name.toNat < 64) (hlive : streamLive s.cluster name.toNat = true) :
    makeStreamOut dst name n ctx s = createEntry ctx
      (streamOutEntry s dst (((s.cluster.entry? name.toNat).map (·.dst)).getD 0) n name.toNat ctx)
      (fun _ t => (t.modCluster (·.modEntry name.toNat (fun e => { e with releasing := true }))).clockRead) s := by
  have halive : ¬(64 ≤ name.toNat ∨ streamLive s.cluster name.toNat = false) := by simp [hname, hlive]
  have hmod : name.toNat % 64 = name.toNat := Nat.mod_eq_of_lt hname
  simp only [makeStreamOut, hmod, if_neg (not_copyArgsBad h), if_neg halive]
  rfl

end Sound

end Streams

/-! ### Kernels (R299 to R301) -/

section Kernels

variable {s : State} {d a b c : BitVec 5} {x : BitVec 4} {n : Nat}

theorem execLaunch_of_error (hh : blockHeld s (readReg a s) = false) (hr : readBlock s (readReg a s) 128 = .ok n)
    (hc : launchCode (parseBlock n) (n / 2 ^ (8 * 0x5D)) (readReg a s) (readReg b s) s.cluster ≠ 0) :
    execLaunch d a b x s = retire d (launchError
      (launchCode (parseBlock n) (n / 2 ^ (8 * 0x5D)) (readReg a s) (readReg b s) s.cluster)) s.tickUp := by
  simp only [execLaunch, hh, hr, if_pos hc, Bool.false_eq_true, if_false]

theorem execLaunch_of_valid (hh : blockHeld s (readReg a s) = false) (hr : readBlock s (readReg a s) 128 = .ok n)
    (hc : launchCode (parseBlock n) (n / 2 ^ (8 * 0x5D)) (readReg a s) (readReg b s) s.cluster = 0) (hg : s.released) :
    execLaunch d a b x s = (makeKernel (parseBlock n) (readReg b s) x.toNat s.tickUp).retire d s.tickUp := by
  simp only [execLaunch, hh, hr, hc, releaseGate_of_released hg, Bool.false_eq_true, ne_eq, not_true_eq_false, if_false]

/-- LAUNCH on a task core posts its message (R293, R300). -/
theorem execLaunchRequest_of_room {f : BitVec 5} (hg : s.released) (hp : s.cluster.cqPosts = [])
    (hroom : s.cluster.cq.length + 4 ≤ 64) : execLaunchRequest d a b f c s = retire d 0 (cqPost s.clusterId
      [.ofNat 64 (0x10 * 2 ^ 56 + f.toNat * 2 ^ 48 + s.coreId % 96), readReg a s, readReg b s, readReg c s] s) := by
  have hfree : ¬(s.cluster.cqPosts ≠ [] ∨ 64 < s.cluster.cq.length + 4) := by simp [hp, Nat.not_lt.mpr hroom]
  simp only [execLaunchRequest, releaseGate_of_released hg, if_neg hfree]

/-- A message enters the cq of the cluster in focus, where none waits and there is room. -/
theorem cqPost_eq {m : List Word} (hf : s.frozenAt s.clusterId = false) (hp : s.cluster.cqPosts = [])
    (hroom : s.cluster.cq.length + 4 ≤ 64) :
    cqPost s.clusterId m s = s.modCluster (fun c => { c with cq := c.cq ++ m }) := by
  have hpost : s.modClusterAt s.clusterId (fun c => { c with cqPosts := c.cqPosts ++ [m] })
      = s.modCluster (fun c => { c with cqPosts := c.cqPosts ++ [m] }) := modClusterAt_focus rfl _
  rw [cqPost, hf, hpost, cqSettle, modClusterAt_focus (by rfl)]
  simp only [State.modCluster, hp, List.nil_append, settleCq, if_pos hroom, Bool.false_eq_true, if_false]

theorem cur_modCluster_cq (m : List Word) (s : State) : (s.modCluster (fun c => { c with cq := c.cq ++ m })).cur = s.cur := by
  by_cases h : s.agent = .control
  · rw [cur_of_control h, modCluster_cur h]
  · exact (cur_of_task (s := s.modCluster _) h).trans (cur_of_task h).symm

theorem cq_modCur (f : Steer → Steer) (s : State) : (s.modCur f).cluster.cq = s.cluster.cq := by
  unfold State.modCur
  split <;> rfl

theorem cq_advance (s : State) : (advance s).cluster.cq = s.cluster.cq := cq_modCur ..

theorem cq_writeReg (d : BitVec 5) (v : Word) (s : State) : (writeReg d v s).cluster.cq = s.cluster.cq := by
  unfold writeReg
  split
  · rfl
  · exact cq_modCur ..

end Kernels

/-- Settles O35: each word comes to an error, to a wait for an entry, or to the entry that its lemma above makes. -/
theorem launchWords : Obligations.LaunchWords := by
  unfold Obligations.LaunchWords
  intro s d a b x c u y z key num later give wait made goodOut
  refine ⟨fun h => ?_, fun hz hb => ?_, fun hg hd => ?_, fun hfull => ⟨fun hb hs => ?_, fun ⟨hg, hname, hlive⟩ => ?_⟩,
    fun i hi => ⟨fun hb hs => ?_, fun ⟨hg, hname, hlive⟩ e he => ?_⟩, fun n hheld hread => ⟨fun hc => ?_, fun hc hr hfull => ?_,
      fun hc hr i hi => ?_⟩, fun hr hf hp hroom f => ?_⟩
  · exact congrArg (Made.retire d s) (makeStreamIn_of_bad h)
  · exact congrArg (Made.retire d s) (makeStreamOut_of_bad hz hb)
  · exact congrArg (Made.retire d s) (makeStreamOut_of_dead hg hd)
  · exact congrArg (Made.retire d s) ((makeStreamIn_of_good hb hs).trans (createEntry_of_full hfull))
  · exact congrArg (Made.retire d s) ((makeStreamOut_of_live hg hname hlive).trans (createEntry_of_full hfull))
  · exact congrArg (Made.retire d s) ((makeStreamIn_of_good hb hs).trans (createEntry_of_room hi))
  · have hmade := (makeStreamOut_of_live (ctx := x.toNat) (dst := u) hg hname hlive).trans (createEntry_of_room hi)
    rw [he] at hmade
    exact congrArg (Made.retire d s) hmade
  · exact execLaunch_of_error hheld hread hc
  · exact (execLaunch_of_valid hheld hread hc hr).trans
      (congrArg (Made.retire d s.tickUp) (createEntry_of_full (s := s.tickUp) hfull))
  · exact (execLaunch_of_valid hheld hread hc hr).trans
      (congrArg (Made.retire d s.tickUp) (createEntry_of_room (s := s.tickUp) hi))
  · refine ⟨_, execLaunchRequest_of_room hr hp hroom, fun hd => ?_, ?_, ?_⟩
    · rw [readReg_advance, readReg_writeReg, if_pos ⟨rfl, hd⟩]
    · rw [cq_advance, cq_writeReg, cqPost_eq hf hp hroom, State.modCluster_cluster]
    · rw [advance_cur, writeReg_cur, cqPost_eq hf hp hroom, cur_modCluster_cq]

end Sys2Proof.Machine

/-! ## The events of the scheduler (14_cluster.md R297 to R318) -/

namespace Sys2Proof.Machine

/-! ### What the refresh of a scoreboard leaves (R304) -/

namespace Cluster

variable (c : Cluster) (i : Nat) {e : Entry}

theorem startPump_eq : ∃ l, c.startPump = { c with entries := l } := by
  unfold startPump
  split
  · exact ⟨_, rfl⟩
  · split
    · exact ⟨_, rfl⟩
    · exact ⟨_, rfl⟩

/-- Only entries change. -/
theorem refresh_eq : ∃ l, c.refresh = { c with entries := l } := startPump_eq _

theorem refresh_feed (q : Nat) : c.refresh.feed q = c.feed q := by
  obtain ⟨l, h⟩ := c.refresh_eq
  rw [h]; rfl

theorem refresh_eqPosts : c.refresh.eqPosts = c.eqPosts := by
  obtain ⟨l, h⟩ := c.refresh_eq
  rw [h]

/-- The cluster with each entry in the state that its row of R304 gives it. -/
def withStates (c : Cluster) : Cluster :=
  { c with entries := c.entries.map (fun p => (p.1, { p.2 with st := c.entryState p.1 p.2 })) }

theorem refresh_withStates : c.refresh = c.withStates.startPump := rfl

theorem entry?_withStates : c.withStates.entry? i = (c.entry? i).map (fun e => { e with st := c.entryState i e }) := by
  rw [entry?, entry?, withStates]
  induction c.entries with
  | nil => rfl
  | cons p l ih =>
    by_cases hp : p.1 = i
    · subst hp
      simp only [List.map_cons, List.find?_cons, beq_self_eq_true, Option.map_some]
    · simp only [List.map_cons, List.find?_cons, beq_false_of_ne hp]
      exact ih

theorem indices_withStates : c.withStates.indices = c.indices := List.map_map

variable {i}

theorem entry?_modEntry_of_ne {j : Nat} (f : Entry → Entry) (h : i ≠ j) : (c.modEntry j f).entry? i = c.entry? i := by
  rw [entry?, entry?, modEntry]
  induction c.entries with
  | nil => rfl
  | cons p l ih =>
    by_cases hp : p.1 = j
    · have hi : (p.1 == i) = false := beq_false_of_ne (hp ▸ h.symm)
      simp only [List.map_cons, if_pos hp, List.find?_cons, hi]
      exact ih
    · simp only [List.map_cons, if_neg hp, List.find?_cons]
      split
      · rfl
      · exact ih

variable {c}

/-- With no index used twice, each entry is the one at its index. -/
theorem entry?_of_mem (hnodup : c.indices.Nodup) {p : Nat × Entry} (hp : p ∈ c.entries) : c.entry? p.1 = some p.2 := by
  rw [indices] at hnodup
  rw [entry?]
  generalize c.entries = l at hnodup hp ⊢
  induction l with
  | nil => contradiction
  | cons q l ih =>
    rw [List.map_cons, List.nodup_cons] at hnodup
    obtain rfl | hl := List.mem_cons.mp hp
    · rw [List.find?_cons, beq_self_eq_true]
      rfl
    · have hne : (q.1 == p.1) = false :=
        beq_false_of_ne fun he => hnodup.1 (he ▸ List.mem_map_of_mem hl)
      rw [List.find?_cons, hne]
      exact ih hnodup.2 hl

/-- The pump starts no entry that is not READY. -/
theorem entry?_startPump (hnodup : c.indices.Nodup) (h : c.entry? i = some e) (hst : e.st ≠ .ready) :
    c.startPump.entry? i = some e := by
  unfold startPump
  split
  · exact h
  · split
    · next p hp =>
      have hready : p.2.st = .ready := by
        have := List.find?_some hp
        simp only [Bool.and_eq_true, beq_iff_eq] at this
        exact this.2
      have hne : i ≠ p.1 := by
        rintro rfl
        rw [entry?_of_mem hnodup (List.mem_of_find?_eq_some hp)] at h
        exact hst (Option.some.inj h ▸ hready)
      rw [entry?_modEntry_of_ne _ _ hne, h]
    · exact h

/-- An entry that is not READY afterwards stands as its row of R304 has it. -/
theorem entry?_refresh (hnodup : c.indices.Nodup) (h : c.entry? i = some e) (hst : c.entryState i e ≠ .ready) :
    c.refresh.entry? i = some { e with st := c.entryState i e } := by
  rw [refresh_withStates]
  refine entry?_startPump (c.indices_withStates ▸ hnodup) ?_ hst
  rw [entry?_withStates, h, Option.map_some]

/-- What does not depend on an entry's state is as it was. -/
theorem entry?_refresh_map {β : Type} {f : Entry → β} (hf : ∀ e st, f { e with st := st } = f e) :
    (c.refresh.entry? i).map f = (c.entry? i).map f := by
  have hstates : (c.withStates.entry? i).map f = (c.entry? i).map f := by
    rw [entry?_withStates, Option.map_map]
    exact congrArg (fun g => Option.map g (c.entry? i)) (funext fun e => hf e _)
  rw [refresh_withStates, ← hstates]
  unfold startPump
  split
  · rfl
  · split
    · next p _ =>
      by_cases hi : i = p.1
      · rw [hi, entry?_modEntry, Option.map_map]
        exact congrArg (fun g => Option.map g (c.withStates.entry? p.1)) (funext fun e => hf e _)
      · rw [entry?_modEntry_of_ne _ _ hi]
    · rfl

theorem not_mem_indices_freeEntry_of {j : Nat} (h : i ∉ c.indices) : i ∉ (c.freeEntry j).indices := fun hi =>
  h (((List.filter_sublist).map Prod.fst).subset hi)

end Cluster

/-- The cluster in focus is the one of its number. -/
theorem cluster_of_clusterId {s t : State} (h : t.clusterId = s.clusterId) : t.cluster = t.clusterAt s.clusterId :=
  h ▸ (clusterAt_self t).symm

theorem SchedulerOnly.clusterId_eq {s t : State} (h : SchedulerOnly s t) : t.clusterId = s.clusterId := by rw [h.eq]; rfl

/-! ### Readiness (R304) -/

section Readiness

variable {s : State} {n : Nat} {e : Entry} {c : Cluster} {l : List Nat}

theorem streamsState_of_failed (h : ∃ j ∈ l, ∃ y, c.entry? j = some y ∧ y.err ≠ 0) : streamsState c l = some false := by
  obtain ⟨j, hj, y, hy, herr⟩ := h
  refine if_pos (List.any_eq_true.mpr ⟨some y, List.mem_map.mpr ⟨j, hj, hy⟩, ?_⟩)
  exact bne_iff_ne.mpr herr

theorem streamsState_of_done (h : ∀ j ∈ l, ∀ y, c.entry? j = some y → y.st = .done ∧ y.err = 0) :
    streamsState c l = some true := by
  refine (if_neg fun hany => ?_).trans (if_pos (List.all_eq_true.mpr fun o ho => ?_))
  · obtain ⟨o, ho, herr⟩ := List.any_eq_true.mp hany
    obtain ⟨j, hj, rfl⟩ := List.mem_map.mp ho
    cases hy : c.entry? j with
    | none => rw [hy] at herr; contradiction
    | some y =>
      rw [hy] at herr
      exact bne_iff_ne.mp herr (h j hj y hy).2
  · obtain ⟨j, hj, rfl⟩ := List.mem_map.mp ho
    cases hy : c.entry? j with
    | none => rfl
    | some y => exact beq_iff_eq.mpr (h j hj y hy).1

/-- What the dependency of an entry comes to: an entry without one waits for none. -/
def dependencyState (s : State) (e : Entry) : Option Bool :=
  if e.block.deph = 0 then some true else (s.context (ctxKey e.block.deph)).settled e.block.depv

theorem dependencyState_of_met
    (h : e.block.deph = 0 ∨ e.block.depv.toNat ≤ (s.context (ctxKey e.block.deph)).count.toNat) :
    dependencyState s e = some true := by
  by_cases h0 : e.block.deph = 0
  · exact if_pos h0
  · exact (if_neg h0).trans (if_pos (h.resolve_left h0))

theorem kernelReady_of_met {l : Nat} (hs : streamsState (s.clusterAt l) e.streams = some true)
    (hd : dependencyState s e = some true) :
    kernelReady l n e s = s.modClusterAt l (·.modEntry n (fun e => { e with st := .ready })) := by
  refine (if_neg ?_).trans (if_pos ⟨hs, hd⟩)
  rintro (h | h)
  · rw [hs] at h; contradiction
  · exact absurd (hd.symm.trans h) (by decide)

theorem kernelReady_of_failed {l : Nat}
    (h : streamsState (s.clusterAt l) e.streams = some false ∨ dependencyState s e = some false) :
    kernelReady l n e s = entryDone l n 3 s := if_pos h

theorem execEntryReady_of_waiting (h : s.cluster.entry? n = some e) (hk : e.kind = .kernel) (hw : e.st = .waiting) :
    execEntryReady n s = .next (kernelReady s.clusterId n e s) := by
  simp only [execEntryReady, h, hk, hw, and_self, if_true]

end Readiness

/-! ### The stream pump (R297, R298) -/

/-- Nothing changes but memory, the marks and notes that go with it, and the counter of free values. -/
def MemoryOnly (s t : State) : Prop := t = { s with mem := t.mem, poison := t.poison, watches := t.watches, tick := t.tick }

namespace MemoryOnly

variable {s t u : State}

theorem refl (s : State) : MemoryOnly s s := rfl

theorem trans (h : MemoryOnly s t) (h' : MemoryOnly t u) : MemoryOnly s u := Eq.trans h' (by rw [h])

theorem eq (h : MemoryOnly s t) : t = { s with mem := t.mem, poison := t.poison, watches := t.watches, tick := t.tick } := h
theorem clusterAt_eq (h : MemoryOnly s t) (l : Nat) : t.clusterAt l = s.clusterAt l := by rw [h.eq]; rfl
theorem context_eq (h : MemoryOnly s t) (key : Nat) : t.context key = s.context key := by rw [h.eq]; rfl
theorem clusterId_eq (h : MemoryOnly s t) : t.clusterId = s.clusterId := by rw [h.eq]; rfl
theorem pkg_eq (h : MemoryOnly s t) : t.pkg = s.pkg := by rw [h.eq]
theorem fab_eq (h : MemoryOnly s t) : t.fab = s.fab := by rw [h.eq]

theorem storeMem (key n v : Nat) (s : State) : MemoryOnly s (storeMem key n v s) := by
  rw [storeMem_eq]; rfl

theorem tickUp (s : State) : MemoryOnly s s.tickUp := rfl

/-- A write of one byte reaches no register: a register block answers accesses of eight alone. -/
theorem writeLoc_one (loc : PaLoc) (v : Nat) (s : State) : MemoryOnly s (writeLoc loc 1 v s) := by
  cases loc with
  | mem key remote => exact storeMem key 1 v s
  | pkgReg off => exact refl s
  | fabReg off => exact refl s
  | bad => exact refl s

theorem engineWrite_one {cmd : Running} {die clu space v : Nat} {addr : Word}
    (h : engineWrite cmd die clu space addr 1 v s = .ok t) : MemoryOnly s t := by
  unfold engineWrite at h
  split at h
  · contradiction
  · split at h
    · contradiction
    · obtain rfl := Except.ok.inj h
      exact (writeLoc_one ..).trans (tickUp _)

end MemoryOnly

section Copy

variable {s u : State} {cmd : Running} {src dst n : Nat}

/-- One byte of a copy. -/
def copyByte (cmd : Running) (src dst i : Nat) (s : State) : EngResult State :=
  match engineRead cmd 0 0 3 (.ofNat 64 (src + i)) 1 s with
  | .error e => .error e
  | .ok v => engineWrite cmd 0 0 3 (.ofNat 64 (dst + i)) 1 v s

theorem engineCopyBytes_succ (cmd : Running) (src dst n : Nat) (p : Performed) :
    engineCopyBytes cmd src dst (n + 1) p = (engineCopyBytes cmd src dst n p).andThen (copyByte cmd src dst n) := by
  rw [engineCopyBytes, List.range_succ, List.foldl_append]
  rfl

theorem copyByte_memoryOnly {i : Nat} (h : copyByte cmd src dst i s = .ok u) : MemoryOnly s u := by
  unfold copyByte at h
  split at h
  · contradiction
  · exact .engineWrite_one h

theorem andThen_memoryOnly {p : Performed} {f : State → EngResult State} (hp : MemoryOnly s p.s)
    (hf : ∀ t u, f t = .ok u → MemoryOnly t u) : MemoryOnly s (p.andThen f).s := by
  unfold Performed.andThen
  split
  · exact hp
  · split
    · next h => exact hp.trans (hf _ _ h)
    · exact hp

theorem engineCopyBytes_memoryOnly (cmd : Running) (src dst n : Nat) (s : State) :
    MemoryOnly s (engineCopyBytes cmd src dst n ⟨s, 0⟩).s := by
  induction n with
  | zero => exact .refl s
  | succ n ih =>
    rw [engineCopyBytes_succ]
    exact andThen_memoryOnly ih fun _ _ => copyByte_memoryOnly

theorem readByte_storeMem_one (key v a : Nat) (s : State) :
    readByte (storeMem key 1 v s) a = if a = key then .ofNat 8 v else readByte s a :=
  (readByte_mem rfl a).trans (readByte_writeByte s a key _)

/-- The value that a write of a byte leaves: with a failed command below, any. -/
def Running.left (cmd : Running) (s : State) (v : Nat) : Nat := if cmd.loose then Config.freeNat s.tick % 256 ^ 1 else v

/-- A byte whose places are in reach and correctable is copied. -/
theorem copyByte_of_places {i k m : Nat} (holds : cmd.olds = []) (hpoison : s.poison = [])
    (hk : engineLoc s cmd 0 0 3 (.ofNat 64 (src + i)) 1 false = some (.mem k false))
    (hm : engineLoc s cmd 0 0 3 (.ofNat 64 (dst + i)) 1 true = some (.mem m false)) :
    copyByte cmd src dst i s = .ok (storeMem m 1 (cmd.left s (readByte s k).toNat) s).tickUp := by
  have hread : engineRead cmd 0 0 3 (.ofNat 64 (src + i)) 1 s = .ok (readByte s k).toNat := by
    simp [engineRead, hk, locPoisoned, poisoned, hpoison, remoteFails, PaLoc.remote, Running.value, holds, readLoc, readMem]
  simp [copyByte, hread, engineWrite, hm, locStorePoisoned, storePoisoned, hpoison, remoteFails, PaLoc.remote, writeLoc,
    Running.left]

end Copy

section Pump

variable {s u : State} {e : Entry} {k m : Nat → Nat} {i n : Nat}

/-- The first n bytes of a stream have been copied. -/
structure Copied (s : State) (k m : Nat → Nat) (loose : Bool) (n : Nat) (p : Performed) : Prop where
  err : p.err = 0
  only : MemoryOnly s p.s
  poison : p.s.poison = []
  other : ∀ a, (∀ j, j < n → a ≠ m j) → readByte p.s a = readByte s a
  bytes : loose = false → ∀ j, j < n → readByte p.s (m j) = readByte s (k j)

/-- Where an access of a command leads depends on what translates for it, and on its mode. -/
theorem engineLoc_congr {c d : Running} (hkey : c.key = d.key) (hroot : c.ptroot = d.ptroot) (hsuper : c.super = d.super)
    (hdirect : c.direct = d.direct) (s : State) (die clu space : Nat) (addr : Word) (size : Nat) (write : Bool) :
    engineLoc s c die clu space addr size write = engineLoc s d die clu space addr size write := by
  simp only [engineLoc, Running.translate, hkey, hroot, hsuper, hdirect]

theorem pumpCmd_engineLoc (failed : Bool) (e : Entry) (s : State) (addr : Word) (write : Bool) :
    engineLoc s (pumpCmd e failed) 0 0 3 addr 1 write = engineLoc s (pumpCmd e false) 0 0 3 addr 1 write :=
  engineLoc_congr (by rfl) (by rfl) (by rfl) (by rfl) ..

/-- One byte more is copied. -/
theorem Copied.succ {loose : Bool} {p : Performed} (h : Copied s k m loose n p) (hn : n < e.len) (hplaces : CopyPlaces s e k m)
    (hapart : ∀ i j, i < e.len → j < e.len → k i ≠ m j ∧ (m i = m j → i = j)) :
    Copied s k m loose (n + 1) (p.andThen (copyByte (pumpCmd e loose) e.src.toNat e.dst.toNat n)) := by
  have hsame : ∀ a, (∀ j, j < e.len → a ≠ m j) → readByte p.s a = readByte s a := fun a ha =>
    h.other a fun j hj => ha j (Nat.lt_trans hj hn)
  obtain ⟨hk, hm⟩ := hplaces p.s h.only.fab_eq h.only.pkg_eq h.poison hsame n hn
  have hsource : readByte p.s (k n) = readByte s (k n) := h.other _ fun j hj => (hapart n j hn (Nat.lt_trans hj hn)).1
  have hbyte : copyByte (pumpCmd e loose) e.src.toNat e.dst.toNat n p.s
      = .ok (storeMem (m n) 1 ((pumpCmd e loose).left p.s (readByte p.s (k n)).toNat) p.s).tickUp :=
    copyByte_of_places (by rfl) h.poison ((pumpCmd_engineLoc ..).trans hk) ((pumpCmd_engineLoc ..).trans hm)
  have hthen : p.andThen (copyByte (pumpCmd e loose) e.src.toNat e.dst.toNat n)
      = ⟨(storeMem (m n) 1 ((pumpCmd e loose).left p.s (readByte p.s (k n)).toNat) p.s).tickUp, 0⟩ := by
    simp only [Performed.andThen, h.err, hbyte, ne_eq, not_true_eq_false, if_false]
  have hread : ∀ a v, readByte (storeMem (m n) 1 v p.s).tickUp a = if a = m n then .ofNat 8 v else readByte p.s a :=
    fun a v => readByte_storeMem_one (m n) v a p.s
  rw [hthen]
  refine ⟨rfl, h.only.trans ((MemoryOnly.storeMem ..).trans (.tickUp _)), ?_, fun a ha => ?_, fun hl j hj => ?_⟩
  · show p.s.poison.filter _ = []
    rw [h.poison, List.filter_nil]
  · rw [hread, if_neg (ha n (Nat.lt_succ_self n))]
    exact h.other a fun j hj => ha j (Nat.lt_succ_of_lt hj)
  · obtain hlt | rfl := Nat.lt_succ_iff_lt_or_eq.mp hj
    · have hne : m j ≠ m n := fun he => Nat.ne_of_lt hlt ((hapart j n (Nat.lt_trans hlt hn) hn).2 he)
      rw [hread, if_neg hne]
      exact h.bytes hl j hlt
    · have hleft : (pumpCmd e loose).left p.s (readByte p.s (k j)).toNat = (readByte p.s (k j)).toNat := if_neg (by
        show ¬loose = true
        rw [hl]; decide)
      rw [hread, if_pos rfl, hleft, BitVec.ofNat_toNat, BitVec.setWidth_eq, hsource]

/-- A stream whose places share no byte is copied whole (R297). -/
theorem engineCopyBytes_copied {loose : Bool} (hpoison : s.poison = []) (hplaces : CopyPlaces s e k m)
    (hapart : ∀ i j, i < e.len → j < e.len → k i ≠ m j ∧ (m i = m j → i = j)) (hn : n ≤ e.len) :
    Copied s k m loose n (engineCopyBytes (pumpCmd e loose) e.src.toNat e.dst.toNat n ⟨s, 0⟩) := by
  induction n with
  | zero => exact ⟨rfl, .refl s, hpoison, fun _ _ => rfl, fun _ _ hj => absurd hj (Nat.not_lt_zero _)⟩
  | succ n ih =>
    rw [engineCopyBytes_succ]
    exact (ih (Nat.le_of_succ_le hn)).succ hn hplaces hapart

theorem pumpCopy_memoryOnly (e : Entry) (s : State) : MemoryOnly s (pumpCopy e s).s := engineCopyBytes_memoryOnly ..

theorem pumpCopy_err (e : Entry) (s : State) : (pumpCopy e s).err = 0 ∨ (pumpCopy e s).err = 4 := by
  unfold pumpCopy
  dsimp only
  split
  · exact .inl rfl
  · exact .inr rfl

theorem pumpCopy_copied (hpoison : s.poison = []) (hplaces : CopyPlaces s e k m)
    (hapart : ∀ i j, i < e.len → j < e.len → k i ≠ m j ∧ (m i = m j → i = j)) :
    Copied s k m ((s.context (entryCtx s.clusterId e)).failedBelow e.num) e.len (pumpCopy e s) := by
  have h := engineCopyBytes_copied (loose := (s.context (entryCtx s.clusterId e)).failedBelow e.num) hpoison hplaces hapart
    (Nat.le_refl _)
  exact ⟨if_pos h.err, h.only, h.poison, h.other, h.bytes⟩

/-! ### The pump completes an entry -/

/-- A stream-in entry that is done stays, with its error code (R303). -/
theorem entryDone_streamIn {l : Nat} (h : (s.clusterAt l).entry? i = some e) (hk : e.kind = .streamIn)
    (hnodup : (s.clusterAt l).indices.Nodup) (err : BitVec 8) :
    ((entryDone l i err s).clusterAt l).entry? i = some { e with st := .done, err := err } := by
  let c := (s.clusterAt l).modEntry i (fun e => { e with st := .done, err := err })
  have hentry : c.entry? i = some { e with st := .done, err := err } := by rw [Cluster.entry?_modEntry, h, Option.map_some]
  have hstate : c.entryState i { e with st := .done, err := err } = .done := by simp only [Cluster.entryState, hk]
  have hdone : (entryDone l i err s).clusterAt l = c.refresh := by
    simp only [entryDone, h, hk, clusterAt_modClusterAt, if_true]
    rfl
  rw [hdone, Cluster.entry?_refresh ((Cluster.indices_modEntry ..).symm ▸ hnodup) hentry (by rw [hstate]; decide), hstate]

/-- A stream-out entry that is done is freed with the stream that it releases (R298). -/
theorem entryDone_streamOut {l : Nat} (h : (s.clusterAt l).entry? i = some e) (hk : e.kind = .streamOut) (err : BitVec 8) :
    ((entryDone l i err s).clusterAt l).entry? i = none ∧ ((entryDone l i err s).clusterAt l).entry? e.target = none := by
  have hdone : (entryDone l i err s).clusterAt l = (((s.clusterAt l).freeEntry i).freeEntry e.target).refresh := by
    simp only [entryDone, h, hk, clusterAt_modClusterAt, if_true]
    rfl
  rw [hdone, Cluster.entry?_eq_none, Cluster.entry?_eq_none, Cluster.indices_refresh]
  exact ⟨Cluster.not_mem_indices_freeEntry_of (Cluster.not_mem_indices_freeEntry _ _),
    Cluster.not_mem_indices_freeEntry _ _⟩

theorem execStreamPumpTransfer_of_running (h : s.cluster.entry? i = some e) (hk : e.kind = .streamIn) (hst : e.st = .running) :
    execStreamPumpTransfer i s = .next (entryDone s.clusterId i (pumpCopy e s).err (pumpCopy e s).s) := by
  simp only [execStreamPumpTransfer, h, hk, hst, and_self, if_true]

/-- What a stream-out comes to: of length 0 it copies nothing. -/
def streamOutCopy (e : Entry) (s : State) : Performed := if e.len = 0 then ⟨s, 0⟩ else pumpCopy e s

theorem streamOutCopy_memoryOnly (e : Entry) (s : State) : MemoryOnly s (streamOutCopy e s).s := by
  unfold streamOutCopy
  split
  · exact .refl s
  · exact pumpCopy_memoryOnly e s

theorem execStreamOutCopy_of_running (h : s.cluster.entry? i = some e) (hk : e.kind = .streamOut) (hst : e.st = .running) :
    execStreamOutCopy i s = .next (entryDone s.clusterId i (streamOutCopy e s).err (streamOutCopy e s).s) := by
  simp only [execStreamOutCopy, h, hk, hst, and_self, if_true]
  rfl

section After

variable (hu : MemoryOnly s u) (err : BitVec 8)

include hu

/-- Memory alone has changed: the entry stands as it did. -/
theorem MemoryOnly.entry? (h : s.cluster.entry? i = some e) : (u.clusterAt s.clusterId).entry? i = some e := by
  rw [hu.clusterAt_eq, clusterAt_self, h]

theorem entryDone_cluster : (entryDone s.clusterId i err u).cluster = (entryDone s.clusterId i err u).clusterAt s.clusterId :=
  cluster_of_clusterId ((SchedulerOnly.entryDone ..).clusterId_eq.trans hu.clusterId_eq)

/-- The context records the entry that the pump completes, and memory is as the copy leaves it. -/
theorem entryDone_after (h : s.cluster.entry? i = some e) :
    (entryDone s.clusterId i err u).context (entryCtx s.clusterId e) = (s.context (entryCtx s.clusterId e)).finish e.num err
      ∧ (entryDone s.clusterId i err u).mem = u.mem := by
  rw [entryDone_context (hu.entry? h), hu.context_eq]
  exact ⟨rfl, (SchedulerOnly.entryDone ..).mem_eq⟩

end After

/-- The pump has copied a stream-in: its entry is DONE with the copy's error (R297, R303). -/
theorem streamPumpTransfer_completes (h : s.cluster.entry? i = some e) (hk : e.kind = .streamIn) (hst : e.st = .running)
    (hnodup : s.cluster.indices.Nodup) : ∃ t, execStreamPumpTransfer i s = .next t
      ∧ t.cluster.entry? i = some { e with st := .done, err := (pumpCopy e s).err }
      ∧ t.context (entryCtx s.clusterId e) = (s.context (entryCtx s.clusterId e)).finish e.num (pumpCopy e s).err
      ∧ t.mem = (pumpCopy e s).s.mem := by
  have honly := pumpCopy_memoryOnly e s
  refine ⟨_, execStreamPumpTransfer_of_running h hk hst, ?_, entryDone_after honly _ h⟩
  rw [entryDone_cluster honly]
  refine entryDone_streamIn (honly.entry? h) hk ?_ _
  rw [honly.clusterAt_eq, clusterAt_self]
  exact hnodup

/-- It has copied a stream-out: both entries are freed (R298). -/
theorem streamOutCopy_completes (h : s.cluster.entry? i = some e) (hk : e.kind = .streamOut) (hst : e.st = .running) :
    ∃ t, execStreamOutCopy i s = .next t ∧ t.cluster.entry? i = none ∧ t.cluster.entry? e.target = none
      ∧ t.context (entryCtx s.clusterId e) = (s.context (entryCtx s.clusterId e)).finish e.num (streamOutCopy e s).err
      ∧ t.mem = (streamOutCopy e s).s.mem := by
  have honly := streamOutCopy_memoryOnly e s
  obtain ⟨hfreed, hreleased⟩ := entryDone_streamOut (honly.entry? h) hk (streamOutCopy e s).err
  refine ⟨_, execStreamOutCopy_of_running h hk hst, ?_, ?_, entryDone_after honly _ h⟩
  · rw [entryDone_cluster honly]
    exact hfreed
  · rw [entryDone_cluster honly]
    exact hreleased

end Pump

end Sys2Proof.Machine

namespace Sys2Proof.Machine

theorem modCoreAt_coreId (c : Nat) (f : Core → Core) (s : State) : (s.modCoreAt c f).coreId = s.coreId := by
  unfold State.modCoreAt State.setCoreAt
  split <;> rfl

theorem modCoreAt_cluster (c : Nat) (f : Core → Core) (s : State) : (s.modCoreAt c f).cluster = s.cluster := by
  unfold State.modCoreAt State.setCoreAt
  split <;> rfl

/-! ### A cluster with one entry, a kernel that runs in no shares (R302, R304) -/

section OneKernel

variable {s : State} {c : Cluster} {l n : Nat} {e : Entry}

/-- A cluster whose scoreboard holds one kernel, which its own Fantail places. -/
structure Cluster.OneKernel (c : Cluster) (n : Nat) (e : Entry) : Prop where
  entries : c.entries = [(n, e)]
  kernel : e.kind = .kernel
  whole : e.block.cmask = 0

theorem Cluster.OneKernel.entry? (h : c.OneKernel n e) : c.entry? n = some e := by
  simp only [Cluster.entry?, h.entries, List.find?_cons, beq_self_eq_true, Option.map_some]

theorem Cluster.OneKernel.modEntry (h : c.OneKernel n e) {f : Entry → Entry} (hkernel : (f e).kind = .kernel)
    (hwhole : (f e).block.cmask = 0) : (c.modEntry n f).OneKernel n (f e) :=
  ⟨by simp only [Cluster.modEntry, h.entries, List.map_cons, List.map_nil, if_true], hkernel, hwhole⟩

/-- Its state is refreshed, and the pump finds no stream. -/
theorem Cluster.OneKernel.refresh (h : c.OneKernel n e) :
    c.refresh = { c with entries := [(n, { e with st := c.entryState n e })] } := by
  simp only [Cluster.refresh, Cluster.startPump, h.entries, List.map_cons, List.map_nil, List.any_cons, List.any_nil,
    List.find?_cons, List.find?_nil, Entry.isStream, h.kernel]
  rfl

theorem Cluster.OneKernel.refreshed (h : c.OneKernel n e) : c.refresh.OneKernel n { e with st := c.entryState n e } :=
  ⟨by rw [h.refresh], h.kernel, h.whole⟩

theorem Cluster.OneKernel.modEntry_self (h : c.OneKernel n e) {f : Entry → Entry} (hf : f e = e) : c.modEntry n f = c := by
  simp only [Cluster.modEntry, h.entries, List.map_cons, List.map_nil, if_true, hf]
  rw [← h.entries]

/-- A kernel that runs in no shares follows no proxies. -/
theorem refreshHome_one (h : (s.clusterAt l).OneKernel n e) : (refreshHome l n s).clusterAt l = s.clusterAt l := by
  unfold refreshHome
  split
  · rfl
  · rw [clusterAt_modClusterAt, if_pos rfl]
    exact h.modEntry_self (if_neg fun hshares => hshares.2.1 h.whole)

theorem refreshEntries_one (h : (s.clusterAt l).OneKernel n e) : (refreshEntries l s).clusterAt l = (s.clusterAt l).refresh := by
  have hcluster : (s.modClusterAt l Cluster.refresh).clusterAt l = (s.clusterAt l).refresh := by
    rw [clusterAt_modClusterAt, if_pos rfl]
  have hone := hcluster ▸ h.refreshed
  have hkernel : ¬e.kind = .proxy := by rw [h.kernel]; decide
  simp only [refreshEntries, hone.entries, List.foldl_cons, List.foldl_nil, if_neg hkernel]
  rw [refreshHome_one hone, hcluster]

end OneKernel

/-! ### Fantail (R308 to R313) -/

section Fantail

variable {s t : State} {c : Cluster} {l n core : Nat} {e : Entry} {cores : List Nat} {bars : List (Option Nat)}

/-- The tasks of a group's slots go onto their cores, under the handle of their launch (R313). -/
def loadGroup (l : Nat) (handle : Word) (e : Entry) (cores : List Nat) (bars : List (Option Nat)) (s : State) : State :=
  ((List.range cores.length).zip cores).foldl (fun t p => t.modCoreAt p.2 (fun k => k.issue (s.clusterAt l) e.block
    (newTask e.block handle (s.pkg.serials + 1 + p.1) e.next p.1
      (bars.getD (p.1 / e.block.levelSize e.block.bsc) none)) e.overdue)) s

/-- The group as it is placed. -/
def groupOn (i : Nat) (e : Entry) (cores : List Nat) (bars : List (Option Nat)) (stamp serials : Nat) : PlacedGroup :=
  { entry := i, index := e.next, order := stamp, bars := bars, nbar := e.block.nbar.toNat
    perBar := e.block.levelSize e.block.bsc, power := e.block.power.toNat, overdue := e.overdue
    tasks := ((List.range cores.length).zip cores).map (fun p =>
      GangTask.placed p.2 (e.block.widOf (e.next * e.block.gang + p.1)) (serials + 1 + p.1)) }

/-- A group on its cores has no task saved. -/
theorem groupOn_not_saved (i : Nat) (e : Entry) (cores : List Nat) (bars : List (Option Nat)) (stamp serials : Nat) :
    (groupOn i e cores bars stamp serials).isSaved = false := by
  have hnone : ((groupOn i e cores bars stamp serials).tasks).any GangTask.isSaved = false := by
    rw [List.any_eq_false]
    intro t ht
    obtain ⟨p, -, rfl⟩ := List.mem_map.mp ht
    exact Bool.false_ne_true
  rw [PlacedGroup.isSaved, hnone, Bool.false_and]

/-- An entry whose next group has been placed. -/
def Entry.issuedGroup (e : Entry) : Entry := { e with next := e.next + 1, st := .issuing, overdue := false }

theorem loadGroup_clusterAt (l k : Nat) (handle : Word) (e : Entry) (cores : List Nat) (bars : List (Option Nat)) (s : State) :
    (loadGroup l handle e cores bars s).clusterAt k = s.clusterAt k :=
  foldl_keeps (·.clusterAt k) (fun _ _ => clusterAt_modCoreAt ..) _ s

theorem loadGroup_clusterId (l : Nat) (handle : Word) (e : Entry) (cores : List Nat) (bars : List (Option Nat)) (s : State) :
    (loadGroup l handle e cores bars s).clusterId = s.clusterId := by
  refine foldl_keeps (·.clusterId) (fun u p => ?_) _ s
  exact congrArg clusterOf (modCoreAt_coreId ..)

/-- A group stands in its cluster, with these barriers. -/
def standGroup (i : Nat) (g : PlacedGroup) (barriers : Sp Word) (c : Cluster) : Cluster :=
  Cluster.modEntry i Entry.issuedGroup { c with
    groups := c.groups ++ [g], stamp := c.stamp + 1, barriers := barriers, reserved := c.reserved.filter (fun p => p.2 != i) }

/-- The home of an entry issues from its first group on. -/
def homeIssues (age : Nat) (h : Entry) : Entry := if h.st = .ready ∧ h.age = age then { h with st := .issuing } else h

theorem homeIssues_issuedGroup (age : Nat) (e : Entry) : homeIssues age e.issuedGroup = e.issuedGroup :=
  if_neg fun h => EntryState.noConfusion h.1

/-- A group of a kernel entry is installed: on its cores, then in clusters and the package. -/
theorem installGroup_eq (h : (s.clusterAt l).OneKernel n e) (cores : List Nat) (bars : List (Option Nat)) :
    ∃ barriers, installGroup l n e cores bars s = refreshEntries l
      ((((loadGroup l (launchHandle l e.ctx) e cores bars s).modClusterAt l
          (standGroup n (groupOn n e cores bars (s.clusterAt l).stamp s.pkg.serials) barriers)).modPkg (fun p => { p with
            serials := p.serials + cores.length })).modClusterAt l (·.modEntry n (homeIssues e.age))) := by
  simp only [installGroup, homeOf_kernel h.entry? h.kernel]
  exact ⟨_, rfl⟩

/-- What that leaves of the cores, and of the cluster before the states of the entries follow. -/
theorem installGroup_placed (h : (s.clusterAt l).OneKernel n e) (cores : List Nat) (bars : List (Option Nat)) :
    ∃ u, installGroup l n e cores bars s = refreshEntries l u
      ∧ SchedulerOnly (loadGroup l (launchHandle l e.ctx) e cores bars s) u
      ∧ (u.clusterAt l).OneKernel n e.issuedGroup
      ∧ (u.clusterAt l).groups = (s.clusterAt l).groups ++ [groupOn n e cores bars (s.clusterAt l).stamp s.pkg.serials] := by
  obtain ⟨barriers, heq⟩ := installGroup_eq h cores bars
  have hload := loadGroup_clusterAt l l (launchHandle l e.ctx) e cores bars s
  let g := groupOn n e cores bars (s.clusterAt l).stamp s.pkg.serials
  let v := ((loadGroup l (launchHandle l e.ctx) e cores bars s).modClusterAt l (standGroup n g barriers)).modPkg (fun p =>
    { p with serials := p.serials + cores.length })
  have hadded : v.clusterAt l = standGroup n g barriers (s.clusterAt l) :=
    (clusterAt_modClusterAt ..).trans ((if_pos rfl).trans (congrArg _ hload))
  have hplaced : (v.modClusterAt l (·.modEntry n (homeIssues e.age))).clusterAt l
      = (standGroup n g barriers (s.clusterAt l)).modEntry n (homeIssues e.age) := by
    rw [clusterAt_modClusterAt, if_pos rfl, hadded]
  have hone : (standGroup n g barriers (s.clusterAt l)).OneKernel n e.issuedGroup := by
    refine Cluster.OneKernel.modEntry (f := Entry.issuedGroup) (e := e) ?_ h.kernel h.whole
    exact ⟨h.entries, h.kernel, h.whole⟩
  have hsame := homeIssues_issuedGroup e.age e
  refine ⟨_, heq, (SchedulerOnly.modClusterAt ..).trans ((SchedulerOnly.modPkg ..).trans (.modClusterAt ..)), ?_, ?_⟩
  · rw [hplaced, ← hsame]
    exact hone.modEntry (hsame.symm ▸ h.kernel) (hsame.symm ▸ h.whole)
  · rw [hplaced]
    rfl

/-- The one task of a group of one is issued to its core (R313). -/
theorem loadGroup_one (l core : Nat) (handle : Word) (e : Entry) (bars : List (Option Nat)) (s : State) :
    (loadGroup l handle e [core] bars s).coreAt core = (s.coreAt core).issue (s.clusterAt l) e.block
      (newTask e.block handle (s.pkg.serials + 1) e.next 0 (bars.getD 0 none)) e.overdue := by
  simp only [loadGroup, List.length_singleton, List.range_one, List.zip_cons_cons, List.zip_nil_left, List.foldl_cons,
    List.foldl_nil, coreAt_modCoreAt, if_true, Nat.add_zero, Nat.zero_div]

/-- An entry whose groups are all placed and run leaves Fantail nothing to place. -/
theorem fantailStep_of_unplaceable (h : ∀ p ∈ (s.clusterAt l).entries, placeable (s.clusterAt l) p.1 p.2 = false) :
    fantailStep l s = none := by
  have hfirst : overdueFirst (s.clusterAt l) = none :=
    List.find?_eq_none.mpr fun p hp => by rw [h p hp, Bool.and_false]; decide
  have hlist : (s.clusterAt l).entries.filter (fun p => placeable (s.clusterAt l) p.1 p.2) = [] :=
    List.filter_eq_nil_iff.mpr fun p hp => by rw [h p hp]; decide
  have hcandidates : candidates (s.clusterAt l) = [] := by rw [candidates, hlist]; rfl
  simp only [fantailStep, hfirst, hcandidates, List.findSome?_nil, ite_self]

theorem fantailLoop_of_none (h : fantailStep l s = none) (k : Nat) : fantailLoop l k s = s := by
  cases k with
  | zero => rfl
  | succ k => simp only [fantailLoop, h]

/-- The entry of a group that was its last, once it runs. -/
def Entry.lastIssued (e : Entry) : Entry := { e.issuedGroup with st := .running }

section NoneSaved

variable (hs : ∀ g ∈ c.groups, g.isSaved = false)

include hs

theorem savedGroups_of_noneSaved (i : Nat) : savedGroups c i = [] := by
  have hnone : c.groups.filter (fun g => g.entry == i && g.isSaved) = [] :=
    List.filter_eq_nil_iff.mpr fun g hg => by rw [hs g hg, Bool.and_false]; decide
  rw [savedGroups, hnone]
  rfl

/-- With its last group placed, and none saved, an entry issues no more. -/
theorem issues_of_last (hfeed : e.block.feed = false) (hlast : e.next = e.upTo) (i : Nat) : c.issues i e = false := by
  have hnone : c.groups.any (fun g => g.entry == i && g.isSaved) = false :=
    List.any_eq_false.mpr fun g hg => by rw [hs g hg, Bool.and_false]; decide
  have hend : e.lastGroup = e.upTo := by rw [Entry.lastGroup, hfeed, Bool.and_false]; rfl
  rw [Cluster.issues, hnone, hend, hlast, Bool.or_false]
  exact decide_eq_false (Nat.lt_irrefl _)

/-- Nor has it a group to be placed. -/
theorem placeable_of_last (hlast : e.next = e.upTo) (i : Nat) : placeable c i e = false := by
  rw [placeable, savedGroups_of_noneSaved hs, hlast, decide_eq_false (Nat.lt_irrefl _)]
  exact Bool.and_false _

end NoneSaved

/-- The last group of a kernel entry is placed: it runs, and nothing of it is left to place (R304). -/
theorem installGroup_last (h : (s.clusterAt l).OneKernel n e) (hg : (s.clusterAt l).groups = []) (hfeed : e.block.feed = false)
    (hlast : e.next + 1 = e.upTo) (cores : List Nat) (bars : List (Option Nat)) :
    let t := installGroup l n e cores bars s
    SchedulerOnly (loadGroup l (launchHandle l e.ctx) e cores bars s) t ∧ (t.clusterAt l).OneKernel n e.lastIssued
      ∧ placeable (t.clusterAt l) n e.lastIssued = false := by
  obtain ⟨u, heq, honly, hone, hgroups⟩ := installGroup_placed h cores bars
  have hsaved : ∀ g ∈ (u.clusterAt l).groups, g.isSaved = false := by
    rw [hgroups, hg]
    exact List.forall_mem_singleton.mpr (groupOn_not_saved ..)
  have hissues : (u.clusterAt l).issues n e.issuedGroup = false := issues_of_last (e := e.issuedGroup) hsaved hfeed hlast n
  have hstate : (u.clusterAt l).entryState n e.issuedGroup = .running := by
    have hkind : e.issuedGroup.kind = .kernel := h.kernel
    have hmask : e.issuedGroup.block.cmask = 0 := h.whole
    have hst : e.issuedGroup.st = .issuing := rfl
    simp only [Cluster.entryState, hkind, hst, hmask, hissues, ne_eq, not_true_eq_false, Bool.false_eq_true, if_false]
  have hcluster : (installGroup l n e cores bars s).clusterAt l = { u.clusterAt l with entries := [(n, e.lastIssued)] } := by
    rw [heq, refreshEntries_one hone, hone.refresh, hstate]
    rfl
  refine ⟨heq ▸ honly.trans (.refreshEntries ..), ?_, ?_⟩
  · rw [hcluster]
    exact ⟨rfl, h.kernel, h.whole⟩
  · rw [hcluster]
    exact placeable_of_last (c := { u.clusterAt l with entries := [(n, e.lastIssued)] }) hsaved hlast n

/-- With no barriers none is allotted. -/
theorem allotBars_zero (k : Nat) (used : List Nat) : ∃ bars, allotBars 0 k used = some bars := by
  induction k with
  | zero => exact ⟨[], rfl⟩
  | succ k ih =>
    obtain ⟨bars, h⟩ := ih
    exact ⟨none :: bars, by rw [allotBars, if_pos rfl, h]; rfl⟩

/-- What the one kernel of a cluster, of a group of one task, asks for its next group to fit (R308, R309). -/
structure FitsOne (s : State) (l n core : Nat) (e : Entry) : Prop extends (s.clusterAt l).OneKernel n e where
  ready : e.st = .ready
  gang : e.block.gang = 1
  nbar : e.block.nbar = 0
  prio : e.block.prio.toNat ≤ 3
  feed : e.block.feed = false
  last : e.next + 1 = e.upTo
  onTime : e.overdue = false
  groups : (s.clusterAt l).groups = []
  free : (freeCores s l n).head? = some core
  power : e.block.power.toNat ≤ (s.clusterAt l).grant.toNat
  unheld : clusterHeld s l = false

namespace FitsOne

theorem savedGroups_eq (h : FitsOne s l n core e) : savedGroups (s.clusterAt l) n = [] :=
  savedGroups_of_noneSaved (fun _ hg => absurd (h.groups ▸ hg) List.not_mem_nil) n

theorem placeable_eq (h : FitsOne s l n core e) : placeable (s.clusterAt l) n e = true := by
  have hnext : e.next < e.upTo := Nat.lt_of_succ_le (Nat.le_of_eq h.last)
  simp [placeable, Entry.places, h.kernel, h.whole, h.ready, hnext]

/-- It is the only candidate. -/
theorem candidates_eq (h : FitsOne s l n core e) : candidates (s.clusterAt l) = [(n, e)] := by
  have hlist : (s.clusterAt l).entries.filter (fun p => placeable (s.clusterAt l) p.1 p.2) = [(n, e)] := by
    rw [h.entries, List.filter_singleton, h.placeable_eq]; rfl
  have hprio := h.prio
  have hclass : e.block.prio.toNat = 3 ∨ e.block.prio.toNat = 2 ∨ e.block.prio.toNat = 1 ∨ e.block.prio.toNat = 0 := by omega
  simp only [candidates, hlist, List.flatMap_cons, List.flatMap_nil, List.filter_singleton]
  obtain hk | hk | hk | hk := hclass <;> rw [hk] <;> rfl

theorem overdueFirst_eq (h : FitsOne s l n core e) : overdueFirst (s.clusterAt l) = none := by
  simp [overdueFirst, h.entries, h.onTime]

theorem freeCores_take (h : FitsOne s l n core e) : (freeCores s l n).take e.block.gang = [core] := by
  rw [h.gang]
  obtain ⟨rest, hrest⟩ := List.head?_eq_some_iff.mp h.free
  rw [hrest]
  rfl

theorem powerFits_eq (h : FitsOne s l n core e) : powerFits s l e.block.gang e = true := by
  have huse : clusterUse s l = 0 := by rw [clusterUse, h.groups]; rfl
  simp [powerFits, h.gang, huse, h.power]

/-- The group is placed on the lowest free core. -/
theorem placeNext_eq (h : FitsOne s l n core e) : ∃ bars, placeNext l n e s = some (installGroup l n e [core] bars s) := by
  obtain ⟨bars, hbars⟩ := allotBars_zero (e.block.gang / e.block.levelSize e.block.bsc) (barriersUsed (s.clusterAt l))
  have hproxy : ¬(e.kind = .proxy ∧ clusterStopped s e.home.1 = true) := by rw [h.kernel]; simp
  have hnbar : e.block.nbar.toNat = 0 := by rw [h.nbar]; rfl
  have hfits : ¬([core].length < e.block.gang ∨ powerFits s l e.block.gang e = false) := by
    rw [h.powerFits_eq, h.gang]; simp
  refine ⟨bars, ?_⟩
  simp only [placeNext, if_neg hproxy, h.savedGroups_eq, placeNew, h.freeCores_take, if_neg hfits, hnbar, hbars, Option.map_some]

theorem fantailStep_eq (h : FitsOne s l n core e) : ∃ bars, fantailStep l s = some (installGroup l n e [core] bars s) := by
  obtain ⟨bars, hplace⟩ := h.placeNext_eq
  refine ⟨bars, ?_⟩
  simp only [fantailStep, h.unheld, h.overdueFirst_eq, h.candidates_eq, List.findSome?_cons, hplace, Bool.false_eq_true, if_false]

/-- Fantail places the group, and then finds nothing to place. -/
theorem fantailLoop_eq (h : FitsOne s l n core e) (k : Nat) :
    ∃ bars, fantailLoop l (k + 1) s = installGroup l n e [core] bars s := by
  obtain ⟨bars, hstep⟩ := h.fantailStep_eq
  obtain ⟨-, hone, hplaced⟩ := installGroup_last h.toOneKernel h.groups h.feed h.last [core] bars
  have hnone : fantailStep l (installGroup l n e [core] bars s) = none := by
    refine fantailStep_of_unplaceable fun p hp => ?_
    rw [hone.entries] at hp
    obtain rfl := List.mem_singleton.mp hp
    exact hplaced
  refine ⟨bars, ?_⟩
  simp only [fantailLoop, hstep, fantailLoop_of_none hnone]

end FitsOne

/-- A kernel that runs in no shares hands none out. -/
theorem handShares_one (h : (s.clusterAt l).OneKernel n e) (k : Nat) : handShares l n k s = s := by
  have hnone : handShare l n s = none := by
    simp only [handShare, h.entry?, h.whole, true_or, or_true, if_true]
  cases k with
  | zero => rfl
  | succ k => simp only [handShares, hnone]

/-- With no core reserved, none is parked. -/
theorem parkReserved_of_nil (h : s.cluster.reserved = []) : parkReserved s.clusterId s = s := by
  have hdrop : dropReserved s.cluster = s.cluster := by
    rw [dropReserved, h, List.filter_nil, ← h]
  have hsame : s.modClusterAt s.clusterId dropReserved = s := by
    rw [modClusterAt_focus rfl, State.modCluster, hdrop]
  simp only [parkReserved, hsame, clusterAt_self, h, List.foldl_nil]

theorem execFantailRun_of_fits (h : FitsOne s s.clusterId n core e) (hr : s.cluster.reserved = []) :
    ∃ bars, execFantailRun s = .next (installGroup s.clusterId n e [core] bars s) := by
  have hentries : s.cluster.entries = [(n, e)] := clusterAt_self s ▸ h.entries
  obtain ⟨bars, hloop⟩ := h.fantailLoop_eq 255
  refine ⟨bars, ?_⟩
  simp only [execFantailRun, hentries, List.map_cons, List.map_nil, List.foldl_cons, List.foldl_nil,
    handShares_one h.toOneKernel, parkReserved_of_nil hr, hloop]

/-- The group's task starts at the block's entry on the core, and the entry runs (R309, R313). -/
theorem fantailRun_starts (h : FitsOne s s.clusterId n core e) (hr : s.cluster.reserved = []) :
    ∃ t, execFantailRun s = .next t ∧ (t.coreAt core).run = .running
      ∧ (t.coreAt core).steer.pc = e.block.entry ∧ (t.coreAt core).task.wid = e.block.widOf e.next
      ∧ (t.coreAt core).task.cwaddr = e.block.cwaddr ∧ (t.coreAt core).steer.mode = false
      ∧ (t.cluster.entry? n).map (fun x => (x.st, x.next)) = some (.running, e.upTo) := by
  obtain ⟨bars, hexec⟩ := execFantailRun_of_fits h hr
  obtain ⟨honly, hone, -⟩ := installGroup_last h.toOneKernel h.groups h.feed h.last [core] bars
  have hcore := (honly.coreAt_eq core).trans (loadGroup_one ..)
  have hid : (installGroup s.clusterId n e [core] bars s).clusterId = s.clusterId :=
    honly.clusterId_eq.trans (loadGroup_clusterId ..)
  refine ⟨_, hexec, ?_⟩
  rw [hcore, cluster_of_clusterId hid, hone.entry?]
  refine ⟨rfl, rfl, ?_, rfl, rfl, ?_⟩
  · show e.block.widOf (e.next * e.block.gang + 0) = _
    rw [h.gang, Nat.mul_one, Nat.add_zero]
  · have hnext : e.lastIssued.next = e.upTo := h.last
    rw [Option.map_some, hnext]
    rfl

end Fantail

/-! ### Pre-emption for priority (R311) -/

section Preemption

variable {s : State} {n : Nat} {e : Entry}

theorem execOverdue_of_placeable (h : s.cluster.entry? n = some e) (hp : placeable s.cluster n e = true)
    (hh : clusterHeld s s.clusterId = false) :
    execOverdue n s = .next (s.modCluster (·.modEntry n (fun x => { x with overdue := true }))) := by
  simp only [execOverdue, h, hp, hh, and_self, if_true]

/-- The groups of lower classes that an entry's next group chooses. -/
def chosenGroups (s : State) (n : Nat) (e : Entry) : List PlacedGroup :=
  chooseGroups (lowerGroups s.cluster e.block.prio.toNat) (coresLacked s s.clusterId n e)

/-- Their cores. -/
def chosenCores (s : State) (n : Nat) (e : Entry) : List Nat := (chosenGroups s n e).flatMap PlacedGroup.cores

theorem execPriorityPreemption_of_fits (h : s.cluster.entry? n = some e) (hp : placeable s.cluster n e = true)
    (hh : clusterHeld s s.clusterId = false) (hpre : e.block.preempt = true) (hl : coresLacked s s.clusterId n e ≠ 0)
    (hw : powerFits s s.clusterId (nextSize s.cluster n e) e = true)
    (hc : coresLacked s s.clusterId n e ≤ (chosenCores s n e).length)
    (hs : slotsPromised s s.cluster + (chosenCores s n e).length ≤ (freeSlots s.cluster).length) :
    execPriorityPreemption n s = .next (((chosenGroups s n e).foldl (fun t g => requestGroup g t) s).modCluster (fun c =>
      { c with reserved := c.reserved ++ (chosenCores s n e).map (fun k => (k, n)) })) := by
  have hfits : ¬(e.block.preempt = false ∨ clusterHeld s s.clusterId ∨ placeable s.cluster n e = false
      ∨ coresLacked s s.clusterId n e = 0 ∨ powerFits s s.clusterId (nextSize s.cluster n e) e = false
      ∨ (chosenCores s n e).length < coresLacked s s.clusterId n e
      ∨ (freeSlots s.cluster).length < slotsPromised s s.cluster + (chosenCores s n e).length) := by
    simp [hpre, hh, hp, hl, hw, Nat.not_lt.mpr hc, Nat.not_lt.mpr hs]
  simp only [execPriorityPreemption, h]
  exact if_neg hfits

/-- The cores that run a task of a group. -/
def PlacedGroup.runningOn (g : PlacedGroup) : List Nat := (g.tasks.filter (fun t => decide (t.place = .running))).map (·.core)

/-- Requests for several groups stand at all their cores. -/
theorem foldl_requestGroup (gs : List PlacedGroup) (s : State) :
    gs.foldl (fun t g => requestGroup g t) s = requestAll (gs.flatMap PlacedGroup.runningOn) s := by
  induction gs generalizing s with
  | nil => rfl
  | cons g gs ih =>
    rw [List.foldl_cons, ih, requestGroup_eq, List.flatMap_cons, requestAll, requestAll, requestAll, List.foldl_append]
    rfl

theorem requestAll_cluster (l : List Nat) (s : State) : (requestAll l s).cluster = s.cluster := by
  induction l generalizing s with
  | nil => rfl
  | cons c l ih =>
    exact (ih _).trans (modCoreAt_cluster ..)

/-- A core that runs a task of one of the groups has a request. -/
theorem coreAt_requestGroups {gs : List PlacedGroup} {g : PlacedGroup} {u : GangTask} (hg : g ∈ gs) (hu : u ∈ g.tasks)
    (hp : u.place = .running) (hr : (s.coreAt u.core).run = .running) :
    ((requestAll (gs.flatMap PlacedGroup.runningOn) s).coreAt u.core).preq = true := by
  have hmem : u.core ∈ gs.flatMap PlacedGroup.runningOn :=
    List.mem_flatMap.mpr ⟨g, hg, List.mem_map.mpr ⟨u, List.mem_filter.mpr ⟨hu, decide_eq_true hp⟩, rfl⟩⟩
  have hreq : (s.coreAt u.core).requested = { s.coreAt u.core with preq := true } := if_pos (.inl hr)
  rw [coreAt_requestAll, if_pos hmem, hreq]

end Preemption

/-! ### Feed crossings (R318; 06_issue.md R156) -/

/-- The core in focus stays, and the cluster in focus changes in the events that wait for saved tasks alone. -/
structure Posted (s t : State) : Prop where
  coreId : t.coreId = s.coreId
  cluster : ∃ l, t.cluster = { s.cluster with eqPosts := l }

namespace Posted

variable {s t u : State}

theorem refl (s : State) : Posted s s := ⟨rfl, _, rfl⟩

theorem of_eq (hi : t.coreId = s.coreId) (hc : t.cluster = s.cluster) : Posted s t := ⟨hi, s.cluster.eqPosts, hc⟩

theorem ite {c : Prop} {_ : Decidable c} (h : Posted s t) (h' : Posted s u) : Posted s (if c then t else u) := by
  split
  · exact h
  · exact h'

theorem waits (l : Nat) (p : Nat × Word) (s : State) :
    Posted s (s.modClusterAt l (fun c => { c with eqPosts := c.eqPosts ++ [p] })) := by
  by_cases hl : l = s.clusterId
  · rw [modClusterAt_focus hl]
    exact ⟨rfl, _, rfl⟩
  · rw [State.modClusterAt, State.setClusterAt, if_neg hl]
    exact of_eq rfl rfl

theorem modCoreAt (c : Nat) (f : Core → Core) (s : State) : Posted s (s.modCoreAt c f) :=
  of_eq (modCoreAt_coreId ..) (modCoreAt_cluster ..)

theorem postSaved (l : Nat) (g : GangTask) (ev : Word) (s : State) : Posted s (postSaved l g ev s) := by
  have hwait := waits l (g.serial, ev) s
  unfold Machine.postSaved
  split
  · exact hwait
  · split
    · exact hwait
    · dsimp only
      split
      · split
        · rw [writeMem_eq, writeMem_eq]
          exact of_eq rfl rfl
        · exact hwait
      · exact hwait

theorem postTask (serial : Nat) (ev : Word) (s : State) : Posted s (postTask serial ev s) := by
  unfold Machine.postTask
  split
  · exact refl s
  · split
    · exact postSaved ..
    · split
      · exact modCoreAt ..
      · exact postSaved ..
      · exact refl s

end Posted

section Crossing

variable {s u : State} {f : FeedQueue} {c : Cluster} {q i task : Nat} {l : List Nat} {e : Entry}

/-- The event of a crossing, for a queue that is even (R318). -/
def crossingEvent (q : Nat) (f : FeedQueue) : Word :=
  .ofNat 64 (2 * 2 ^ 56 + q * 2 ^ 48 + (f.crossings + 1) * f.vlfeed.toNat % 2 ^ 32)

/-- The crossing is counted, and triggers a task of the launch at an entry. -/
def countCrossing (q i : Nat) (l : List Nat) (c : Cluster) : Cluster :=
  ((c.modFeed q (fun f => { f with crossings := f.crossings + 1, written := l })).modEntry i triggerTask).refresh

theorem execFeedCrossing_of_attached {q : BitVec 4} (hw : (s.cluster.feed q.toNat).written = task :: l)
    (ha : (s.cluster.feed q.toNat).attached = some i) :
    execFeedCrossing q s = .next ((if (s.cluster.feed q.toNat).even then
      postTask task (crossingEvent q.toNat (s.cluster.feed q.toNat)) s else s).modClusterAt s.clusterId
        (countCrossing q.toNat i l)) := by
  simp only [execFeedCrossing, hw, ha]
  rfl

theorem countCrossing_feed :
    (countCrossing q i l c).feed q = { c.feed q with crossings := (c.feed q).crossings + 1, written := l } :=
  (Cluster.refresh_feed ..).trans (Cluster.feed_modFeed c q (fun f => { f with crossings := f.crossings + 1, written := l }))

theorem countCrossing_eqPosts : (countCrossing q i l c).eqPosts = c.eqPosts := Cluster.refresh_eqPosts _

theorem countCrossing_entry? (h : c.entry? i = some e) : ((countCrossing q i l c).entry? i).map (fun x => (x.triggered, x.upTo))
    = some (if e.triggered < e.block.total then (e.triggered + 1, e.upTo + 1) else (e.triggered, e.upTo)) := by
  rw [countCrossing, Cluster.entry?_refresh_map (fun _ _ => rfl), Cluster.entry?_modEntry, Cluster.entry?_modFeed, h,
    Option.map_some, Option.map_some, triggerTask]
  split <;> rfl

end Crossing

/-- Settles O56: each event by the lemmas on what it asks, what it does to its entry, and what else it leaves. -/
theorem schedulerEvents : Obligations.SchedulerEvents := by
  unfold Obligations.SchedulerEvents
  refine ⟨fun s n e he hk hw => ⟨fun hstreams hdep => ?_, fun hfailed => ?_⟩, ?_, fun s n e he hp hh => ⟨?_, ?_⟩, ?_, ?_⟩
  · refine (execEntryReady_of_waiting he hk hw).trans (congrArg _ ?_)
    rw [kernelReady_of_met (clusterAt_self s ▸ streamsState_of_done hstreams) (dependencyState_of_met hdep)]
    exact modClusterAt_focus rfl _
  · have hfails : streamsState (s.clusterAt s.clusterId) e.streams = some false ∨ dependencyState s e = some false := by
      rw [clusterAt_self]
      exact hfailed.imp streamsState_of_failed fun h => (if_neg h.1).trans h.2
    have hentry : (s.clusterAt s.clusterId).entry? n = some e := clusterAt_self s ▸ he
    refine ⟨_, (execEntryReady_of_waiting he hk hw).trans (congrArg _ (kernelReady_of_failed hfails)), ?_,
      entryDone_context hentry 3⟩
    rw [entryDone_cluster (.refl s)]
    exact entryDone_entry? hentry hk 3
  · intro s n core e hentries hk hst hwhole hgang hnbar hprio hfeed hlast hoverdue hgroups hreserved hheld hpower hfree
    rw [← clusterAt_self s] at hentries hgroups hpower
    exact fantailRun_starts ⟨⟨hentries, hk, hwhole⟩, hst, hgang, hnbar, hprio, hfeed, hlast, hoverdue, hgroups, hfree, hpower,
      hheld⟩ hreserved
  · exact execOverdue_of_placeable he hp hh
  · intro lack gs cores hpre hlack hpower hcores hslots
    refine ⟨_, execPriorityPreemption_of_fits he hp hh hpre hlack hpower hcores hslots, ?_, fun g hg u hu hplace hrun => ?_⟩
    · rw [foldl_requestGroup, State.modCluster_cluster, requestAll_cluster]
      rfl
    · rw [foldl_requestGroup]
      exact coreAt_requestGroups hg hu hplace hrun
  · intro s n e he hst hnodup p key
    refine ⟨fun hk => streamPumpTransfer_completes he hk hst hnodup, fun hk => ?_, pumpCopy_err e s,
      fun k m hpoison hplaces hapart => ?_⟩
    · obtain ⟨t, hexec, hfreed, hreleased, hcontext, hmem⟩ := streamOutCopy_completes he hk hst
      refine ⟨t, hexec, hfreed, hreleased, fun h0 => ?_, fun h0 => ?_⟩
      · rw [streamOutCopy, if_pos h0] at hcontext hmem
        exact ⟨hcontext, hmem⟩
      · rw [streamOutCopy, if_neg h0] at hcontext hmem
        exact ⟨hcontext, hmem⟩
    · have hcopied := pumpCopy_copied hpoison hplaces hapart
      exact ⟨hcopied.err, hcopied.bytes, hcopied.other⟩
  · intro s q task i l e f hw ha he ev u
    have hposted : Posted s u := .ite (.postTask ..) (.refl s)
    obtain ⟨posts, hcluster⟩ := hposted.cluster
    have hfocus : u.modClusterAt s.clusterId (countCrossing q.toNat i l) = u.modCluster (countCrossing q.toNat i l) :=
      modClusterAt_focus (congrArg clusterOf hposted.coreId.symm) _
    refine ⟨_, (execFeedCrossing_of_attached hw ha).trans (congrArg _ hfocus), ?_, fun c => rfl, rfl, countCrossing_eqPosts, ?_⟩
    · rw [State.modCluster_cluster, countCrossing_feed, hcluster]
      rfl
    · rw [State.modCluster_cluster]
      exact countCrossing_entry? (hcluster ▸ he)

end Sys2Proof.Machine

/-! ## The command words of the engines (16_die.md R341 to R344, R353, R361; 19_fabric.md R398, R402, R403) -/

namespace Sys2Proof.Machine

section EngineWords

variable {s : State} {cls : Nat} {op : CmdOp} {d a b : BitVec 5}

/-- A register names a context of a class, whose command word goes on. -/
def NamesContext (s : State) (cls : Nat) (a : BitVec 5) : Prop := handleOk (readReg a s) = true ∧ handleClass (readReg a s) = cls

/-- A register names a descriptor that its TCM holds whole and correctable (R343). -/
structure NamesDescriptor (s : State) (b : BitVec 5) : Prop where
  aligned : (readReg b s).toNat % 64 = 0
  inside : (readReg b s).toNat + 64 ≤ 262144
  sound : poisoned s (spaceKey s 0 (readReg b s).toNat) 64 = false

/-- The command that a word gives its context. -/
def issuedCmd (s : State) (cls : Nat) (op : CmdOp) (a b : BitVec 5) : Cmd :=
  let c := s.context (ctxKey (readReg a s))
  let desc := readMem s (spaceKey s 0 (readReg b s).toNat) 64
  { op := op, num := c.next, desc := desc, ptroot := s.cur.ptroot, super := s.cur.mode, promoted := false
    since := (c.cmds.map (·.num)).headD c.next, clash := cls == 3 && tagUsed s (blockField desc 0x28 8)
    task := if s.agent = .control then none else some s.core.task.serial, deadline := s.deadline, move := none }

theorem engineIssue_of_named (hc : NamesContext s cls a) (hd : NamesDescriptor s b) (hr : s.released) :
    engineIssue cls op d a b s = if 16 ≤ (s.context (ctxKey (readReg a s))).cmds.length then .next (stall s)
      else retire d (.ofNat 64 (s.context (ctxKey (readReg a s))).next) (s.modContext (ctxKey (readReg a s)) (fun k => { k with
        next := k.next + 1, cmds := k.cmds ++ [issuedCmd s cls op a b] })).clockRead := by
  obtain ⟨hok, hclass⟩ := hc
  have hnamed : ¬(handleOk (readReg a s) = false ∨ handleClass (readReg a s) ≠ cls) := by simp [hok, hclass]
  have hinside : ¬262144 < (readReg b s).toNat + 64 := Nat.not_lt.mpr hd.inside
  rw [engineIssue]
  dsimp only
  rw [if_neg hnamed, if_neg (not_not.mpr hd.aligned), if_neg hinside, if_neg (by rw [hd.sound]; decide),
    releaseGate_of_released hr]
  rfl

theorem engineIssue_of_unnamed (h : handleOk (readReg a s) = false ∨ handleClass (readReg a s) ≠ cls) :
    engineIssue cls op d a b s = contextFault (readReg a s) s := if_pos h

theorem engineReset_of_idle (hc : NamesContext s cls a) (he : (s.context (ctxKey (readReg a s))).cmds = []) :
    engineReset cls d a s = retire d (s.context (ctxKey (readReg a s))).count
      (s.modContext (ctxKey (readReg a s)) (fun _ => .reset)) := by
  obtain ⟨hok, hclass⟩ := hc
  have hnamed : ¬(handleOk (readReg a s) = false ∨ handleClass (readReg a s) ≠ cls) := by simp [hok, hclass]
  rw [engineReset]
  dsimp only
  rw [if_neg hnamed, if_neg (not_not.mpr he)]

/-- Each word of `engineWord` issues its command. -/
theorem exec_engineWord {i : Instr} (h : engineWord i = some (cls, op, d, a, b)) (s : State) :
    exec i s = engineIssue cls op d a b s := by
  unfold engineWord at h
  split at h
  case h_9 => cases h
  all_goals
    simp only [Option.some.injEq, Prod.mk.injEq] at h
    obtain ⟨rfl, rfl, rfl, rfl, rfl⟩ := h
    rfl

end EngineWords

namespace EngineIssue

/-- Settles O36: the checks of R343 and the room of the context decide what a command word does, the unfinished commands what
a reset word does. -/
theorem engineWords : Obligations.EngineWords := by
  unfold Obligations.EngineWords
  intro s i cls op d a b hword h off c
  rw [exec_engineWord hword]
  refine ⟨fun hok hclass hal hin hsound hr hroom => ?_, fun hok hclass hal hin hsound hr hfull => ?_, fun hbad hidle => ?_,
    fun hok hempty => ⟨fun hclass => ?_, fun hclass => ?_, fun hclass => ?_⟩⟩
  · rw [engineIssue_of_named ⟨hok, hclass⟩ ⟨hal, hin, hsound⟩ hr, if_neg (Nat.not_le.mpr hroom)]
    rfl
  · rw [engineIssue_of_named ⟨hok, hclass⟩ ⟨hal, hin, hsound⟩ hr, if_pos hfull]
    rfl
  · rw [engineIssue_of_unnamed hbad]
    exact steerFault_of_idle hidle
  · exact engineReset_of_idle ⟨hok, hclass⟩ hempty
  · exact engineReset_of_idle ⟨hok, hclass⟩ hempty
  · exact engineReset_of_idle ⟨hok, hclass⟩ hempty

end EngineIssue

end Sys2Proof.Machine

/-! ## A cluster reset and the launch contexts (18_package.md R374) -/

namespace Sys2Proof.Machine

section StrayHome

/-- Cluster 0 holds a kernel of one task, cluster 2 the share that is to place it. The kernel's context number, 256, is not
one of the 16 of cluster 0 (R303): its key is that of context 0 of cluster 1. No launch makes such an entry; nothing in a
state excludes it. -/
def strayHome : State := { State.reset with
  cluster := { Cluster.reset with entries := [(0, Entry.fresh .kernel .running 256 1)] }
  clusters := [(2, { Cluster.reset with entries := [(0, { Entry.fresh .proxy .running 0 0 with upTo := 1 })] })] }

/-- The reset of cluster 1 clears its contexts; that of cluster 2, which follows, has the kernel count its lost task, and
the kernel's end is recorded in the context just cleared. -/
theorem resetClusters_strayHome : ((resetClusters 6 strayHome).context (ctxKey (launchHandle 1 0))).failed = true := by
  decide +kernel

end StrayHome

/-- Refutes O58: a reset of clusters 1 and 2 leaves launch context 0 of cluster 1 failed, where the share in cluster 2
belongs to a kernel with a context number beyond 15. -/
theorem not_hostEvents : ¬ Obligations.HostEvents := by
  unfold Obligations.HostEvents
  intro h
  obtain ⟨⟨t, ht, hreset⟩, -⟩ := h strayHome 6
  injection ht with ht
  subst ht
  obtain ⟨-, -, -, -, hcontexts, -⟩ := hreset 1 (by decide) (by decide)
  have hcleared : (resetClusters 6 strayHome).context (ctxKey (launchHandle 1 0)) = .reset := hcontexts 0 (by decide)
  have hfailed := resetClusters_strayHome
  rw [hcleared] at hfailed
  exact Bool.false_ne_true hfailed

end Sys2Proof.Machine

/-! ## The mailbox and the ends of a power cycle (18_package.md R380, R382 to R387) -/

namespace Sys2Proof.Machine

/-! ### Bytes in lists and in memory -/

section Bytes

variable {s : State} {key n : Nat}

theorem leBytes_length (n v : Nat) : (leBytes n v).length = n := by
  induction n generalizing v with
  | zero => rfl
  | succ n ih => rw [leBytes, List.length_cons, ih]

theorem readBytes_length (s : State) (key n : Nat) : (readBytes s key n).length = n := by
  rw [readBytes, List.length_map, List.length_range]

theorem readBytes_getD {j : Nat} (hj : j < n) : (readBytes s key n).getD j 0 = readByte s (key + j) := by
  have hsome : (readBytes s key n)[j]? = some (readByte s (key + j)) := by
    rw [readBytes, List.getElem?_map, List.getElem?_range hj, Option.map_some]
  rw [List.getD_eq_getElem?_getD, hsome, Option.getD_some]

theorem readBytes_congr {t : State} (h : ∀ a, Inside key n a → readByte t a = readByte s a) :
    readBytes t key n = readBytes s key n := by
  refine List.map_congr_left fun i hi => h _ ⟨Nat.le_add_right .., ?_⟩
  exact Nat.add_lt_add_left (List.mem_range.mp hi) key

theorem readByte_writeBytes_of_lt (l : List Byte) (s : State) {a : Nat} (ha : a < key) :
    readByte (writeBytes key l s) a = readByte s a := by
  induction l generalizing key s with
  | nil => rfl
  | cons b l ih => rw [writeBytes, ih _ (Nat.lt_succ_of_lt ha), readByte_writeByte, if_neg (Nat.ne_of_lt ha)]

/-- A read of what a list of bytes has written. -/
theorem readByte_writeBytes {l : List Byte} {j : Nat} (hj : j < l.length) (key : Nat) (s : State) :
    readByte (writeBytes key l s) (key + j) = l.getD j 0 := by
  induction l generalizing key j s with
  | nil => cases hj
  | cons b l ih =>
    cases j with
    | zero =>
      show readByte (writeBytes (key + 1) l (writeByte key b s)) key = b
      rw [readByte_writeBytes_of_lt l _ (Nat.lt_succ_self key), readByte_writeByte, if_pos rfl]
    | succ j =>
      rw [writeBytes, show key + (j + 1) = key + 1 + j by omega, ih (Nat.lt_of_succ_lt_succ hj)]
      rfl

end Bytes

/-! ### Copies of a range of memory -/

section CopyRange

variable {s t : State} {src dst n : Nat}

/-- The keys of a map in rising order are distinct. -/
theorem spSorted_nodup {α : Type} {a : Option Nat} {m : Sp α} (h : spSorted a m = true) : (m.map (·.1)).Nodup := by
  have hsorted : ∀ (m : Sp α) (l : Nat), spSorted (some l) m = true → (m.map (·.1)).Nodup ∧ ∀ k ∈ m.map (·.1), l < k := by
    intro m
    induction m with
    | nil => exact fun _ _ => ⟨List.nodup_nil, fun _ hk => absurd hk List.not_mem_nil⟩
    | cons p m ih =>
      intro l hl
      simp only [spSorted, Bool.and_eq_true, decide_eq_true_eq] at hl
      obtain ⟨hlt, hm⟩ := hl
      obtain ⟨hnodup, habove⟩ := ih p.1 hm
      refine ⟨List.nodup_cons.mpr ⟨fun hp => Nat.lt_irrefl _ (habove _ hp), hnodup⟩, fun k hk => ?_⟩
      obtain rfl | hk := List.mem_cons.mp hk
      · exact hlt
      · exact hlt.trans (habove k hk)
  cases a with
  | some l => exact (hsorted m l h).1
  | none =>
    cases m with
    | nil => exact List.nodup_nil
    | cons p m =>
      obtain ⟨hnodup, habove⟩ := hsorted m p.1 h
      exact List.nodup_cons.mpr ⟨fun hp => Nat.lt_irrefl _ (habove _ hp), hnodup⟩

/-- Cells of a range, written at another. -/
def putCells (src dst : Nat) (l : Memory) (t : State) : State := l.foldl (fun t p => writeByte (dst + (p.1 - src)) p.2 t) t

theorem copyMem_putCells (src dst n : Nat) (s : State) : copyMem src dst n s =
    putCells src dst (s.mem.filter (fun p => decide (src ≤ p.1) && decide (p.1 < src + n))) (clearMem dst n s) := rfl

theorem readByte_putCells_of_not_mem {l : Memory} {a : Nat} (h : ∀ p ∈ l, a ≠ dst + (p.1 - src)) (t : State) :
    readByte (putCells src dst l t) a = readByte t a := by
  induction l generalizing t with
  | nil => rfl
  | cons p l ih =>
    refine (ih (fun q hq => h q (List.mem_cons_of_mem p hq)) _).trans ?_
    rw [readByte_writeByte, if_neg (h p List.mem_cons_self)]

/-- Cells with keys of their own are found where they have been put. -/
theorem readByte_putCells {l : Memory} (hl : (l.map (·.1)).Nodup) (hsrc : ∀ p ∈ l, src ≤ p.1) {j : Nat}
    (ht : readByte t (dst + j) = unlistedByte) :
    readByte (putCells src dst l t) (dst + j) = spGet unlistedByte l (src + j) := by
  induction l generalizing t with
  | nil => exact ht
  | cons p l ih =>
    obtain ⟨hp, hl⟩ := List.nodup_cons.mp hl
    have hrest := fun q hq => hsrc q (List.mem_cons_of_mem p hq)
    have hle := hsrc p List.mem_cons_self
    rw [spGet]
    by_cases hj : src + j = p.1
    · rw [if_pos hj]
      have hplace : dst + j = dst + (p.1 - src) := by omega
      have hother : ∀ q ∈ l, dst + j ≠ dst + (q.1 - src) := fun q hq he => hp (by
        have hle' := hrest q hq
        have hkey : q.1 = p.1 := by omega
        exact List.mem_map.mpr ⟨q, hq, hkey⟩)
      refine (readByte_putCells_of_not_mem hother _).trans ?_
      rw [readByte_writeByte, if_pos hplace]
    · rw [if_neg hj]
      refine ih hl hrest ?_
      rw [readByte_writeByte, if_neg (by omega), ht]

theorem readByte_copyMem_of_not_inside {a : Nat} (h : ¬Inside dst n a) : readByte (copyMem src dst n s) a = readByte s a := by
  rw [copyMem_putCells, readByte_putCells_of_not_mem, readByte_clearMem, if_neg h]
  rintro p hp rfl
  have hrange := (List.mem_filter.mp hp).2
  simp only [Bool.and_eq_true, decide_eq_true_eq] at hrange
  exact h ⟨by omega, by omega⟩

/-- A copy of canonical memory reads as its source. -/
theorem readByte_copyMem (hs : s.MemoryCanonical) {j : Nat} (hj : j < n) :
    readByte (copyMem src dst n s) (dst + j) = readByte s (src + j) := by
  have hsorted : spSorted none s.mem = true := ((Bool.and_eq_true ..).mp hs).1
  have hcleared : readByte (clearMem dst n s) (dst + j) = unlistedByte := by
    rw [readByte_clearMem, if_pos ⟨Nat.le_add_right .., Nat.add_lt_add_left hj dst⟩]
    rfl
  rw [copyMem_putCells, readByte_putCells (spSorted_nodup (spSorted_filter _ _ _ hsorted)) ?_ hcleared]
  · have hrange : (decide (src ≤ src + j) && decide (src + j < src + n)) = true := by simp [hj]
    exact (spGet_filter_key unlistedByte (fun k => decide (src ≤ k) && decide (k < src + n)) s.mem (src + j)).trans
      (if_pos hrange)
  · intro p hp
    have hrange := (List.mem_filter.mp hp).2
    simp only [Bool.and_eq_true, decide_eq_true_eq] at hrange
    exact hrange.1

end CopyRange

/-! ### SHA3-512 yields 64 bytes (R387) -/

section Digest

theorem keccakRound_length (a : Keccak) (rc : BitVec 64) : (keccakRound a rc).length = 25 := by
  rw [keccakRound, List.length_set, chiStep, lanesOf, List.length_map, List.length_range]

theorem keccakF_length {a : Keccak} (h : a.length = 25) : (keccakF a).length = 25 := by
  have hrounds : ∀ (l : List (BitVec 64)) (a : Keccak), a.length = 25 → (l.foldl keccakRound a).length = 25 := by
    intro l
    induction l with
    | nil => exact fun _ h => h
    | cons rc l ih => exact fun a _ => ih _ (keccakRound_length a rc)
  exact hrounds _ _ h

theorem absorbBlocks_length (rate n : Nat) (l : List Byte) {a : Keccak} (h : a.length = 25) :
    (absorbBlocks rate n l a).length = 25 := by
  induction n generalizing l a with
  | zero => exact h
  | succ n ih =>
    refine ih _ (keccakF_length ?_)
    rw [addBlock, List.length_map, List.length_range]

theorem sha3_length (m : List Byte) : (sha3 m).length = 64 := by
  have hstate := absorbBlocks_length 72 ((padMessage 72 0x06 m).length / 72) (padMessage 72 0x06 m)
    (List.length_replicate (n := 25) (a := (0 : BitVec 64)))
  have hbytes : ∀ a : Keccak, (a.flatMap (fun x => leBytes 8 x.toNat)).length = 8 * a.length := by
    intro a
    induction a with
    | nil => rfl
    | cons x a ih => rw [List.flatMap_cons, List.length_append, ih, leBytes_length, List.length_cons]; omega
  rw [sha3, sponge, List.length_take, squeezeBlocks, List.length_append, List.length_take, hbytes, hstate]
  omega

end Digest

/-! ### Commands and their results (R382) -/

section Commands

variable {s : State} {v : BitVec 64}

/-- The fields of a command that has been posted. -/
def posted (cmd : BitVec 8) (arg : BitVec 32) (s : State) : State := s.modPkg (fun p => { p with mbArg := arg, mbCmd := cmd })

/-- With no command running and the package powered, a command runs. -/
theorem mbPost_of_idle (hb : s.pkg.mbBusy = false) (hu : s.pkg.unpowered = false) (cmd : BitVec 8) (arg : BitVec 32)
    (run : State → State) : mbPost cmd arg run s = run (posted cmd arg s) := by
  rw [mbPost, if_neg (by rw [hu]; decide)]
  dsimp only
  rw [if_neg (by rw [hb]; decide)]
  rfl

theorem isReady_posted (h : s.pkg.bootState = 2) (cmd : BitVec 8) (arg : BitVec 32) : isReady (posted cmd arg s) = true :=
  beq_iff_eq.mpr h

theorem inRecovery_posted (h : s.pkg.bootState = 3) (cmd : BitVec 8) (arg : BitVec 32) :
    inRecovery (posted cmd arg s) = true := beq_iff_eq.mpr h

/-- The end of a command leaves the state of boot, and gives its code. -/
theorem mbDone_boot (code len : Nat) (s : State) : (mbDone code len s).pkg.bootState = s.pkg.bootState
    ∧ (mbDone code len s).pkg.bootFail = s.pkg.bootFail ∧ (mbDone code len s).pkg.mbCode = .ofNat 8 code := ⟨rfl, rfl, rfl⟩

theorem mbDone_mem (code len : Nat) (s : State) : (mbDone code len s).mem = s.mem := rfl

/-- A result changes memory beside the mailbox's fields alone. -/
theorem mbResult_eq (bytes : List Byte) (s : State) : mbResult bytes s = { mbDone 0 bytes.length s with
    mem := (mbResult bytes s).mem, poison := (mbResult bytes s).poison } := by
  rw [mbResult, writeBytes_eq]
  rfl

theorem mbResult_pkg (bytes : List Byte) (s : State) : (mbResult bytes s).pkg = (mbDone 0 bytes.length s).pkg := by
  rw [mbResult_eq]

theorem mbResult_clusterAt (bytes : List Byte) (s : State) (l : Nat) : (mbResult bytes s).clusterAt l = s.clusterAt l := by
  rw [mbResult_eq]
  rfl

/-- MBDATA holds the result. -/
theorem readByte_mbResult {bytes : List Byte} {j : Nat} (hj : j < bytes.length) (s : State) :
    readByte (mbResult bytes s) (mbdataKey j) = bytes.getD j 0 :=
  readByte_writeBytes hj (mbdataKey 0) _

theorem attestation_length (s : State) : (attestation s).length = 4908 := by
  have himage : ∀ (c : Prop) [Decidable c] (m : List Byte), m.length = 64 →
      (if c then List.replicate 64 (0 : Byte) else m).length = 64 := by
    intro c _ m hm
    split
    · exact List.length_replicate
    · exact hm
  unfold attestation
  simp only [List.length_append, leBytes_length, readBytes_length, sha3_length, himage _ _ (sha3_length _), imageMessage,
    List.length_cons, List.length_nil]

/-- The report begins with the nonce. -/
theorem attestation_nonce (s : State) : ∃ l, attestation s = readBytes s (mbdataKey 0) 64 ++ l := by
  unfold attestation
  simp only [List.append_assoc]
  exact ⟨_, rfl⟩

theorem mbRun_of_unknown {c : BitVec 8} (h : c = 0 ∨ 6 < c.toNat) (arg : Nat) : mbRun c.toNat arg = mbUnknown := by
  unfold mbRun
  split
  case h_7 => rfl
  all_goals
    next hc =>
    obtain rfl | hlt := h
    · cases hc
    · omega

end Commands

/-! ### The boot of an image (R384, R385) -/

section Boot

variable {s t : State} {base : Nat}

/-- An image passes the steps of R384. -/
structure Verified (s : State) (base : Nat) : Prop where
  sound : poisoned s base 0x1000000 = false
  magic : readMem s base 4 = 0x5A364657
  fits : readMem s (base + 12) 4 ≤ 0xFFE000
  key : leNat (sha3 (readBytes s (base + 0x40) 2592)) = Config.fusedDigest.toNat
  fresh : s.pkg.fusedSvn.toNat ≤ readMem s (base + 8) 4
  signed : dsaVerify (readBytes s (base + 0x40) 2592) (imageMessage s base (readMem s (base + 12) 4))
    (readBytes s (base + 0xA60) 4627) = true

theorem verifySteps_eq_zero_iff : verifySteps s base = 0 ↔ Verified s base := by
  unfold verifySteps
  dsimp only
  constructor
  · intro h
    split_ifs at h with h5 h4 h1 h2 h3
    · obtain ⟨hmagic, hfits⟩ := not_or.mp h4
      exact ⟨Bool.eq_false_iff.mpr h5, not_not.mp hmagic, Nat.not_lt.mp hfits, not_not.mp h1, Nat.not_lt.mp h2,
        Bool.eq_true_of_not_eq_false h3⟩
  · intro h
    rw [if_neg (by rw [h.sound]; decide), if_neg (not_or.mpr ⟨not_not.mpr h.magic, Nat.not_lt.mpr h.fits⟩),
      if_neg (not_not.mpr h.key), if_neg (Nat.not_lt.mpr h.fresh), if_neg (by rw [h.signed]; decide)]

/-- An image whose bytes stay still passes. -/
theorem Verified.congr (h : Verified s base) (hbytes : ∀ a, Inside base 0x1000000 a → readByte t a = readByte s a)
    (hsound : poisoned t base 0x1000000 = false) (hsvn : t.pkg.fusedSvn = s.pkg.fusedSvn) : Verified t base := by
  have hmem : ∀ k n, base ≤ k → k + n ≤ base + 0x1000000 → readMem t k n = readMem s k n := fun k n hlo hhi =>
    readMem_congr k n fun a ha => hbytes a ⟨hlo.trans ha.1, Nat.lt_of_lt_of_le ha.2 hhi⟩
  have hread : ∀ k n, base ≤ k → k + n ≤ base + 0x1000000 → readBytes t k n = readBytes s k n := fun k n hlo hhi =>
    readBytes_congr fun a ha => hbytes a ⟨hlo.trans ha.1, Nat.lt_of_lt_of_le ha.2 hhi⟩
  have hlen := hmem (base + 12) 4 (by omega) (by omega)
  have hkey := hread (base + 0x40) 2592 (by omega) (by omega)
  have hfits := h.fits
  have himage : imageMessage t base (readMem s (base + 12) 4) = imageMessage s base (readMem s (base + 12) 4) := by
    rw [imageMessage, imageMessage, hread base 64 (by omega) (by omega),
      hread (base + 0x2000) (readMem s (base + 12) 4) (by omega) (by omega)]
  refine ⟨hsound, ?_, by rw [hlen]; exact hfits, by rw [hkey]; exact h.key, ?_, ?_⟩
  · rw [hmem base 4 (by omega) (by omega), h.magic]
  · rw [hsvn, hmem (base + 8) 4 (by omega) (by omega)]
    exact h.fresh
  · rw [hkey, hlen, himage, hread (base + 0xA60) 4627 (by omega) (by omega)]
    exact h.signed

theorem recoveryKey_ne_flashKey : recoveryKey 0 ≠ flashKey 0 := by decide

theorem verifyImage_recovery (s : State) : verifyImage s (recoveryKey 0) = verifySteps s (recoveryKey 0) :=
  if_neg fun h => recoveryKey_ne_flashKey h.1

/-- Marks that are no more leave sound what was sound. -/
theorem poisoned_of_subset (h : ∀ g ∈ t.poison, g ∈ s.poison) {key n : Nat} (hs : poisoned s key n = false) :
    poisoned t key n = false := by
  rw [poisoned, List.any_eq_false] at hs ⊢
  exact fun g hg => hs g (h g hg)

/-- What a boot leaves, and what it sets. -/
structure Boots (s t : State) : Prop where
  state : t = { s with fab := t.fab, pkg := t.pkg }
  boot : t.pkg.bootState = 1 ∨ t.pkg.bootState = 3
  fuses : t.pkg.fusedSvn = s.pkg.fusedSvn
  limit : t.pkg.plimit = s.pkg.plimit

theorem bootFrom_boots (base : Nat) (s : State) : Boots s (bootFrom base s) := by
  unfold bootFrom
  dsimp only
  split
  · exact ⟨rfl, .inl rfl, rfl, rfl⟩
  · exact ⟨rfl, .inr rfl, rfl, rfl⟩

/-- An image that verifies starts to boot. -/
theorem bootFrom_of_verified (h : verifyImage s base = 0) :
    (bootFrom base s).pkg.bootState = 1 ∧ (bootFrom base s).pkg.bootFail = 0 := by
  rw [bootFrom, h]
  exact ⟨rfl, rfl⟩

/-- The image of the recovery window has been written to flash. -/
def flashed (s : State) : State :=
  writtenFlash ((copyMem (recoveryKey 0) (flashKey 0) 0x1000000 s).modPkg (fun p => { p with flashFail := 0 }))

theorem flashed_mem (s : State) : (flashed s).mem = (copyMem (recoveryKey 0) (flashKey 0) 0x1000000 s).mem := rfl

theorem flashed_pkg (s : State) : (flashed s).pkg = { s.pkg with flashFail := 0 } := by
  rw [flashed, copyMem_eq]
  rfl

theorem poison_flashed (s : State) : ∀ g ∈ (flashed s).poison, g ∈ s.poison := by
  intro g hg
  have hcleared := (List.mem_filter.mp hg).1
  rw [State.modPkg_poison, copyMem_eq] at hcleared
  exact (List.mem_filter.mp hcleared).1

/-- The window is as it was, and its image verifies again. -/
theorem verifyImage_flashed (h : verifySteps s (recoveryKey 0) = 0) : verifyImage (flashed s) (recoveryKey 0) = 0 := by
  have hverified := verifySteps_eq_zero_iff.mp h
  rw [verifyImage_recovery]
  refine verifySteps_eq_zero_iff.mpr (hverified.congr (fun a ha => ?_) (poisoned_of_subset (poison_flashed s) hverified.sound)
    (by rw [flashed_pkg]))
  refine (readByte_mem (flashed_mem s) a).trans (readByte_copyMem_of_not_inside fun hi => ?_)
  have hwindow := ha.2
  have hflash := hi.1
  unfold recoveryKey at hwindow
  unfold flashKey at hflash
  omega

/-- The image of the recovery window verifies, and the command names its length (R385). -/
def RecoversWith (s : State) (len : Nat) : Prop :=
  verifySteps s (recoveryKey 0) = 0 ∧ len = 0x2000 + readMem s (recoveryKey 12) 4

theorem recoversWith_posted {len : Nat} (cmd : BitVec 8) (arg : BitVec 32) :
    RecoversWith (posted cmd arg s) len ↔ RecoversWith s len := Iff.rfl

theorem mbRecover_of_bad {len : Nat} (hr : inRecovery s = true) (h : ¬RecoversWith s len) : mbRecover len s = mbDone 3 0 s := by
  rw [mbRecover, if_neg (by rw [hr]; decide), verifyImage_recovery, if_pos (not_and_or.mp h)]

/-- The image of the window is in flash, and boots. -/
theorem mbRecover_boots {len : Nat} (hr : inRecovery s = true) (hg : RecoversWith s len) (hs : s.MemoryCanonical) :
    (mbRecover len s).pkg.bootState = 1 ∧ (mbRecover len s).pkg.bootFail = 0 ∧ (mbRecover len s).pkg.mbCode = 0
      ∧ ∀ j, j < 0x1000000 → readByte (mbRecover len s) (flashKey j) = readByte s (recoveryKey j) := by
  obtain ⟨hv, hlen⟩ := hg
  obtain ⟨hstate, hfail⟩ := bootFrom_of_verified (verifyImage_flashed hv)
  have hrun : mbRecover len s = mbDone 0 0 (bootFrom (recoveryKey 0) (flashed s)) := by
    rw [mbRecover, if_neg (by rw [hr]; decide), verifyImage_recovery, if_neg (not_or.mpr ⟨not_not.mpr hv, not_not.mpr hlen⟩)]
    rfl
  obtain ⟨hstate', hfail', hcode⟩ := mbDone_boot 0 0 (bootFrom (recoveryKey 0) (flashed s))
  rw [hrun, hstate', hfail', hcode]
  refine ⟨hstate, hfail, rfl, fun j hj => ?_⟩
  have hmem : (mbDone 0 0 (bootFrom (recoveryKey 0) (flashed s))).mem =
      (copyMem (recoveryKey 0) (flashKey 0) 0x1000000 s).mem := by
    rw [mbDone_mem, (bootFrom_boots ..).state, flashed_mem]
  exact (readByte_mem hmem _).trans (readByte_copyMem hs hj)

end Boot

/-! ### A package reset (R386) -/

section Reset

/-- What a reset reaches, but for HBM, reads as zero. -/
theorem spGet_memAfterReset {k : Nat} (hown : isOwnHbm k = false) (hkeeps : keepsOverReset k = false) (tick : Nat) (m : Memory) :
    spGet unlistedByte (memAfterReset tick m) k = unlistedByte := by
  have hput : ∀ (m acc : Memory), spGet unlistedByte (m.foldl (fun acc p =>
      if isOwnHbm p.1 then spPut unlistedByte acc p.1 (Config.resetByte tick p.1)
      else if keepsOverReset p.1 then spPut unlistedByte acc p.1 p.2 else acc) acc) k = spGet unlistedByte acc k := by
    intro m
    induction m with
    | nil => exact fun _ => rfl
    | cons p m ih =>
      intro acc
      rw [List.foldl_cons, ih]
      split
      · next hp => exact spGet_put_ne _ _ _ fun he => Bool.false_ne_true (hown.symm.trans (he ▸ hp))
      · split
        · next hp => exact spGet_put_ne _ _ _ fun he => Bool.false_ne_true (hkeeps.symm.trans (he ▸ hp))
        · rfl
  exact hput m []

theorem readByte_resetPackage (s : State) {k : Nat} (hlo : 2 ^ 60 ≤ k) (hhi : k < 2 ^ 64) : readByte (resetPackage s) k = 0 := by
  have hown : isOwnHbm k = false := by
    rw [isOwnHbm, Bool.and_eq_false_iff]
    exact .inr (decide_eq_false (by omega))
  have hkeeps : keepsOverReset k = false := by
    simp only [keepsOverReset, Bool.or_eq_false_iff, Bool.and_eq_false_iff, decide_eq_false_iff_not]
    omega
  exact spGet_memAfterReset hown hkeeps s.tick s.mem

theorem coreAt_resetPackage (s : State) (c : Nat) : (resetPackage s).coreAt c = .reset := by
  rw [State.coreAt]
  split <;> rfl

end Reset

/-! ### What the commands and the power cycle do (O59) -/

section Mailbox

variable {s : State} {v : BitVec 64}

section Ready

variable (hr : s.pkg.bootState = 2) (hb : s.pkg.mbBusy = false) (hu : s.pkg.unpowered = false)
include hr hb hu

theorem execCommitSvn_of_ready : ∃ t, execCommitSvn s = .next t ∧ t.pkg.fusedSvn = s.pkg.svn ∧ t.pkg.mbDone = true
    ∧ t.pkg.mbCode = 0 := by
  refine ⟨_, rfl, ?_⟩
  rw [mbPost_of_idle hb hu, mbCommitSvn, if_pos (isReady_posted hr ..)]
  exact ⟨rfl, rfl, rfl⟩

theorem execDbgen_of_ready (hv : v.toNat % 2 ^ 32 < 2) : ∃ t, execDbgen v s = .next t
    ∧ t.pkg.debugEn = decide (v.toNat % 2 ^ 32 = 1) ∧ t.pkg.mbDone = true ∧ t.pkg.mbCode = 0 := by
  refine ⟨_, rfl, ?_⟩
  rw [mbPost_of_idle hb hu, mbDbgen, isReady_posted hr, if_neg (by decide), if_neg (Nat.not_le.mpr hv)]
  exact ⟨rfl, rfl, rfl⟩

theorem execCllog_of_ready (hv : v.toNat % 2 ^ 32 < 24) :
    let bytes := ((s.clusterAt (v.toNat % 2 ^ 32)).log.take 256).flatMap (·.flatMap (fun w => leBytes 8 w.toNat))
    ∃ t, execCllog v s = .next t ∧ t.pkg.mbCode = 0
      ∧ t.pkg.mbLen = .ofNat 32 bytes.length
      ∧ (∀ j, j < bytes.length → readByte t (mbdataKey j) = bytes.getD j 0)
      ∧ (t.clusterAt (v.toNat % 2 ^ 32)).log = (s.clusterAt (v.toNat % 2 ^ 32)).log.drop 256 := by
  refine ⟨_, rfl, ?_⟩
  rw [mbPost_of_idle hb hu, mbCllog, isReady_posted hr, if_neg (by decide), if_neg (Nat.not_le.mpr hv)]
  dsimp only
  rw [mbResult_pkg, mbResult_clusterAt, clusterAt_modClusterAt, if_pos rfl]
  exact ⟨rfl, rfl, fun j hj => readByte_mbResult hj _, rfl⟩

theorem execCert_of_ready : ∃ t, execCert s = .next t ∧ t.pkg.mbCode = 0
    ∧ t.pkg.mbLen = .ofNat 32 Config.certificates.length
    ∧ ∀ j, j < Config.certificates.length → readByte t (mbdataKey j) = Config.certificates.getD j 0 := by
  refine ⟨_, rfl, ?_⟩
  rw [mbPost_of_idle hb hu, mbCert, isReady_posted hr, Bool.true_or, if_pos rfl, mbResult_pkg]
  exact ⟨rfl, rfl, fun j hj => readByte_mbResult hj _⟩

theorem execAttest_of_ready : ∃ t, execAttest s = .next t ∧ t.pkg.mbCode = 0 ∧ t.pkg.mbDone = true ∧ t.pkg.mbLen = 4908
    ∧ ∀ j, j < 64 → readByte t (mbdataKey j) = readByte s (mbdataKey j) := by
  refine ⟨_, rfl, ?_⟩
  rw [mbPost_of_idle hb hu, mbAttest, isReady_posted hr, Bool.true_or, if_pos rfl, mbResult_pkg, attestation_length]
  refine ⟨rfl, rfl, rfl, fun j hj => ?_⟩
  obtain ⟨l, hl⟩ := attestation_nonce (posted 1 0 s)
  have hnonce : j < (readBytes (posted 1 0 s) (mbdataKey 0) 64).length := by rwa [readBytes_length]
  rw [readByte_mbResult (by rw [attestation_length]; omega), hl, List.getD_append _ _ _ _ hnonce, readBytes_getD hj]
  rfl

theorem execUnknownCommand_of_ready {c : BitVec 8} (hc : c = 0 ∨ 6 < c.toNat) : ∃ t, execUnknownCommand c s = .next t
    ∧ t.pkg.mbCode = 1 ∧ t.pkg.mbCmd = c ∧ t.mem = s.mem := by
  refine ⟨_, rfl, ?_⟩
  rw [mbRun_of_unknown hc, mbPost_of_idle hb hu, mbUnknown, isReady_posted hr, Bool.true_or, if_pos rfl]
  exact ⟨rfl, rfl, rfl⟩

end Ready

theorem execRecover_of_recovery (hr : s.pkg.bootState = 3) (hb : s.pkg.mbBusy = false) (hu : s.pkg.unpowered = false)
    (hs : s.MemoryCanonical) : ∃ t, execRecover v s = .next t
      ∧ (RecoversWith s (v.toNat % 2 ^ 32) → t.pkg.bootState = 1 ∧ t.pkg.bootFail = 0 ∧ t.pkg.mbCode = 0
        ∧ ∀ j, j < 0x1000000 → readByte t (flashKey j) = readByte s (recoveryKey j))
      ∧ (¬RecoversWith s (v.toNat % 2 ^ 32) → t.pkg.bootState = 3 ∧ t.pkg.mbCode = 3 ∧ t.mem = s.mem) := by
  refine ⟨_, rfl, fun hg => ?_, fun hbad => ?_⟩
  · rw [mbPost_of_idle hb hu]
    exact mbRecover_boots (inRecovery_posted hr ..) ((recoversWith_posted ..).mpr hg) hs
  · rw [mbPost_of_idle hb hu, mbRecover_of_bad (inRecovery_posted hr ..) ((recoversWith_posted ..).not.mpr hbad)]
    exact ⟨hr, rfl, rfl⟩

theorem execPackageReset_boots (s : State) : ∃ t, execPackageReset s = .next t
    ∧ (t.pkg.bootState = 1 ∨ t.pkg.bootState = 3) ∧ (∀ c, t.coreAt c = .reset) ∧ t.pkg.fusedSvn = s.pkg.fusedSvn
    ∧ t.pkg.plimit = 4400 ∧ ∀ k, 2 ^ 60 ≤ k → k < 2 ^ 64 → readByte t k = 0 := by
  obtain ⟨hstate, hboot, hfuses, hlimit⟩ := bootFrom_boots (flashKey 0) (resetPackage s)
  refine ⟨bootFrom (flashKey 0) (resetPackage s), rfl, hboot, fun c => ?_, hfuses, hlimit, fun k hlo hhi => ?_⟩
  · rw [hstate]
    exact coreAt_resetPackage s c
  · rw [hstate]
    exact readByte_resetPackage s hlo hhi

end Mailbox

/-- Settles O59: each command by what it does in the state of boot that permits it; the ROM's boot leaves what a reset does. -/
theorem mailboxEvents : Obligations.MailboxEvents := by
  unfold Obligations.MailboxEvents
  intro s v
  refine ⟨fun hr hb hu => ?_, fun hr hb hu hs => execRecover_of_recovery hr hb hu hs, execPackageReset_boots s,
    ⟨_, rfl, rfl, rfl, rfl⟩⟩
  exact ⟨execCommitSvn_of_ready hr hb hu, execDbgen_of_ready hr hb hu, execCllog_of_ready hr hb hu,
    execCert_of_ready hr hb hu, execAttest_of_ready hr hb hu, fun _ hc => execUnknownCommand_of_ready hr hb hu hc⟩

end Sys2Proof.Machine

/-! ## The grants of power (18_package.md R377 to R380) -/

namespace Sys2Proof.Machine

/-! ### The grants of a cycle (R377) -/

section Grants

/-- The watts that consumers hold. -/
def watts (l : List (Nat × Nat)) : Nat := (l.map (·.2)).sum

theorem handRest_fst (l : List (Nat × Nat × Nat)) (rest : Nat) : (handRest l rest).map (·.1) = l.map (·.1) := by
  induction l generalizing rest with
  | nil => rfl
  | cons p l ih =>
    unfold handRest
    split <;> rw [List.map_cons, List.map_cons, ih]

/-- No more is handed out than is left over. -/
theorem watts_handRest_le (l : List (Nat × Nat × Nat)) (rest : Nat) :
    watts (handRest l rest) ≤ (l.map (·.2.1)).sum + rest := by
  induction l generalizing rest with
  | nil => exact Nat.zero_le _
  | cons p l ih =>
    obtain ⟨d, g, want⟩ := p
    have hlast := ih (rest - 1)
    have hsame := ih rest
    simp only [watts] at hlast hsame
    unfold handRest
    split <;> simp only [watts, List.map_cons, List.sum_cons] <;> omega

/-- What is left over lowers no grant. -/
theorem le_of_mem_handRest {f : Nat → Nat} {l : List (Nat × Nat × Nat)} (h : ∀ q ∈ l, f q.1 ≤ q.2.1) {rest : Nat}
    {p : Nat × Nat} (hp : p ∈ handRest l rest) : f p.1 ≤ p.2 := by
  induction l generalizing rest with
  | nil => cases hp
  | cons q l ih =>
    have hq := h q List.mem_cons_self
    have hl := fun r hr => h r (List.mem_cons_of_mem q hr)
    unfold handRest at hp
    split at hp
    · obtain rfl | hp := List.mem_cons.mp hp
      · exact Nat.le_succ_of_le hq
      · exact ih hl hp
    · obtain rfl | hp := List.mem_cons.mp hp
      · exact hq
      · exact ih hl hp

/-- Shares in proportion, each rounded down, are no more than the whole. -/
theorem sum_proportions_le (x : Nat → Nat) (a total : Nat) (l : List Nat) :
    (l.map (fun d => x d * a / total)).sum ≤ (l.map x).sum * a / total := by
  induction l with
  | nil => exact Nat.zero_le _
  | cons d l ih =>
    rw [List.map_cons, List.sum_cons, List.map_cons, List.sum_cons, Nat.add_mul]
    exact (Nat.add_le_add_left ih _).trans (Nat.div_add_div_le_add_div ..)

variable {limit : Nat} {demand : Nat → Nat}

/-- What a consumer demands above its floor, and what all of them do. -/
def excess (demand : Nat → Nat) (d : Nat) : Nat := demand d - floorW d
def excessSum (demand : Nat → Nat) : Nat := ((List.range 7).map (excess demand)).sum

/-- What the limit leaves above the floors and the rest of the package. -/
def available (limit : Nat) : Nat := limit - 350 - ((List.range 7).map floorW).sum

theorem available_add (h : 1900 ≤ limit) : available limit + 1894 = limit := by
  have hfloors : ((List.range 7).map floorW).sum = 1544 := by decide
  rw [available, hfloors]
  omega

/-- A consumer's part of what is available, with what it would take. -/
def proportion (limit : Nat) (demand : Nat → Nat) (d : Nat) : Nat × Nat × Nat :=
  (d, floorW d + excess demand d * available limit / excessSum demand, max (demand d) (floorW d))

/-- The grants, with the sums written as sums. -/
theorem grantsFor_eq (limit : Nat) (demand : Nat → Nat) : grantsFor limit demand =
    if excessSum demand ≤ available limit then (List.range 7).map (fun d => (d, floorW d + excess demand d))
    else handRest ((List.range 7).map (proportion limit demand)) (available limit -
      ((List.range 7).map (fun d => excess demand d * available limit / excessSum demand)).sum) := by
  unfold grantsFor proportion available excessSum excess
  simp only [← List.sum_eq_foldl, List.map_map, Function.comp_def, Nat.add_sub_cancel_left]

theorem grantsFor_of_met (h : excessSum demand ≤ available limit) :
    grantsFor limit demand = (List.range 7).map (fun d => (d, floorW d + excess demand d)) :=
  (grantsFor_eq ..).trans (if_pos h)

theorem grantsFor_of_short (h : ¬excessSum demand ≤ available limit) : grantsFor limit demand =
    handRest ((List.range 7).map (proportion limit demand)) (available limit -
      ((List.range 7).map (fun d => excess demand d * available limit / excessSum demand)).sum) :=
  (grantsFor_eq ..).trans (if_neg h)

theorem grantsFor_fst (limit : Nat) (demand : Nat → Nat) : (grantsFor limit demand).map (·.1) = List.range 7 := by
  by_cases h : excessSum demand ≤ available limit
  · rw [grantsFor_of_met h]
    rfl
  · rw [grantsFor_of_short h, handRest_fst]
    rfl

/-- The floors and what goes above them. -/
theorem sum_floors_add (x : Nat → Nat) :
    ((List.range 7).map (fun d => floorW d + x d)).sum = 1544 + ((List.range 7).map x).sum := by
  rw [List.sum_map_add]
  rfl

theorem floorW_le_of_mem_grantsFor {p : Nat × Nat} (hp : p ∈ grantsFor limit demand) : floorW p.1 ≤ p.2 := by
  by_cases h : excessSum demand ≤ available limit
  · rw [grantsFor_of_met h] at hp
    obtain ⟨d, -, rfl⟩ := List.mem_map.mp hp
    exact Nat.le_add_right ..
  · rw [grantsFor_of_short h] at hp
    refine le_of_mem_handRest (f := floorW) (fun q hq => ?_) hp
    obtain ⟨d, -, rfl⟩ := List.mem_map.mp hq
    exact Nat.le_add_right ..

/-- The grants stay within what the limit leaves for them. -/
theorem watts_grantsFor_le (hlimit : 1900 ≤ limit) : watts (grantsFor limit demand) + 350 ≤ limit := by
  have hrest := available_add hlimit
  by_cases h : excessSum demand ≤ available limit
  · have hsum : watts (grantsFor limit demand) = 1544 + excessSum demand := by
      rw [grantsFor_of_met h, watts, List.map_map]
      exact sum_floors_add _
    omega
  · have hpos : 0 < excessSum demand := by omega
    have hgiven := watts_handRest_le ((List.range 7).map (proportion limit demand)) (available limit -
      ((List.range 7).map (fun d => excess demand d * available limit / excessSum demand)).sum)
    have hparts := sum_proportions_le (excess demand) (available limit) (excessSum demand) (List.range 7)
    have hwhole : ((List.range 7).map (excess demand)).sum * available limit / excessSum demand = available limit :=
      Nat.mul_div_cancel_left _ hpos
    have hbase : (((List.range 7).map (proportion limit demand)).map (·.2.1)).sum = 1544 +
        ((List.range 7).map (fun d => excess demand d * available limit / excessSum demand)).sum := by
      rw [List.map_map]
      exact sum_floors_add _
    rw [grantsFor_of_short h]
    omega

end Grants

/-! ### Dies by number -/

section Dies

/-- A die read after a write. -/
theorem dieAt_setDieAt (s : State) (d k : Nat) (v : Die) : (s.setDieAt d v).dieAt k = if k = d then v else s.dieAt k := by
  unfold State.setDieAt
  by_cases hd : d = s.dieId
  · rw [if_pos hd, hd]
    show (if k = s.dieId then v else poolGet .reset s.dies k) = _
    unfold State.dieAt
    split <;> rfl
  · rw [if_neg hd]
    show (if k = s.dieId then s.die else poolGet .reset (poolSet s.dies d v) k) = _
    unfold State.dieAt
    rw [poolGet_poolSet]
    by_cases hk : k = s.dieId
    · have hkd : k ≠ d := fun h => hd (h.symm.trans hk)
      rw [if_pos hk, if_neg hkd, if_pos hk]
    · rw [if_neg hk, if_neg hk]

theorem dieAt_modDieAt (s : State) (d k : Nat) (f : Die → Die) :
    (s.modDieAt d f).dieAt k = if k = d then f (s.dieAt k) else s.dieAt k := by
  rw [State.modDieAt, dieAt_setDieAt]
  split
  · next h => rw [h]
  · rfl

/-- Nothing changes but dies. -/
def DiesOnly (s t : State) : Prop := t = { s with die := t.die, dies := t.dies }

theorem modDieAt_diesOnly (s : State) (d : Nat) (f : Die → Die) : DiesOnly s (s.modDieAt d f) := by
  unfold State.modDieAt State.setDieAt
  split <;> rfl

theorem coreAt_modDieAt (s : State) (d c : Nat) (f : Die → Die) : (s.modDieAt d f).coreAt c = s.coreAt c := by
  rw [modDieAt_diesOnly]; rfl

theorem clusterAt_modDieAt (s : State) (d l : Nat) (f : Die → Die) : (s.modDieAt d f).clusterAt l = s.clusterAt l := by
  rw [modDieAt_diesOnly]; rfl

theorem modDieAt_mem (s : State) (d : Nat) (f : Die → Die) : (s.modDieAt d f).mem = s.mem := by rw [modDieAt_diesOnly]

theorem modCoreAt_pkg (s : State) (c : Nat) (f : Core → Core) : (s.modCoreAt c f).pkg = s.pkg := by
  unfold State.modCoreAt State.setCoreAt
  split <;> rfl

end Dies

/-- A run in which one step alone changes a part of the state changes it so. -/
theorem foldl_updates {α β : Type} (p : State → β) {g : State → α → State} {f : β → β} {a : α} {l : List α} (ha : a ∈ l)
    (hl : l.Nodup) (hself : ∀ t, p (g t a) = f (p t)) (hother : ∀ x ∈ l, x ≠ a → ∀ t, p (g t x) = p t) (s : State) :
    p (l.foldl g s) = f (p s) := by
  induction l generalizing s with
  | nil => cases ha
  | cons x l ih =>
    obtain ⟨hx, hl⟩ := List.nodup_cons.mp hl
    have hrest : ∀ y ∈ l, y ≠ a → ∀ t, p (g t y) = p t := fun y hy => hother y (List.mem_cons_of_mem x hy)
    rw [List.foldl_cons]
    obtain rfl | ha := List.mem_cons.mp ha
    · have hkept : ∀ (m : List α), (∀ y ∈ m, y ∈ l) → ∀ t, p (m.foldl g t) = p t := by
        intro m hm
        induction m with
        | nil => exact fun _ => rfl
        | cons y m ihm =>
          intro t
          have hy := hm y List.mem_cons_self
          exact (ihm (fun z hz => hm z (List.mem_cons_of_mem y hz)) _).trans (hrest y hy (fun h => hx (h ▸ hy)) t)
      rw [hkept l (fun _ h => h), hself]
    · rw [ih ha hl hrest, hother x List.mem_cons_self (fun h => hx (h ▸ ha))]

/-! ### A cycle of grants (R377, R380) -/

section Cycle

variable {s : State} {d g : Nat}

/-- The die has not cooled since it was too hot (R380). -/
def staysHot (s : State) (d : Nat) : Bool := (s.dieAt d).hot && !Config.cooled (s.tick + d)

/-- The grant that a cycle computes for a consumer: a hot die's is capped. -/
def cappedGrant (s : State) (p : Nat × Nat) : Nat :=
  if p.1 ≠ 6 ∧ staysHot s p.1 then min p.2 ((s.dieAt p.1).grant.toNat * 9 / 10) else p.2

/-- PGRANT of a consumer in a cycle: the grant of a die is shown when it reaches it. -/
def shownGrant (s : State) (p : Nat × Nat) : Word :=
  pgrantWord (floorW p.1) (demandW s p.1) (if p.1 = 6 then cappedGrant s p else (s.dieAt p.1).grant.toNat)

/-- A consumer's PGRANT changes. -/
def putGrant (d : Nat) (w : Word) (t : State) : State := t.modPkg (fun k => { k with pgrant := spPut 0 k.pgrant d w })

/-- A cycle's work for one consumer. -/
def grantStep (s t : State) (p : Nat × Nat) : State :=
  if p.1 = 6 then putGrant p.1 (shownGrant s p) t
  else (putGrant p.1 (shownGrant s p) t).modDieAt p.1 (fun x => { x with
    pending := some (.ofNat 16 (cappedGrant s p)), hot := staysHot s p.1 })

theorem grantCycle_eq (s : State) : grantCycle s =
    (putGrant 7 (pgrantWord 350 350 350) ((grantsFor s.pkg.plimit.toNat (demandW s)).foldl (grantStep s) s)).tickUp := rfl

theorem putGrant_mem (d : Nat) (w : Word) (t : State) : (putGrant d w t).mem = t.mem := rfl

theorem putGrant_dieAt (d : Nat) (w : Word) (t : State) (e : Nat) : (putGrant d w t).dieAt e = t.dieAt e := rfl

theorem dieAt_tickUp (t : State) (e : Nat) : t.tickUp.dieAt e = t.dieAt e := rfl

theorem grantStep_mem (s t : State) (p : Nat × Nat) : (grantStep s t p).mem = t.mem := by
  by_cases h : p.1 = 6
  · rw [grantStep, if_pos h, putGrant_mem]
  · rw [grantStep, if_neg h, modDieAt_mem, putGrant_mem]

theorem dieAt_grantStep (s t : State) (p : Nat × Nat) (d : Nat) (hd : d < 6) : (grantStep s t p).dieAt d =
    if d = p.1 then { t.dieAt d with pending := some (.ofNat 16 (cappedGrant s p)), hot := staysHot s p.1 } else t.dieAt d := by
  by_cases h : p.1 = 6
  · have hne : d ≠ p.1 := by omega
    rw [grantStep, if_pos h, putGrant_dieAt, if_neg hne]
  · rw [grantStep, if_neg h, dieAt_modDieAt, putGrant_dieAt]

theorem grantCycle_mem (s : State) : (grantCycle s).mem = s.mem := by
  rw [grantCycle_eq, State.tickUp, putGrant_mem, foldl_keeps (·.mem) (grantStep_mem s)]

/-- Each die has one grant. -/
theorem exists_mem_grantsFor (limit : Nat) (demand : Nat → Nat) (hd : d < 6) : ∃ g, (d, g) ∈ grantsFor limit demand := by
  have hmem : d ∈ (grantsFor limit demand).map (·.1) := by
    rw [grantsFor_fst]
    exact List.mem_range.mpr (by omega)
  obtain ⟨p, hp, rfl⟩ := List.mem_map.mp hmem
  exact ⟨p.2, hp⟩

theorem grantsFor_nodup_fst (limit : Nat) (demand : Nat → Nat) : ((grantsFor limit demand).map (·.1)).Nodup := by
  rw [grantsFor_fst]
  exact List.nodup_range

theorem dieAt_grantCycle (hd : d < 6) (hg : (d, g) ∈ grantsFor s.pkg.plimit.toNat (demandW s)) :
    (grantCycle s).dieAt d =
      { s.dieAt d with pending := some (.ofNat 16 (cappedGrant s (d, g))), hot := staysHot s d } := by
  have hnodup := grantsFor_nodup_fst s.pkg.plimit.toNat (demandW s)
  have hcycle : (grantCycle s).dieAt d = ((grantsFor s.pkg.plimit.toNat (demandW s)).foldl (grantStep s) s).dieAt d := by
    rw [grantCycle_eq, dieAt_tickUp, putGrant_dieAt]
  rw [hcycle]
  refine foldl_updates (·.dieAt d) (g := grantStep s)
    (f := fun x => { x with pending := some (.ofNat 16 (cappedGrant s (d, g))), hot := staysHot s d }) hg
    (.of_map _ hnodup) (fun t => ?_) (fun p hp hne t => ?_) s
  · exact (dieAt_grantStep s t (d, g) d hd).trans (if_pos rfl)
  · have hother : d ≠ p.1 := fun h => hne (List.inj_on_of_nodup_map hnodup hp hg h.symm)
    exact (dieAt_grantStep s t p d hd).trans (if_neg hother)

theorem cappedGrant_die (hd : d < 6) : cappedGrant s (d, g) =
    if staysHot s d then min g ((s.dieAt d).grant.toNat * 9 / 10) else g := by
  have hne : d ≠ 6 := by omega
  simp [cappedGrant, hne]

end Cycle

/-! ### A grant reaches its die, or does not (R378, R379) -/

section Delivery

variable {s t : State} {d grant k : Nat}

/-- The cores that run tasks of groups are ordered to half rate, or back from it. -/
def orderRates (half : Bool) (gs : List PlacedGroup) (t : State) : State :=
  gs.foldl (fun t g => g.tasks.foldl (fun t u =>
    if u.place = .running then t.modCoreAt u.core (fun c => { c with halfNext := half || g.overdue }) else t) t) t

theorem orderRates_keeps {β : Type} (p : State → β) (hp : ∀ u c f, p (State.modCoreAt c f u) = p u) (half : Bool)
    (gs : List PlacedGroup) (t : State) : p (orderRates half gs t) = p t := by
  refine foldl_keeps p (fun t g => foldl_keeps p (fun t u => ?_) g.tasks t) gs t
  split
  · exact hp ..
  · rfl

/-- A share is too small for the full estimates of a cluster. -/
def runsHalf (s : State) (d grant k : Nat) : Bool := decide (clusterShare s d grant k < clusterFull s (4 * d + k))

/-- A cluster takes its share of a grant. -/
def takesShare (s : State) (d grant k : Nat) (c : Cluster) : Cluster :=
  { c with grant := .ofNat 32 (clusterShare s d grant k), half := runsHalf s d grant k }

/-- A die controller's work for one cluster. -/
def splitStep (s : State) (d grant : Nat) (t : State) (k : Nat) : State :=
  if s.frozenAt (4 * d + k) then t
  else orderRates (runsHalf s d grant k) (s.clusterAt (4 * d + k)).groups
    (t.modClusterAt (4 * d + k) (takesShare s d grant k))

theorem splitGrant_eq (d grant : Nat) (s : State) : splitGrant d grant s = (List.range 4).foldl (splitStep s d grant) s := rfl

theorem splitStep_keeps {β : Type} (p : State → β) (hc : ∀ u c f, p (State.modCoreAt c f u) = p u)
    (hl : ∀ u l f, p (State.modClusterAt l f u) = p u) (s : State) (d grant : Nat) (t : State) (k : Nat) :
    p (splitStep s d grant t k) = p t := by
  unfold splitStep
  split
  · rfl
  · rw [orderRates_keeps p hc, hl]

theorem splitGrant_dieAt (d grant : Nat) (s : State) (e : Nat) : (splitGrant d grant s).dieAt e = s.dieAt e := by
  rw [splitGrant_eq]
  exact foldl_keeps (·.dieAt e) (splitStep_keeps (·.dieAt e) (fun u c f => dieAt_modCoreAt u c e f)
    (fun u l f => dieAt_modClusterAt u l e f) s d grant) _ s

theorem splitGrant_pkg (d grant : Nat) (s : State) : (splitGrant d grant s).pkg = s.pkg := by
  rw [splitGrant_eq]
  exact foldl_keeps (·.pkg) (splitStep_keeps (·.pkg) modCoreAt_pkg modClusterAt_pkg s d grant) _ s

theorem clusterAt_splitStep (s : State) (d grant : Nat) (t : State) (k l : Nat) : (splitStep s d grant t k).clusterAt l =
    if l = 4 * d + k ∧ s.frozenAt (4 * d + k) = false then takesShare s d grant k (t.clusterAt l) else t.clusterAt l := by
  unfold splitStep
  cases hf : s.frozenAt (4 * d + k) with
  | true => simp
  | false =>
    rw [if_neg Bool.false_ne_true, orderRates_keeps (·.clusterAt l) (fun u c f => clusterAt_modCoreAt u c l f),
      clusterAt_modClusterAt]
    exact if_congr (by simp) rfl rfl

/-- Each cluster of the die that does not stand still takes its share. -/
theorem clusterAt_splitGrant (hk : k < 4) : (splitGrant d grant s).clusterAt (4 * d + k) =
    if s.frozenAt (4 * d + k) then s.clusterAt (4 * d + k) else takesShare s d grant k (s.clusterAt (4 * d + k)) := by
  have hown : ∀ t : State, (splitStep s d grant t k).clusterAt (4 * d + k) =
      if s.frozenAt (4 * d + k) then t.clusterAt (4 * d + k) else takesShare s d grant k (t.clusterAt (4 * d + k)) := by
    intro t
    rw [clusterAt_splitStep]
    cases s.frozenAt (4 * d + k) <;> simp
  rw [splitGrant_eq]
  refine foldl_updates (·.clusterAt (4 * d + k)) (g := splitStep s d grant)
    (f := fun c => if s.frozenAt (4 * d + k) then c else takesShare s d grant k c) (List.mem_range.mpr hk) List.nodup_range
    hown (fun x _ hx t => ?_) s
  rw [clusterAt_splitStep, if_neg]
  rintro ⟨h, -⟩
  omega

/-- The demands of clusters are those of their scoreboards, their groups, and the rates of their cores. -/
theorem clusterShare_congr (hl : ∀ l, t.clusterAt l = s.clusterAt l) (hc : ∀ c, t.coreAt c = s.coreAt c) :
    clusterShare t d grant k = clusterShare s d grant k := by
  have huse : taskUse t = taskUse s := by
    funext g u
    simp only [taskUse, hc]
  have hdemand : clusterDemand t = clusterDemand s := by
    funext l
    rw [clusterDemand, clusterDemand, clusterUse, clusterUse, clusterWaiting, clusterWaiting, hl, huse]
  rw [clusterShare, clusterShare, hdemand]

theorem clusterFull_congr (hl : ∀ l, t.clusterAt l = s.clusterAt l) (l : Nat) : clusterFull t l = clusterFull s l := by
  simp only [clusterFull, hl]

/-- PGRANT shows the grant. -/
theorem showGrant_eq (d grant : Nat) (s : State) :
    ∃ w, showGrant d grant s = putGrant d w s ∧ w.toNat % 2 ^ 16 = grant % 2 ^ 16 := by
  have hword := (spGet 0 s.pkg.pgrant d).isLt
  refine ⟨_, rfl, ?_⟩
  rw [BitVec.toNat_ofNat]
  omega

theorem showGrant_dieAt (d grant e : Nat) (s : State) : (showGrant d grant s).dieAt e = s.dieAt e := by
  obtain ⟨w, h, -⟩ := showGrant_eq d grant s
  rw [h, putGrant_dieAt]

theorem showGrant_clusterAt (d grant l : Nat) (s : State) : (showGrant d grant s).clusterAt l = s.clusterAt l := by
  obtain ⟨w, h, -⟩ := showGrant_eq d grant s
  rw [h]
  rfl

theorem showGrant_coreAt (d grant c : Nat) (s : State) : (showGrant d grant s).coreAt c = s.coreAt c := by
  obtain ⟨w, h, -⟩ := showGrant_eq d grant s
  rw [h]
  rfl

theorem showGrant_pgrant (d grant : Nat) (s : State) :
    (spGet 0 (showGrant d grant s).pkg.pgrant d).toNat % 2 ^ 16 = grant % 2 ^ 16 := by
  obtain ⟨w, h, hw⟩ := showGrant_eq d grant s
  rw [h, putGrant, State.modPkg_pkg, spGet_put_self, hw]

/-- The die holds a grant that has reached it. -/
def delivered (d : Nat) (g : BitVec 16) (s : State) : State :=
  showGrant d g.toNat (s.modDieAt d (fun x => { x with grant := g, pending := none, missed := 0 }))

theorem deliverGrant_of_pending {g : BitVec 16} (hd : d < 6) (hg : (s.dieAt d).pending = some g) :
    deliverGrant d s = splitGrant d g.toNat (delivered d g s) := by
  rw [deliverGrant, if_neg (by omega), hg]
  rfl

theorem delivered_clusterAt (d : Nat) (g : BitVec 16) (s : State) (l : Nat) : (delivered d g s).clusterAt l = s.clusterAt l :=
  (showGrant_clusterAt ..).trans (clusterAt_modDieAt ..)

theorem delivered_coreAt (d : Nat) (g : BitVec 16) (s : State) (c : Nat) : (delivered d g s).coreAt c = s.coreAt c :=
  (showGrant_coreAt ..).trans (coreAt_modDieAt ..)

theorem delivered_dieAt (d : Nat) (g : BitVec 16) (s : State) (e : Nat) : (delivered d g s).dieAt e =
    if e = d then { s.dieAt e with grant := g, pending := none, missed := 0 } else s.dieAt e :=
  (showGrant_dieAt ..).trans (dieAt_modDieAt ..)

theorem delivered_frozenAt (d : Nat) (g : BitVec 16) (s : State) (l : Nat) : (delivered d g s).frozenAt l = s.frozenAt l := by
  rw [State.frozenAt, State.frozenAt, delivered_clusterAt, delivered_dieAt]
  split <;> rfl

theorem takesShare_delivered (d : Nat) (g : BitVec 16) (s : State) (k : Nat) :
    takesShare (delivered d g s) d g.toNat k = takesShare s d g.toNat k := by
  unfold takesShare runsHalf
  rw [clusterShare_congr (delivered_clusterAt d g s) (delivered_coreAt d g s), clusterFull_congr (delivered_clusterAt d g s)]

theorem missGrant_dieAt (hd : d < 6) : ((missGrant d s).dieAt d).missed = (s.dieAt d).missed + 1
    ∧ ((missGrant d s).dieAt d).grant = if (s.dieAt d).missed = 0 then (s.dieAt d).grant else 224 := by
  rw [missGrant, if_neg (by omega)]
  dsimp only
  by_cases hm : (s.dieAt d).missed = 0
  · rw [if_neg (by omega), if_pos hm, dieAt_modDieAt, if_pos rfl]
    exact ⟨rfl, rfl⟩
  · rw [if_pos (by omega), if_neg hm, splitGrant_dieAt, showGrant_dieAt, dieAt_modDieAt, if_pos rfl, dieAt_modDieAt, if_pos rfl]
    exact ⟨rfl, rfl⟩

end Delivery

end Sys2Proof.Machine

/-! ## Links and the timebase (19_fabric.md R394 to R396, R408) -/

namespace Sys2Proof.Machine

/-! ### Flits and their CRC (R395) -/

namespace Flit

variable (f : Flit)

theorem header_lt : f.header < 2 ^ 64 := by
  have hseq := f.seq.isLt
  have hack := f.ack.isLt
  have htc := f.tc.isLt
  have hroute := f.route.isLt
  unfold header
  split <;> omega

theorem body_lt : f.body < 2 ^ 1984 := by
  have hheader := f.header_lt
  have hpayload := f.payload.isLt
  unfold body
  omega

/-- The number of a flit is in its lowest bits. -/
theorem header_mod : f.header % 2 ^ 12 = f.seq.toNat := by
  have hseq := f.seq.isLt
  unfold header
  split <;> omega

/-- 256 bytes with the body of a flit bear its number. -/
theorem seq_flitOf_body (k : Nat) : (flitOf (f.body + 2 ^ 1984 * k)).seq = f.seq := by
  refine BitVec.eq_of_toNat_eq ?_
  have hmod := f.header_mod
  rw [flitOf, BitVec.toNat_ofNat, body]
  omega

/-- A number below a modulus, and what stands above it, are read back. -/
theorem mod_div_of_lt {m b : Nat} (h : b < m) (x : Nat) : (b + m * x) % m = b ∧ (b + m * x) / m = x := by
  rw [Nat.add_mul_mod_self_left, Nat.mod_eq_of_lt h, Nat.add_mul_div_left _ _ (Nat.zero_lt_of_lt h), Nat.div_eq_of_lt h,
    Nat.zero_add]
  exact ⟨rfl, rfl⟩

/-- They pass the check when the CRC of the body stands in them. -/
theorem flitChecks_body (x : BitVec 64) : flitChecks (f.body + 2 ^ 1984 * x.toNat) = (crc64 248 f.body == x) := by
  obtain ⟨hlow, hhigh⟩ := mod_div_of_lt f.body_lt x.toNat
  rw [flitChecks, hlow, hhigh, BitVec.ofNat_toNat, BitVec.setWidth_eq]

end Flit

/-- A bit turned over shows. -/
theorem xor_one_ne (x : BitVec 64) : x ≠ x ^^^ 1 := by
  intro h
  have hbit := congrArg (BitVec.getLsbD · 0) h
  simp at hbit

theorem flitChecks_arriving (seq : BitVec 12) (whole : Bool) (tick : Nat) : flitChecks (arriving seq whole tick) = whole := by
  cases whole with
  | true => exact (Flit.flitChecks_body ..).trans (beq_self_eq_true _)
  | false => exact (Flit.flitChecks_body ..).trans (beq_false_of_ne (xor_one_ne _))

theorem seq_flitOf_arriving (seq : BitVec 12) (whole : Bool) (tick : Nat) : (flitOf (arriving seq whole tick)).seq = seq := by
  cases whole <;> exact Flit.seq_flitOf_body ..

/-! ### Ports (R396) -/

namespace Port

variable (p : Port)

theorem settleReplays_eq : ∃ n, p.settleReplays = { p with replays := n } := by
  unfold settleReplays
  split <;> exact ⟨_, rfl⟩

theorem settleReplays_next : p.settleReplays.next = p.next := by
  obtain ⟨n, h⟩ := p.settleReplays_eq
  rw [h]

theorem settleReplays_held : p.settleReplays.held = p.held := by
  obtain ⟨n, h⟩ := p.settleReplays_eq
  rw [h]

theorem settleReplays_expected : p.settleReplays.expected = p.expected := by
  obtain ⟨n, h⟩ := p.settleReplays_eq
  rw [h]

theorem settleReplays_dropping : p.settleReplays.dropping = p.dropping := by
  obtain ⟨n, h⟩ := p.settleReplays_eq
  rw [h]

theorem acknowledge_eq (seq : BitVec 12) (itself : Bool) :
    ∃ m n, p.acknowledge seq itself = { p with acked := m, replays := n } := by
  unfold acknowledge
  split
  · next i _ =>
    obtain ⟨n, hn⟩ := settleReplays_eq { p with acked := max p.acked (if itself then i + 1 else i) }
    exact ⟨_, n, hn⟩
  · exact ⟨_, _, rfl⟩

/-- A flit sent stands under the next number; what the port expects, and whether it drops, stays. -/
theorem sendFree_sent (h : p.isUp = true) (tc : BitVec 3) (tick : Nat) :
    FlitSent p (p.sendFree tc tick) (p.refused.getD (p.expected - 1)) p.refused.isSome
      ∧ (p.sendFree tc tick).expected = p.expected ∧ (p.sendFree tc tick).dropping = p.dropping := by
  rw [sendFree, if_pos h]
  simp only [send, FlitSent, settleReplays_next, settleReplays_held, settleReplays_expected, settleReplays_dropping]
  exact ⟨⟨trivial, _, rfl, rfl, rfl, rfl⟩, trivial, trivial⟩

variable {p} {seq : BitVec 12} {tick : Nat}

/-- The flit in order is delivered and acknowledged. -/
theorem receive_expected (h : p.isUp = true) (hs : seq = p.expected) : ∃ r, p.receive (arriving seq true tick) (tick + 4) = r
    ∧ r.expected = p.expected + 1 ∧ r.dropping = false ∧ FlitSent p r (p.refused.getD p.expected) p.refused.isSome := by
  obtain ⟨m, n, hack⟩ := acknowledge_eq { p with expected := p.expected + 1, dropping := false }
    (flitOf (arriving seq true tick)).ack (!(flitOf (arriving seq true tick)).nak)
  refine ⟨_, rfl, ?_⟩
  rw [receive, if_neg (by rw [h]; decide), if_neg (by rw [flitChecks_arriving]; decide),
    if_pos ((seq_flitOf_arriving ..).trans hs)]
  dsimp only
  rw [hack]
  obtain ⟨hsent, hexpected, hdropping⟩ := sendFree_sent
    { p with expected := p.expected + 1, dropping := false, acked := m, replays := n } h 0 (tick + 4)
  have hlast : p.expected + 1 - 1 = p.expected := by bv_omega
  rw [hlast] at hsent
  exact ⟨hexpected, hdropping, hsent⟩

/-- A flit out of order is dropped. -/
theorem receive_unexpected (h : p.isUp = true) (hs : seq ≠ p.expected) (t : Nat) : p.receive (arriving seq true tick) t = p := by
  rw [receive, if_neg (by rw [h]; decide), if_neg (by rw [flitChecks_arriving]; decide),
    if_neg fun he => hs ((seq_flitOf_arriving ..).symm.trans he)]

/-- So is a damaged one while a refusal stands, unless it is the one refused. -/
theorem receive_damaged_dropped (h : p.isUp = true) (hd : p.dropping = true) (hs : seq ≠ p.expected) (t : Nat) :
    p.receive (arriving seq false tick) t = p := by
  rw [receive, if_neg (by rw [h]; decide), if_pos (flitChecks_arriving ..), seq_flitOf_arriving, if_pos ⟨hd, hs⟩]

/-- A damaged flit is refused, and those after it are dropped. -/
theorem receive_damaged (h : p.isUp = true) (hs : p.dropping = false ∨ seq = p.expected) :
    ∃ r, p.receive (arriving seq false tick) (tick + 4) = r
      ∧ r.expected = p.expected ∧ r.dropping = true ∧ FlitSent p r p.expected true := by
  have hrefuse : ¬(p.dropping = true ∧ seq ≠ p.expected) := by
    rintro ⟨hd, hne⟩
    exact hs.elim (fun h => Bool.false_ne_true (h.symm.trans hd)) hne
  refine ⟨_, rfl, ?_⟩
  rw [receive, if_neg (by rw [h]; decide), if_pos (flitChecks_arriving ..), seq_flitOf_arriving, if_neg hrefuse]
  obtain ⟨hsent, hexpected, hdropping⟩ := sendFree_sent { p with dropping := true, refused := some p.expected } h 0 (tick + 4)
  exact ⟨hexpected, hdropping, hsent⟩

/-- A NAK of a flit that is not held changes nothing. -/
theorem nak_of_not_held (h : p.heldFrom seq = []) : p.nak seq = p := if_pos (.inr h)

/-- A NAK has the flits held from the one named sent again. -/
theorem nak_replay (h : p.isUp = true) (hh : p.heldFrom seq ≠ []) :
    (p.nak seq).replay.toNat = min (2 ^ 32 - 1) (p.replay.toNat + (p.heldFrom seq).length) := by
  obtain ⟨m, n, hack⟩ := acknowledge_eq p seq false
  rw [nak, if_neg (by simp [h, hh]), hack]
  dsimp only [count]
  rw [BitVec.toNat_ofNat]
  omega

theorem heldFrom_length_le (p : Port) (seq : BitVec 12) : (p.heldFrom seq).length ≤ p.held.length :=
  (List.dropWhile_sublist _).length_le

/-- A port in training comes up at 8 lanes or at 4, or is down. -/
theorem endTraining_cases (tick n : Nat) (p : Port) :
    (p.endTraining tick n).state = 2 ∧ (p.endTraining tick n).width = 8
      ∨ (p.endTraining tick n).state = 3 ∧ (p.endTraining tick n).width = 4
      ∨ (p.endTraining tick n).state = 0 ∧ (p.endTraining tick n).width = 0 := by
  unfold endTraining trainPort
  dsimp only
  split
  · exact .inl ⟨rfl, rfl⟩
  · exact .inr (.inl ⟨rfl, rfl⟩)
  · exact .inr (.inr ⟨rfl, rfl⟩)

end Port

/-! ### The ports of a package -/

section Ports

variable {s : State} {n k : Nat}

/-- A port read after a write. -/
theorem port_modPort (hn : n < 18) (f : Port → Port) (s : State) :
    (modPort n f s).port k = if k = n then f (s.port n) else s.port k := by
  rw [modPort, if_pos hn]
  exact poolGet_poolSet ..

theorem port_modPort_self (hn : n < 18) (f : Port → Port) (s : State) : (modPort n f s).port n = f (s.port n) :=
  (port_modPort hn f s).trans (if_pos rfl)

/-- A port whose traffic takes another path keeps its state and its width. -/
theorem movesTraffic_port (hn : n < 18) (s : State) : ((movesTraffic n s).port n).state = (s.port n).state
    ∧ ((movesTraffic n s).port n).width = (s.port n).width := by
  unfold movesTraffic
  dsimp only
  split
  · next k hk =>
    have hpath := List.find?_some hk
    have hrange := List.mem_range.mp (List.mem_of_find?_eq_some hk)
    have hne : n ≠ k := by
      rintro rfl
      simp at hpath
    rw [port_modPort hrange, if_neg hne, port_modPort_self hn]
    exact ⟨rfl, rfl⟩
  · exact ⟨rfl, rfl⟩

theorem portDown_port (hn : n < 18) (s : State) : ((portDown n s).port n).state = 0 ∧ ((portDown n s).port n).width = 0 := by
  obtain ⟨hstate, hwidth⟩ := movesTraffic_port hn
    (modPort n (fun p => { p with state := 0, width := 0, dropping := false, replays := 0, refused := none }) s)
  rw [port_modPort_self hn] at hstate hwidth
  exact ⟨hstate, hwidth⟩

theorem state_ne_one_of_trains {p : Port} (h : p.trains = true) : p.state ≠ 1 := by
  intro he
  rw [Port.trains, Port.isUp, he] at h
  exact absurd h (by simp)

theorem execPortRetrain_of_trains (hn : n < 18) (h : (s.port n).trains = true) :
    ∃ t, execPortRetrain n s = .next t ∧ (t.port n).state = 1 ∧ (t.port n).width = 0 := by
  refine ⟨_, if_neg (state_ne_one_of_trains h), ?_⟩
  rw [port_modPort_self hn, if_pos h]
  exact ⟨rfl, rfl⟩

theorem execPortRetrain_of_training (hn : n < 18) (h : (s.port n).state = 1) : ∃ t, execPortRetrain n s = .next t
    ∧ ((t.port n).state = 2 ∧ (t.port n).width = 8 ∨ (t.port n).state = 3 ∧ (t.port n).width = 4
      ∨ (t.port n).state = 0 ∧ (t.port n).width = 0) := by
  refine ⟨_, if_pos h, ?_⟩
  dsimp only
  split
  · show _
    have hport : ({ modPort n (Port.endTraining s.tick n) s with tick := s.tick + n + 1 } : State).port n
        = (s.port n).endTraining s.tick n := port_modPort_self hn ..
    rw [hport]
    exact Port.endTraining_cases ..
  · exact .inr (.inr (portDown_port hn _))

end Ports

/-! ### Time messages (R408) -/

section Time

variable {s : State} {v : BitVec 64}

theorem execTimeMessage_of_follower (hm : s.fab.master = false) (hv : v.toNat / 2 ^ 32 = 1) : ∃ t, execTimeMessage v s = .next t
    ∧ t.fab.ofs = v.setWidth 32 ∧ -100 ≤ t.fab.rate ∧ t.fab.rate ≤ 100 := by
  have hfab : (sendTime s).fab.master = false := hm
  refine ⟨_, rfl, ?_⟩
  simp only [State.modFab, State.tickUp, hv, hm, hfab, Bool.false_eq_true, if_false, Nat.add_zero, if_true]
  refine ⟨trivial, ?_, ?_⟩ <;> omega

theorem execTimeMessage_of_master (hm : s.fab.master = true) (hv : v.toNat / 2 ^ 32 = 0) : ∃ t, execTimeMessage v s = .next t
    ∧ t.fab.ofs = 0 ∧ t.fab.rate = 0 := by
  have hfab : (sendTime s).fab.master = true := hm
  refine ⟨_, rfl, ?_⟩
  simp only [State.modFab, State.tickUp, hv, hm, hfab, if_true, Nat.zero_add, and_self]

end Time

end Sys2Proof.Machine

/-! ## What power, scrubbing and link events do (O60) -/

namespace Sys2Proof.Machine

section PowerAndLinks

variable {s : State} {d k : Nat}

theorem execGrantCycle_grants (hd : d < 6) (hf : s.pkg.frozen = false) (hu : s.pkg.unpowered = false) :
    ∃ t g, execGrantCycle s = .next t ∧ (d, g) ∈ grantsFor s.pkg.plimit.toNat (demandW s) ∧ t.mem = s.mem
      ∧ (t.dieAt d).hot = staysHot s d ∧ (t.dieAt d).pending = some (.ofNat 16 (if staysHot s d
        then min g ((s.dieAt d).grant.toNat * 9 / 10) else g)) := by
  obtain ⟨g, hg⟩ := exists_mem_grantsFor s.pkg.plimit.toNat (demandW s) hd
  refine ⟨grantCycle s, g, ?_, hg, grantCycle_mem s, ?_⟩
  · rw [execGrantCycle, hf, hu]
    rfl
  · rw [dieAt_grantCycle hd hg, cappedGrant_die hd]
    exact ⟨rfl, rfl⟩

theorem deliverGrant_dieAt {g : BitVec 16} (hd : d < 6) (hg : (s.dieAt d).pending = some g) :
    (deliverGrant d s).dieAt d = { s.dieAt d with grant := g, pending := none, missed := 0 } := by
  rw [deliverGrant_of_pending hd hg, splitGrant_dieAt, delivered_dieAt, if_pos rfl]

theorem deliverGrant_pgrant {g : BitVec 16} (hd : d < 6) (hg : (s.dieAt d).pending = some g) :
    (spGet 0 (deliverGrant d s).pkg.pgrant d).toNat % 2 ^ 16 = g.toNat := by
  rw [deliverGrant_of_pending hd hg, splitGrant_pkg, delivered, showGrant_pgrant, Nat.mod_eq_of_lt g.isLt]

theorem deliverGrant_clusterAt {g : BitVec 16} (hd : d < 6) (hg : (s.dieAt d).pending = some g) (hk : k < 4) :
    (deliverGrant d s).clusterAt (4 * d + k) = if s.frozenAt (4 * d + k) then s.clusterAt (4 * d + k)
      else takesShare s d g.toNat k (s.clusterAt (4 * d + k)) := by
  rw [deliverGrant_of_pending hd hg, clusterAt_splitGrant hk, delivered_frozenAt, delivered_clusterAt, takesShare_delivered]

theorem execThermalThrottle_hot (hd : d < 6) : ∃ t, execThermalThrottle d s = .next t ∧ (t.dieAt d).hot = true := by
  refine ⟨_, rfl, ?_⟩
  rw [if_pos hd, dieAt_modDieAt, if_pos rfl]

theorem execDieStoreScrub_corrected (hd : d < 6) :
    ∃ t, execDieStoreScrub d s = .next t ∧ (t.dieAt d).corrected = [] ∧ t.mem = s.mem := by
  refine ⟨_, rfl, ?_⟩
  rw [if_pos hd, modDieAt_mem, dieAt_modDieAt, if_pos rfl]
  exact ⟨rfl, rfl⟩

variable {p : Nat}

/-- What arrives reaches its port alone. -/
theorem execFlitReceive_port (hp : p < 18) (n : BitVec 16) (whole : Bool) : ∃ t, execFlitReceive p n whole s = .next t
    ∧ t.port p = (s.port p).receive (arriving (n.setWidth 12) whole s.tick) (s.tick + 4) :=
  ⟨_, rfl, port_modPort_self hp ..⟩

/-- A whole flit is taken in order, and dropped out of it. -/
theorem execFlitReceive_whole (hp : p < 18) (hup : (s.port p).isUp = true) (n : BitVec 16) :
    ∃ t, execFlitReceive p n true s = .next t ∧ (n.setWidth 12 ≠ (s.port p).expected → t.port p = s.port p)
      ∧ (n.setWidth 12 = (s.port p).expected → (t.port p).expected = (s.port p).expected + 1 ∧ (t.port p).dropping = false
        ∧ FlitSent (s.port p) (t.port p) ((s.port p).refused.getD (s.port p).expected) (s.port p).refused.isSome) := by
  obtain ⟨t, ht, hport⟩ := execFlitReceive_port (s := s) hp n true
  refine ⟨t, ht, fun hs => hport.trans (Port.receive_unexpected hup hs _), fun hs => ?_⟩
  obtain ⟨r, hr, hkept⟩ := Port.receive_expected (tick := s.tick) hup hs
  rw [hport, hr]
  exact hkept

/-- A damaged flit is refused, unless one before it has been. -/
theorem execFlitReceive_damaged (hp : p < 18) (hup : (s.port p).isUp = true) (n : BitVec 16) :
    ∃ t, execFlitReceive p n false s = .next t ∧ (t.port p).expected = (s.port p).expected
      ∧ ((s.port p).dropping = true → n.setWidth 12 ≠ (s.port p).expected → t.port p = s.port p)
      ∧ ((s.port p).dropping = false ∨ n.setWidth 12 = (s.port p).expected →
        (t.port p).dropping = true ∧ FlitSent (s.port p) (t.port p) (s.port p).expected true) := by
  obtain ⟨t, ht, hport⟩ := execFlitReceive_port (s := s) hp n false
  refine ⟨t, ht, ?_⟩
  by_cases hrefuse : (s.port p).dropping = false ∨ n.setWidth 12 = (s.port p).expected
  · obtain ⟨r, hr, hexpected, hrefused⟩ := Port.receive_damaged (tick := s.tick) hup hrefuse
    rw [hport, hr]
    refine ⟨hexpected, fun hd hs => ?_, fun _ => hrefused⟩
    exact absurd hrefuse (not_or.mpr ⟨by simp [hd], hs⟩)
  · obtain ⟨hd, hs⟩ := not_or.mp hrefuse
    have hkept := hport.trans (Port.receive_damaged_dropped hup (Bool.of_not_eq_false hd) hs _)
    exact ⟨congrArg Port.expected hkept, fun _ _ => hkept, fun h => absurd h hrefuse⟩

/-- A NAK has the flits held from the one named sent again, and changes nothing when there are none. -/
theorem execNakReplay_port (hp : p < 18) (hup : (s.port p).isUp = true) (n : BitVec 16) : ∃ t, execNakReplay p n s = .next t
    ∧ ((s.port p).heldFrom (n.setWidth 12) = [] → t.port p = s.port p)
    ∧ ((s.port p).heldFrom (n.setWidth 12) ≠ [] → (s.port p).held.length ≤ 512 →
      1 ≤ ((s.port p).heldFrom (n.setWidth 12)).length ∧ ((s.port p).heldFrom (n.setWidth 12)).length ≤ 512
      ∧ (t.port p).replay.toNat = min (2 ^ 32 - 1) ((s.port p).replay.toNat + ((s.port p).heldFrom (n.setWidth 12)).length)) := by
  refine ⟨_, rfl, ?_⟩
  rw [port_modPort_self hp]
  exact ⟨Port.nak_of_not_held, fun hh hl =>
    ⟨List.length_pos_of_ne_nil hh, (Port.heldFrom_length_le ..).trans hl, Port.nak_replay hup hh⟩⟩

/-- A grant that reaches its die is in force, is shown, and is shared out. -/
theorem execGrantDelivery_of_pending {g : BitVec 16} (hd : d < 6) (hg : (s.dieAt d).pending = some g) :
    ∃ t, execGrantDelivery d s = .next t ∧ (t.dieAt d).grant = g ∧ (t.dieAt d).pending = none ∧ (t.dieAt d).missed = 0
      ∧ (spGet 0 t.pkg.pgrant d).toNat % 2 ^ 16 = g.toNat
      ∧ ∀ k, k < 4 → if s.frozenAt (4 * d + k) then t.clusterAt (4 * d + k) = s.clusterAt (4 * d + k)
        else t.clusterAt (4 * d + k) = takesShare s d g.toNat k (s.clusterAt (4 * d + k)) := by
  refine ⟨_, rfl, ?_⟩
  rw [deliverGrant_dieAt hd hg]
  refine ⟨rfl, rfl, rfl, deliverGrant_pgrant hd hg, fun k hk => ?_⟩
  rw [deliverGrant_clusterAt hd hg hk]
  split <;> rfl

end PowerAndLinks

/-- Settles O60: the grants of a cycle by their sums, each event by the lemma on what it writes. -/
theorem powerAndLinkEvents : Obligations.PowerAndLinkEvents := by
  unfold Obligations.PowerAndLinkEvents
  refine ⟨fun limit demand hlimit => ⟨fun p hp => floorW_le_of_mem_grantsFor hp, watts_grantsFor_le hlimit⟩,
    fun s d hd => ⟨execGrantCycle_grants hd, fun g hg => execGrantDelivery_of_pending hd hg, ⟨_, rfl, missGrant_dieAt hd⟩,
      execThermalThrottle_hot hd, execDieStoreScrub_corrected hd⟩,
    fun s p n v => ⟨rfl, rfl, fun hp => ⟨fun hup => ?_, execPortRetrain_of_trains hp, execPortRetrain_of_training hp,
      ⟨_, rfl, portDown_port hp s⟩⟩, execTimeMessage_of_follower, execTimeMessage_of_master⟩⟩
  exact ⟨execFlitReceive_whole hp hup n, execFlitReceive_damaged hp hup n, execNakReplay_port hp hup n⟩

end Sys2Proof.Machine
